-- ==== Sys2Proof/Word.lean ====
section
/-! DEFINITION. The word types of the device: the scalar register, the 32-bit word and the byte, and the bit field of a
natural number that the manual writes x[hi:lo] (00 R8, R11). -/
namespace Sys2Proof

/-- A scalar register, an address or a 64-bit memory word (01 R13). -/
abbrev Word := BitVec 64
/-- An instruction word, a queue entry or an FP32 value (02 R46, 17 R353). -/
abbrev W32 := BitVec 32
/-- One byte of memory (00 R8). -/
abbrev Byte := BitVec 8

/-- Bits [lo+w-1:lo] of a natural number (00 R8, R11). -/
def bits (x lo w : Nat) : Nat := (x >>> lo) % 2 ^ w

/-- `x` with bits [lo+w-1:lo] replaced by the low `w` bits of `y` (00 R11: a value stored into a field of stated width
keeps its low bits). -/
def setBits (x lo w y : Nat) : Nat :=
  x % 2 ^ lo + (y % 2 ^ w) * 2 ^ lo + (x / 2 ^ (lo + w)) * 2 ^ (lo + w)

/-- Bit `i` of a natural number as a truth value. -/
def bitOf (x i : Nat) : Bool := x.testBit i

/-- Bit `i` set to `b`. -/
def setBit (x i : Nat) (b : Bool) : Nat := setBits x i 1 b.toNat

/-- The two's complement reading of a `w`-bit natural number (04 R100, "s"). -/
def toS (w x : Nat) : Int := if x % 2 ^ w < 2 ^ (w - 1) then (x % 2 ^ w : Nat) else (x % 2 ^ w : Nat) - (2 ^ w : Nat)

/-- The `w`-bit pattern of an integer, modulo 2^w (03 R74). -/
def ofS (w : Nat) (x : Int) : Nat := (x % (2 ^ w : Nat)).toNat

end Sys2Proof
end

