-- ==== Sys2Proof/Kinds.lean ====
section
/-! DEFINITION. The operand kinds of the device steps that have no instruction word: where a management request comes
from, which unit an error names, which link a power event names. -/
namespace Sys2Proof

/-- The source of a management request (20 R427, R428): an MREQ of a virtual interface, or an authenticated frame on the
management port with its `SEQ`, its payload before the tag, and the 128-bit tag. -/
inductive MgmtSrc where
  | link (vi : BitVec 6) (tag : BitVec 16)
  | port (seq : BitVec 32) (payload : List Byte) (mac : BitVec 128)
  deriving DecidableEq, Repr

/-- A unit that corrected errors may withdraw (19 R406). Cores are physical cores 9c+p of 19 R410. -/
inductive UnitRef where
  | laneGroup (phys lg : Nat)
  | matrixUnit (unit : Nat)
  | core (phys : Nat)
  | tileBank (phys bank : Nat)
  | hbmChannel (stack channel : Nat)
  | laneLink (phys dir : Nat)
  | dieLink (boundary : Nat)
  | peerPort (port : Nat)
  deriving DecidableEq, Repr

/-- Where an uncorrectable error was found (19 R407, 20 R434): a piece of device memory or of tile memory, which is
poisoned, or state without poison, which posts UNCORR of the class named. -/
inductive LostState where
  | devicePiece (piece : Nat)
  | tilePiece (group core piece : Nat)
  | scalarRegs (h : Nat)
  | vectorRegs (h : Nat)
  | queueEntries (core queue : Nat)
  | accumulators (unit : Nat)
  | codeLines (cluster : Nat)
  | latticeEntries (h : Nat)
  | contextMove (h : Nat)
  deriving DecidableEq, Repr

/-- A link with a power state (20 R426): the lane link of a presented core in a direction (0 east, 1 west, 2 north,
3 south), a die boundary, or a peer port. -/
inductive LinkRef where
  | lane (core dir : Nat)
  | die (boundary : Nat)
  | peer (port : Nat)
  deriving DecidableEq, Repr

/-- A cap register (20 R433). -/
inductive CapReg where
  | mcap
  | pcap (part : Nat)
  | pthr (part : Nat)
  deriving DecidableEq, Repr

/-- The fields of a launch environment (15 R327). -/
structure Env where
  root : Word := 0
  rtAddr : Word := 0
  rtLen : Nat := 0
  svOff : Nat := 0
  fvOff : Nat := 0
  fb : Word := 0
  stk : Word := 0
  stkSz : Nat := 0
  deriving DecidableEq, Repr

end Sys2Proof
end

