-- ==== Sys2Proof/Syntax.lean ====
section
/-! DEFINITION. The instructions and device steps of the table of operations: one constructor for each of its 354 rows.
A row with a word carries the fields of its encoding under the names of spec/opcode_table.json, low bits first, the C bit
last; a device step carries what names its agent. The rows without a word stand first, then those that chain frames and convoys
hold: Lean generates no code that builds a constructor with fields past the 245th, and the machine itself issues device steps and
reads frames. -/
namespace Sys2Proof

/-- One constructor per row of spec/opcode_table.json; each docstring names the row and its rule. -/
inductive Instr where
  /-- FMASK_CLEAR (R25). -/
  | fmaskClear (d a : BitVec 5)
  /-- SRSEED_WRITE (R90). -/
  | srseedWrite (d a : BitVec 5)
  /-- UNDEFINED_INSTRUCTION (R56). -/
  | undefinedInstruction (w : BitVec 32)
  /-- CONVOY_RETIRE (R254). -/
  | convoyRetire (h : Nat)
  /-- TAKE_ASYNC_CAUSE (R377). -/
  | takeAsyncCause (h : Nat)
  /-- RMGRACE_EXPIRE (R416). -/
  | rmgraceExpire (h : Nat)
  /-- VWAIT_WAKE (R190). -/
  | vwaitWake (h : Nat)
  /-- SETVLW_WAKE (R140). -/
  | setvlwWake (h : Nat)
  /-- RWAIT_WAKE (R224). -/
  | rwaitWake (h : Nat)
  /-- SWM_WAKE (R219). -/
  | swmWake (h : Nat)
  /-- SDRAIN_WAKE (R219). -/
  | sdrainWake (h : Nat)
  /-- QWR_WAKE (R229). -/
  | qwrWake (h : Nat)
  /-- QRD_WAKE (R229). -/
  | qrdWake (h : Nat)
  /-- CHWAIT_WAKE (R228). -/
  | chwaitWake (h : Nat)
  /-- TLBSYNC_WAKE (R129). -/
  | tlbsyncWake (h : Nat)
  /-- CHCFG_CLAIM_WAKE (R68). -/
  | chcfgClaimWake (h : Nat)
  /-- TRANSFER_SLOT_WAKE (R217). -/
  | transferSlotWake (h : Nat)
  /-- RUN_WAIT_WAKE (R227). -/
  | runWaitWake (h : Nat)
  /-- STRIP_COMPLETE (R293). -/
  | stripComplete (core ch : Nat)
  /-- STREAM_RETRANSLATION (R295). -/
  | streamRetranslation (core ch : Nat)
  /-- TLBINV_COMPLETE (R309). -/
  | tlbinvComplete (h : Nat)
  /-- CHAIN_NODE_ELEMENT (R354). -/
  | chainNodeElement (h slot frame : Nat)
  /-- SWITCH_ENTRY_MOVE (R355). -/
  | switchEntryMove (h slot frame : Nat)
  /-- RUN_COMPLETE (R356). -/
  | runComplete (h slot : Nat)
  /-- CHAIN_DRAIN_COMPLETE (R399). -/
  | chainDrainComplete (h slot : Nat)
  /-- CHAIN_FINISH (R401). -/
  | chainFinish (h : Nat)
  /-- GROUP_START (R334). -/
  | groupStart (group : Nat)
  /-- THREAD_END (R214). -/
  | threadEnd (h : Nat)
  /-- THREAD_TERMINATION (R345). -/
  | threadTermination (h : Nat)
  /-- LAUNCH_COMPLETION (R330). -/
  | launchCompletion (launch : Nat)
  /-- DISPATCH_STEP (R329). -/
  | dispatchStep (part : Nat)
  /-- IMAGE_SELECTION (R331). -/
  | imageSelection (part queue : Nat)
  /-- MIGRATION_DEVICE_REQUEST (R312). -/
  | migrationDeviceRequest (h : Nat)
  /-- MIGRATION_SWITCH (R314). -/
  | migrationSwitch (leaf : Nat)
  /-- MIGRATION_INVALIDATION_COMPLETE (R314). -/
  | migrationInvalidationComplete (leaf : Nat)
  /-- MIGRATION_HOLD_EXPIRE (R315). -/
  | migrationHoldExpire (leaf : Nat)
  /-- REDUCTION_TOKEN (R367). -/
  | reductionToken (node : Nat)
  /-- REDUCTION_NODE_FAIL (R368). -/
  | reductionNodeFail (node : Nat)
  /-- KSL_FLIT_RECEIVE (R418). -/
  | kslFlitReceive (port : Nat) (flit : Nat)
  /-- KSL_RETRY_REQUEST (R418). -/
  | kslRetryRequest (port : Nat) (seq : BitVec 16)
  /-- KSL_LINK_DOWN (R418). -/
  | kslLinkDown (port : Nat)
  /-- HWR (R423). -/
  | hwr (vi : Nat) (tag : BitVec 16) (addr : Word) (data : List Byte)
  /-- HRD (R423). -/
  | hrd (vi : Nat) (tag : BitVec 16) (addr : Word) (len : Nat)
  /-- CPL (R420). -/
  | cpl (tag : BitVec 16) (stat : BitVec 8) (data : List Byte)
  /-- LMSG (R326). -/
  | lmsg (vi : Nat) (tag : BitVec 16) (addr : Word)
  /-- MIGREQ (R312). -/
  | migreq (vi : Nat) (tag : BitVec 16) (addr : Word)
  /-- RTOK (R367). -/
  | rtok (port : Nat) (tag : BitVec 16) (failed : Bool) (data : List Byte)
  /-- MGMT_PARTITION (R424). -/
  | mgmtPartition (src : MgmtSrc) (part : Nat) (clusters vis : List Nat) (feat : BitVec 6)
  /-- MGMT_QUEUE_CONFIGURATION (R325). -/
  | mgmtQueueConfiguration (src : MgmtSrc) (part queue : Nat) (entry : Word)
  /-- MGMT_WINDOW (R423). -/
  | mgmtWindow (src : MgmtSrc) (vi win : Nat) (hostBase len vbase : Word) (asid : BitVec 16)
  /-- MGMT_PREEMPT (R388). -/
  | mgmtPreempt (src : MgmtSrc) (core thr : Nat)
  /-- MGMT_SWAP (R397). -/
  | mgmtSwap (src : MgmtSrc) (group : Nat) (restoreTo : Option Nat)
  /-- MGMT_ARM_NODE (R365). -/
  | mgmtArmNode (src : MgmtSrc) (node : Nat) (desc : Word)
  /-- MGMT_HOLD (R315). -/
  | mgmtHold (src : MgmtSrc) (nanos : Nat)
  /-- MGMT_THRESHOLD (R406). -/
  | mgmtThreshold (src : MgmtSrc) (count : Nat)
  /-- MGMT_CAP (R433). -/
  | mgmtCap (src : MgmtSrc) (reg : CapReg) (write : Option Word)
  /-- MGMT_POOL (R312). -/
  | mgmtPool (src : MgmtSrc) (add : Bool) (frame : Nat)
  /-- MGMT_ATTEST (R440). -/
  | mgmtAttest (src : MgmtSrc) (nonce : List Byte)
  /-- MGMT_STATUS (R429). -/
  | mgmtStatus (src : MgmtSrc)
  /-- MGMT_LAUNCH_ENVIRONMENT (R327). -/
  | mgmtLaunchEnvironment (src : MgmtSrc) (vi : Nat) (env : Env)
  /-- CAP_FRAME (R432). -/
  | capFrame (payload : List Byte)
  /-- POWER_ESTIMATE (R430). -/
  | powerEstimate
  /-- THROTTLE_RELEASE (R431). -/
  | throttleRelease
  /-- THERMAL_ALARM (R431). -/
  | thermalAlarm (die : Nat)
  /-- CURRENT_ALARM (R431). -/
  | currentAlarm (part : Nat)
  /-- LINK_IDLE_NARROW (R426). -/
  | linkIdleNarrow (link : LinkRef)
  /-- LINK_IDLE_SLEEP (R426). -/
  | linkIdleSleep (link : LinkRef)
  /-- LINK_WAKE_COMPLETE (R426). -/
  | linkWakeComplete (link : LinkRef)
  /-- CORRECTED_ERROR (R434). -/
  | correctedError (unit : UnitRef)
  /-- UNCORRECTABLE_ERROR (R407). -/
  | uncorrectableError (lost : LostState)
  /-- RESOURCE_MAP_PUBLISH (R413). -/
  | resourceMapPublish
  /-- BOOT (R436). -/
  | boot
  /-- LINK_RETRAIN_COMPLETE (R418). -/
  | linkRetrainComplete (port : Nat)
  /-- VADD (R143). -/
  | vadd (d : BitVec 5) (a : BitVec 5) (b : BitVec 5) (k : BitVec 3) (c : BitVec 1)
  /-- VSUB (R143). -/
  | vsub (d : BitVec 5) (a : BitVec 5) (b : BitVec 5) (k : BitVec 3) (c : BitVec 1)
  /-- VAND (R143). -/
  | vand (d : BitVec 5) (a : BitVec 5) (b : BitVec 5) (k : BitVec 3) (c : BitVec 1)
  /-- VOR (R143). -/
  | vor (d : BitVec 5) (a : BitVec 5) (b : BitVec 5) (k : BitVec 3) (c : BitVec 1)
  /-- VXOR (R143). -/
  | vxor (d : BitVec 5) (a : BitVec 5) (b : BitVec 5) (k : BitVec 3) (c : BitVec 1)
  /-- VSLL (R143). -/
  | vsll (d : BitVec 5) (a : BitVec 5) (b : BitVec 5) (k : BitVec 3) (c : BitVec 1)
  /-- VSRL (R143). -/
  | vsrl (d : BitVec 5) (a : BitVec 5) (b : BitVec 5) (k : BitVec 3) (c : BitVec 1)
  /-- VSRA (R143). -/
  | vsra (d : BitVec 5) (a : BitVec 5) (b : BitVec 5) (k : BitVec 3) (c : BitVec 1)
  /-- VMUL (R143). -/
  | vmul (d : BitVec 5) (a : BitVec 5) (b : BitVec 5) (k : BitVec 3) (c : BitVec 1)
  /-- VMULH (R143). -/
  | vmulh (d : BitVec 5) (a : BitVec 5) (b : BitVec 5) (k : BitVec 3) (c : BitVec 1)
  /-- VMULHN (R143). -/
  | vmulhn (d : BitVec 5) (a : BitVec 5) (b : BitVec 5) (k : BitVec 3) (c : BitVec 1)
  /-- VDIV (R143). -/
  | vdiv (d : BitVec 5) (a : BitVec 5) (b : BitVec 5) (k : BitVec 3) (c : BitVec 1)
  /-- VDIVN (R143). -/
  | vdivn (d : BitVec 5) (a : BitVec 5) (b : BitVec 5) (k : BitVec 3) (c : BitVec 1)
  /-- VREM (R143). -/
  | vrem (d : BitVec 5) (a : BitVec 5) (b : BitVec 5) (k : BitVec 3) (c : BitVec 1)
  /-- VREMN (R143). -/
  | vremn (d : BitVec 5) (a : BitVec 5) (b : BitVec 5) (k : BitVec 3) (c : BitVec 1)
  /-- VMIN (R143). -/
  | vmin (d : BitVec 5) (a : BitVec 5) (b : BitVec 5) (k : BitVec 3) (c : BitVec 1)
  /-- VMAX (R143). -/
  | vmax (d : BitVec 5) (a : BitVec 5) (b : BitVec 5) (k : BitVec 3) (c : BitVec 1)
  /-- VMINN (R143). -/
  | vminn (d : BitVec 5) (a : BitVec 5) (b : BitVec 5) (k : BitVec 3) (c : BitVec 1)
  /-- VMAXN (R143). -/
  | vmaxn (d : BitVec 5) (a : BitVec 5) (b : BitVec 5) (k : BitVec 3) (c : BitVec 1)
  /-- VCLMUL (R144). -/
  | vclmul (d : BitVec 5) (a : BitVec 5) (b : BitVec 5) (k : BitVec 3) (c : BitVec 1)
  /-- VCLMULH (R144). -/
  | vclmulh (d : BitVec 5) (a : BitVec 5) (b : BitVec 5) (k : BitVec 3) (c : BitVec 1)
  /-- VWID (R145). -/
  | vwid (d : BitVec 5) (a : BitVec 5) (k : BitVec 3) (c : BitVec 1)
  /-- VWIDN (R145). -/
  | vwidn (d : BitVec 5) (a : BitVec 5) (k : BitVec 3) (c : BitVec 1)
  /-- VADD_SCALAR (R143). -/
  | vaddScalar (d : BitVec 5) (a : BitVec 5) (b : BitVec 5) (k : BitVec 3) (c : BitVec 1)
  /-- VSUB_SCALAR (R143). -/
  | vsubScalar (d : BitVec 5) (a : BitVec 5) (b : BitVec 5) (k : BitVec 3) (c : BitVec 1)
  /-- VAND_SCALAR (R143). -/
  | vandScalar (d : BitVec 5) (a : BitVec 5) (b : BitVec 5) (k : BitVec 3) (c : BitVec 1)
  /-- VOR_SCALAR (R143). -/
  | vorScalar (d : BitVec 5) (a : BitVec 5) (b : BitVec 5) (k : BitVec 3) (c : BitVec 1)
  /-- VXOR_SCALAR (R143). -/
  | vxorScalar (d : BitVec 5) (a : BitVec 5) (b : BitVec 5) (k : BitVec 3) (c : BitVec 1)
  /-- VSLL_SCALAR (R143). -/
  | vsllScalar (d : BitVec 5) (a : BitVec 5) (b : BitVec 5) (k : BitVec 3) (c : BitVec 1)
  /-- VSRL_SCALAR (R143). -/
  | vsrlScalar (d : BitVec 5) (a : BitVec 5) (b : BitVec 5) (k : BitVec 3) (c : BitVec 1)
  /-- VSRA_SCALAR (R143). -/
  | vsraScalar (d : BitVec 5) (a : BitVec 5) (b : BitVec 5) (k : BitVec 3) (c : BitVec 1)
  /-- VMUL_SCALAR (R143). -/
  | vmulScalar (d : BitVec 5) (a : BitVec 5) (b : BitVec 5) (k : BitVec 3) (c : BitVec 1)
  /-- VMULH_SCALAR (R143). -/
  | vmulhScalar (d : BitVec 5) (a : BitVec 5) (b : BitVec 5) (k : BitVec 3) (c : BitVec 1)
  /-- VMULHN_SCALAR (R143). -/
  | vmulhnScalar (d : BitVec 5) (a : BitVec 5) (b : BitVec 5) (k : BitVec 3) (c : BitVec 1)
  /-- VDIV_SCALAR (R143). -/
  | vdivScalar (d : BitVec 5) (a : BitVec 5) (b : BitVec 5) (k : BitVec 3) (c : BitVec 1)
  /-- VDIVN_SCALAR (R143). -/
  | vdivnScalar (d : BitVec 5) (a : BitVec 5) (b : BitVec 5) (k : BitVec 3) (c : BitVec 1)
  /-- VREM_SCALAR (R143). -/
  | vremScalar (d : BitVec 5) (a : BitVec 5) (b : BitVec 5) (k : BitVec 3) (c : BitVec 1)
  /-- VREMN_SCALAR (R143). -/
  | vremnScalar (d : BitVec 5) (a : BitVec 5) (b : BitVec 5) (k : BitVec 3) (c : BitVec 1)
  /-- VMIN_SCALAR (R143). -/
  | vminScalar (d : BitVec 5) (a : BitVec 5) (b : BitVec 5) (k : BitVec 3) (c : BitVec 1)
  /-- VMAX_SCALAR (R143). -/
  | vmaxScalar (d : BitVec 5) (a : BitVec 5) (b : BitVec 5) (k : BitVec 3) (c : BitVec 1)
  /-- VMINN_SCALAR (R143). -/
  | vminnScalar (d : BitVec 5) (a : BitVec 5) (b : BitVec 5) (k : BitVec 3) (c : BitVec 1)
  /-- VMAXN_SCALAR (R143). -/
  | vmaxnScalar (d : BitVec 5) (a : BitVec 5) (b : BitVec 5) (k : BitVec 3) (c : BitVec 1)
  /-- VCLMUL_SCALAR (R144). -/
  | vclmulScalar (d : BitVec 5) (a : BitVec 5) (b : BitVec 5) (k : BitVec 3) (c : BitVec 1)
  /-- VCLMULH_SCALAR (R144). -/
  | vclmulhScalar (d : BitVec 5) (a : BitVec 5) (b : BitVec 5) (k : BitVec 3) (c : BitVec 1)
  /-- VSADD (R146). -/
  | vsadd (d : BitVec 5) (a : BitVec 5) (b : BitVec 5) (k : BitVec 3) (c : BitVec 1)
  /-- VSSUB (R146). -/
  | vssub (d : BitVec 5) (a : BitVec 5) (b : BitVec 5) (k : BitVec 3) (c : BitVec 1)
  /-- VSADDN (R146). -/
  | vsaddn (d : BitVec 5) (a : BitVec 5) (b : BitVec 5) (k : BitVec 3) (c : BitVec 1)
  /-- VSSUBN (R146). -/
  | vssubn (d : BitVec 5) (a : BitVec 5) (b : BitVec 5) (k : BitVec 3) (c : BitVec 1)
  /-- VNRW (R146). -/
  | vnrw (d : BitVec 5) (a : BitVec 5) (k : BitVec 3) (c : BitVec 1)
  /-- VNRWN (R146). -/
  | vnrwn (d : BitVec 5) (a : BitVec 5) (k : BitVec 3) (c : BitVec 1)
  /-- VNRWSN (R146). -/
  | vnrwsn (d : BitVec 5) (a : BitVec 5) (k : BitVec 3) (c : BitVec 1)
  /-- VSADD_SCALAR (R146). -/
  | vsaddScalar (d : BitVec 5) (a : BitVec 5) (b : BitVec 5) (k : BitVec 3) (c : BitVec 1)
  /-- VSSUB_SCALAR (R146). -/
  | vssubScalar (d : BitVec 5) (a : BitVec 5) (b : BitVec 5) (k : BitVec 3) (c : BitVec 1)
  /-- VSADDN_SCALAR (R146). -/
  | vsaddnScalar (d : BitVec 5) (a : BitVec 5) (b : BitVec 5) (k : BitVec 3) (c : BitVec 1)
  /-- VSSUBN_SCALAR (R146). -/
  | vssubnScalar (d : BitVec 5) (a : BitVec 5) (b : BitVec 5) (k : BitVec 3) (c : BitVec 1)
  /-- VFADD (R147). -/
  | vfadd (d : BitVec 5) (a : BitVec 5) (b : BitVec 5) (k : BitVec 3) (f : BitVec 1) (c : BitVec 1)
  /-- VFSUB (R147). -/
  | vfsub (d : BitVec 5) (a : BitVec 5) (b : BitVec 5) (k : BitVec 3) (f : BitVec 1) (c : BitVec 1)
  /-- VFMUL (R147). -/
  | vfmul (d : BitVec 5) (a : BitVec 5) (b : BitVec 5) (k : BitVec 3) (f : BitVec 1) (c : BitVec 1)
  /-- VFMA (R147). -/
  | vfma (d : BitVec 5) (a : BitVec 5) (b : BitVec 5) (k : BitVec 3) (f : BitVec 1) (c : BitVec 1)
  /-- VFMS (R147). -/
  | vfms (d : BitVec 5) (a : BitVec 5) (b : BitVec 5) (k : BitVec 3) (f : BitVec 1) (c : BitVec 1)
  /-- VFNMA (R147). -/
  | vfnma (d : BitVec 5) (a : BitVec 5) (b : BitVec 5) (k : BitVec 3) (f : BitVec 1) (c : BitVec 1)
  /-- VFDIV (R147). -/
  | vfdiv (d : BitVec 5) (a : BitVec 5) (b : BitVec 5) (k : BitVec 3) (f : BitVec 1) (c : BitVec 1)
  /-- VFSQRT (R147). -/
  | vfsqrt (d : BitVec 5) (a : BitVec 5) (k : BitVec 3) (f : BitVec 1) (c : BitVec 1)
  /-- VFMIN (R149). -/
  | vfmin (d : BitVec 5) (a : BitVec 5) (b : BitVec 5) (k : BitVec 3) (f : BitVec 1) (c : BitVec 1)
  /-- VFMAX (R149). -/
  | vfmax (d : BitVec 5) (a : BitVec 5) (b : BitVec 5) (k : BitVec 3) (f : BitVec 1) (c : BitVec 1)
  /-- VFRCP (R147). -/
  | vfrcp (d : BitVec 5) (a : BitVec 5) (k : BitVec 3) (f : BitVec 1) (c : BitVec 1)
  /-- VFADD_SCALAR (R147). -/
  | vfaddScalar (d : BitVec 5) (a : BitVec 5) (b : BitVec 5) (k : BitVec 3) (f : BitVec 1) (c : BitVec 1)
  /-- VFSUB_SCALAR (R147). -/
  | vfsubScalar (d : BitVec 5) (a : BitVec 5) (b : BitVec 5) (k : BitVec 3) (f : BitVec 1) (c : BitVec 1)
  /-- VFMUL_SCALAR (R147). -/
  | vfmulScalar (d : BitVec 5) (a : BitVec 5) (b : BitVec 5) (k : BitVec 3) (f : BitVec 1) (c : BitVec 1)
  /-- VFMA_SCALAR (R147). -/
  | vfmaScalar (d : BitVec 5) (a : BitVec 5) (b : BitVec 5) (k : BitVec 3) (f : BitVec 1) (c : BitVec 1)
  /-- VFMS_SCALAR (R147). -/
  | vfmsScalar (d : BitVec 5) (a : BitVec 5) (b : BitVec 5) (k : BitVec 3) (f : BitVec 1) (c : BitVec 1)
  /-- VFNMA_SCALAR (R147). -/
  | vfnmaScalar (d : BitVec 5) (a : BitVec 5) (b : BitVec 5) (k : BitVec 3) (f : BitVec 1) (c : BitVec 1)
  /-- VFDIV_SCALAR (R147). -/
  | vfdivScalar (d : BitVec 5) (a : BitVec 5) (b : BitVec 5) (k : BitVec 3) (f : BitVec 1) (c : BitVec 1)
  /-- VFSQRT_SCALAR (R147). -/
  | vfsqrtScalar (d : BitVec 5) (a : BitVec 5) (k : BitVec 3) (f : BitVec 1) (c : BitVec 1)
  /-- VFMIN_SCALAR (R149). -/
  | vfminScalar (d : BitVec 5) (a : BitVec 5) (b : BitVec 5) (k : BitVec 3) (f : BitVec 1) (c : BitVec 1)
  /-- VFMAX_SCALAR (R149). -/
  | vfmaxScalar (d : BitVec 5) (a : BitVec 5) (b : BitVec 5) (k : BitVec 3) (f : BitVec 1) (c : BitVec 1)
  /-- VFRCP_SCALAR (R147). -/
  | vfrcpScalar (d : BitVec 5) (a : BitVec 5) (k : BitVec 3) (f : BitVec 1) (c : BitVec 1)
  /-- VCMP (R150). -/
  | vcmp (d : BitVec 5) (a : BitVec 5) (b : BitVec 5) (k : BitVec 3) (q : BitVec 6) (c : BitVec 1)
  /-- VCMPS (R150). -/
  | vcmps (d : BitVec 5) (a : BitVec 5) (b : BitVec 5) (k : BitVec 3) (q : BitVec 6) (c : BitVec 1)
  /-- VFCMP (R151). -/
  | vfcmp (d : BitVec 5) (a : BitVec 5) (b : BitVec 5) (k : BitVec 3) (q : BitVec 3) (f : BitVec 1) (c : BitVec 1)
  /-- VFCMPS (R151). -/
  | vfcmps (d : BitVec 5) (a : BitVec 5) (b : BitVec 5) (k : BitVec 3) (q : BitVec 3) (f : BitVec 1) (c : BitVec 1)
  /-- VMERGE (R152). -/
  | vmerge (d : BitVec 5) (a : BitVec 5) (b : BitVec 5) (k : BitVec 3) (c : BitVec 1)
  /-- VMV (R152). -/
  | vmv (d : BitVec 5) (a : BitVec 5) (k : BitVec 3) (c : BitVec 1)
  /-- VBCAST (R152). -/
  | vbcast (d : BitVec 5) (a : BitVec 5) (k : BitVec 3) (c : BitVec 1)
  /-- VEXT_N (R152). -/
  | vextN (d : BitVec 5) (a : BitVec 5) (b : BitVec 5) (c : BitVec 1)
  /-- VEXT_I (R152). -/
  | vextI (d : BitVec 5) (a : BitVec 5) (b : BitVec 5) (c : BitVec 1)
  /-- VSLIDEUP (R153). -/
  | vslideup (d : BitVec 5) (a : BitVec 5) (b : BitVec 5) (k : BitVec 3) (c : BitVec 1)
  /-- VSLIDEDN (R153). -/
  | vslidedn (d : BitVec 5) (a : BitVec 5) (b : BitVec 5) (k : BitVec 3) (c : BitVec 1)
  /-- VPERM (R153). -/
  | vperm (d : BitVec 5) (a : BitVec 5) (b : BitVec 5) (k : BitVec 3) (c : BitVec 1)
  /-- VCOMPRESS (R153). -/
  | vcompress (d : BitVec 5) (a : BitVec 5) (k : BitVec 3) (c : BitVec 1)
  /-- VEXPAND (R153). -/
  | vexpand (d : BitVec 5) (a : BitVec 5) (k : BitVec 3) (c : BitVec 1)
  /-- VIOTA (R153). -/
  | viota (d : BitVec 5) (k : BitVec 3) (c : BitVec 1)
  /-- VCONF (R154). -/
  | vconf (d : BitVec 5) (a : BitVec 5) (k : BitVec 3) (c : BitVec 1)
  /-- VREDSUM (R155). -/
  | vredsum (d : BitVec 5) (a : BitVec 5) (b : BitVec 5) (k : BitVec 3) (c : BitVec 1)
  /-- VREDMAX_I (R155). -/
  | vredmaxI (d : BitVec 5) (a : BitVec 5) (b : BitVec 5) (k : BitVec 3) (c : BitVec 1)
  /-- VREDMAX_N (R155). -/
  | vredmaxN (d : BitVec 5) (a : BitVec 5) (b : BitVec 5) (k : BitVec 3) (c : BitVec 1)
  /-- VREDMIN_I (R155). -/
  | vredminI (d : BitVec 5) (a : BitVec 5) (b : BitVec 5) (k : BitVec 3) (c : BitVec 1)
  /-- VREDMIN_N (R155). -/
  | vredminN (d : BitVec 5) (a : BitVec 5) (b : BitVec 5) (k : BitVec 3) (c : BitVec 1)
  /-- VFREDSUM (R98). -/
  | vfredsum (d : BitVec 5) (a : BitVec 5) (b : BitVec 5) (k : BitVec 3) (f : BitVec 1) (c : BitVec 1)
  /-- VREDMAX_F (R155). -/
  | vredmaxF (d : BitVec 5) (a : BitVec 5) (b : BitVec 5) (k : BitVec 3) (f : BitVec 1) (c : BitVec 1)
  /-- VREDMIN_F (R155). -/
  | vredminF (d : BitVec 5) (a : BitVec 5) (b : BitVec 5) (k : BitVec 3) (f : BitVec 1) (c : BitVec 1)
  /-- VCVT (R159). -/
  | vcvt (d : BitVec 5) (a : BitVec 5) (t : BitVec 1) (s : BitVec 4) (k : BitVec 3) (r : BitVec 2) (g : BitVec 4) (c : BitVec 1)
  /-- VQNT (R163). -/
  | vqnt (d : BitVec 5) (a : BitVec 5) (b : BitVec 5) (k : BitVec 3) (q : BitVec 1) (c : BitVec 1)
  /-- VDQNT (R164). -/
  | vdqnt (d : BitVec 5) (a : BitVec 5) (b : BitVec 5) (k : BitVec 3) (q : BitVec 1) (c : BitVec 1)
  /-- MAND (R156). -/
  | mand (d : BitVec 5) (a : BitVec 5) (b : BitVec 5) (k : BitVec 3) (c : BitVec 1)
  /-- MOR (R156). -/
  | mor (d : BitVec 5) (a : BitVec 5) (b : BitVec 5) (k : BitVec 3) (c : BitVec 1)
  /-- MXOR (R156). -/
  | mxor (d : BitVec 5) (a : BitVec 5) (b : BitVec 5) (k : BitVec 3) (c : BitVec 1)
  /-- MNOT (R156). -/
  | mnot (d : BitVec 5) (a : BitVec 5) (k : BitVec 3) (c : BitVec 1)
  /-- MPOPC (R156). -/
  | mpopc (d : BitVec 5) (a : BitVec 5) (k : BitVec 3) (c : BitVec 1)
  /-- MFIRST (R156). -/
  | mfirst (d : BitVec 5) (a : BitVec 5) (k : BitVec 3) (c : BitVec 1)
  /-- MSETI (R156). -/
  | mseti (d : BitVec 5) (a : BitVec 5) (c : BitVec 1)
  /-- MVFM (R156). -/
  | mvfm (d : BitVec 5) (c : BitVec 1)
  /-- VLD (R178). -/
  | vld (d : BitVec 5) (b : BitVec 5) (k : BitVec 3) (t : BitVec 1) (s : BitVec 2) (o : BitVec 2) (c : BitVec 1)
  /-- VLDS (R178). -/
  | vlds (d : BitVec 5) (b : BitVec 5) (x : BitVec 5) (k : BitVec 3) (t : BitVec 1) (s : BitVec 2) (o : BitVec 2) (c : BitVec 1)
  /-- VLDX (R178). -/
  | vldx (d : BitVec 5) (b : BitVec 5) (x : BitVec 5) (k : BitVec 3) (t : BitVec 1) (s : BitVec 2) (o : BitVec 2) (c : BitVec 1)
  /-- VLDFF (R176). -/
  | vldff (d : BitVec 5) (b : BitVec 5) (k : BitVec 3) (t : BitVec 1) (s : BitVec 2) (o : BitVec 2)
  /-- VST (R178). -/
  | vst (d : BitVec 5) (b : BitVec 5) (k : BitVec 3) (t : BitVec 1) (s : BitVec 2) (o : BitVec 2) (c : BitVec 1)
  /-- VSTS (R178). -/
  | vsts (d : BitVec 5) (b : BitVec 5) (x : BitVec 5) (k : BitVec 3) (t : BitVec 1) (s : BitVec 2) (o : BitVec 2) (c : BitVec 1)
  /-- VSTX (R178). -/
  | vstx (d : BitVec 5) (b : BitVec 5) (x : BitVec 5) (k : BitVec 3) (t : BitVec 1) (s : BitVec 2) (o : BitVec 2) (c : BitVec 1)
  /-- VSTXA (R181). -/
  | vstxa (d : BitVec 4) (f : BitVec 1) (b : BitVec 5) (x : BitVec 5) (k : BitVec 3) (t : BitVec 1) (s : BitVec 2) (o : BitVec 2) (c : BitVec 1)
  /-- VGLL (R184). -/
  | vgll (d : BitVec 5) (b : BitVec 5) (x : BitVec 5) (k : BitVec 3) (t : BitVec 1) (s : BitVec 2) (o : BitVec 2) (c : BitVec 1)
  /-- VSCC (R185). -/
  | vscc (d : BitVec 5) (b : BitVec 5) (x : BitVec 5) (k : BitVec 3) (t : BitVec 1) (s : BitVec 2) (o : BitVec 2) (c : BitVec 1)
  /-- MOPA (R205). -/
  | mopa (d : BitVec 5) (a : BitVec 5) (b : BitVec 5) (n : BitVec 1) (q : BitVec 3) (p : BitVec 3)
  /-- MOPA2 (R205). -/
  | mopa2 (d : BitVec 5) (a : BitVec 5) (b : BitVec 5) (n : BitVec 1) (q : BitVec 3) (p : BitVec 3)
  /-- MOPA4 (R205). -/
  | mopa4 (d : BitVec 5) (a : BitVec 5) (b : BitVec 5) (n : BitVec 1) (q : BitVec 3) (p : BitVec 3)
  /-- MOPS (R204). -/
  | mops (d : BitVec 5) (a : BitVec 5) (n : BitVec 1) (p : BitVec 3)
  /-- MOPG (R207). -/
  | mopg (d : BitVec 5) (a : BitVec 5) (b : BitVec 5) (n : BitVec 1) (q : BitVec 3) (p : BitVec 3)
  /-- MOPQ (R208). -/
  | mopq (d : BitVec 5) (a : BitVec 5) (b : BitVec 5) (q : BitVec 1)
  /-- MRD (R211). -/
  | mrd (d : BitVec 5) (a : BitVec 5) (t : BitVec 2)
  /-- MWR (R211). -/
  | mwr (d : BitVec 5) (a : BitVec 5) (t : BitVec 2)
  /-- ADD (R100). -/
  | add (d : BitVec 5) (a : BitVec 5) (b : BitVec 5)
  /-- SUB (R100). -/
  | sub (d : BitVec 5) (a : BitVec 5) (b : BitVec 5)
  /-- AND (R100). -/
  | and (d : BitVec 5) (a : BitVec 5) (b : BitVec 5)
  /-- OR (R100). -/
  | or (d : BitVec 5) (a : BitVec 5) (b : BitVec 5)
  /-- XOR (R100). -/
  | xor (d : BitVec 5) (a : BitVec 5) (b : BitVec 5)
  /-- SLL (R100). -/
  | sll (d : BitVec 5) (a : BitVec 5) (b : BitVec 5)
  /-- SRL (R100). -/
  | srl (d : BitVec 5) (a : BitVec 5) (b : BitVec 5)
  /-- SRA (R100). -/
  | sra (d : BitVec 5) (a : BitVec 5) (b : BitVec 5)
  /-- SLT (R100). -/
  | slt (d : BitVec 5) (a : BitVec 5) (b : BitVec 5)
  /-- SLTN (R100). -/
  | sltn (d : BitVec 5) (a : BitVec 5) (b : BitVec 5)
  /-- MUL (R100). -/
  | mul (d : BitVec 5) (a : BitVec 5) (b : BitVec 5)
  /-- MULH (R100). -/
  | mulh (d : BitVec 5) (a : BitVec 5) (b : BitVec 5)
  /-- MULHN (R100). -/
  | mulhn (d : BitVec 5) (a : BitVec 5) (b : BitVec 5)
  /-- DIV (R101). -/
  | div (d : BitVec 5) (a : BitVec 5) (b : BitVec 5)
  /-- DIVN (R101). -/
  | divn (d : BitVec 5) (a : BitVec 5) (b : BitVec 5)
  /-- REM (R101). -/
  | rem (d : BitVec 5) (a : BitVec 5) (b : BitVec 5)
  /-- REMN (R101). -/
  | remn (d : BitVec 5) (a : BitVec 5) (b : BitVec 5)
  /-- MIN (R100). -/
  | min (d : BitVec 5) (a : BitVec 5) (b : BitVec 5)
  /-- MAX (R100). -/
  | max (d : BitVec 5) (a : BitVec 5) (b : BitVec 5)
  /-- MINN (R100). -/
  | minn (d : BitVec 5) (a : BitVec 5) (b : BitVec 5)
  /-- MAXN (R100). -/
  | maxn (d : BitVec 5) (a : BitVec 5) (b : BitVec 5)
  /-- CLZ (R100). -/
  | clz (d : BitVec 5) (a : BitVec 5)
  /-- CTZ (R100). -/
  | ctz (d : BitVec 5) (a : BitVec 5)
  /-- POPC (R100). -/
  | popc (d : BitVec 5) (a : BitVec 5)
  /-- BSWAP (R100). -/
  | bswap (d : BitVec 5) (a : BitVec 5)
  /-- ROTL (R100). -/
  | rotl (d : BitVec 5) (a : BitVec 5) (b : BitVec 5)
  /-- ROTR (R100). -/
  | rotr (d : BitVec 5) (a : BitVec 5) (b : BitVec 5)
  /-- SEL (R100). -/
  | sel (d : BitVec 5) (a : BitVec 5) (b : BitVec 5)
  /-- ADDI (R102). -/
  | addi (d : BitVec 5) (a : BitVec 5) (i : BitVec 14)
  /-- ANDI (R102). -/
  | andi (d : BitVec 5) (a : BitVec 5) (i : BitVec 14)
  /-- ORI (R102). -/
  | ori (d : BitVec 5) (a : BitVec 5) (i : BitVec 14)
  /-- XORI (R102). -/
  | xori (d : BitVec 5) (a : BitVec 5) (i : BitVec 14)
  /-- SLTI (R102). -/
  | slti (d : BitVec 5) (a : BitVec 5) (i : BitVec 14)
  /-- SLTNI (R102). -/
  | sltni (d : BitVec 5) (a : BitVec 5) (i : BitVec 14)
  /-- SLLI (R103). -/
  | slli (d : BitVec 5) (a : BitVec 5) (s : BitVec 6)
  /-- SRLI (R103). -/
  | srli (d : BitVec 5) (a : BitVec 5) (s : BitVec 6)
  /-- SRAI (R103). -/
  | srai (d : BitVec 5) (a : BitVec 5) (s : BitVec 6)
  /-- ROTRI (R103). -/
  | rotri (d : BitVec 5) (a : BitVec 5) (s : BitVec 6)
  /-- LIH (R104). -/
  | lih (d : BitVec 5) (i : BitVec 19)
  /-- ADDPC (R104). -/
  | addpc (d : BitVec 5) (i : BitVec 19)
  /-- JAL (R106). -/
  | jal (d : BitVec 5) (i : BitVec 19)
  /-- JALR (R106). -/
  | jalr (d : BitVec 5) (a : BitVec 5) (i : BitVec 14)
  /-- BEQ (R105). -/
  | beq (a : BitVec 5) (b : BitVec 5) (o : BitVec 14)
  /-- BNE (R105). -/
  | bne (a : BitVec 5) (b : BitVec 5) (o : BitVec 14)
  /-- BLT (R105). -/
  | blt (a : BitVec 5) (b : BitVec 5) (o : BitVec 14)
  /-- BGE (R105). -/
  | bge (a : BitVec 5) (b : BitVec 5) (o : BitVec 14)
  /-- BLTN (R105). -/
  | bltn (a : BitVec 5) (b : BitVec 5) (o : BitVec 14)
  /-- BGEN (R105). -/
  | bgen (a : BitVec 5) (b : BitVec 5) (o : BitVec 14)
  /-- LD_B_S (R108). -/
  | ldBS (d : BitVec 5) (a : BitVec 5) (i : BitVec 14)
  /-- LD_B_N (R108). -/
  | ldBN (d : BitVec 5) (a : BitVec 5) (i : BitVec 14)
  /-- LD_H_S (R108). -/
  | ldHS (d : BitVec 5) (a : BitVec 5) (i : BitVec 14)
  /-- LD_H_N (R108). -/
  | ldHN (d : BitVec 5) (a : BitVec 5) (i : BitVec 14)
  /-- LD_W_S (R108). -/
  | ldWS (d : BitVec 5) (a : BitVec 5) (i : BitVec 14)
  /-- LD_W_N (R108). -/
  | ldWN (d : BitVec 5) (a : BitVec 5) (i : BitVec 14)
  /-- LD_D (R108). -/
  | ldD (d : BitVec 5) (a : BitVec 5) (i : BitVec 14)
  /-- ST_B (R108). -/
  | stB (d : BitVec 5) (a : BitVec 5) (i : BitVec 14)
  /-- ST_H (R108). -/
  | stH (d : BitVec 5) (a : BitVec 5) (i : BitVec 14)
  /-- ST_W (R108). -/
  | stW (d : BitVec 5) (a : BitVec 5) (i : BitVec 14)
  /-- ST_D (R108). -/
  | stD (d : BitVec 5) (a : BitVec 5) (i : BitVec 14)
  /-- AMO_ADD (R114). -/
  | amoAdd (d : BitVec 5) (a : BitVec 5) (b : BitVec 5) (z : BitVec 1) (o : BitVec 2)
  /-- AMO_AND (R114). -/
  | amoAnd (d : BitVec 5) (a : BitVec 5) (b : BitVec 5) (z : BitVec 1) (o : BitVec 2)
  /-- AMO_OR (R114). -/
  | amoOr (d : BitVec 5) (a : BitVec 5) (b : BitVec 5) (z : BitVec 1) (o : BitVec 2)
  /-- AMO_XOR (R114). -/
  | amoXor (d : BitVec 5) (a : BitVec 5) (b : BitVec 5) (z : BitVec 1) (o : BitVec 2)
  /-- AMO_MIN (R114). -/
  | amoMin (d : BitVec 5) (a : BitVec 5) (b : BitVec 5) (z : BitVec 1) (o : BitVec 2)
  /-- AMO_MAX (R114). -/
  | amoMax (d : BitVec 5) (a : BitVec 5) (b : BitVec 5) (z : BitVec 1) (o : BitVec 2)
  /-- AMO_MINN (R114). -/
  | amoMinn (d : BitVec 5) (a : BitVec 5) (b : BitVec 5) (z : BitVec 1) (o : BitVec 2)
  /-- AMO_MAXN (R114). -/
  | amoMaxn (d : BitVec 5) (a : BitVec 5) (b : BitVec 5) (z : BitVec 1) (o : BitVec 2)
  /-- AMO_SWAP (R114). -/
  | amoSwap (d : BitVec 5) (a : BitVec 5) (b : BitVec 5) (z : BitVec 1) (o : BitVec 2)
  /-- AMO_CAS (R114). -/
  | amoCas (d : BitVec 5) (a : BitVec 5) (b : BitVec 5) (z : BitVec 1) (o : BitVec 2)
  /-- FADD (R117). -/
  | fadd (d : BitVec 5) (a : BitVec 5) (b : BitVec 5) (f : BitVec 1) (r : BitVec 3)
  /-- FMUL (R117). -/
  | fmul (d : BitVec 5) (a : BitVec 5) (b : BitVec 5) (f : BitVec 1) (r : BitVec 3)
  /-- FFMA (R117). -/
  | ffma (d : BitVec 5) (a : BitVec 5) (b : BitVec 5) (f : BitVec 1) (r : BitVec 3)
  /-- FCVT (R118). -/
  | fcvt (d : BitVec 5) (a : BitVec 5) (k : BitVec 5) (f : BitVec 1) (r : BitVec 3)
  /-- FCMP (R119). -/
  | fcmp (d : BitVec 5) (a : BitVec 5) (b : BitVec 5) (f : BitVec 1) (q : BitVec 2)
  /-- ECALL (R120). -/
  | ecall
  /-- BRK (R120). -/
  | brk
  /-- TRET (R384). -/
  | tret (r : BitVec 1)
  /-- EMURET (R122). -/
  | emuret
  /-- FENCE (R123). -/
  | fence (s : BitVec 3) (k : BitVec 2)
  /-- LSYNC (R124). -/
  | lsync
  /-- CRRD (R126). -/
  | crrd (d : BitVec 5) (r : BitVec 12)
  /-- CRWR (R126). -/
  | crwr (d : BitVec 5) (a : BitVec 5) (r : BitVec 12)
  /-- CRSET (R126). -/
  | crset (d : BitVec 5) (a : BitVec 5) (r : BitVec 12)
  /-- CRCLR (R126). -/
  | crclr (d : BitVec 5) (a : BitVec 5) (r : BitVec 12)
  /-- CTXSV (R390). -/
  | ctxsv (a : BitVec 5)
  /-- CTXLD (R397). -/
  | ctxld (a : BitVec 5)
  /-- TLBINV (R128). -/
  | tlbinv (a : BitVec 5) (b : BitVec 5) (s : BitVec 3)
  /-- TLBSYNC (R129). -/
  | tlbsync
  /-- RMACK (R130). -/
  | rmack (d : BitVec 5) (a : BitVec 5)
  /-- LWAKE (R131). -/
  | lwake (a : BitVec 5) (s : BitVec 3)
  /-- IDLE (R132). -/
  | idle
  /-- SETVL (R139). -/
  | setvl (d : BitVec 5) (a : BitVec 5) (b : BitVec 5) (e : BitVec 2)
  /-- SETVLW (R140). -/
  | setvlw (d : BitVec 5) (a : BitVec 5) (b : BitVec 5) (e : BitVec 2)
  /-- VAMO_W_ADD (R187). -/
  | vamoWAdd (d : BitVec 5) (a : BitVec 5) (x : BitVec 5) (k : BitVec 3) (o : BitVec 2)
  /-- VAMO_W_AND (R187). -/
  | vamoWAnd (d : BitVec 5) (a : BitVec 5) (x : BitVec 5) (k : BitVec 3) (o : BitVec 2)
  /-- VAMO_W_OR (R187). -/
  | vamoWOr (d : BitVec 5) (a : BitVec 5) (x : BitVec 5) (k : BitVec 3) (o : BitVec 2)
  /-- VAMO_W_XOR (R187). -/
  | vamoWXor (d : BitVec 5) (a : BitVec 5) (x : BitVec 5) (k : BitVec 3) (o : BitVec 2)
  /-- VAMO_W_MIN (R187). -/
  | vamoWMin (d : BitVec 5) (a : BitVec 5) (x : BitVec 5) (k : BitVec 3) (o : BitVec 2)
  /-- VAMO_W_MAX (R187). -/
  | vamoWMax (d : BitVec 5) (a : BitVec 5) (x : BitVec 5) (k : BitVec 3) (o : BitVec 2)
  /-- VAMO_W_MINN (R187). -/
  | vamoWMinn (d : BitVec 5) (a : BitVec 5) (x : BitVec 5) (k : BitVec 3) (o : BitVec 2)
  /-- VAMO_W_MAXN (R187). -/
  | vamoWMaxn (d : BitVec 5) (a : BitVec 5) (x : BitVec 5) (k : BitVec 3) (o : BitVec 2)
  /-- VAMO_W_SWAP (R187). -/
  | vamoWSwap (d : BitVec 5) (a : BitVec 5) (x : BitVec 5) (k : BitVec 3) (o : BitVec 2)
  /-- VAMO_W_CAS (R187). -/
  | vamoWCas (d : BitVec 5) (a : BitVec 5) (x : BitVec 5) (k : BitVec 3) (o : BitVec 2)
  /-- VAMO_D_ADD (R187). -/
  | vamoDAdd (d : BitVec 5) (a : BitVec 5) (x : BitVec 5) (k : BitVec 3) (o : BitVec 2)
  /-- VAMO_D_AND (R187). -/
  | vamoDAnd (d : BitVec 5) (a : BitVec 5) (x : BitVec 5) (k : BitVec 3) (o : BitVec 2)
  /-- VAMO_D_OR (R187). -/
  | vamoDOr (d : BitVec 5) (a : BitVec 5) (x : BitVec 5) (k : BitVec 3) (o : BitVec 2)
  /-- VAMO_D_XOR (R187). -/
  | vamoDXor (d : BitVec 5) (a : BitVec 5) (x : BitVec 5) (k : BitVec 3) (o : BitVec 2)
  /-- VAMO_D_MIN (R187). -/
  | vamoDMin (d : BitVec 5) (a : BitVec 5) (x : BitVec 5) (k : BitVec 3) (o : BitVec 2)
  /-- VAMO_D_MAX (R187). -/
  | vamoDMax (d : BitVec 5) (a : BitVec 5) (x : BitVec 5) (k : BitVec 3) (o : BitVec 2)
  /-- VAMO_D_MINN (R187). -/
  | vamoDMinn (d : BitVec 5) (a : BitVec 5) (x : BitVec 5) (k : BitVec 3) (o : BitVec 2)
  /-- VAMO_D_MAXN (R187). -/
  | vamoDMaxn (d : BitVec 5) (a : BitVec 5) (x : BitVec 5) (k : BitVec 3) (o : BitVec 2)
  /-- VAMO_D_SWAP (R187). -/
  | vamoDSwap (d : BitVec 5) (a : BitVec 5) (x : BitVec 5) (k : BitVec 3) (o : BitVec 2)
  /-- VAMO_D_CAS (R187). -/
  | vamoDCas (d : BitVec 5) (a : BitVec 5) (x : BitVec 5) (k : BitVec 3) (o : BitVec 2)
  /-- VWAIT (R190). -/
  | vwait (d : BitVec 5) (a : BitVec 5) (x : BitVec 5) (k : BitVec 3) (z : BitVec 1) (q : BitVec 3)
  /-- TAGL (R193). -/
  | tagl (d : BitVec 5) (a : BitVec 5) (k : BitVec 3)
  /-- TAGW (R193). -/
  | tagw (a : BitVec 5) (b : BitVec 5) (k : BitVec 3)
  /-- VSPILL (R197). -/
  | vspill (a : BitVec 5) (b : BitVec 5) (s : BitVec 1)
  /-- VFILL (R197). -/
  | vfill (a : BitVec 5) (s : BitVec 1)
  /-- MATT (R201). -/
  | matt (d : BitVec 5) (a : BitVec 5)
  /-- MDET (R202). -/
  | mdet
  /-- MMODE (R202). -/
  | mmode (d : BitVec 5) (a : BitVec 5)
  /-- MZERO (R202). -/
  | mzero (d : BitVec 5)
  /-- MCBL (R209). -/
  | mcbl (a : BitVec 5)
  /-- MRLL (R209). -/
  | mrll (a : BitVec 5)
  /-- MSAVE (R212). -/
  | msave (a : BitVec 5)
  /-- MREST (R212). -/
  | mrest (a : BitVec 5)
  /-- SCH_IN (R213). -/
  | schIn (d : BitVec 5) (a : BitVec 5) (b : BitVec 5)
  /-- SCH_OUT (R213). -/
  | schOut (d : BitVec 5) (a : BitVec 5) (b : BitVec 5)
  /-- SCH_REL (R213). -/
  | schRel (d : BitVec 5)
  /-- SLD (R216). -/
  | sld (d : BitVec 5) (a : BitVec 5)
  /-- SST (R216). -/
  | sst (d : BitVec 5) (a : BitVec 5)
  /-- SGATH (R216). -/
  | sgath (d : BitVec 5) (a : BitVec 5) (b : BitVec 5) (k : BitVec 3)
  /-- SSCAT (R216). -/
  | sscat (d : BitVec 5) (a : BitVec 5) (b : BitVec 5) (k : BitVec 3)
  /-- SSCATA_INT (R216). -/
  | sscataInt (d : BitVec 5) (a : BitVec 5) (b : BitVec 5) (k : BitVec 3)
  /-- SSCATA_FLOAT (R216). -/
  | sscataFloat (d : BitVec 5) (a : BitVec 5) (b : BitVec 5) (k : BitVec 3)
  /-- SWM (R219). -/
  | swm (d : BitVec 5) (a : BitVec 5) (b : BitVec 5)
  /-- SDRAIN (R219). -/
  | sdrain (b : BitVec 5)
  /-- SDRAIN_ALL (R219). -/
  | sdrainAll
  /-- RCFG (R222). -/
  | rcfg (a : BitVec 5) (b : BitVec 5) (s : BitVec 3)
  /-- RWAIT (R224). -/
  | rwait (d : BitVec 5) (a : BitVec 5) (b : BitVec 5) (s : BitVec 3)
  /-- RFREE (R224). -/
  | rfree (d : BitVec 5) (a : BitVec 5) (s : BitVec 3)
  /-- CHCFG (R225). -/
  | chcfg (a : BitVec 5) (b : BitVec 5) (s : BitVec 2)
  /-- RUN (R226). -/
  | run (a : BitVec 5) (s : BitVec 2)
  /-- CHWAIT (R228). -/
  | chwait (d : BitVec 5) (s : BitVec 2)
  /-- CHBRK (R228). -/
  | chbrk (d : BitVec 5) (s : BitVec 2)
  /-- HWPUB (R230). -/
  | hwpub (d : BitVec 5) (a : BitVec 5) (b : BitVec 5) (n : BitVec 1)
  /-- TKPUSH (R231). -/
  | tkpush (d : BitVec 5) (a : BitVec 5)
  /-- TKPOP (R231). -/
  | tkpop (d : BitVec 5)
  /-- QWR (R229). -/
  | qwr (d : BitVec 5) (a : BitVec 5)
  /-- QRD (R229). -/
  | qrd (d : BitVec 5) (a : BitVec 5)
  /-- LAUNCH (R232). -/
  | launch (d : BitVec 5) (a : BitVec 5)
  deriving DecidableEq, Repr

end Sys2Proof
end

