-- ==== Sys2Proof/WellFormed.lean ====
section
/-! DEFINITION. The field values and combinations that the entries call reserved (02 R50), beyond the fields that the
decoder checks against the fixed bits of a row. A word whose fields break one of them traps ILLEGAL. -/
namespace Sys2Proof

/-- A register field of a 3-bit class: mask registers take 0 to 7 (02 R49). -/
def isMask (x : BitVec 5) : Bool := decide (x.toNat ≤ 7)
/-- Queues and channels take 0 to 15 (02 R49, 07 R199). -/
def isQueue (x : BitVec 5) : Bool := decide (x.toNat ≤ 15)
/-- Accumulator tiles take 0 to 3 (02 R49). -/
def isTile (x : BitVec 5) : Bool := decide (x.toNat ≤ 3)

/-- The major opcodes of 02 R54 that name no instruction: 0x00, 0x7F and the other 22 of 02 R56. -/
def unassignedOpcode (op : Nat) : Bool :=
  op == 0x00 || op == 0x7F || (0x32 ≤ op && op ≤ 0x3F) || (0x5B ≤ op && op ≤ 0x5F) || op == 0x6F || op == 0x7D
    || op == 0x7E

/-- The width of a VCVT format code, an integer side taking max(8, the floating width) (05 R158). -/
def cvtFloatWidth (c : Nat) : Nat :=
  if c = 0 then 64 else if c = 1 then 32 else if c ≤ 3 then 16 else if c = 8 then 4 else 8

/-- Source and destination widths of a VCVT (05 R158). -/
def cvtWidths (df sf : Nat) : Nat × Nat :=
  if 10 ≤ df then (Nat.max 8 (cvtFloatWidth sf), cvtFloatWidth sf)
  else if 10 ≤ sf then (cvtFloatWidth df, Nat.max 8 (cvtFloatWidth df))
  else (cvtFloatWidth df, cvtFloatWidth sf)

/-- The reserved combinations of VCVT that trap at decode (05 R158). -/
def cvtWellFormed (d a : BitVec 5) (sc : Bool) (df sf : Nat) : Bool :=
  let scaled (c : Nat) : Bool := 4 ≤ c && c ≤ 9
  let plain (c : Nat) : Bool := c ≤ 3
  df ≤ 11 && sf ≤ 11 && !(10 ≤ df && 10 ≤ sf)
    && !((10 ≤ df && sf == 9) || (10 ≤ sf && df == 9))
    && !((df == 9 || sf == 9) && !sc)
    && !(sc && !((scaled df && plain sf) || (plain df && scaled sf)))
    && !(sc && d == 30)
    && !((cvtWidths df sf).1 != (cvtWidths df sf).2 && d == a)

/-- The reserved register combinations of VQNT and VDQNT (05 R161). -/
def qntWellFormed (d a b : BitVec 5) : Bool :=
  b.toNat % 2 == 0 && b != 30 && d != b && d.toNat != b.toNat + 1 && a != b && a.toNat != b.toNat + 1 && d != 30
    && d != a

/-- The `ORD` rule of an atomic: 0b01 is reserved (04 R113, 06 R186). -/
def amoOrd (o : BitVec 2) : Bool := o != 1

/-- The reserved combinations of VAMO (06 R186). -/
def vamoWellFormed (d x : BitVec 5) (o : BitVec 2) (cas : Bool) : Bool :=
  amoOrd o && d != x && !(cas && (d == 31 || d.toNat + 1 == x.toNat))

/-- No field of the instruction holds a reserved value or combination (02 R50). A device step has no fields that the
encoding could reserve. -/
def Instr.wellFormed : Instr → Bool
  | .fmaskClear _ _ => true
  | .srseedWrite _ _ => true
  | .undefinedInstruction w => unassignedOpcode (w.toNat % 128)
  | .convoyRetire _ => true
  | .takeAsyncCause _ => true
  | .rmgraceExpire _ => true
  | .vwaitWake _ => true
  | .setvlwWake _ => true
  | .rwaitWake _ => true
  | .swmWake _ => true
  | .sdrainWake _ => true
  | .qwrWake _ => true
  | .qrdWake _ => true
  | .chwaitWake _ => true
  | .tlbsyncWake _ => true
  | .chcfgClaimWake _ => true
  | .transferSlotWake _ => true
  | .runWaitWake _ => true
  | .stripComplete _ _ => true
  | .streamRetranslation _ _ => true
  | .tlbinvComplete _ => true
  | .chainNodeElement _ _ _ => true
  | .switchEntryMove _ _ _ => true
  | .runComplete _ _ => true
  | .chainDrainComplete _ _ => true
  | .chainFinish _ => true
  | .groupStart _ => true
  | .threadEnd _ => true
  | .threadTermination _ => true
  | .launchCompletion _ => true
  | .dispatchStep _ => true
  | .imageSelection _ _ => true
  | .migrationDeviceRequest _ => true
  | .migrationSwitch _ => true
  | .migrationInvalidationComplete _ => true
  | .migrationHoldExpire _ => true
  | .reductionToken _ => true
  | .reductionNodeFail _ => true
  | .kslFlitReceive _ _ => true
  | .kslRetryRequest _ _ => true
  | .kslLinkDown _ => true
  | .hwr _ _ _ _ => true
  | .hrd _ _ _ _ => true
  | .cpl _ _ _ => true
  | .lmsg _ _ _ => true
  | .migreq _ _ _ => true
  | .rtok _ _ _ _ => true
  | .mgmtPartition _ _ _ _ _ => true
  | .mgmtQueueConfiguration _ _ _ _ => true
  | .mgmtWindow _ _ _ _ _ _ _ => true
  | .mgmtPreempt _ _ _ => true
  | .mgmtSwap _ _ _ => true
  | .mgmtArmNode _ _ _ => true
  | .mgmtHold _ _ => true
  | .mgmtThreshold _ _ => true
  | .mgmtCap _ _ _ => true
  | .mgmtPool _ _ _ => true
  | .mgmtAttest _ _ => true
  | .mgmtStatus _ => true
  | .mgmtLaunchEnvironment _ _ _ => true
  | .capFrame _ => true
  | .powerEstimate => true
  | .throttleRelease => true
  | .thermalAlarm _ => true
  | .currentAlarm _ => true
  | .linkIdleNarrow _ => true
  | .linkIdleSleep _ => true
  | .linkWakeComplete _ => true
  | .correctedError _ => true
  | .uncorrectableError _ => true
  | .resourceMapPublish => true
  | .boot => true
  | .linkRetrainComplete _ => true
  | .add _ _ _ => true
  | .sub _ _ _ => true
  | .and _ _ _ => true
  | .or _ _ _ => true
  | .xor _ _ _ => true
  | .sll _ _ _ => true
  | .srl _ _ _ => true
  | .sra _ _ _ => true
  | .slt _ _ _ => true
  | .sltn _ _ _ => true
  | .mul _ _ _ => true
  | .mulh _ _ _ => true
  | .mulhn _ _ _ => true
  | .div _ _ _ => true
  | .divn _ _ _ => true
  | .rem _ _ _ => true
  | .remn _ _ _ => true
  | .min _ _ _ => true
  | .max _ _ _ => true
  | .minn _ _ _ => true
  | .maxn _ _ _ => true
  | .clz _ _ => true
  | .ctz _ _ => true
  | .popc _ _ => true
  | .bswap _ _ => true
  | .rotl _ _ _ => true
  | .rotr _ _ _ => true
  | .sel _ _ _ => true
  | .addi _ _ _ => true
  | .andi _ _ _ => true
  | .ori _ _ _ => true
  | .xori _ _ _ => true
  | .slti _ _ _ => true
  | .sltni _ _ _ => true
  | .slli _ _ _ => true
  | .srli _ _ _ => true
  | .srai _ _ _ => true
  | .rotri _ _ _ => true
  | .lih _ _ => true
  | .addpc _ _ => true
  | .jal _ _ => true
  | .jalr _ _ _ => true
  | .beq _ _ _ => true
  | .bne _ _ _ => true
  | .blt _ _ _ => true
  | .bge _ _ _ => true
  | .bltn _ _ _ => true
  | .bgen _ _ _ => true
  | .ldBS _ _ _ => true
  | .ldBN _ _ _ => true
  | .ldHS _ _ _ => true
  | .ldHN _ _ _ => true
  | .ldWS _ _ _ => true
  | .ldWN _ _ _ => true
  | .ldD _ _ _ => true
  | .stB _ _ _ => true
  | .stH _ _ _ => true
  | .stW _ _ _ => true
  | .stD _ _ _ => true
  | .amoAdd _ _ _ _ o => amoOrd o
  | .amoAnd _ _ _ _ o => amoOrd o
  | .amoOr _ _ _ _ o => amoOrd o
  | .amoXor _ _ _ _ o => amoOrd o
  | .amoMin _ _ _ _ o => amoOrd o
  | .amoMax _ _ _ _ o => amoOrd o
  | .amoMinn _ _ _ _ o => amoOrd o
  | .amoMaxn _ _ _ _ o => amoOrd o
  | .amoSwap _ _ _ _ o => amoOrd o
  | .amoCas _ _ _ _ o => amoOrd o
  | .fadd _ _ _ _ r => r != 6
  | .fmul _ _ _ _ r => r != 6
  | .ffma _ _ _ _ r => r != 6
  | .fcvt _ _ k _ r => r != 6 && decide (k.toNat ≤ 4)
  | .fcmp _ _ _ _ _ => true
  | .ecall => true
  | .brk => true
  | .tret _ => true
  | .emuret => true
  | .fence s k => k != 0 && decide (s.toNat ≤ 5)
  | .lsync => true
  | .crrd _ _ => true
  | .crwr _ _ r => r != 0x005 && r != 0x008
  | .crset _ _ _ => true
  | .crclr _ _ _ => true
  | .ctxsv _ => true
  | .ctxld _ => true
  | .tlbinv _ _ s => decide (s.toNat ≤ 3)
  | .tlbsync => true
  | .rmack _ _ => true
  | .lwake _ s => decide (1 ≤ s.toNat) && decide (s.toNat ≤ 4)
  | .idle => true
  | .setvl _ _ _ _ => true
  | .setvlw _ _ _ _ => true
  | .vadd _ _ _ _ _ => true
  | .vsub _ _ _ _ _ => true
  | .vand _ _ _ _ _ => true
  | .vor _ _ _ _ _ => true
  | .vxor _ _ _ _ _ => true
  | .vsll _ _ _ _ _ => true
  | .vsrl _ _ _ _ _ => true
  | .vsra _ _ _ _ _ => true
  | .vmul _ _ _ _ _ => true
  | .vmulh _ _ _ _ _ => true
  | .vmulhn _ _ _ _ _ => true
  | .vdiv _ _ _ _ _ => true
  | .vdivn _ _ _ _ _ => true
  | .vrem _ _ _ _ _ => true
  | .vremn _ _ _ _ _ => true
  | .vmin _ _ _ _ _ => true
  | .vmax _ _ _ _ _ => true
  | .vminn _ _ _ _ _ => true
  | .vmaxn _ _ _ _ _ => true
  | .vclmul _ _ _ _ _ => true
  | .vclmulh _ _ _ _ _ => true
  | .vwid d a _ _ => d != a
  | .vwidn d a _ _ => d != a
  | .vaddScalar _ _ _ _ _ => true
  | .vsubScalar _ _ _ _ _ => true
  | .vandScalar _ _ _ _ _ => true
  | .vorScalar _ _ _ _ _ => true
  | .vxorScalar _ _ _ _ _ => true
  | .vsllScalar _ _ _ _ _ => true
  | .vsrlScalar _ _ _ _ _ => true
  | .vsraScalar _ _ _ _ _ => true
  | .vmulScalar _ _ _ _ _ => true
  | .vmulhScalar _ _ _ _ _ => true
  | .vmulhnScalar _ _ _ _ _ => true
  | .vdivScalar _ _ _ _ _ => true
  | .vdivnScalar _ _ _ _ _ => true
  | .vremScalar _ _ _ _ _ => true
  | .vremnScalar _ _ _ _ _ => true
  | .vminScalar _ _ _ _ _ => true
  | .vmaxScalar _ _ _ _ _ => true
  | .vminnScalar _ _ _ _ _ => true
  | .vmaxnScalar _ _ _ _ _ => true
  | .vclmulScalar _ _ _ _ _ => true
  | .vclmulhScalar _ _ _ _ _ => true
  | .vsadd _ _ _ _ _ => true
  | .vssub _ _ _ _ _ => true
  | .vsaddn _ _ _ _ _ => true
  | .vssubn _ _ _ _ _ => true
  | .vnrw d a _ _ => d != a
  | .vnrwn d a _ _ => d != a
  | .vnrwsn d a _ _ => d != a
  | .vsaddScalar _ _ _ _ _ => true
  | .vssubScalar _ _ _ _ _ => true
  | .vsaddnScalar _ _ _ _ _ => true
  | .vssubnScalar _ _ _ _ _ => true
  | .vfadd _ _ _ _ _ _ => true
  | .vfsub _ _ _ _ _ _ => true
  | .vfmul _ _ _ _ _ _ => true
  | .vfma _ _ _ _ _ _ => true
  | .vfms _ _ _ _ _ _ => true
  | .vfnma _ _ _ _ _ _ => true
  | .vfdiv _ _ _ _ _ _ => true
  | .vfsqrt _ _ _ _ _ => true
  | .vfmin _ _ _ _ _ _ => true
  | .vfmax _ _ _ _ _ _ => true
  | .vfrcp _ _ _ _ _ => true
  | .vfaddScalar _ _ _ _ _ _ => true
  | .vfsubScalar _ _ _ _ _ _ => true
  | .vfmulScalar _ _ _ _ _ _ => true
  | .vfmaScalar _ _ _ _ _ _ => true
  | .vfmsScalar _ _ _ _ _ _ => true
  | .vfnmaScalar _ _ _ _ _ _ => true
  | .vfdivScalar _ _ _ _ _ _ => true
  | .vfsqrtScalar _ _ _ _ _ => true
  | .vfminScalar _ _ _ _ _ _ => true
  | .vfmaxScalar _ _ _ _ _ _ => true
  | .vfrcpScalar _ _ _ _ _ => true
  | .vcmp d _ _ _ q _ => decide (q.toNat ≤ 9) && isMask d
  | .vcmps d _ _ _ q _ => decide (q.toNat ≤ 9) && isMask d
  | .vfcmp d _ _ _ q _ _ => decide (q.toNat ≤ 4) && isMask d
  | .vfcmps d _ _ _ q _ _ => decide (q.toNat ≤ 4) && isMask d
  | .vmerge _ _ _ k _ => k != 0
  | .vmv _ _ _ _ => true
  | .vbcast _ _ _ _ => true
  | .vextN _ _ _ _ => true
  | .vextI _ _ _ _ => true
  | .vslideup _ _ _ _ _ => true
  | .vslidedn _ _ _ _ _ => true
  | .vperm _ _ _ _ _ => true
  | .vcompress _ _ _ _ => true
  | .vexpand _ _ _ _ => true
  | .viota _ _ _ => true
  | .vconf d _ _ _ => isMask d
  | .vredsum _ _ _ _ _ => true
  | .vredmaxI _ _ _ _ _ => true
  | .vredmaxN _ _ _ _ _ => true
  | .vredminI _ _ _ _ _ => true
  | .vredminN _ _ _ _ _ => true
  | .vfredsum _ _ _ _ _ _ => true
  | .vredmaxF _ _ _ _ _ _ => true
  | .vredminF _ _ _ _ _ _ => true
  | .vcvt d a t s _ _ g _ => cvtWellFormed d a (t == 1) g.toNat s.toNat
  | .vqnt d a b _ _ _ => qntWellFormed d a b
  | .vdqnt d a b _ _ _ => qntWellFormed d a b
  | .mand d a b _ _ => isMask d && isMask a && isMask b
  | .mor d a b _ _ => isMask d && isMask a && isMask b
  | .mxor d a b _ _ => isMask d && isMask a && isMask b
  | .mnot d a _ _ => isMask d && isMask a
  | .mpopc _ a _ _ => isMask a
  | .mfirst _ a _ _ => isMask a
  | .mseti d _ _ => isMask d
  | .mvfm d _ => isMask d
  | .vld _ _ _ _ _ o _ => o != 3
  | .vlds _ _ _ _ _ _ o _ => o != 3
  | .vldx _ _ _ _ _ _ o _ => o != 3
  | .vldff _ _ _ _ _ o => o == 0 || o == 2
  | .vst _ _ _ _ _ o _ => o != 2
  | .vsts _ _ _ _ _ _ o _ => o != 2
  | .vstx _ _ _ _ _ _ o _ => o != 2
  | .vstxa _ f _ _ _ _ s o _ => (o == 0 || o == 3) && !(f == 1 && s == 0)
  | .vgll _ _ _ _ _ _ o _ => o == 0 || o == 2
  | .vscc _ _ _ k _ _ o _ => (o == 0 || o == 3) && k != 0
  | .vamoWAdd d _ x _ o => vamoWellFormed d x o false
  | .vamoWAnd d _ x _ o => vamoWellFormed d x o false
  | .vamoWOr d _ x _ o => vamoWellFormed d x o false
  | .vamoWXor d _ x _ o => vamoWellFormed d x o false
  | .vamoWMin d _ x _ o => vamoWellFormed d x o false
  | .vamoWMax d _ x _ o => vamoWellFormed d x o false
  | .vamoWMinn d _ x _ o => vamoWellFormed d x o false
  | .vamoWMaxn d _ x _ o => vamoWellFormed d x o false
  | .vamoWSwap d _ x _ o => vamoWellFormed d x o false
  | .vamoWCas d _ x _ o => vamoWellFormed d x o true
  | .vamoDAdd d _ x _ o => vamoWellFormed d x o false
  | .vamoDAnd d _ x _ o => vamoWellFormed d x o false
  | .vamoDOr d _ x _ o => vamoWellFormed d x o false
  | .vamoDXor d _ x _ o => vamoWellFormed d x o false
  | .vamoDMin d _ x _ o => vamoWellFormed d x o false
  | .vamoDMax d _ x _ o => vamoWellFormed d x o false
  | .vamoDMinn d _ x _ o => vamoWellFormed d x o false
  | .vamoDMaxn d _ x _ o => vamoWellFormed d x o false
  | .vamoDSwap d _ x _ o => vamoWellFormed d x o false
  | .vamoDCas d _ x _ o => vamoWellFormed d x o true
  | .vwait _ _ _ _ _ q => decide (q.toNat ≤ 5)
  | .tagl _ _ _ => true
  | .tagw _ _ _ => true
  | .vspill _ _ _ => true
  | .vfill _ _ => true
  | .matt _ _ => true
  | .mdet => true
  | .mmode _ _ => true
  | .mzero d => isTile d
  | .mopa d _ _ _ _ _ => isTile d
  | .mopa2 d _ _ _ _ _ => isTile d
  | .mopa4 d _ _ _ _ _ => isTile d
  | .mops d _ _ _ => isTile d
  | .mopg d a _ _ _ _ => isTile d && a.toNat % 2 == 0
  | .mopq d _ _ _ => isTile d
  | .mrd _ _ _ => true
  | .mwr _ _ _ => true
  | .mcbl _ => true
  | .mrll _ => true
  | .msave _ => true
  | .mrest _ => true
  | .schIn d _ _ => isQueue d
  | .schOut d _ _ => isQueue d
  | .schRel d => isQueue d
  | .sld d _ => isQueue d
  | .sst d _ => isQueue d
  | .sgath d _ _ _ => isQueue d
  | .sscat d _ _ _ => isQueue d
  | .sscataInt d _ _ _ => isQueue d
  | .sscataFloat d _ _ _ => isQueue d
  | .swm _ _ b => isQueue b
  | .sdrain b => isQueue b
  | .sdrainAll => true
  | .rcfg _ _ _ => true
  | .rwait _ _ _ _ => true
  | .rfree _ _ _ => true
  | .chcfg _ _ _ => true
  | .run _ _ => true
  | .chwait _ _ => true
  | .chbrk _ _ => true
  | .hwpub _ _ _ _ => true
  | .tkpush _ _ => true
  | .tkpop _ => true
  | .qwr d _ => isQueue d
  | .qrd _ a => isQueue a
  | .launch _ _ => true

end Sys2Proof
end

