-- ==== Sys2Proof/Decode.lean ====
section
/-! DEFINITION. The decoder, from the formats of 02 R47 and the opcode map of 02 R54 and R55, and after it the encoder.
A word is decoded by its major opcode, then by its function code or selector; every bit that a row fixes is checked, and
then the reserved values and combinations of `Instr.wellFormed`. The decoder is marked noncomputable only because Lean
generates no code for the constructors past the 245th; the kernel evaluates it on numerals. -/
namespace Sys2Proof

/-- The field of `w` bits at bit `lo` of an instruction word (02 R47). -/
def fld (n lo w : Nat) : Nat := n / 2 ^ lo % 2 ^ w

/-- Why a word is no instruction although its major opcode is assigned: both fates are ILLEGAL (02 R56). -/
inductive Reject where
  /-- A reserved field value, function code or combination, or a C bit on an instruction that takes none (02 R50, R51). -/
  | reserved
  deriving DecidableEq, Repr

/-- Opcode 0x01: the members that bits [31:23] select (02 R55). -/
noncomputable def decode0x01 (n : Nat) : Option Instr :=
  match fld n 23 9 with
  | 0 => if fld n 7 1 = 0 then some (.add (BitVec.ofNat 5 (fld n 8 5)) (BitVec.ofNat 5 (fld n 13 5)) (BitVec.ofNat 5 (fld n 18 5))) else none
  | 1 => if fld n 7 1 = 0 then some (.sub (BitVec.ofNat 5 (fld n 8 5)) (BitVec.ofNat 5 (fld n 13 5)) (BitVec.ofNat 5 (fld n 18 5))) else none
  | 2 => if fld n 7 1 = 0 then some (.and (BitVec.ofNat 5 (fld n 8 5)) (BitVec.ofNat 5 (fld n 13 5)) (BitVec.ofNat 5 (fld n 18 5))) else none
  | 3 => if fld n 7 1 = 0 then some (.or (BitVec.ofNat 5 (fld n 8 5)) (BitVec.ofNat 5 (fld n 13 5)) (BitVec.ofNat 5 (fld n 18 5))) else none
  | 4 => if fld n 7 1 = 0 then some (.xor (BitVec.ofNat 5 (fld n 8 5)) (BitVec.ofNat 5 (fld n 13 5)) (BitVec.ofNat 5 (fld n 18 5))) else none
  | 5 => if fld n 7 1 = 0 then some (.sll (BitVec.ofNat 5 (fld n 8 5)) (BitVec.ofNat 5 (fld n 13 5)) (BitVec.ofNat 5 (fld n 18 5))) else none
  | 6 => if fld n 7 1 = 0 then some (.srl (BitVec.ofNat 5 (fld n 8 5)) (BitVec.ofNat 5 (fld n 13 5)) (BitVec.ofNat 5 (fld n 18 5))) else none
  | 7 => if fld n 7 1 = 0 then some (.sra (BitVec.ofNat 5 (fld n 8 5)) (BitVec.ofNat 5 (fld n 13 5)) (BitVec.ofNat 5 (fld n 18 5))) else none
  | 8 => if fld n 7 1 = 0 then some (.slt (BitVec.ofNat 5 (fld n 8 5)) (BitVec.ofNat 5 (fld n 13 5)) (BitVec.ofNat 5 (fld n 18 5))) else none
  | 9 => if fld n 7 1 = 0 then some (.sltn (BitVec.ofNat 5 (fld n 8 5)) (BitVec.ofNat 5 (fld n 13 5)) (BitVec.ofNat 5 (fld n 18 5))) else none
  | 10 => if fld n 7 1 = 0 then some (.mul (BitVec.ofNat 5 (fld n 8 5)) (BitVec.ofNat 5 (fld n 13 5)) (BitVec.ofNat 5 (fld n 18 5))) else none
  | 11 => if fld n 7 1 = 0 then some (.mulh (BitVec.ofNat 5 (fld n 8 5)) (BitVec.ofNat 5 (fld n 13 5)) (BitVec.ofNat 5 (fld n 18 5))) else none
  | 12 => if fld n 7 1 = 0 then some (.mulhn (BitVec.ofNat 5 (fld n 8 5)) (BitVec.ofNat 5 (fld n 13 5)) (BitVec.ofNat 5 (fld n 18 5))) else none
  | 13 => if fld n 7 1 = 0 then some (.div (BitVec.ofNat 5 (fld n 8 5)) (BitVec.ofNat 5 (fld n 13 5)) (BitVec.ofNat 5 (fld n 18 5))) else none
  | 14 => if fld n 7 1 = 0 then some (.divn (BitVec.ofNat 5 (fld n 8 5)) (BitVec.ofNat 5 (fld n 13 5)) (BitVec.ofNat 5 (fld n 18 5))) else none
  | 15 => if fld n 7 1 = 0 then some (.rem (BitVec.ofNat 5 (fld n 8 5)) (BitVec.ofNat 5 (fld n 13 5)) (BitVec.ofNat 5 (fld n 18 5))) else none
  | 16 => if fld n 7 1 = 0 then some (.remn (BitVec.ofNat 5 (fld n 8 5)) (BitVec.ofNat 5 (fld n 13 5)) (BitVec.ofNat 5 (fld n 18 5))) else none
  | 17 => if fld n 7 1 = 0 then some (.min (BitVec.ofNat 5 (fld n 8 5)) (BitVec.ofNat 5 (fld n 13 5)) (BitVec.ofNat 5 (fld n 18 5))) else none
  | 18 => if fld n 7 1 = 0 then some (.max (BitVec.ofNat 5 (fld n 8 5)) (BitVec.ofNat 5 (fld n 13 5)) (BitVec.ofNat 5 (fld n 18 5))) else none
  | 19 => if fld n 7 1 = 0 then some (.minn (BitVec.ofNat 5 (fld n 8 5)) (BitVec.ofNat 5 (fld n 13 5)) (BitVec.ofNat 5 (fld n 18 5))) else none
  | 20 => if fld n 7 1 = 0 then some (.maxn (BitVec.ofNat 5 (fld n 8 5)) (BitVec.ofNat 5 (fld n 13 5)) (BitVec.ofNat 5 (fld n 18 5))) else none
  | 21 => if fld n 7 1 = 0 ∧ fld n 18 5 = 0 then some (.clz (BitVec.ofNat 5 (fld n 8 5)) (BitVec.ofNat 5 (fld n 13 5))) else none
  | 22 => if fld n 7 1 = 0 ∧ fld n 18 5 = 0 then some (.ctz (BitVec.ofNat 5 (fld n 8 5)) (BitVec.ofNat 5 (fld n 13 5))) else none
  | 23 => if fld n 7 1 = 0 ∧ fld n 18 5 = 0 then some (.popc (BitVec.ofNat 5 (fld n 8 5)) (BitVec.ofNat 5 (fld n 13 5))) else none
  | 24 => if fld n 7 1 = 0 ∧ fld n 18 5 = 0 then some (.bswap (BitVec.ofNat 5 (fld n 8 5)) (BitVec.ofNat 5 (fld n 13 5))) else none
  | 25 => if fld n 7 1 = 0 then some (.rotl (BitVec.ofNat 5 (fld n 8 5)) (BitVec.ofNat 5 (fld n 13 5)) (BitVec.ofNat 5 (fld n 18 5))) else none
  | 26 => if fld n 7 1 = 0 then some (.rotr (BitVec.ofNat 5 (fld n 8 5)) (BitVec.ofNat 5 (fld n 13 5)) (BitVec.ofNat 5 (fld n 18 5))) else none
  | 27 => if fld n 7 1 = 0 then some (.sel (BitVec.ofNat 5 (fld n 8 5)) (BitVec.ofNat 5 (fld n 13 5)) (BitVec.ofNat 5 (fld n 18 5))) else none
  | _ => none

/-- Opcode 0x08: the members that bits [31:24] select (02 R55). -/
noncomputable def decode0x08 (n : Nat) : Option Instr :=
  match fld n 24 8 with
  | 0 => if fld n 7 1 = 0 then some (.slli (BitVec.ofNat 5 (fld n 8 5)) (BitVec.ofNat 5 (fld n 13 5)) (BitVec.ofNat 6 (fld n 18 6))) else none
  | 1 => if fld n 7 1 = 0 then some (.srli (BitVec.ofNat 5 (fld n 8 5)) (BitVec.ofNat 5 (fld n 13 5)) (BitVec.ofNat 6 (fld n 18 6))) else none
  | 2 => if fld n 7 1 = 0 then some (.srai (BitVec.ofNat 5 (fld n 8 5)) (BitVec.ofNat 5 (fld n 13 5)) (BitVec.ofNat 6 (fld n 18 6))) else none
  | 3 => if fld n 7 1 = 0 then some (.rotri (BitVec.ofNat 5 (fld n 8 5)) (BitVec.ofNat 5 (fld n 13 5)) (BitVec.ofNat 6 (fld n 18 6))) else none
  | _ => none

/-- Opcode 0x1E: the members that bits [26:23] select (02 R55). -/
noncomputable def decode0x1E (n : Nat) : Option Instr :=
  match fld n 23 4 with
  | 0 => if fld n 7 1 = 0 ∧ fld n 30 2 = 0 then some (.amoAdd (BitVec.ofNat 5 (fld n 8 5)) (BitVec.ofNat 5 (fld n 13 5)) (BitVec.ofNat 5 (fld n 18 5)) (BitVec.ofNat 1 (fld n 27 1)) (BitVec.ofNat 2 (fld n 28 2))) else none
  | 1 => if fld n 7 1 = 0 ∧ fld n 30 2 = 0 then some (.amoAnd (BitVec.ofNat 5 (fld n 8 5)) (BitVec.ofNat 5 (fld n 13 5)) (BitVec.ofNat 5 (fld n 18 5)) (BitVec.ofNat 1 (fld n 27 1)) (BitVec.ofNat 2 (fld n 28 2))) else none
  | 2 => if fld n 7 1 = 0 ∧ fld n 30 2 = 0 then some (.amoOr (BitVec.ofNat 5 (fld n 8 5)) (BitVec.ofNat 5 (fld n 13 5)) (BitVec.ofNat 5 (fld n 18 5)) (BitVec.ofNat 1 (fld n 27 1)) (BitVec.ofNat 2 (fld n 28 2))) else none
  | 3 => if fld n 7 1 = 0 ∧ fld n 30 2 = 0 then some (.amoXor (BitVec.ofNat 5 (fld n 8 5)) (BitVec.ofNat 5 (fld n 13 5)) (BitVec.ofNat 5 (fld n 18 5)) (BitVec.ofNat 1 (fld n 27 1)) (BitVec.ofNat 2 (fld n 28 2))) else none
  | 4 => if fld n 7 1 = 0 ∧ fld n 30 2 = 0 then some (.amoMin (BitVec.ofNat 5 (fld n 8 5)) (BitVec.ofNat 5 (fld n 13 5)) (BitVec.ofNat 5 (fld n 18 5)) (BitVec.ofNat 1 (fld n 27 1)) (BitVec.ofNat 2 (fld n 28 2))) else none
  | 5 => if fld n 7 1 = 0 ∧ fld n 30 2 = 0 then some (.amoMax (BitVec.ofNat 5 (fld n 8 5)) (BitVec.ofNat 5 (fld n 13 5)) (BitVec.ofNat 5 (fld n 18 5)) (BitVec.ofNat 1 (fld n 27 1)) (BitVec.ofNat 2 (fld n 28 2))) else none
  | 6 => if fld n 7 1 = 0 ∧ fld n 30 2 = 0 then some (.amoMinn (BitVec.ofNat 5 (fld n 8 5)) (BitVec.ofNat 5 (fld n 13 5)) (BitVec.ofNat 5 (fld n 18 5)) (BitVec.ofNat 1 (fld n 27 1)) (BitVec.ofNat 2 (fld n 28 2))) else none
  | 7 => if fld n 7 1 = 0 ∧ fld n 30 2 = 0 then some (.amoMaxn (BitVec.ofNat 5 (fld n 8 5)) (BitVec.ofNat 5 (fld n 13 5)) (BitVec.ofNat 5 (fld n 18 5)) (BitVec.ofNat 1 (fld n 27 1)) (BitVec.ofNat 2 (fld n 28 2))) else none
  | 8 => if fld n 7 1 = 0 ∧ fld n 30 2 = 0 then some (.amoSwap (BitVec.ofNat 5 (fld n 8 5)) (BitVec.ofNat 5 (fld n 13 5)) (BitVec.ofNat 5 (fld n 18 5)) (BitVec.ofNat 1 (fld n 27 1)) (BitVec.ofNat 2 (fld n 28 2))) else none
  | 9 => if fld n 7 1 = 0 ∧ fld n 30 2 = 0 then some (.amoCas (BitVec.ofNat 5 (fld n 8 5)) (BitVec.ofNat 5 (fld n 13 5)) (BitVec.ofNat 5 (fld n 18 5)) (BitVec.ofNat 1 (fld n 27 1)) (BitVec.ofNat 2 (fld n 28 2))) else none
  | _ => none

/-- Opcode 0x1F: the members that bits [25:23] select (02 R55). -/
noncomputable def decode0x1F (n : Nat) : Option Instr :=
  match fld n 23 3 with
  | 0 => if fld n 7 1 = 0 ∧ fld n 30 2 = 0 then some (.fadd (BitVec.ofNat 5 (fld n 8 5)) (BitVec.ofNat 5 (fld n 13 5)) (BitVec.ofNat 5 (fld n 18 5)) (BitVec.ofNat 1 (fld n 26 1)) (BitVec.ofNat 3 (fld n 27 3))) else none
  | 1 => if fld n 7 1 = 0 ∧ fld n 30 2 = 0 then some (.fmul (BitVec.ofNat 5 (fld n 8 5)) (BitVec.ofNat 5 (fld n 13 5)) (BitVec.ofNat 5 (fld n 18 5)) (BitVec.ofNat 1 (fld n 26 1)) (BitVec.ofNat 3 (fld n 27 3))) else none
  | 2 => if fld n 7 1 = 0 ∧ fld n 30 2 = 0 then some (.ffma (BitVec.ofNat 5 (fld n 8 5)) (BitVec.ofNat 5 (fld n 13 5)) (BitVec.ofNat 5 (fld n 18 5)) (BitVec.ofNat 1 (fld n 26 1)) (BitVec.ofNat 3 (fld n 27 3))) else none
  | 3 => if fld n 7 1 = 0 ∧ fld n 30 2 = 0 then some (.fcvt (BitVec.ofNat 5 (fld n 8 5)) (BitVec.ofNat 5 (fld n 13 5)) (BitVec.ofNat 5 (fld n 18 5)) (BitVec.ofNat 1 (fld n 26 1)) (BitVec.ofNat 3 (fld n 27 3))) else none
  | 4 => if fld n 7 1 = 0 ∧ fld n 27 3 = 0 then some (.fcmp (BitVec.ofNat 5 (fld n 8 5)) (BitVec.ofNat 5 (fld n 13 5)) (BitVec.ofNat 5 (fld n 18 5)) (BitVec.ofNat 1 (fld n 26 1)) (BitVec.ofNat 2 (fld n 30 2))) else none
  | _ => none

/-- Opcode 0x20: the members that bits [28:28] select (02 R55). -/
noncomputable def decode0x20 (n : Nat) : Option Instr :=
  match fld n 28 1 with
  | 0 => if fld n 7 1 = 0 ∧ fld n 23 3 = 0 ∧ fld n 29 3 = 0 then some (.setvl (BitVec.ofNat 5 (fld n 8 5)) (BitVec.ofNat 5 (fld n 13 5)) (BitVec.ofNat 5 (fld n 18 5)) (BitVec.ofNat 2 (fld n 26 2))) else none
  | 1 => if fld n 7 1 = 0 ∧ fld n 23 3 = 0 ∧ fld n 29 3 = 0 then some (.setvlw (BitVec.ofNat 5 (fld n 8 5)) (BitVec.ofNat 5 (fld n 13 5)) (BitVec.ofNat 5 (fld n 18 5)) (BitVec.ofNat 2 (fld n 26 2))) else none
  | _ => none

/-- Opcode 0x21: the members that bits [31:26] select (02 R55). -/
def decode0x21 (n : Nat) : Option Instr :=
  match fld n 26 6 with
  | 0 => some (.vadd (BitVec.ofNat 5 (fld n 8 5)) (BitVec.ofNat 5 (fld n 13 5)) (BitVec.ofNat 5 (fld n 18 5)) (BitVec.ofNat 3 (fld n 23 3)) (BitVec.ofNat 1 (fld n 7 1)))
  | 1 => some (.vsub (BitVec.ofNat 5 (fld n 8 5)) (BitVec.ofNat 5 (fld n 13 5)) (BitVec.ofNat 5 (fld n 18 5)) (BitVec.ofNat 3 (fld n 23 3)) (BitVec.ofNat 1 (fld n 7 1)))
  | 2 => some (.vand (BitVec.ofNat 5 (fld n 8 5)) (BitVec.ofNat 5 (fld n 13 5)) (BitVec.ofNat 5 (fld n 18 5)) (BitVec.ofNat 3 (fld n 23 3)) (BitVec.ofNat 1 (fld n 7 1)))
  | 3 => some (.vor (BitVec.ofNat 5 (fld n 8 5)) (BitVec.ofNat 5 (fld n 13 5)) (BitVec.ofNat 5 (fld n 18 5)) (BitVec.ofNat 3 (fld n 23 3)) (BitVec.ofNat 1 (fld n 7 1)))
  | 4 => some (.vxor (BitVec.ofNat 5 (fld n 8 5)) (BitVec.ofNat 5 (fld n 13 5)) (BitVec.ofNat 5 (fld n 18 5)) (BitVec.ofNat 3 (fld n 23 3)) (BitVec.ofNat 1 (fld n 7 1)))
  | 5 => some (.vsll (BitVec.ofNat 5 (fld n 8 5)) (BitVec.ofNat 5 (fld n 13 5)) (BitVec.ofNat 5 (fld n 18 5)) (BitVec.ofNat 3 (fld n 23 3)) (BitVec.ofNat 1 (fld n 7 1)))
  | 6 => some (.vsrl (BitVec.ofNat 5 (fld n 8 5)) (BitVec.ofNat 5 (fld n 13 5)) (BitVec.ofNat 5 (fld n 18 5)) (BitVec.ofNat 3 (fld n 23 3)) (BitVec.ofNat 1 (fld n 7 1)))
  | 7 => some (.vsra (BitVec.ofNat 5 (fld n 8 5)) (BitVec.ofNat 5 (fld n 13 5)) (BitVec.ofNat 5 (fld n 18 5)) (BitVec.ofNat 3 (fld n 23 3)) (BitVec.ofNat 1 (fld n 7 1)))
  | 8 => some (.vmul (BitVec.ofNat 5 (fld n 8 5)) (BitVec.ofNat 5 (fld n 13 5)) (BitVec.ofNat 5 (fld n 18 5)) (BitVec.ofNat 3 (fld n 23 3)) (BitVec.ofNat 1 (fld n 7 1)))
  | 9 => some (.vmulh (BitVec.ofNat 5 (fld n 8 5)) (BitVec.ofNat 5 (fld n 13 5)) (BitVec.ofNat 5 (fld n 18 5)) (BitVec.ofNat 3 (fld n 23 3)) (BitVec.ofNat 1 (fld n 7 1)))
  | 10 => some (.vmulhn (BitVec.ofNat 5 (fld n 8 5)) (BitVec.ofNat 5 (fld n 13 5)) (BitVec.ofNat 5 (fld n 18 5)) (BitVec.ofNat 3 (fld n 23 3)) (BitVec.ofNat 1 (fld n 7 1)))
  | 11 => some (.vdiv (BitVec.ofNat 5 (fld n 8 5)) (BitVec.ofNat 5 (fld n 13 5)) (BitVec.ofNat 5 (fld n 18 5)) (BitVec.ofNat 3 (fld n 23 3)) (BitVec.ofNat 1 (fld n 7 1)))
  | 12 => some (.vdivn (BitVec.ofNat 5 (fld n 8 5)) (BitVec.ofNat 5 (fld n 13 5)) (BitVec.ofNat 5 (fld n 18 5)) (BitVec.ofNat 3 (fld n 23 3)) (BitVec.ofNat 1 (fld n 7 1)))
  | 13 => some (.vrem (BitVec.ofNat 5 (fld n 8 5)) (BitVec.ofNat 5 (fld n 13 5)) (BitVec.ofNat 5 (fld n 18 5)) (BitVec.ofNat 3 (fld n 23 3)) (BitVec.ofNat 1 (fld n 7 1)))
  | 14 => some (.vremn (BitVec.ofNat 5 (fld n 8 5)) (BitVec.ofNat 5 (fld n 13 5)) (BitVec.ofNat 5 (fld n 18 5)) (BitVec.ofNat 3 (fld n 23 3)) (BitVec.ofNat 1 (fld n 7 1)))
  | 15 => some (.vmin (BitVec.ofNat 5 (fld n 8 5)) (BitVec.ofNat 5 (fld n 13 5)) (BitVec.ofNat 5 (fld n 18 5)) (BitVec.ofNat 3 (fld n 23 3)) (BitVec.ofNat 1 (fld n 7 1)))
  | 16 => some (.vmax (BitVec.ofNat 5 (fld n 8 5)) (BitVec.ofNat 5 (fld n 13 5)) (BitVec.ofNat 5 (fld n 18 5)) (BitVec.ofNat 3 (fld n 23 3)) (BitVec.ofNat 1 (fld n 7 1)))
  | 17 => some (.vminn (BitVec.ofNat 5 (fld n 8 5)) (BitVec.ofNat 5 (fld n 13 5)) (BitVec.ofNat 5 (fld n 18 5)) (BitVec.ofNat 3 (fld n 23 3)) (BitVec.ofNat 1 (fld n 7 1)))
  | 18 => some (.vmaxn (BitVec.ofNat 5 (fld n 8 5)) (BitVec.ofNat 5 (fld n 13 5)) (BitVec.ofNat 5 (fld n 18 5)) (BitVec.ofNat 3 (fld n 23 3)) (BitVec.ofNat 1 (fld n 7 1)))
  | 19 => some (.vclmul (BitVec.ofNat 5 (fld n 8 5)) (BitVec.ofNat 5 (fld n 13 5)) (BitVec.ofNat 5 (fld n 18 5)) (BitVec.ofNat 3 (fld n 23 3)) (BitVec.ofNat 1 (fld n 7 1)))
  | 20 => some (.vclmulh (BitVec.ofNat 5 (fld n 8 5)) (BitVec.ofNat 5 (fld n 13 5)) (BitVec.ofNat 5 (fld n 18 5)) (BitVec.ofNat 3 (fld n 23 3)) (BitVec.ofNat 1 (fld n 7 1)))
  | 21 => if fld n 18 5 = 0 then some (.vwid (BitVec.ofNat 5 (fld n 8 5)) (BitVec.ofNat 5 (fld n 13 5)) (BitVec.ofNat 3 (fld n 23 3)) (BitVec.ofNat 1 (fld n 7 1))) else none
  | 22 => if fld n 18 5 = 0 then some (.vwidn (BitVec.ofNat 5 (fld n 8 5)) (BitVec.ofNat 5 (fld n 13 5)) (BitVec.ofNat 3 (fld n 23 3)) (BitVec.ofNat 1 (fld n 7 1))) else none
  | _ => none

/-- Opcode 0x22: the members that bits [31:26] select (02 R55). -/
def decode0x22 (n : Nat) : Option Instr :=
  match fld n 26 6 with
  | 0 => some (.vaddScalar (BitVec.ofNat 5 (fld n 8 5)) (BitVec.ofNat 5 (fld n 13 5)) (BitVec.ofNat 5 (fld n 18 5)) (BitVec.ofNat 3 (fld n 23 3)) (BitVec.ofNat 1 (fld n 7 1)))
  | 1 => some (.vsubScalar (BitVec.ofNat 5 (fld n 8 5)) (BitVec.ofNat 5 (fld n 13 5)) (BitVec.ofNat 5 (fld n 18 5)) (BitVec.ofNat 3 (fld n 23 3)) (BitVec.ofNat 1 (fld n 7 1)))
  | 2 => some (.vandScalar (BitVec.ofNat 5 (fld n 8 5)) (BitVec.ofNat 5 (fld n 13 5)) (BitVec.ofNat 5 (fld n 18 5)) (BitVec.ofNat 3 (fld n 23 3)) (BitVec.ofNat 1 (fld n 7 1)))
  | 3 => some (.vorScalar (BitVec.ofNat 5 (fld n 8 5)) (BitVec.ofNat 5 (fld n 13 5)) (BitVec.ofNat 5 (fld n 18 5)) (BitVec.ofNat 3 (fld n 23 3)) (BitVec.ofNat 1 (fld n 7 1)))
  | 4 => some (.vxorScalar (BitVec.ofNat 5 (fld n 8 5)) (BitVec.ofNat 5 (fld n 13 5)) (BitVec.ofNat 5 (fld n 18 5)) (BitVec.ofNat 3 (fld n 23 3)) (BitVec.ofNat 1 (fld n 7 1)))
  | 5 => some (.vsllScalar (BitVec.ofNat 5 (fld n 8 5)) (BitVec.ofNat 5 (fld n 13 5)) (BitVec.ofNat 5 (fld n 18 5)) (BitVec.ofNat 3 (fld n 23 3)) (BitVec.ofNat 1 (fld n 7 1)))
  | 6 => some (.vsrlScalar (BitVec.ofNat 5 (fld n 8 5)) (BitVec.ofNat 5 (fld n 13 5)) (BitVec.ofNat 5 (fld n 18 5)) (BitVec.ofNat 3 (fld n 23 3)) (BitVec.ofNat 1 (fld n 7 1)))
  | 7 => some (.vsraScalar (BitVec.ofNat 5 (fld n 8 5)) (BitVec.ofNat 5 (fld n 13 5)) (BitVec.ofNat 5 (fld n 18 5)) (BitVec.ofNat 3 (fld n 23 3)) (BitVec.ofNat 1 (fld n 7 1)))
  | 8 => some (.vmulScalar (BitVec.ofNat 5 (fld n 8 5)) (BitVec.ofNat 5 (fld n 13 5)) (BitVec.ofNat 5 (fld n 18 5)) (BitVec.ofNat 3 (fld n 23 3)) (BitVec.ofNat 1 (fld n 7 1)))
  | 9 => some (.vmulhScalar (BitVec.ofNat 5 (fld n 8 5)) (BitVec.ofNat 5 (fld n 13 5)) (BitVec.ofNat 5 (fld n 18 5)) (BitVec.ofNat 3 (fld n 23 3)) (BitVec.ofNat 1 (fld n 7 1)))
  | 10 => some (.vmulhnScalar (BitVec.ofNat 5 (fld n 8 5)) (BitVec.ofNat 5 (fld n 13 5)) (BitVec.ofNat 5 (fld n 18 5)) (BitVec.ofNat 3 (fld n 23 3)) (BitVec.ofNat 1 (fld n 7 1)))
  | 11 => some (.vdivScalar (BitVec.ofNat 5 (fld n 8 5)) (BitVec.ofNat 5 (fld n 13 5)) (BitVec.ofNat 5 (fld n 18 5)) (BitVec.ofNat 3 (fld n 23 3)) (BitVec.ofNat 1 (fld n 7 1)))
  | 12 => some (.vdivnScalar (BitVec.ofNat 5 (fld n 8 5)) (BitVec.ofNat 5 (fld n 13 5)) (BitVec.ofNat 5 (fld n 18 5)) (BitVec.ofNat 3 (fld n 23 3)) (BitVec.ofNat 1 (fld n 7 1)))
  | 13 => some (.vremScalar (BitVec.ofNat 5 (fld n 8 5)) (BitVec.ofNat 5 (fld n 13 5)) (BitVec.ofNat 5 (fld n 18 5)) (BitVec.ofNat 3 (fld n 23 3)) (BitVec.ofNat 1 (fld n 7 1)))
  | 14 => some (.vremnScalar (BitVec.ofNat 5 (fld n 8 5)) (BitVec.ofNat 5 (fld n 13 5)) (BitVec.ofNat 5 (fld n 18 5)) (BitVec.ofNat 3 (fld n 23 3)) (BitVec.ofNat 1 (fld n 7 1)))
  | 15 => some (.vminScalar (BitVec.ofNat 5 (fld n 8 5)) (BitVec.ofNat 5 (fld n 13 5)) (BitVec.ofNat 5 (fld n 18 5)) (BitVec.ofNat 3 (fld n 23 3)) (BitVec.ofNat 1 (fld n 7 1)))
  | 16 => some (.vmaxScalar (BitVec.ofNat 5 (fld n 8 5)) (BitVec.ofNat 5 (fld n 13 5)) (BitVec.ofNat 5 (fld n 18 5)) (BitVec.ofNat 3 (fld n 23 3)) (BitVec.ofNat 1 (fld n 7 1)))
  | 17 => some (.vminnScalar (BitVec.ofNat 5 (fld n 8 5)) (BitVec.ofNat 5 (fld n 13 5)) (BitVec.ofNat 5 (fld n 18 5)) (BitVec.ofNat 3 (fld n 23 3)) (BitVec.ofNat 1 (fld n 7 1)))
  | 18 => some (.vmaxnScalar (BitVec.ofNat 5 (fld n 8 5)) (BitVec.ofNat 5 (fld n 13 5)) (BitVec.ofNat 5 (fld n 18 5)) (BitVec.ofNat 3 (fld n 23 3)) (BitVec.ofNat 1 (fld n 7 1)))
  | 19 => some (.vclmulScalar (BitVec.ofNat 5 (fld n 8 5)) (BitVec.ofNat 5 (fld n 13 5)) (BitVec.ofNat 5 (fld n 18 5)) (BitVec.ofNat 3 (fld n 23 3)) (BitVec.ofNat 1 (fld n 7 1)))
  | 20 => some (.vclmulhScalar (BitVec.ofNat 5 (fld n 8 5)) (BitVec.ofNat 5 (fld n 13 5)) (BitVec.ofNat 5 (fld n 18 5)) (BitVec.ofNat 3 (fld n 23 3)) (BitVec.ofNat 1 (fld n 7 1)))
  | _ => none

/-- Opcode 0x23: the members that bits [31:26] select (02 R55). -/
def decode0x23 (n : Nat) : Option Instr :=
  match fld n 26 6 with
  | 0 => some (.vsadd (BitVec.ofNat 5 (fld n 8 5)) (BitVec.ofNat 5 (fld n 13 5)) (BitVec.ofNat 5 (fld n 18 5)) (BitVec.ofNat 3 (fld n 23 3)) (BitVec.ofNat 1 (fld n 7 1)))
  | 1 => some (.vssub (BitVec.ofNat 5 (fld n 8 5)) (BitVec.ofNat 5 (fld n 13 5)) (BitVec.ofNat 5 (fld n 18 5)) (BitVec.ofNat 3 (fld n 23 3)) (BitVec.ofNat 1 (fld n 7 1)))
  | 2 => some (.vsaddn (BitVec.ofNat 5 (fld n 8 5)) (BitVec.ofNat 5 (fld n 13 5)) (BitVec.ofNat 5 (fld n 18 5)) (BitVec.ofNat 3 (fld n 23 3)) (BitVec.ofNat 1 (fld n 7 1)))
  | 3 => some (.vssubn (BitVec.ofNat 5 (fld n 8 5)) (BitVec.ofNat 5 (fld n 13 5)) (BitVec.ofNat 5 (fld n 18 5)) (BitVec.ofNat 3 (fld n 23 3)) (BitVec.ofNat 1 (fld n 7 1)))
  | 4 => if fld n 18 5 = 0 then some (.vnrw (BitVec.ofNat 5 (fld n 8 5)) (BitVec.ofNat 5 (fld n 13 5)) (BitVec.ofNat 3 (fld n 23 3)) (BitVec.ofNat 1 (fld n 7 1))) else none
  | 5 => if fld n 18 5 = 0 then some (.vnrwn (BitVec.ofNat 5 (fld n 8 5)) (BitVec.ofNat 5 (fld n 13 5)) (BitVec.ofNat 3 (fld n 23 3)) (BitVec.ofNat 1 (fld n 7 1))) else none
  | 6 => if fld n 18 5 = 0 then some (.vnrwsn (BitVec.ofNat 5 (fld n 8 5)) (BitVec.ofNat 5 (fld n 13 5)) (BitVec.ofNat 3 (fld n 23 3)) (BitVec.ofNat 1 (fld n 7 1))) else none
  | _ => none

/-- Opcode 0x24: the members that bits [31:26] select (02 R55). -/
def decode0x24 (n : Nat) : Option Instr :=
  match fld n 26 6 with
  | 0 => some (.vsaddScalar (BitVec.ofNat 5 (fld n 8 5)) (BitVec.ofNat 5 (fld n 13 5)) (BitVec.ofNat 5 (fld n 18 5)) (BitVec.ofNat 3 (fld n 23 3)) (BitVec.ofNat 1 (fld n 7 1)))
  | 1 => some (.vssubScalar (BitVec.ofNat 5 (fld n 8 5)) (BitVec.ofNat 5 (fld n 13 5)) (BitVec.ofNat 5 (fld n 18 5)) (BitVec.ofNat 3 (fld n 23 3)) (BitVec.ofNat 1 (fld n 7 1)))
  | 2 => some (.vsaddnScalar (BitVec.ofNat 5 (fld n 8 5)) (BitVec.ofNat 5 (fld n 13 5)) (BitVec.ofNat 5 (fld n 18 5)) (BitVec.ofNat 3 (fld n 23 3)) (BitVec.ofNat 1 (fld n 7 1)))
  | 3 => some (.vssubnScalar (BitVec.ofNat 5 (fld n 8 5)) (BitVec.ofNat 5 (fld n 13 5)) (BitVec.ofNat 5 (fld n 18 5)) (BitVec.ofNat 3 (fld n 23 3)) (BitVec.ofNat 1 (fld n 7 1)))
  | _ => none

/-- Opcode 0x25: the members that bits [29:26] select (02 R55). -/
def decode0x25 (n : Nat) : Option Instr :=
  match fld n 26 4 with
  | 0 => if fld n 31 1 = 0 then some (.vfadd (BitVec.ofNat 5 (fld n 8 5)) (BitVec.ofNat 5 (fld n 13 5)) (BitVec.ofNat 5 (fld n 18 5)) (BitVec.ofNat 3 (fld n 23 3)) (BitVec.ofNat 1 (fld n 30 1)) (BitVec.ofNat 1 (fld n 7 1))) else none
  | 1 => if fld n 31 1 = 0 then some (.vfsub (BitVec.ofNat 5 (fld n 8 5)) (BitVec.ofNat 5 (fld n 13 5)) (BitVec.ofNat 5 (fld n 18 5)) (BitVec.ofNat 3 (fld n 23 3)) (BitVec.ofNat 1 (fld n 30 1)) (BitVec.ofNat 1 (fld n 7 1))) else none
  | 2 => if fld n 31 1 = 0 then some (.vfmul (BitVec.ofNat 5 (fld n 8 5)) (BitVec.ofNat 5 (fld n 13 5)) (BitVec.ofNat 5 (fld n 18 5)) (BitVec.ofNat 3 (fld n 23 3)) (BitVec.ofNat 1 (fld n 30 1)) (BitVec.ofNat 1 (fld n 7 1))) else none
  | 3 => if fld n 31 1 = 0 then some (.vfma (BitVec.ofNat 5 (fld n 8 5)) (BitVec.ofNat 5 (fld n 13 5)) (BitVec.ofNat 5 (fld n 18 5)) (BitVec.ofNat 3 (fld n 23 3)) (BitVec.ofNat 1 (fld n 30 1)) (BitVec.ofNat 1 (fld n 7 1))) else none
  | 4 => if fld n 31 1 = 0 then some (.vfms (BitVec.ofNat 5 (fld n 8 5)) (BitVec.ofNat 5 (fld n 13 5)) (BitVec.ofNat 5 (fld n 18 5)) (BitVec.ofNat 3 (fld n 23 3)) (BitVec.ofNat 1 (fld n 30 1)) (BitVec.ofNat 1 (fld n 7 1))) else none
  | 5 => if fld n 31 1 = 0 then some (.vfnma (BitVec.ofNat 5 (fld n 8 5)) (BitVec.ofNat 5 (fld n 13 5)) (BitVec.ofNat 5 (fld n 18 5)) (BitVec.ofNat 3 (fld n 23 3)) (BitVec.ofNat 1 (fld n 30 1)) (BitVec.ofNat 1 (fld n 7 1))) else none
  | 6 => if fld n 31 1 = 0 then some (.vfdiv (BitVec.ofNat 5 (fld n 8 5)) (BitVec.ofNat 5 (fld n 13 5)) (BitVec.ofNat 5 (fld n 18 5)) (BitVec.ofNat 3 (fld n 23 3)) (BitVec.ofNat 1 (fld n 30 1)) (BitVec.ofNat 1 (fld n 7 1))) else none
  | 7 => if fld n 18 5 = 0 ∧ fld n 31 1 = 0 then some (.vfsqrt (BitVec.ofNat 5 (fld n 8 5)) (BitVec.ofNat 5 (fld n 13 5)) (BitVec.ofNat 3 (fld n 23 3)) (BitVec.ofNat 1 (fld n 30 1)) (BitVec.ofNat 1 (fld n 7 1))) else none
  | 8 => if fld n 31 1 = 0 then some (.vfmin (BitVec.ofNat 5 (fld n 8 5)) (BitVec.ofNat 5 (fld n 13 5)) (BitVec.ofNat 5 (fld n 18 5)) (BitVec.ofNat 3 (fld n 23 3)) (BitVec.ofNat 1 (fld n 30 1)) (BitVec.ofNat 1 (fld n 7 1))) else none
  | 9 => if fld n 31 1 = 0 then some (.vfmax (BitVec.ofNat 5 (fld n 8 5)) (BitVec.ofNat 5 (fld n 13 5)) (BitVec.ofNat 5 (fld n 18 5)) (BitVec.ofNat 3 (fld n 23 3)) (BitVec.ofNat 1 (fld n 30 1)) (BitVec.ofNat 1 (fld n 7 1))) else none
  | 10 => if fld n 18 5 = 0 ∧ fld n 31 1 = 0 then some (.vfrcp (BitVec.ofNat 5 (fld n 8 5)) (BitVec.ofNat 5 (fld n 13 5)) (BitVec.ofNat 3 (fld n 23 3)) (BitVec.ofNat 1 (fld n 30 1)) (BitVec.ofNat 1 (fld n 7 1))) else none
  | _ => none

/-- Opcode 0x26: the members that bits [29:26] select (02 R55). -/
def decode0x26 (n : Nat) : Option Instr :=
  match fld n 26 4 with
  | 0 => if fld n 31 1 = 0 then some (.vfaddScalar (BitVec.ofNat 5 (fld n 8 5)) (BitVec.ofNat 5 (fld n 13 5)) (BitVec.ofNat 5 (fld n 18 5)) (BitVec.ofNat 3 (fld n 23 3)) (BitVec.ofNat 1 (fld n 30 1)) (BitVec.ofNat 1 (fld n 7 1))) else none
  | 1 => if fld n 31 1 = 0 then some (.vfsubScalar (BitVec.ofNat 5 (fld n 8 5)) (BitVec.ofNat 5 (fld n 13 5)) (BitVec.ofNat 5 (fld n 18 5)) (BitVec.ofNat 3 (fld n 23 3)) (BitVec.ofNat 1 (fld n 30 1)) (BitVec.ofNat 1 (fld n 7 1))) else none
  | 2 => if fld n 31 1 = 0 then some (.vfmulScalar (BitVec.ofNat 5 (fld n 8 5)) (BitVec.ofNat 5 (fld n 13 5)) (BitVec.ofNat 5 (fld n 18 5)) (BitVec.ofNat 3 (fld n 23 3)) (BitVec.ofNat 1 (fld n 30 1)) (BitVec.ofNat 1 (fld n 7 1))) else none
  | 3 => if fld n 31 1 = 0 then some (.vfmaScalar (BitVec.ofNat 5 (fld n 8 5)) (BitVec.ofNat 5 (fld n 13 5)) (BitVec.ofNat 5 (fld n 18 5)) (BitVec.ofNat 3 (fld n 23 3)) (BitVec.ofNat 1 (fld n 30 1)) (BitVec.ofNat 1 (fld n 7 1))) else none
  | 4 => if fld n 31 1 = 0 then some (.vfmsScalar (BitVec.ofNat 5 (fld n 8 5)) (BitVec.ofNat 5 (fld n 13 5)) (BitVec.ofNat 5 (fld n 18 5)) (BitVec.ofNat 3 (fld n 23 3)) (BitVec.ofNat 1 (fld n 30 1)) (BitVec.ofNat 1 (fld n 7 1))) else none
  | 5 => if fld n 31 1 = 0 then some (.vfnmaScalar (BitVec.ofNat 5 (fld n 8 5)) (BitVec.ofNat 5 (fld n 13 5)) (BitVec.ofNat 5 (fld n 18 5)) (BitVec.ofNat 3 (fld n 23 3)) (BitVec.ofNat 1 (fld n 30 1)) (BitVec.ofNat 1 (fld n 7 1))) else none
  | 6 => if fld n 31 1 = 0 then some (.vfdivScalar (BitVec.ofNat 5 (fld n 8 5)) (BitVec.ofNat 5 (fld n 13 5)) (BitVec.ofNat 5 (fld n 18 5)) (BitVec.ofNat 3 (fld n 23 3)) (BitVec.ofNat 1 (fld n 30 1)) (BitVec.ofNat 1 (fld n 7 1))) else none
  | 7 => if fld n 18 5 = 0 ∧ fld n 31 1 = 0 then some (.vfsqrtScalar (BitVec.ofNat 5 (fld n 8 5)) (BitVec.ofNat 5 (fld n 13 5)) (BitVec.ofNat 3 (fld n 23 3)) (BitVec.ofNat 1 (fld n 30 1)) (BitVec.ofNat 1 (fld n 7 1))) else none
  | 8 => if fld n 31 1 = 0 then some (.vfminScalar (BitVec.ofNat 5 (fld n 8 5)) (BitVec.ofNat 5 (fld n 13 5)) (BitVec.ofNat 5 (fld n 18 5)) (BitVec.ofNat 3 (fld n 23 3)) (BitVec.ofNat 1 (fld n 30 1)) (BitVec.ofNat 1 (fld n 7 1))) else none
  | 9 => if fld n 31 1 = 0 then some (.vfmaxScalar (BitVec.ofNat 5 (fld n 8 5)) (BitVec.ofNat 5 (fld n 13 5)) (BitVec.ofNat 5 (fld n 18 5)) (BitVec.ofNat 3 (fld n 23 3)) (BitVec.ofNat 1 (fld n 30 1)) (BitVec.ofNat 1 (fld n 7 1))) else none
  | 10 => if fld n 18 5 = 0 ∧ fld n 31 1 = 0 then some (.vfrcpScalar (BitVec.ofNat 5 (fld n 8 5)) (BitVec.ofNat 5 (fld n 13 5)) (BitVec.ofNat 3 (fld n 23 3)) (BitVec.ofNat 1 (fld n 30 1)) (BitVec.ofNat 1 (fld n 7 1))) else none
  | _ => none

/-- Opcode 0x2B: the members that bits [31:26] select (02 R55). -/
def decode0x2B (n : Nat) : Option Instr :=
  match fld n 26 6 with
  | 0 => some (.vmerge (BitVec.ofNat 5 (fld n 8 5)) (BitVec.ofNat 5 (fld n 13 5)) (BitVec.ofNat 5 (fld n 18 5)) (BitVec.ofNat 3 (fld n 23 3)) (BitVec.ofNat 1 (fld n 7 1)))
  | 1 => if fld n 18 5 = 0 then some (.vmv (BitVec.ofNat 5 (fld n 8 5)) (BitVec.ofNat 5 (fld n 13 5)) (BitVec.ofNat 3 (fld n 23 3)) (BitVec.ofNat 1 (fld n 7 1))) else none
  | 2 => if fld n 18 5 = 0 then some (.vbcast (BitVec.ofNat 5 (fld n 8 5)) (BitVec.ofNat 5 (fld n 13 5)) (BitVec.ofNat 3 (fld n 23 3)) (BitVec.ofNat 1 (fld n 7 1))) else none
  | 3 => if fld n 23 3 = 0 then some (.vextN (BitVec.ofNat 5 (fld n 8 5)) (BitVec.ofNat 5 (fld n 13 5)) (BitVec.ofNat 5 (fld n 18 5)) (BitVec.ofNat 1 (fld n 7 1))) else none
  | 4 => if fld n 23 3 = 0 then some (.vextI (BitVec.ofNat 5 (fld n 8 5)) (BitVec.ofNat 5 (fld n 13 5)) (BitVec.ofNat 5 (fld n 18 5)) (BitVec.ofNat 1 (fld n 7 1))) else none
  | _ => none

/-- Opcode 0x2C: the members that bits [31:26] select (02 R55). -/
def decode0x2C (n : Nat) : Option Instr :=
  match fld n 26 6 with
  | 0 => some (.vslideup (BitVec.ofNat 5 (fld n 8 5)) (BitVec.ofNat 5 (fld n 13 5)) (BitVec.ofNat 5 (fld n 18 5)) (BitVec.ofNat 3 (fld n 23 3)) (BitVec.ofNat 1 (fld n 7 1)))
  | 1 => some (.vslidedn (BitVec.ofNat 5 (fld n 8 5)) (BitVec.ofNat 5 (fld n 13 5)) (BitVec.ofNat 5 (fld n 18 5)) (BitVec.ofNat 3 (fld n 23 3)) (BitVec.ofNat 1 (fld n 7 1)))
  | 2 => some (.vperm (BitVec.ofNat 5 (fld n 8 5)) (BitVec.ofNat 5 (fld n 13 5)) (BitVec.ofNat 5 (fld n 18 5)) (BitVec.ofNat 3 (fld n 23 3)) (BitVec.ofNat 1 (fld n 7 1)))
  | 3 => if fld n 18 5 = 0 then some (.vcompress (BitVec.ofNat 5 (fld n 8 5)) (BitVec.ofNat 5 (fld n 13 5)) (BitVec.ofNat 3 (fld n 23 3)) (BitVec.ofNat 1 (fld n 7 1))) else none
  | 4 => if fld n 18 5 = 0 then some (.vexpand (BitVec.ofNat 5 (fld n 8 5)) (BitVec.ofNat 5 (fld n 13 5)) (BitVec.ofNat 3 (fld n 23 3)) (BitVec.ofNat 1 (fld n 7 1))) else none
  | 5 => if fld n 13 10 = 0 then some (.viota (BitVec.ofNat 5 (fld n 8 5)) (BitVec.ofNat 3 (fld n 23 3)) (BitVec.ofNat 1 (fld n 7 1))) else none
  | 6 => if fld n 18 5 = 0 then some (.vconf (BitVec.ofNat 5 (fld n 8 5)) (BitVec.ofNat 5 (fld n 13 5)) (BitVec.ofNat 3 (fld n 23 3)) (BitVec.ofNat 1 (fld n 7 1))) else none
  | _ => none

/-- Opcode 0x2D: the members that bits [29:26] select (02 R55). -/
def decode0x2D (n : Nat) : Option Instr :=
  match fld n 26 4 with
  | 0 => if fld n 30 2 = 0 then some (.vredsum (BitVec.ofNat 5 (fld n 8 5)) (BitVec.ofNat 5 (fld n 13 5)) (BitVec.ofNat 5 (fld n 18 5)) (BitVec.ofNat 3 (fld n 23 3)) (BitVec.ofNat 1 (fld n 7 1))) else none
  | 1 => if fld n 30 2 = 0 then some (.vredmaxI (BitVec.ofNat 5 (fld n 8 5)) (BitVec.ofNat 5 (fld n 13 5)) (BitVec.ofNat 5 (fld n 18 5)) (BitVec.ofNat 3 (fld n 23 3)) (BitVec.ofNat 1 (fld n 7 1))) else none
  | 2 => if fld n 30 2 = 0 then some (.vredmaxN (BitVec.ofNat 5 (fld n 8 5)) (BitVec.ofNat 5 (fld n 13 5)) (BitVec.ofNat 5 (fld n 18 5)) (BitVec.ofNat 3 (fld n 23 3)) (BitVec.ofNat 1 (fld n 7 1))) else none
  | 3 => if fld n 30 2 = 0 then some (.vredminI (BitVec.ofNat 5 (fld n 8 5)) (BitVec.ofNat 5 (fld n 13 5)) (BitVec.ofNat 5 (fld n 18 5)) (BitVec.ofNat 3 (fld n 23 3)) (BitVec.ofNat 1 (fld n 7 1))) else none
  | 4 => if fld n 30 2 = 0 then some (.vredminN (BitVec.ofNat 5 (fld n 8 5)) (BitVec.ofNat 5 (fld n 13 5)) (BitVec.ofNat 5 (fld n 18 5)) (BitVec.ofNat 3 (fld n 23 3)) (BitVec.ofNat 1 (fld n 7 1))) else none
  | 5 => if fld n 31 1 = 0 then some (.vfredsum (BitVec.ofNat 5 (fld n 8 5)) (BitVec.ofNat 5 (fld n 13 5)) (BitVec.ofNat 5 (fld n 18 5)) (BitVec.ofNat 3 (fld n 23 3)) (BitVec.ofNat 1 (fld n 30 1)) (BitVec.ofNat 1 (fld n 7 1))) else none
  | 6 => if fld n 31 1 = 0 then some (.vredmaxF (BitVec.ofNat 5 (fld n 8 5)) (BitVec.ofNat 5 (fld n 13 5)) (BitVec.ofNat 5 (fld n 18 5)) (BitVec.ofNat 3 (fld n 23 3)) (BitVec.ofNat 1 (fld n 30 1)) (BitVec.ofNat 1 (fld n 7 1))) else none
  | 7 => if fld n 31 1 = 0 then some (.vredminF (BitVec.ofNat 5 (fld n 8 5)) (BitVec.ofNat 5 (fld n 13 5)) (BitVec.ofNat 5 (fld n 18 5)) (BitVec.ofNat 3 (fld n 23 3)) (BitVec.ofNat 1 (fld n 30 1)) (BitVec.ofNat 1 (fld n 7 1))) else none
  | _ => none

/-- Opcode 0x31: the members that bits [31:26] select (02 R55). -/
def decode0x31 (n : Nat) : Option Instr :=
  match fld n 26 6 with
  | 0 => some (.mand (BitVec.ofNat 5 (fld n 8 5)) (BitVec.ofNat 5 (fld n 13 5)) (BitVec.ofNat 5 (fld n 18 5)) (BitVec.ofNat 3 (fld n 23 3)) (BitVec.ofNat 1 (fld n 7 1)))
  | 1 => some (.mor (BitVec.ofNat 5 (fld n 8 5)) (BitVec.ofNat 5 (fld n 13 5)) (BitVec.ofNat 5 (fld n 18 5)) (BitVec.ofNat 3 (fld n 23 3)) (BitVec.ofNat 1 (fld n 7 1)))
  | 2 => some (.mxor (BitVec.ofNat 5 (fld n 8 5)) (BitVec.ofNat 5 (fld n 13 5)) (BitVec.ofNat 5 (fld n 18 5)) (BitVec.ofNat 3 (fld n 23 3)) (BitVec.ofNat 1 (fld n 7 1)))
  | 3 => if fld n 18 5 = 0 then some (.mnot (BitVec.ofNat 5 (fld n 8 5)) (BitVec.ofNat 5 (fld n 13 5)) (BitVec.ofNat 3 (fld n 23 3)) (BitVec.ofNat 1 (fld n 7 1))) else none
  | 4 => if fld n 18 5 = 0 then some (.mpopc (BitVec.ofNat 5 (fld n 8 5)) (BitVec.ofNat 5 (fld n 13 5)) (BitVec.ofNat 3 (fld n 23 3)) (BitVec.ofNat 1 (fld n 7 1))) else none
  | 5 => if fld n 18 5 = 0 then some (.mfirst (BitVec.ofNat 5 (fld n 8 5)) (BitVec.ofNat 5 (fld n 13 5)) (BitVec.ofNat 3 (fld n 23 3)) (BitVec.ofNat 1 (fld n 7 1))) else none
  | 6 => if fld n 18 8 = 0 then some (.mseti (BitVec.ofNat 5 (fld n 8 5)) (BitVec.ofNat 5 (fld n 13 5)) (BitVec.ofNat 1 (fld n 7 1))) else none
  | 7 => if fld n 13 13 = 0 then some (.mvfm (BitVec.ofNat 5 (fld n 8 5)) (BitVec.ofNat 1 (fld n 7 1))) else none
  | _ => none

/-- Opcode 0x4A: the members that bits [29:26] select (02 R55). -/
noncomputable def decode0x4A (n : Nat) : Option Instr :=
  match fld n 26 4 with
  | 0 => if fld n 7 1 = 0 then some (.vamoWAdd (BitVec.ofNat 5 (fld n 8 5)) (BitVec.ofNat 5 (fld n 13 5)) (BitVec.ofNat 5 (fld n 18 5)) (BitVec.ofNat 3 (fld n 23 3)) (BitVec.ofNat 2 (fld n 30 2))) else none
  | 1 => if fld n 7 1 = 0 then some (.vamoWAnd (BitVec.ofNat 5 (fld n 8 5)) (BitVec.ofNat 5 (fld n 13 5)) (BitVec.ofNat 5 (fld n 18 5)) (BitVec.ofNat 3 (fld n 23 3)) (BitVec.ofNat 2 (fld n 30 2))) else none
  | 2 => if fld n 7 1 = 0 then some (.vamoWOr (BitVec.ofNat 5 (fld n 8 5)) (BitVec.ofNat 5 (fld n 13 5)) (BitVec.ofNat 5 (fld n 18 5)) (BitVec.ofNat 3 (fld n 23 3)) (BitVec.ofNat 2 (fld n 30 2))) else none
  | 3 => if fld n 7 1 = 0 then some (.vamoWXor (BitVec.ofNat 5 (fld n 8 5)) (BitVec.ofNat 5 (fld n 13 5)) (BitVec.ofNat 5 (fld n 18 5)) (BitVec.ofNat 3 (fld n 23 3)) (BitVec.ofNat 2 (fld n 30 2))) else none
  | 4 => if fld n 7 1 = 0 then some (.vamoWMin (BitVec.ofNat 5 (fld n 8 5)) (BitVec.ofNat 5 (fld n 13 5)) (BitVec.ofNat 5 (fld n 18 5)) (BitVec.ofNat 3 (fld n 23 3)) (BitVec.ofNat 2 (fld n 30 2))) else none
  | 5 => if fld n 7 1 = 0 then some (.vamoWMax (BitVec.ofNat 5 (fld n 8 5)) (BitVec.ofNat 5 (fld n 13 5)) (BitVec.ofNat 5 (fld n 18 5)) (BitVec.ofNat 3 (fld n 23 3)) (BitVec.ofNat 2 (fld n 30 2))) else none
  | 6 => if fld n 7 1 = 0 then some (.vamoWMinn (BitVec.ofNat 5 (fld n 8 5)) (BitVec.ofNat 5 (fld n 13 5)) (BitVec.ofNat 5 (fld n 18 5)) (BitVec.ofNat 3 (fld n 23 3)) (BitVec.ofNat 2 (fld n 30 2))) else none
  | 7 => if fld n 7 1 = 0 then some (.vamoWMaxn (BitVec.ofNat 5 (fld n 8 5)) (BitVec.ofNat 5 (fld n 13 5)) (BitVec.ofNat 5 (fld n 18 5)) (BitVec.ofNat 3 (fld n 23 3)) (BitVec.ofNat 2 (fld n 30 2))) else none
  | 8 => if fld n 7 1 = 0 then some (.vamoWSwap (BitVec.ofNat 5 (fld n 8 5)) (BitVec.ofNat 5 (fld n 13 5)) (BitVec.ofNat 5 (fld n 18 5)) (BitVec.ofNat 3 (fld n 23 3)) (BitVec.ofNat 2 (fld n 30 2))) else none
  | 9 => if fld n 7 1 = 0 then some (.vamoWCas (BitVec.ofNat 5 (fld n 8 5)) (BitVec.ofNat 5 (fld n 13 5)) (BitVec.ofNat 5 (fld n 18 5)) (BitVec.ofNat 3 (fld n 23 3)) (BitVec.ofNat 2 (fld n 30 2))) else none
  | _ => none

/-- Opcode 0x4B: the members that bits [29:26] select (02 R55). -/
noncomputable def decode0x4B (n : Nat) : Option Instr :=
  match fld n 26 4 with
  | 0 => if fld n 7 1 = 0 then some (.vamoDAdd (BitVec.ofNat 5 (fld n 8 5)) (BitVec.ofNat 5 (fld n 13 5)) (BitVec.ofNat 5 (fld n 18 5)) (BitVec.ofNat 3 (fld n 23 3)) (BitVec.ofNat 2 (fld n 30 2))) else none
  | 1 => if fld n 7 1 = 0 then some (.vamoDAnd (BitVec.ofNat 5 (fld n 8 5)) (BitVec.ofNat 5 (fld n 13 5)) (BitVec.ofNat 5 (fld n 18 5)) (BitVec.ofNat 3 (fld n 23 3)) (BitVec.ofNat 2 (fld n 30 2))) else none
  | 2 => if fld n 7 1 = 0 then some (.vamoDOr (BitVec.ofNat 5 (fld n 8 5)) (BitVec.ofNat 5 (fld n 13 5)) (BitVec.ofNat 5 (fld n 18 5)) (BitVec.ofNat 3 (fld n 23 3)) (BitVec.ofNat 2 (fld n 30 2))) else none
  | 3 => if fld n 7 1 = 0 then some (.vamoDXor (BitVec.ofNat 5 (fld n 8 5)) (BitVec.ofNat 5 (fld n 13 5)) (BitVec.ofNat 5 (fld n 18 5)) (BitVec.ofNat 3 (fld n 23 3)) (BitVec.ofNat 2 (fld n 30 2))) else none
  | 4 => if fld n 7 1 = 0 then some (.vamoDMin (BitVec.ofNat 5 (fld n 8 5)) (BitVec.ofNat 5 (fld n 13 5)) (BitVec.ofNat 5 (fld n 18 5)) (BitVec.ofNat 3 (fld n 23 3)) (BitVec.ofNat 2 (fld n 30 2))) else none
  | 5 => if fld n 7 1 = 0 then some (.vamoDMax (BitVec.ofNat 5 (fld n 8 5)) (BitVec.ofNat 5 (fld n 13 5)) (BitVec.ofNat 5 (fld n 18 5)) (BitVec.ofNat 3 (fld n 23 3)) (BitVec.ofNat 2 (fld n 30 2))) else none
  | 6 => if fld n 7 1 = 0 then some (.vamoDMinn (BitVec.ofNat 5 (fld n 8 5)) (BitVec.ofNat 5 (fld n 13 5)) (BitVec.ofNat 5 (fld n 18 5)) (BitVec.ofNat 3 (fld n 23 3)) (BitVec.ofNat 2 (fld n 30 2))) else none
  | 7 => if fld n 7 1 = 0 then some (.vamoDMaxn (BitVec.ofNat 5 (fld n 8 5)) (BitVec.ofNat 5 (fld n 13 5)) (BitVec.ofNat 5 (fld n 18 5)) (BitVec.ofNat 3 (fld n 23 3)) (BitVec.ofNat 2 (fld n 30 2))) else none
  | 8 => if fld n 7 1 = 0 then some (.vamoDSwap (BitVec.ofNat 5 (fld n 8 5)) (BitVec.ofNat 5 (fld n 13 5)) (BitVec.ofNat 5 (fld n 18 5)) (BitVec.ofNat 3 (fld n 23 3)) (BitVec.ofNat 2 (fld n 30 2))) else none
  | 9 => if fld n 7 1 = 0 then some (.vamoDCas (BitVec.ofNat 5 (fld n 8 5)) (BitVec.ofNat 5 (fld n 13 5)) (BitVec.ofNat 5 (fld n 18 5)) (BitVec.ofNat 3 (fld n 23 3)) (BitVec.ofNat 2 (fld n 30 2))) else none
  | _ => none

/-- Opcode 0x4D: the members that bits [31:26] select (02 R55). -/
noncomputable def decode0x4D (n : Nat) : Option Instr :=
  match fld n 26 6 with
  | 0 => if fld n 7 1 = 0 ∧ fld n 18 5 = 0 then some (.tagl (BitVec.ofNat 5 (fld n 8 5)) (BitVec.ofNat 5 (fld n 13 5)) (BitVec.ofNat 3 (fld n 23 3))) else none
  | 1 => if fld n 7 6 = 0 then some (.tagw (BitVec.ofNat 5 (fld n 13 5)) (BitVec.ofNat 5 (fld n 18 5)) (BitVec.ofNat 3 (fld n 23 3))) else none
  | _ => none

/-- Opcode 0x50: the members that bits [31:26] select (02 R55). -/
noncomputable def decode0x50 (n : Nat) : Option Instr :=
  match fld n 26 6 with
  | 0 => if fld n 7 1 = 0 ∧ fld n 18 8 = 0 then some (.matt (BitVec.ofNat 5 (fld n 8 5)) (BitVec.ofNat 5 (fld n 13 5))) else none
  | 1 => if fld n 7 19 = 0 then some (.mdet) else none
  | 2 => if fld n 7 1 = 0 ∧ fld n 18 8 = 0 then some (.mmode (BitVec.ofNat 5 (fld n 8 5)) (BitVec.ofNat 5 (fld n 13 5))) else none
  | 3 => if fld n 7 1 = 0 ∧ fld n 13 13 = 0 then some (.mzero (BitVec.ofNat 5 (fld n 8 5))) else none
  | _ => none

/-- Opcode 0x57: the members that bits [31:26] select (02 R55). -/
def decode0x57 (n : Nat) : Option Instr :=
  match fld n 26 6 with
  | 0 => if fld n 7 1 = 0 ∧ fld n 18 5 = 0 ∧ fld n 25 1 = 0 then some (.mrd (BitVec.ofNat 5 (fld n 8 5)) (BitVec.ofNat 5 (fld n 13 5)) (BitVec.ofNat 2 (fld n 23 2))) else none
  | 1 => if fld n 7 1 = 0 ∧ fld n 18 5 = 0 ∧ fld n 25 1 = 0 then some (.mwr (BitVec.ofNat 5 (fld n 8 5)) (BitVec.ofNat 5 (fld n 13 5)) (BitVec.ofNat 2 (fld n 23 2))) else none
  | _ => none

/-- Opcode 0x5A: the members that bits [31:26] select (02 R55). -/
noncomputable def decode0x5A (n : Nat) : Option Instr :=
  match fld n 26 6 with
  | 0 => if fld n 7 6 = 0 ∧ fld n 18 8 = 0 then some (.msave (BitVec.ofNat 5 (fld n 13 5))) else none
  | 1 => if fld n 7 6 = 0 ∧ fld n 18 8 = 0 then some (.mrest (BitVec.ofNat 5 (fld n 13 5))) else none
  | _ => none

/-- Opcode 0x60: the members that bits [31:23] select (02 R55). -/
noncomputable def decode0x60 (n : Nat) : Option Instr :=
  match fld n 23 9 with
  | 0 => if fld n 7 1 = 0 then some (.schIn (BitVec.ofNat 5 (fld n 8 5)) (BitVec.ofNat 5 (fld n 13 5)) (BitVec.ofNat 5 (fld n 18 5))) else none
  | 1 => if fld n 7 1 = 0 then some (.schOut (BitVec.ofNat 5 (fld n 8 5)) (BitVec.ofNat 5 (fld n 13 5)) (BitVec.ofNat 5 (fld n 18 5))) else none
  | 2 => if fld n 7 1 = 0 ∧ fld n 13 10 = 0 then some (.schRel (BitVec.ofNat 5 (fld n 8 5))) else none
  | _ => none

/-- Opcode 0x64: the members that bits [31:26] select (02 R55). -/
noncomputable def decode0x64 (n : Nat) : Option Instr :=
  match fld n 26 6 with
  | 0 => if fld n 7 1 = 0 then some (.sscat (BitVec.ofNat 5 (fld n 8 5)) (BitVec.ofNat 5 (fld n 13 5)) (BitVec.ofNat 5 (fld n 18 5)) (BitVec.ofNat 3 (fld n 23 3))) else none
  | 1 => if fld n 7 1 = 0 then some (.sscataInt (BitVec.ofNat 5 (fld n 8 5)) (BitVec.ofNat 5 (fld n 13 5)) (BitVec.ofNat 5 (fld n 18 5)) (BitVec.ofNat 3 (fld n 23 3))) else none
  | 2 => if fld n 7 1 = 0 then some (.sscataFloat (BitVec.ofNat 5 (fld n 8 5)) (BitVec.ofNat 5 (fld n 13 5)) (BitVec.ofNat 5 (fld n 18 5)) (BitVec.ofNat 3 (fld n 23 3))) else none
  | _ => none

/-- Opcode 0x65: the members that bits [31:23] select (02 R55). -/
noncomputable def decode0x65 (n : Nat) : Option Instr :=
  match fld n 23 9 with
  | 0 => if fld n 7 1 = 0 then some (.swm (BitVec.ofNat 5 (fld n 8 5)) (BitVec.ofNat 5 (fld n 13 5)) (BitVec.ofNat 5 (fld n 18 5))) else none
  | 8 => if fld n 7 11 = 0 then some (.sdrain (BitVec.ofNat 5 (fld n 18 5))) else none
  | 9 => if fld n 7 16 = 0 then some (.sdrainAll) else none
  | _ => none

/-- Opcode 0x67: the members that bits [31:26] select (02 R55). -/
noncomputable def decode0x67 (n : Nat) : Option Instr :=
  match fld n 26 6 with
  | 0 => if fld n 7 1 = 0 then some (.rwait (BitVec.ofNat 5 (fld n 8 5)) (BitVec.ofNat 5 (fld n 13 5)) (BitVec.ofNat 5 (fld n 18 5)) (BitVec.ofNat 3 (fld n 23 3))) else none
  | 1 => if fld n 7 1 = 0 ∧ fld n 18 5 = 0 then some (.rfree (BitVec.ofNat 5 (fld n 8 5)) (BitVec.ofNat 5 (fld n 13 5)) (BitVec.ofNat 3 (fld n 23 3))) else none
  | _ => none

/-- Opcode 0x6A: the members that bits [31:26] select (02 R55). -/
noncomputable def decode0x6A (n : Nat) : Option Instr :=
  match fld n 26 6 with
  | 0 => if fld n 7 1 = 0 ∧ fld n 13 10 = 0 ∧ fld n 25 1 = 0 then some (.chwait (BitVec.ofNat 5 (fld n 8 5)) (BitVec.ofNat 2 (fld n 23 2))) else none
  | 1 => if fld n 7 1 = 0 ∧ fld n 13 10 = 0 ∧ fld n 25 1 = 0 then some (.chbrk (BitVec.ofNat 5 (fld n 8 5)) (BitVec.ofNat 2 (fld n 23 2))) else none
  | _ => none

/-- Opcode 0x6C: the members that bits [31:26] select (02 R55). -/
noncomputable def decode0x6C (n : Nat) : Option Instr :=
  match fld n 26 6 with
  | 0 => if fld n 7 1 = 0 ∧ fld n 18 8 = 0 then some (.tkpush (BitVec.ofNat 5 (fld n 8 5)) (BitVec.ofNat 5 (fld n 13 5))) else none
  | 1 => if fld n 7 1 = 0 ∧ fld n 13 13 = 0 then some (.tkpop (BitVec.ofNat 5 (fld n 8 5))) else none
  | _ => none

/-- Opcode 0x6D: the members that bits [31:26] select (02 R55). -/
noncomputable def decode0x6D (n : Nat) : Option Instr :=
  match fld n 26 6 with
  | 0 => if fld n 7 1 = 0 ∧ fld n 18 8 = 0 then some (.qwr (BitVec.ofNat 5 (fld n 8 5)) (BitVec.ofNat 5 (fld n 13 5))) else none
  | 1 => if fld n 7 1 = 0 ∧ fld n 18 8 = 0 then some (.qrd (BitVec.ofNat 5 (fld n 8 5)) (BitVec.ofNat 5 (fld n 13 5))) else none
  | _ => none

/-- Opcode 0x70: the members that bits [31:26] select (02 R55). -/
noncomputable def decode0x70 (n : Nat) : Option Instr :=
  match fld n 26 6 with
  | 0 => if fld n 7 19 = 0 then some (.ecall) else none
  | 1 => if fld n 7 19 = 0 then some (.brk) else none
  | _ => none

/-- Opcode 0x73: the members that bits [31:26] select (02 R55). -/
noncomputable def decode0x73 (n : Nat) : Option Instr :=
  match fld n 26 6 with
  | 0 => if fld n 7 11 = 0 ∧ fld n 21 2 = 0 ∧ fld n 25 1 = 0 then some (.fence (BitVec.ofNat 3 (fld n 18 3)) (BitVec.ofNat 2 (fld n 23 2))) else none
  | 1 => if fld n 7 19 = 0 then some (.lsync) else none
  | _ => none

/-- Opcode 0x75: CRWR (04 R126), with the writes of fmask (01 R25) and of srseed (03 R90) named apart. -/
noncomputable def decode0x75 (n : Nat) : Option Instr :=
  if fld n 7 1 = 0 ∧ fld n 30 2 = 0 then
    match fld n 18 12 with
    | 5 => some (.fmaskClear (BitVec.ofNat 5 (fld n 8 5)) (BitVec.ofNat 5 (fld n 13 5)))
    | 8 => some (.srseedWrite (BitVec.ofNat 5 (fld n 8 5)) (BitVec.ofNat 5 (fld n 13 5)))
    | _ => some (.crwr (BitVec.ofNat 5 (fld n 8 5)) (BitVec.ofNat 5 (fld n 13 5)) (BitVec.ofNat 12 (fld n 18 12)))
  else none

/-- Opcode 0x78: the members that bits [31:26] select (02 R55). -/
noncomputable def decode0x78 (n : Nat) : Option Instr :=
  match fld n 26 6 with
  | 0 => if fld n 7 6 = 0 ∧ fld n 18 8 = 0 then some (.ctxsv (BitVec.ofNat 5 (fld n 13 5))) else none
  | 1 => if fld n 7 6 = 0 ∧ fld n 18 8 = 0 then some (.ctxld (BitVec.ofNat 5 (fld n 13 5))) else none
  | _ => none

/-- Opcode 0x79: the members that bits [31:26] select (02 R55). -/
noncomputable def decode0x79 (n : Nat) : Option Instr :=
  match fld n 26 6 with
  | 0 => if fld n 7 6 = 0 then some (.tlbinv (BitVec.ofNat 5 (fld n 13 5)) (BitVec.ofNat 5 (fld n 18 5)) (BitVec.ofNat 3 (fld n 23 3))) else none
  | 1 => if fld n 7 19 = 0 then some (.tlbsync) else none
  | _ => none

/-- The rows of opcodes 0x21 to 0x31, 0x40 to 0x49 and 0x51 to 0x57: what convoys and chain frames hold (02 R51, R65, R66). -/
def stageDecode (n : Nat) : Option Instr :=
  match fld n 0 7 with
  | 33 => decode0x21 n
  | 34 => decode0x22 n
  | 35 => decode0x23 n
  | 36 => decode0x24 n
  | 37 => decode0x25 n
  | 38 => decode0x26 n
  | 39 => some (.vcmp (BitVec.ofNat 5 (fld n 8 5)) (BitVec.ofNat 5 (fld n 13 5)) (BitVec.ofNat 5 (fld n 18 5)) (BitVec.ofNat 3 (fld n 23 3)) (BitVec.ofNat 6 (fld n 26 6)) (BitVec.ofNat 1 (fld n 7 1)))
  | 40 => some (.vcmps (BitVec.ofNat 5 (fld n 8 5)) (BitVec.ofNat 5 (fld n 13 5)) (BitVec.ofNat 5 (fld n 18 5)) (BitVec.ofNat 3 (fld n 23 3)) (BitVec.ofNat 6 (fld n 26 6)) (BitVec.ofNat 1 (fld n 7 1)))
  | 41 => if fld n 29 1 = 0 ∧ fld n 31 1 = 0 then some (.vfcmp (BitVec.ofNat 5 (fld n 8 5)) (BitVec.ofNat 5 (fld n 13 5)) (BitVec.ofNat 5 (fld n 18 5)) (BitVec.ofNat 3 (fld n 23 3)) (BitVec.ofNat 3 (fld n 26 3)) (BitVec.ofNat 1 (fld n 30 1)) (BitVec.ofNat 1 (fld n 7 1))) else none
  | 42 => if fld n 29 1 = 0 ∧ fld n 31 1 = 0 then some (.vfcmps (BitVec.ofNat 5 (fld n 8 5)) (BitVec.ofNat 5 (fld n 13 5)) (BitVec.ofNat 5 (fld n 18 5)) (BitVec.ofNat 3 (fld n 23 3)) (BitVec.ofNat 3 (fld n 26 3)) (BitVec.ofNat 1 (fld n 30 1)) (BitVec.ofNat 1 (fld n 7 1))) else none
  | 43 => decode0x2B n
  | 44 => decode0x2C n
  | 45 => decode0x2D n
  | 46 => some (.vcvt (BitVec.ofNat 5 (fld n 8 5)) (BitVec.ofNat 5 (fld n 13 5)) (BitVec.ofNat 1 (fld n 18 1)) (BitVec.ofNat 4 (fld n 19 4)) (BitVec.ofNat 3 (fld n 23 3)) (BitVec.ofNat 2 (fld n 26 2)) (BitVec.ofNat 4 (fld n 28 4)) (BitVec.ofNat 1 (fld n 7 1)))
  | 47 => if fld n 27 5 = 0 then some (.vqnt (BitVec.ofNat 5 (fld n 8 5)) (BitVec.ofNat 5 (fld n 13 5)) (BitVec.ofNat 5 (fld n 18 5)) (BitVec.ofNat 3 (fld n 23 3)) (BitVec.ofNat 1 (fld n 26 1)) (BitVec.ofNat 1 (fld n 7 1))) else none
  | 48 => if fld n 27 5 = 0 then some (.vdqnt (BitVec.ofNat 5 (fld n 8 5)) (BitVec.ofNat 5 (fld n 13 5)) (BitVec.ofNat 5 (fld n 18 5)) (BitVec.ofNat 3 (fld n 23 3)) (BitVec.ofNat 1 (fld n 26 1)) (BitVec.ofNat 1 (fld n 7 1))) else none
  | 49 => decode0x31 n
  | 64 => if fld n 18 5 = 0 ∧ fld n 31 1 = 0 then some (.vld (BitVec.ofNat 5 (fld n 8 5)) (BitVec.ofNat 5 (fld n 13 5)) (BitVec.ofNat 3 (fld n 23 3)) (BitVec.ofNat 1 (fld n 26 1)) (BitVec.ofNat 2 (fld n 27 2)) (BitVec.ofNat 2 (fld n 29 2)) (BitVec.ofNat 1 (fld n 7 1))) else none
  | 65 => if fld n 31 1 = 0 then some (.vlds (BitVec.ofNat 5 (fld n 8 5)) (BitVec.ofNat 5 (fld n 13 5)) (BitVec.ofNat 5 (fld n 18 5)) (BitVec.ofNat 3 (fld n 23 3)) (BitVec.ofNat 1 (fld n 26 1)) (BitVec.ofNat 2 (fld n 27 2)) (BitVec.ofNat 2 (fld n 29 2)) (BitVec.ofNat 1 (fld n 7 1))) else none
  | 66 => if fld n 31 1 = 0 then some (.vldx (BitVec.ofNat 5 (fld n 8 5)) (BitVec.ofNat 5 (fld n 13 5)) (BitVec.ofNat 5 (fld n 18 5)) (BitVec.ofNat 3 (fld n 23 3)) (BitVec.ofNat 1 (fld n 26 1)) (BitVec.ofNat 2 (fld n 27 2)) (BitVec.ofNat 2 (fld n 29 2)) (BitVec.ofNat 1 (fld n 7 1))) else none
  | 67 => if fld n 7 1 = 0 ∧ fld n 18 5 = 0 ∧ fld n 31 1 = 0 then some (.vldff (BitVec.ofNat 5 (fld n 8 5)) (BitVec.ofNat 5 (fld n 13 5)) (BitVec.ofNat 3 (fld n 23 3)) (BitVec.ofNat 1 (fld n 26 1)) (BitVec.ofNat 2 (fld n 27 2)) (BitVec.ofNat 2 (fld n 29 2))) else none
  | 68 => if fld n 18 5 = 0 ∧ fld n 31 1 = 0 then some (.vst (BitVec.ofNat 5 (fld n 8 5)) (BitVec.ofNat 5 (fld n 13 5)) (BitVec.ofNat 3 (fld n 23 3)) (BitVec.ofNat 1 (fld n 26 1)) (BitVec.ofNat 2 (fld n 27 2)) (BitVec.ofNat 2 (fld n 29 2)) (BitVec.ofNat 1 (fld n 7 1))) else none
  | 69 => if fld n 31 1 = 0 then some (.vsts (BitVec.ofNat 5 (fld n 8 5)) (BitVec.ofNat 5 (fld n 13 5)) (BitVec.ofNat 5 (fld n 18 5)) (BitVec.ofNat 3 (fld n 23 3)) (BitVec.ofNat 1 (fld n 26 1)) (BitVec.ofNat 2 (fld n 27 2)) (BitVec.ofNat 2 (fld n 29 2)) (BitVec.ofNat 1 (fld n 7 1))) else none
  | 70 => if fld n 31 1 = 0 then some (.vstx (BitVec.ofNat 5 (fld n 8 5)) (BitVec.ofNat 5 (fld n 13 5)) (BitVec.ofNat 5 (fld n 18 5)) (BitVec.ofNat 3 (fld n 23 3)) (BitVec.ofNat 1 (fld n 26 1)) (BitVec.ofNat 2 (fld n 27 2)) (BitVec.ofNat 2 (fld n 29 2)) (BitVec.ofNat 1 (fld n 7 1))) else none
  | 71 => if fld n 31 1 = 0 then some (.vstxa (BitVec.ofNat 4 (fld n 8 4)) (BitVec.ofNat 1 (fld n 12 1)) (BitVec.ofNat 5 (fld n 13 5)) (BitVec.ofNat 5 (fld n 18 5)) (BitVec.ofNat 3 (fld n 23 3)) (BitVec.ofNat 1 (fld n 26 1)) (BitVec.ofNat 2 (fld n 27 2)) (BitVec.ofNat 2 (fld n 29 2)) (BitVec.ofNat 1 (fld n 7 1))) else none
  | 72 => if fld n 31 1 = 0 then some (.vgll (BitVec.ofNat 5 (fld n 8 5)) (BitVec.ofNat 5 (fld n 13 5)) (BitVec.ofNat 5 (fld n 18 5)) (BitVec.ofNat 3 (fld n 23 3)) (BitVec.ofNat 1 (fld n 26 1)) (BitVec.ofNat 2 (fld n 27 2)) (BitVec.ofNat 2 (fld n 29 2)) (BitVec.ofNat 1 (fld n 7 1))) else none
  | 73 => if fld n 31 1 = 0 then some (.vscc (BitVec.ofNat 5 (fld n 8 5)) (BitVec.ofNat 5 (fld n 13 5)) (BitVec.ofNat 5 (fld n 18 5)) (BitVec.ofNat 3 (fld n 23 3)) (BitVec.ofNat 1 (fld n 26 1)) (BitVec.ofNat 2 (fld n 27 2)) (BitVec.ofNat 2 (fld n 29 2)) (BitVec.ofNat 1 (fld n 7 1))) else none
  | 81 => if fld n 7 1 = 0 ∧ fld n 24 2 = 0 then some (.mopa (BitVec.ofNat 5 (fld n 8 5)) (BitVec.ofNat 5 (fld n 13 5)) (BitVec.ofNat 5 (fld n 18 5)) (BitVec.ofNat 1 (fld n 23 1)) (BitVec.ofNat 3 (fld n 26 3)) (BitVec.ofNat 3 (fld n 29 3))) else none
  | 82 => if fld n 7 1 = 0 ∧ fld n 24 2 = 0 then some (.mopa2 (BitVec.ofNat 5 (fld n 8 5)) (BitVec.ofNat 5 (fld n 13 5)) (BitVec.ofNat 5 (fld n 18 5)) (BitVec.ofNat 1 (fld n 23 1)) (BitVec.ofNat 3 (fld n 26 3)) (BitVec.ofNat 3 (fld n 29 3))) else none
  | 83 => if fld n 7 1 = 0 ∧ fld n 24 2 = 0 then some (.mopa4 (BitVec.ofNat 5 (fld n 8 5)) (BitVec.ofNat 5 (fld n 13 5)) (BitVec.ofNat 5 (fld n 18 5)) (BitVec.ofNat 1 (fld n 23 1)) (BitVec.ofNat 3 (fld n 26 3)) (BitVec.ofNat 3 (fld n 29 3))) else none
  | 84 => if fld n 7 1 = 0 ∧ fld n 18 5 = 0 ∧ fld n 24 5 = 0 then some (.mops (BitVec.ofNat 5 (fld n 8 5)) (BitVec.ofNat 5 (fld n 13 5)) (BitVec.ofNat 1 (fld n 23 1)) (BitVec.ofNat 3 (fld n 29 3))) else none
  | 85 => if fld n 7 1 = 0 ∧ fld n 24 2 = 0 then some (.mopg (BitVec.ofNat 5 (fld n 8 5)) (BitVec.ofNat 5 (fld n 13 5)) (BitVec.ofNat 5 (fld n 18 5)) (BitVec.ofNat 1 (fld n 23 1)) (BitVec.ofNat 3 (fld n 26 3)) (BitVec.ofNat 3 (fld n 29 3))) else none
  | 86 => if fld n 7 1 = 0 ∧ fld n 23 3 = 0 ∧ fld n 27 5 = 0 then some (.mopq (BitVec.ofNat 5 (fld n 8 5)) (BitVec.ofNat 5 (fld n 13 5)) (BitVec.ofNat 5 (fld n 18 5)) (BitVec.ofNat 1 (fld n 26 1))) else none
  | 87 => decode0x57 n
  | _ => none

/-- The instruction whose fixed bits a word matches; a word of an unassigned major opcode is UNDEF (02 R56). -/
noncomputable def rawDecode (n : Nat) : Option Instr :=
  match fld n 0 7 with
  | 1 => decode0x01 n
  | 2 => if fld n 7 1 = 0 then some (.addi (BitVec.ofNat 5 (fld n 8 5)) (BitVec.ofNat 5 (fld n 13 5)) (BitVec.ofNat 14 (fld n 18 14))) else none
  | 3 => if fld n 7 1 = 0 then some (.andi (BitVec.ofNat 5 (fld n 8 5)) (BitVec.ofNat 5 (fld n 13 5)) (BitVec.ofNat 14 (fld n 18 14))) else none
  | 4 => if fld n 7 1 = 0 then some (.ori (BitVec.ofNat 5 (fld n 8 5)) (BitVec.ofNat 5 (fld n 13 5)) (BitVec.ofNat 14 (fld n 18 14))) else none
  | 5 => if fld n 7 1 = 0 then some (.xori (BitVec.ofNat 5 (fld n 8 5)) (BitVec.ofNat 5 (fld n 13 5)) (BitVec.ofNat 14 (fld n 18 14))) else none
  | 6 => if fld n 7 1 = 0 then some (.slti (BitVec.ofNat 5 (fld n 8 5)) (BitVec.ofNat 5 (fld n 13 5)) (BitVec.ofNat 14 (fld n 18 14))) else none
  | 7 => if fld n 7 1 = 0 then some (.sltni (BitVec.ofNat 5 (fld n 8 5)) (BitVec.ofNat 5 (fld n 13 5)) (BitVec.ofNat 14 (fld n 18 14))) else none
  | 8 => decode0x08 n
  | 9 => if fld n 7 1 = 0 then some (.lih (BitVec.ofNat 5 (fld n 8 5)) (BitVec.ofNat 19 (fld n 13 19))) else none
  | 10 => if fld n 7 1 = 0 then some (.addpc (BitVec.ofNat 5 (fld n 8 5)) (BitVec.ofNat 19 (fld n 13 19))) else none
  | 11 => if fld n 7 1 = 0 then some (.jal (BitVec.ofNat 5 (fld n 8 5)) (BitVec.ofNat 19 (fld n 13 19))) else none
  | 12 => if fld n 7 1 = 0 then some (.jalr (BitVec.ofNat 5 (fld n 8 5)) (BitVec.ofNat 5 (fld n 13 5)) (BitVec.ofNat 14 (fld n 18 14))) else none
  | 13 => if fld n 7 1 = 0 then some (.beq (BitVec.ofNat 5 (fld n 8 5)) (BitVec.ofNat 5 (fld n 13 5)) (BitVec.ofNat 14 (fld n 18 14))) else none
  | 14 => if fld n 7 1 = 0 then some (.bne (BitVec.ofNat 5 (fld n 8 5)) (BitVec.ofNat 5 (fld n 13 5)) (BitVec.ofNat 14 (fld n 18 14))) else none
  | 15 => if fld n 7 1 = 0 then some (.blt (BitVec.ofNat 5 (fld n 8 5)) (BitVec.ofNat 5 (fld n 13 5)) (BitVec.ofNat 14 (fld n 18 14))) else none
  | 16 => if fld n 7 1 = 0 then some (.bge (BitVec.ofNat 5 (fld n 8 5)) (BitVec.ofNat 5 (fld n 13 5)) (BitVec.ofNat 14 (fld n 18 14))) else none
  | 17 => if fld n 7 1 = 0 then some (.bltn (BitVec.ofNat 5 (fld n 8 5)) (BitVec.ofNat 5 (fld n 13 5)) (BitVec.ofNat 14 (fld n 18 14))) else none
  | 18 => if fld n 7 1 = 0 then some (.bgen (BitVec.ofNat 5 (fld n 8 5)) (BitVec.ofNat 5 (fld n 13 5)) (BitVec.ofNat 14 (fld n 18 14))) else none
  | 19 => if fld n 7 1 = 0 then some (.ldBS (BitVec.ofNat 5 (fld n 8 5)) (BitVec.ofNat 5 (fld n 13 5)) (BitVec.ofNat 14 (fld n 18 14))) else none
  | 20 => if fld n 7 1 = 0 then some (.ldBN (BitVec.ofNat 5 (fld n 8 5)) (BitVec.ofNat 5 (fld n 13 5)) (BitVec.ofNat 14 (fld n 18 14))) else none
  | 21 => if fld n 7 1 = 0 then some (.ldHS (BitVec.ofNat 5 (fld n 8 5)) (BitVec.ofNat 5 (fld n 13 5)) (BitVec.ofNat 14 (fld n 18 14))) else none
  | 22 => if fld n 7 1 = 0 then some (.ldHN (BitVec.ofNat 5 (fld n 8 5)) (BitVec.ofNat 5 (fld n 13 5)) (BitVec.ofNat 14 (fld n 18 14))) else none
  | 23 => if fld n 7 1 = 0 then some (.ldWS (BitVec.ofNat 5 (fld n 8 5)) (BitVec.ofNat 5 (fld n 13 5)) (BitVec.ofNat 14 (fld n 18 14))) else none
  | 24 => if fld n 7 1 = 0 then some (.ldWN (BitVec.ofNat 5 (fld n 8 5)) (BitVec.ofNat 5 (fld n 13 5)) (BitVec.ofNat 14 (fld n 18 14))) else none
  | 25 => if fld n 7 1 = 0 then some (.ldD (BitVec.ofNat 5 (fld n 8 5)) (BitVec.ofNat 5 (fld n 13 5)) (BitVec.ofNat 14 (fld n 18 14))) else none
  | 26 => if fld n 7 1 = 0 then some (.stB (BitVec.ofNat 5 (fld n 8 5)) (BitVec.ofNat 5 (fld n 13 5)) (BitVec.ofNat 14 (fld n 18 14))) else none
  | 27 => if fld n 7 1 = 0 then some (.stH (BitVec.ofNat 5 (fld n 8 5)) (BitVec.ofNat 5 (fld n 13 5)) (BitVec.ofNat 14 (fld n 18 14))) else none
  | 28 => if fld n 7 1 = 0 then some (.stW (BitVec.ofNat 5 (fld n 8 5)) (BitVec.ofNat 5 (fld n 13 5)) (BitVec.ofNat 14 (fld n 18 14))) else none
  | 29 => if fld n 7 1 = 0 then some (.stD (BitVec.ofNat 5 (fld n 8 5)) (BitVec.ofNat 5 (fld n 13 5)) (BitVec.ofNat 14 (fld n 18 14))) else none
  | 30 => decode0x1E n
  | 31 => decode0x1F n
  | 32 => decode0x20 n
  | 33 | 34 | 35 | 36 | 37 | 38 | 39 | 40 | 41 | 42 | 43 | 44 | 45 | 46 | 47 | 48 | 49 => stageDecode n
  | 64 | 65 | 66 | 67 | 68 | 69 | 70 | 71 | 72 | 73 => stageDecode n
  | 74 => decode0x4A n
  | 75 => decode0x4B n
  | 76 => if fld n 7 1 = 0 ∧ fld n 26 2 = 0 then some (.vwait (BitVec.ofNat 5 (fld n 8 5)) (BitVec.ofNat 5 (fld n 13 5)) (BitVec.ofNat 5 (fld n 18 5)) (BitVec.ofNat 3 (fld n 23 3)) (BitVec.ofNat 1 (fld n 28 1)) (BitVec.ofNat 3 (fld n 29 3))) else none
  | 77 => decode0x4D n
  | 78 => if fld n 7 6 = 0 ∧ fld n 24 8 = 0 then some (.vspill (BitVec.ofNat 5 (fld n 13 5)) (BitVec.ofNat 5 (fld n 18 5)) (BitVec.ofNat 1 (fld n 23 1))) else none
  | 79 => if fld n 7 6 = 0 ∧ fld n 18 5 = 0 ∧ fld n 24 8 = 0 then some (.vfill (BitVec.ofNat 5 (fld n 13 5)) (BitVec.ofNat 1 (fld n 23 1))) else none
  | 80 => decode0x50 n
  | 81 | 82 | 83 | 84 | 85 | 86 | 87 => stageDecode n
  | 88 => if fld n 7 6 = 0 ∧ fld n 18 14 = 0 then some (.mcbl (BitVec.ofNat 5 (fld n 13 5))) else none
  | 89 => if fld n 7 6 = 0 ∧ fld n 18 14 = 0 then some (.mrll (BitVec.ofNat 5 (fld n 13 5))) else none
  | 90 => decode0x5A n
  | 96 => decode0x60 n
  | 97 => if fld n 7 1 = 0 ∧ fld n 18 14 = 0 then some (.sld (BitVec.ofNat 5 (fld n 8 5)) (BitVec.ofNat 5 (fld n 13 5))) else none
  | 98 => if fld n 7 1 = 0 ∧ fld n 18 14 = 0 then some (.sst (BitVec.ofNat 5 (fld n 8 5)) (BitVec.ofNat 5 (fld n 13 5))) else none
  | 99 => if fld n 7 1 = 0 ∧ fld n 26 6 = 0 then some (.sgath (BitVec.ofNat 5 (fld n 8 5)) (BitVec.ofNat 5 (fld n 13 5)) (BitVec.ofNat 5 (fld n 18 5)) (BitVec.ofNat 3 (fld n 23 3))) else none
  | 100 => decode0x64 n
  | 101 => decode0x65 n
  | 102 => if fld n 7 6 = 0 ∧ fld n 26 6 = 0 then some (.rcfg (BitVec.ofNat 5 (fld n 13 5)) (BitVec.ofNat 5 (fld n 18 5)) (BitVec.ofNat 3 (fld n 23 3))) else none
  | 103 => decode0x67 n
  | 104 => if fld n 7 6 = 0 ∧ fld n 25 7 = 0 then some (.chcfg (BitVec.ofNat 5 (fld n 13 5)) (BitVec.ofNat 5 (fld n 18 5)) (BitVec.ofNat 2 (fld n 23 2))) else none
  | 105 => if fld n 7 6 = 0 ∧ fld n 18 5 = 0 ∧ fld n 25 7 = 0 then some (.run (BitVec.ofNat 5 (fld n 13 5)) (BitVec.ofNat 2 (fld n 23 2))) else none
  | 106 => decode0x6A n
  | 107 => if fld n 7 1 = 0 ∧ fld n 24 8 = 0 then some (.hwpub (BitVec.ofNat 5 (fld n 8 5)) (BitVec.ofNat 5 (fld n 13 5)) (BitVec.ofNat 5 (fld n 18 5)) (BitVec.ofNat 1 (fld n 23 1))) else none
  | 108 => decode0x6C n
  | 109 => decode0x6D n
  | 110 => if fld n 7 1 = 0 ∧ fld n 18 14 = 0 then some (.launch (BitVec.ofNat 5 (fld n 8 5)) (BitVec.ofNat 5 (fld n 13 5))) else none
  | 112 => decode0x70 n
  | 113 => if fld n 7 16 = 0 ∧ fld n 24 8 = 0 then some (.tret (BitVec.ofNat 1 (fld n 23 1))) else none
  | 114 => if fld n 7 25 = 0 then some (.emuret) else none
  | 115 => decode0x73 n
  | 116 => if fld n 7 1 = 0 ∧ fld n 13 5 = 0 ∧ fld n 30 2 = 0 then some (.crrd (BitVec.ofNat 5 (fld n 8 5)) (BitVec.ofNat 12 (fld n 18 12))) else none
  | 117 => decode0x75 n
  | 118 => if fld n 7 1 = 0 ∧ fld n 30 2 = 0 then some (.crset (BitVec.ofNat 5 (fld n 8 5)) (BitVec.ofNat 5 (fld n 13 5)) (BitVec.ofNat 12 (fld n 18 12))) else none
  | 119 => if fld n 7 1 = 0 ∧ fld n 30 2 = 0 then some (.crclr (BitVec.ofNat 5 (fld n 8 5)) (BitVec.ofNat 5 (fld n 13 5)) (BitVec.ofNat 12 (fld n 18 12))) else none
  | 120 => decode0x78 n
  | 121 => decode0x79 n
  | 122 => if fld n 7 1 = 0 ∧ fld n 18 14 = 0 then some (.rmack (BitVec.ofNat 5 (fld n 8 5)) (BitVec.ofNat 5 (fld n 13 5))) else none
  | 123 => if fld n 7 6 = 0 ∧ fld n 18 5 = 0 ∧ fld n 26 6 = 0 then some (.lwake (BitVec.ofNat 5 (fld n 13 5)) (BitVec.ofNat 3 (fld n 23 3))) else none
  | 124 => if fld n 7 25 = 0 then some (.idle) else none
  | _ => some (.undefinedInstruction (BitVec.ofNat 32 n))

/-- Decoding, total on any word: an instruction, or the reason that the word traps ILLEGAL (02 R56). -/
noncomputable def decode (w : W32) : Except Reject Instr :=
  match rawDecode w.toNat with
  | some i => if i.wellFormed then .ok i else .error .reserved
  | none => .error .reserved

/-- The instruction of a convoy member or of a chain frame that a word holds, if it is one (02 R51, R65, R66). -/
def decodeStage (w : W32) : Option Instr :=
  match stageDecode w.toNat with
  | some i => if i.wellFormed then some i else none
  | none => none

/-- The instruction that the decoder reads from the bits of one table row (one little-endian 32-bit word, 02 R46). -/
noncomputable def decodeTableWord (nbits w : Nat) : Option Instr :=
  if nbits ≤ 32 then (match decode (BitVec.ofNat 32 w) with | .ok i => some i | .error _ => none) else none

/-- The word of an instruction as a natural number, from the encoding tables of 02 R47 and R55; a device step has none. -/
def encodeNat : Instr → Option Nat
  | .fmaskClear d a => some (1310837 + d.toNat * 256 + a.toNat * 8192)
  | .srseedWrite d a => some (2097269 + d.toNat * 256 + a.toNat * 8192)
  | .undefinedInstruction w => some w.toNat
  | .convoyRetire _ => none
  | .takeAsyncCause _ => none
  | .rmgraceExpire _ => none
  | .vwaitWake _ => none
  | .setvlwWake _ => none
  | .rwaitWake _ => none
  | .swmWake _ => none
  | .sdrainWake _ => none
  | .qwrWake _ => none
  | .qrdWake _ => none
  | .chwaitWake _ => none
  | .tlbsyncWake _ => none
  | .chcfgClaimWake _ => none
  | .transferSlotWake _ => none
  | .runWaitWake _ => none
  | .stripComplete _ _ => none
  | .streamRetranslation _ _ => none
  | .tlbinvComplete _ => none
  | .chainNodeElement _ _ _ => none
  | .switchEntryMove _ _ _ => none
  | .runComplete _ _ => none
  | .chainDrainComplete _ _ => none
  | .chainFinish _ => none
  | .groupStart _ => none
  | .threadEnd _ => none
  | .threadTermination _ => none
  | .launchCompletion _ => none
  | .dispatchStep _ => none
  | .imageSelection _ _ => none
  | .migrationDeviceRequest _ => none
  | .migrationSwitch _ => none
  | .migrationInvalidationComplete _ => none
  | .migrationHoldExpire _ => none
  | .reductionToken _ => none
  | .reductionNodeFail _ => none
  | .kslFlitReceive _ _ => none
  | .kslRetryRequest _ _ => none
  | .kslLinkDown _ => none
  | .hwr _ _ _ _ => none
  | .hrd _ _ _ _ => none
  | .cpl _ _ _ => none
  | .lmsg _ _ _ => none
  | .migreq _ _ _ => none
  | .rtok _ _ _ _ => none
  | .mgmtPartition _ _ _ _ _ => none
  | .mgmtQueueConfiguration _ _ _ _ => none
  | .mgmtWindow _ _ _ _ _ _ _ => none
  | .mgmtPreempt _ _ _ => none
  | .mgmtSwap _ _ _ => none
  | .mgmtArmNode _ _ _ => none
  | .mgmtHold _ _ => none
  | .mgmtThreshold _ _ => none
  | .mgmtCap _ _ _ => none
  | .mgmtPool _ _ _ => none
  | .mgmtAttest _ _ => none
  | .mgmtStatus _ => none
  | .mgmtLaunchEnvironment _ _ _ => none
  | .capFrame _ => none
  | .powerEstimate => none
  | .throttleRelease => none
  | .thermalAlarm _ => none
  | .currentAlarm _ => none
  | .linkIdleNarrow _ => none
  | .linkIdleSleep _ => none
  | .linkWakeComplete _ => none
  | .correctedError _ => none
  | .uncorrectableError _ => none
  | .resourceMapPublish => none
  | .boot => none
  | .linkRetrainComplete _ => none
  | .add d a b => some (1 + d.toNat * 256 + a.toNat * 8192 + b.toNat * 262144)
  | .sub d a b => some (8388609 + d.toNat * 256 + a.toNat * 8192 + b.toNat * 262144)
  | .and d a b => some (16777217 + d.toNat * 256 + a.toNat * 8192 + b.toNat * 262144)
  | .or d a b => some (25165825 + d.toNat * 256 + a.toNat * 8192 + b.toNat * 262144)
  | .xor d a b => some (33554433 + d.toNat * 256 + a.toNat * 8192 + b.toNat * 262144)
  | .sll d a b => some (41943041 + d.toNat * 256 + a.toNat * 8192 + b.toNat * 262144)
  | .srl d a b => some (50331649 + d.toNat * 256 + a.toNat * 8192 + b.toNat * 262144)
  | .sra d a b => some (58720257 + d.toNat * 256 + a.toNat * 8192 + b.toNat * 262144)
  | .slt d a b => some (67108865 + d.toNat * 256 + a.toNat * 8192 + b.toNat * 262144)
  | .sltn d a b => some (75497473 + d.toNat * 256 + a.toNat * 8192 + b.toNat * 262144)
  | .mul d a b => some (83886081 + d.toNat * 256 + a.toNat * 8192 + b.toNat * 262144)
  | .mulh d a b => some (92274689 + d.toNat * 256 + a.toNat * 8192 + b.toNat * 262144)
  | .mulhn d a b => some (100663297 + d.toNat * 256 + a.toNat * 8192 + b.toNat * 262144)
  | .div d a b => some (109051905 + d.toNat * 256 + a.toNat * 8192 + b.toNat * 262144)
  | .divn d a b => some (117440513 + d.toNat * 256 + a.toNat * 8192 + b.toNat * 262144)
  | .rem d a b => some (125829121 + d.toNat * 256 + a.toNat * 8192 + b.toNat * 262144)
  | .remn d a b => some (134217729 + d.toNat * 256 + a.toNat * 8192 + b.toNat * 262144)
  | .min d a b => some (142606337 + d.toNat * 256 + a.toNat * 8192 + b.toNat * 262144)
  | .max d a b => some (150994945 + d.toNat * 256 + a.toNat * 8192 + b.toNat * 262144)
  | .minn d a b => some (159383553 + d.toNat * 256 + a.toNat * 8192 + b.toNat * 262144)
  | .maxn d a b => some (167772161 + d.toNat * 256 + a.toNat * 8192 + b.toNat * 262144)
  | .clz d a => some (176160769 + d.toNat * 256 + a.toNat * 8192)
  | .ctz d a => some (184549377 + d.toNat * 256 + a.toNat * 8192)
  | .popc d a => some (192937985 + d.toNat * 256 + a.toNat * 8192)
  | .bswap d a => some (201326593 + d.toNat * 256 + a.toNat * 8192)
  | .rotl d a b => some (209715201 + d.toNat * 256 + a.toNat * 8192 + b.toNat * 262144)
  | .rotr d a b => some (218103809 + d.toNat * 256 + a.toNat * 8192 + b.toNat * 262144)
  | .sel d a b => some (226492417 + d.toNat * 256 + a.toNat * 8192 + b.toNat * 262144)
  | .addi d a i => some (2 + d.toNat * 256 + a.toNat * 8192 + i.toNat * 262144)
  | .andi d a i => some (3 + d.toNat * 256 + a.toNat * 8192 + i.toNat * 262144)
  | .ori d a i => some (4 + d.toNat * 256 + a.toNat * 8192 + i.toNat * 262144)
  | .xori d a i => some (5 + d.toNat * 256 + a.toNat * 8192 + i.toNat * 262144)
  | .slti d a i => some (6 + d.toNat * 256 + a.toNat * 8192 + i.toNat * 262144)
  | .sltni d a i => some (7 + d.toNat * 256 + a.toNat * 8192 + i.toNat * 262144)
  | .slli d a s => some (8 + d.toNat * 256 + a.toNat * 8192 + s.toNat * 262144)
  | .srli d a s => some (16777224 + d.toNat * 256 + a.toNat * 8192 + s.toNat * 262144)
  | .srai d a s => some (33554440 + d.toNat * 256 + a.toNat * 8192 + s.toNat * 262144)
  | .rotri d a s => some (50331656 + d.toNat * 256 + a.toNat * 8192 + s.toNat * 262144)
  | .lih d i => some (9 + d.toNat * 256 + i.toNat * 8192)
  | .addpc d i => some (10 + d.toNat * 256 + i.toNat * 8192)
  | .jal d i => some (11 + d.toNat * 256 + i.toNat * 8192)
  | .jalr d a i => some (12 + d.toNat * 256 + a.toNat * 8192 + i.toNat * 262144)
  | .beq a b o => some (13 + a.toNat * 256 + b.toNat * 8192 + o.toNat * 262144)
  | .bne a b o => some (14 + a.toNat * 256 + b.toNat * 8192 + o.toNat * 262144)
  | .blt a b o => some (15 + a.toNat * 256 + b.toNat * 8192 + o.toNat * 262144)
  | .bge a b o => some (16 + a.toNat * 256 + b.toNat * 8192 + o.toNat * 262144)
  | .bltn a b o => some (17 + a.toNat * 256 + b.toNat * 8192 + o.toNat * 262144)
  | .bgen a b o => some (18 + a.toNat * 256 + b.toNat * 8192 + o.toNat * 262144)
  | .ldBS d a i => some (19 + d.toNat * 256 + a.toNat * 8192 + i.toNat * 262144)
  | .ldBN d a i => some (20 + d.toNat * 256 + a.toNat * 8192 + i.toNat * 262144)
  | .ldHS d a i => some (21 + d.toNat * 256 + a.toNat * 8192 + i.toNat * 262144)
  | .ldHN d a i => some (22 + d.toNat * 256 + a.toNat * 8192 + i.toNat * 262144)
  | .ldWS d a i => some (23 + d.toNat * 256 + a.toNat * 8192 + i.toNat * 262144)
  | .ldWN d a i => some (24 + d.toNat * 256 + a.toNat * 8192 + i.toNat * 262144)
  | .ldD d a i => some (25 + d.toNat * 256 + a.toNat * 8192 + i.toNat * 262144)
  | .stB d a i => some (26 + d.toNat * 256 + a.toNat * 8192 + i.toNat * 262144)
  | .stH d a i => some (27 + d.toNat * 256 + a.toNat * 8192 + i.toNat * 262144)
  | .stW d a i => some (28 + d.toNat * 256 + a.toNat * 8192 + i.toNat * 262144)
  | .stD d a i => some (29 + d.toNat * 256 + a.toNat * 8192 + i.toNat * 262144)
  | .amoAdd d a b z o => some (30 + d.toNat * 256 + a.toNat * 8192 + b.toNat * 262144 + z.toNat * 134217728 + o.toNat * 268435456)
  | .amoAnd d a b z o => some (8388638 + d.toNat * 256 + a.toNat * 8192 + b.toNat * 262144 + z.toNat * 134217728 + o.toNat * 268435456)
  | .amoOr d a b z o => some (16777246 + d.toNat * 256 + a.toNat * 8192 + b.toNat * 262144 + z.toNat * 134217728 + o.toNat * 268435456)
  | .amoXor d a b z o => some (25165854 + d.toNat * 256 + a.toNat * 8192 + b.toNat * 262144 + z.toNat * 134217728 + o.toNat * 268435456)
  | .amoMin d a b z o => some (33554462 + d.toNat * 256 + a.toNat * 8192 + b.toNat * 262144 + z.toNat * 134217728 + o.toNat * 268435456)
  | .amoMax d a b z o => some (41943070 + d.toNat * 256 + a.toNat * 8192 + b.toNat * 262144 + z.toNat * 134217728 + o.toNat * 268435456)
  | .amoMinn d a b z o => some (50331678 + d.toNat * 256 + a.toNat * 8192 + b.toNat * 262144 + z.toNat * 134217728 + o.toNat * 268435456)
  | .amoMaxn d a b z o => some (58720286 + d.toNat * 256 + a.toNat * 8192 + b.toNat * 262144 + z.toNat * 134217728 + o.toNat * 268435456)
  | .amoSwap d a b z o => some (67108894 + d.toNat * 256 + a.toNat * 8192 + b.toNat * 262144 + z.toNat * 134217728 + o.toNat * 268435456)
  | .amoCas d a b z o => some (75497502 + d.toNat * 256 + a.toNat * 8192 + b.toNat * 262144 + z.toNat * 134217728 + o.toNat * 268435456)
  | .fadd d a b f r => some (31 + d.toNat * 256 + a.toNat * 8192 + b.toNat * 262144 + f.toNat * 67108864 + r.toNat * 134217728)
  | .fmul d a b f r => some (8388639 + d.toNat * 256 + a.toNat * 8192 + b.toNat * 262144 + f.toNat * 67108864 + r.toNat * 134217728)
  | .ffma d a b f r => some (16777247 + d.toNat * 256 + a.toNat * 8192 + b.toNat * 262144 + f.toNat * 67108864 + r.toNat * 134217728)
  | .fcvt d a k f r => some (25165855 + d.toNat * 256 + a.toNat * 8192 + k.toNat * 262144 + f.toNat * 67108864 + r.toNat * 134217728)
  | .fcmp d a b f q => some (33554463 + d.toNat * 256 + a.toNat * 8192 + b.toNat * 262144 + f.toNat * 67108864 + q.toNat * 1073741824)
  | .ecall => some (112)
  | .brk => some (67108976)
  | .tret r => some (113 + r.toNat * 8388608)
  | .emuret => some (114)
  | .fence s k => some (115 + s.toNat * 262144 + k.toNat * 8388608)
  | .lsync => some (67108979)
  | .crrd d r => some (116 + d.toNat * 256 + r.toNat * 262144)
  | .crwr d a r => some (117 + d.toNat * 256 + a.toNat * 8192 + r.toNat * 262144)
  | .crset d a r => some (118 + d.toNat * 256 + a.toNat * 8192 + r.toNat * 262144)
  | .crclr d a r => some (119 + d.toNat * 256 + a.toNat * 8192 + r.toNat * 262144)
  | .ctxsv a => some (120 + a.toNat * 8192)
  | .ctxld a => some (67108984 + a.toNat * 8192)
  | .tlbinv a b s => some (121 + a.toNat * 8192 + b.toNat * 262144 + s.toNat * 8388608)
  | .tlbsync => some (67108985)
  | .rmack d a => some (122 + d.toNat * 256 + a.toNat * 8192)
  | .lwake a s => some (123 + a.toNat * 8192 + s.toNat * 8388608)
  | .idle => some (124)
  | .setvl d a b e => some (32 + d.toNat * 256 + a.toNat * 8192 + b.toNat * 262144 + e.toNat * 67108864)
  | .setvlw d a b e => some (268435488 + d.toNat * 256 + a.toNat * 8192 + b.toNat * 262144 + e.toNat * 67108864)
  | .vadd d a b k c => some (33 + d.toNat * 256 + a.toNat * 8192 + b.toNat * 262144 + k.toNat * 8388608 + c.toNat * 128)
  | .vsub d a b k c => some (67108897 + d.toNat * 256 + a.toNat * 8192 + b.toNat * 262144 + k.toNat * 8388608 + c.toNat * 128)
  | .vand d a b k c => some (134217761 + d.toNat * 256 + a.toNat * 8192 + b.toNat * 262144 + k.toNat * 8388608 + c.toNat * 128)
  | .vor d a b k c => some (201326625 + d.toNat * 256 + a.toNat * 8192 + b.toNat * 262144 + k.toNat * 8388608 + c.toNat * 128)
  | .vxor d a b k c => some (268435489 + d.toNat * 256 + a.toNat * 8192 + b.toNat * 262144 + k.toNat * 8388608 + c.toNat * 128)
  | .vsll d a b k c => some (335544353 + d.toNat * 256 + a.toNat * 8192 + b.toNat * 262144 + k.toNat * 8388608 + c.toNat * 128)
  | .vsrl d a b k c => some (402653217 + d.toNat * 256 + a.toNat * 8192 + b.toNat * 262144 + k.toNat * 8388608 + c.toNat * 128)
  | .vsra d a b k c => some (469762081 + d.toNat * 256 + a.toNat * 8192 + b.toNat * 262144 + k.toNat * 8388608 + c.toNat * 128)
  | .vmul d a b k c => some (536870945 + d.toNat * 256 + a.toNat * 8192 + b.toNat * 262144 + k.toNat * 8388608 + c.toNat * 128)
  | .vmulh d a b k c => some (603979809 + d.toNat * 256 + a.toNat * 8192 + b.toNat * 262144 + k.toNat * 8388608 + c.toNat * 128)
  | .vmulhn d a b k c => some (671088673 + d.toNat * 256 + a.toNat * 8192 + b.toNat * 262144 + k.toNat * 8388608 + c.toNat * 128)
  | .vdiv d a b k c => some (738197537 + d.toNat * 256 + a.toNat * 8192 + b.toNat * 262144 + k.toNat * 8388608 + c.toNat * 128)
  | .vdivn d a b k c => some (805306401 + d.toNat * 256 + a.toNat * 8192 + b.toNat * 262144 + k.toNat * 8388608 + c.toNat * 128)
  | .vrem d a b k c => some (872415265 + d.toNat * 256 + a.toNat * 8192 + b.toNat * 262144 + k.toNat * 8388608 + c.toNat * 128)
  | .vremn d a b k c => some (939524129 + d.toNat * 256 + a.toNat * 8192 + b.toNat * 262144 + k.toNat * 8388608 + c.toNat * 128)
  | .vmin d a b k c => some (1006632993 + d.toNat * 256 + a.toNat * 8192 + b.toNat * 262144 + k.toNat * 8388608 + c.toNat * 128)
  | .vmax d a b k c => some (1073741857 + d.toNat * 256 + a.toNat * 8192 + b.toNat * 262144 + k.toNat * 8388608 + c.toNat * 128)
  | .vminn d a b k c => some (1140850721 + d.toNat * 256 + a.toNat * 8192 + b.toNat * 262144 + k.toNat * 8388608 + c.toNat * 128)
  | .vmaxn d a b k c => some (1207959585 + d.toNat * 256 + a.toNat * 8192 + b.toNat * 262144 + k.toNat * 8388608 + c.toNat * 128)
  | .vclmul d a b k c => some (1275068449 + d.toNat * 256 + a.toNat * 8192 + b.toNat * 262144 + k.toNat * 8388608 + c.toNat * 128)
  | .vclmulh d a b k c => some (1342177313 + d.toNat * 256 + a.toNat * 8192 + b.toNat * 262144 + k.toNat * 8388608 + c.toNat * 128)
  | .vwid d a k c => some (1409286177 + d.toNat * 256 + a.toNat * 8192 + k.toNat * 8388608 + c.toNat * 128)
  | .vwidn d a k c => some (1476395041 + d.toNat * 256 + a.toNat * 8192 + k.toNat * 8388608 + c.toNat * 128)
  | .vaddScalar d a b k c => some (34 + d.toNat * 256 + a.toNat * 8192 + b.toNat * 262144 + k.toNat * 8388608 + c.toNat * 128)
  | .vsubScalar d a b k c => some (67108898 + d.toNat * 256 + a.toNat * 8192 + b.toNat * 262144 + k.toNat * 8388608 + c.toNat * 128)
  | .vandScalar d a b k c => some (134217762 + d.toNat * 256 + a.toNat * 8192 + b.toNat * 262144 + k.toNat * 8388608 + c.toNat * 128)
  | .vorScalar d a b k c => some (201326626 + d.toNat * 256 + a.toNat * 8192 + b.toNat * 262144 + k.toNat * 8388608 + c.toNat * 128)
  | .vxorScalar d a b k c => some (268435490 + d.toNat * 256 + a.toNat * 8192 + b.toNat * 262144 + k.toNat * 8388608 + c.toNat * 128)
  | .vsllScalar d a b k c => some (335544354 + d.toNat * 256 + a.toNat * 8192 + b.toNat * 262144 + k.toNat * 8388608 + c.toNat * 128)
  | .vsrlScalar d a b k c => some (402653218 + d.toNat * 256 + a.toNat * 8192 + b.toNat * 262144 + k.toNat * 8388608 + c.toNat * 128)
  | .vsraScalar d a b k c => some (469762082 + d.toNat * 256 + a.toNat * 8192 + b.toNat * 262144 + k.toNat * 8388608 + c.toNat * 128)
  | .vmulScalar d a b k c => some (536870946 + d.toNat * 256 + a.toNat * 8192 + b.toNat * 262144 + k.toNat * 8388608 + c.toNat * 128)
  | .vmulhScalar d a b k c => some (603979810 + d.toNat * 256 + a.toNat * 8192 + b.toNat * 262144 + k.toNat * 8388608 + c.toNat * 128)
  | .vmulhnScalar d a b k c => some (671088674 + d.toNat * 256 + a.toNat * 8192 + b.toNat * 262144 + k.toNat * 8388608 + c.toNat * 128)
  | .vdivScalar d a b k c => some (738197538 + d.toNat * 256 + a.toNat * 8192 + b.toNat * 262144 + k.toNat * 8388608 + c.toNat * 128)
  | .vdivnScalar d a b k c => some (805306402 + d.toNat * 256 + a.toNat * 8192 + b.toNat * 262144 + k.toNat * 8388608 + c.toNat * 128)
  | .vremScalar d a b k c => some (872415266 + d.toNat * 256 + a.toNat * 8192 + b.toNat * 262144 + k.toNat * 8388608 + c.toNat * 128)
  | .vremnScalar d a b k c => some (939524130 + d.toNat * 256 + a.toNat * 8192 + b.toNat * 262144 + k.toNat * 8388608 + c.toNat * 128)
  | .vminScalar d a b k c => some (1006632994 + d.toNat * 256 + a.toNat * 8192 + b.toNat * 262144 + k.toNat * 8388608 + c.toNat * 128)
  | .vmaxScalar d a b k c => some (1073741858 + d.toNat * 256 + a.toNat * 8192 + b.toNat * 262144 + k.toNat * 8388608 + c.toNat * 128)
  | .vminnScalar d a b k c => some (1140850722 + d.toNat * 256 + a.toNat * 8192 + b.toNat * 262144 + k.toNat * 8388608 + c.toNat * 128)
  | .vmaxnScalar d a b k c => some (1207959586 + d.toNat * 256 + a.toNat * 8192 + b.toNat * 262144 + k.toNat * 8388608 + c.toNat * 128)
  | .vclmulScalar d a b k c => some (1275068450 + d.toNat * 256 + a.toNat * 8192 + b.toNat * 262144 + k.toNat * 8388608 + c.toNat * 128)
  | .vclmulhScalar d a b k c => some (1342177314 + d.toNat * 256 + a.toNat * 8192 + b.toNat * 262144 + k.toNat * 8388608 + c.toNat * 128)
  | .vsadd d a b k c => some (35 + d.toNat * 256 + a.toNat * 8192 + b.toNat * 262144 + k.toNat * 8388608 + c.toNat * 128)
  | .vssub d a b k c => some (67108899 + d.toNat * 256 + a.toNat * 8192 + b.toNat * 262144 + k.toNat * 8388608 + c.toNat * 128)
  | .vsaddn d a b k c => some (134217763 + d.toNat * 256 + a.toNat * 8192 + b.toNat * 262144 + k.toNat * 8388608 + c.toNat * 128)
  | .vssubn d a b k c => some (201326627 + d.toNat * 256 + a.toNat * 8192 + b.toNat * 262144 + k.toNat * 8388608 + c.toNat * 128)
  | .vnrw d a k c => some (268435491 + d.toNat * 256 + a.toNat * 8192 + k.toNat * 8388608 + c.toNat * 128)
  | .vnrwn d a k c => some (335544355 + d.toNat * 256 + a.toNat * 8192 + k.toNat * 8388608 + c.toNat * 128)
  | .vnrwsn d a k c => some (402653219 + d.toNat * 256 + a.toNat * 8192 + k.toNat * 8388608 + c.toNat * 128)
  | .vsaddScalar d a b k c => some (36 + d.toNat * 256 + a.toNat * 8192 + b.toNat * 262144 + k.toNat * 8388608 + c.toNat * 128)
  | .vssubScalar d a b k c => some (67108900 + d.toNat * 256 + a.toNat * 8192 + b.toNat * 262144 + k.toNat * 8388608 + c.toNat * 128)
  | .vsaddnScalar d a b k c => some (134217764 + d.toNat * 256 + a.toNat * 8192 + b.toNat * 262144 + k.toNat * 8388608 + c.toNat * 128)
  | .vssubnScalar d a b k c => some (201326628 + d.toNat * 256 + a.toNat * 8192 + b.toNat * 262144 + k.toNat * 8388608 + c.toNat * 128)
  | .vfadd d a b k f c => some (37 + d.toNat * 256 + a.toNat * 8192 + b.toNat * 262144 + k.toNat * 8388608 + f.toNat * 1073741824 + c.toNat * 128)
  | .vfsub d a b k f c => some (67108901 + d.toNat * 256 + a.toNat * 8192 + b.toNat * 262144 + k.toNat * 8388608 + f.toNat * 1073741824 + c.toNat * 128)
  | .vfmul d a b k f c => some (134217765 + d.toNat * 256 + a.toNat * 8192 + b.toNat * 262144 + k.toNat * 8388608 + f.toNat * 1073741824 + c.toNat * 128)
  | .vfma d a b k f c => some (201326629 + d.toNat * 256 + a.toNat * 8192 + b.toNat * 262144 + k.toNat * 8388608 + f.toNat * 1073741824 + c.toNat * 128)
  | .vfms d a b k f c => some (268435493 + d.toNat * 256 + a.toNat * 8192 + b.toNat * 262144 + k.toNat * 8388608 + f.toNat * 1073741824 + c.toNat * 128)
  | .vfnma d a b k f c => some (335544357 + d.toNat * 256 + a.toNat * 8192 + b.toNat * 262144 + k.toNat * 8388608 + f.toNat * 1073741824 + c.toNat * 128)
  | .vfdiv d a b k f c => some (402653221 + d.toNat * 256 + a.toNat * 8192 + b.toNat * 262144 + k.toNat * 8388608 + f.toNat * 1073741824 + c.toNat * 128)
  | .vfsqrt d a k f c => some (469762085 + d.toNat * 256 + a.toNat * 8192 + k.toNat * 8388608 + f.toNat * 1073741824 + c.toNat * 128)
  | .vfmin d a b k f c => some (536870949 + d.toNat * 256 + a.toNat * 8192 + b.toNat * 262144 + k.toNat * 8388608 + f.toNat * 1073741824 + c.toNat * 128)
  | .vfmax d a b k f c => some (603979813 + d.toNat * 256 + a.toNat * 8192 + b.toNat * 262144 + k.toNat * 8388608 + f.toNat * 1073741824 + c.toNat * 128)
  | .vfrcp d a k f c => some (671088677 + d.toNat * 256 + a.toNat * 8192 + k.toNat * 8388608 + f.toNat * 1073741824 + c.toNat * 128)
  | .vfaddScalar d a b k f c => some (38 + d.toNat * 256 + a.toNat * 8192 + b.toNat * 262144 + k.toNat * 8388608 + f.toNat * 1073741824 + c.toNat * 128)
  | .vfsubScalar d a b k f c => some (67108902 + d.toNat * 256 + a.toNat * 8192 + b.toNat * 262144 + k.toNat * 8388608 + f.toNat * 1073741824 + c.toNat * 128)
  | .vfmulScalar d a b k f c => some (134217766 + d.toNat * 256 + a.toNat * 8192 + b.toNat * 262144 + k.toNat * 8388608 + f.toNat * 1073741824 + c.toNat * 128)
  | .vfmaScalar d a b k f c => some (201326630 + d.toNat * 256 + a.toNat * 8192 + b.toNat * 262144 + k.toNat * 8388608 + f.toNat * 1073741824 + c.toNat * 128)
  | .vfmsScalar d a b k f c => some (268435494 + d.toNat * 256 + a.toNat * 8192 + b.toNat * 262144 + k.toNat * 8388608 + f.toNat * 1073741824 + c.toNat * 128)
  | .vfnmaScalar d a b k f c => some (335544358 + d.toNat * 256 + a.toNat * 8192 + b.toNat * 262144 + k.toNat * 8388608 + f.toNat * 1073741824 + c.toNat * 128)
  | .vfdivScalar d a b k f c => some (402653222 + d.toNat * 256 + a.toNat * 8192 + b.toNat * 262144 + k.toNat * 8388608 + f.toNat * 1073741824 + c.toNat * 128)
  | .vfsqrtScalar d a k f c => some (469762086 + d.toNat * 256 + a.toNat * 8192 + k.toNat * 8388608 + f.toNat * 1073741824 + c.toNat * 128)
  | .vfminScalar d a b k f c => some (536870950 + d.toNat * 256 + a.toNat * 8192 + b.toNat * 262144 + k.toNat * 8388608 + f.toNat * 1073741824 + c.toNat * 128)
  | .vfmaxScalar d a b k f c => some (603979814 + d.toNat * 256 + a.toNat * 8192 + b.toNat * 262144 + k.toNat * 8388608 + f.toNat * 1073741824 + c.toNat * 128)
  | .vfrcpScalar d a k f c => some (671088678 + d.toNat * 256 + a.toNat * 8192 + k.toNat * 8388608 + f.toNat * 1073741824 + c.toNat * 128)
  | .vcmp d a b k q c => some (39 + d.toNat * 256 + a.toNat * 8192 + b.toNat * 262144 + k.toNat * 8388608 + q.toNat * 67108864 + c.toNat * 128)
  | .vcmps d a b k q c => some (40 + d.toNat * 256 + a.toNat * 8192 + b.toNat * 262144 + k.toNat * 8388608 + q.toNat * 67108864 + c.toNat * 128)
  | .vfcmp d a b k q f c => some (41 + d.toNat * 256 + a.toNat * 8192 + b.toNat * 262144 + k.toNat * 8388608 + q.toNat * 67108864 + f.toNat * 1073741824 + c.toNat * 128)
  | .vfcmps d a b k q f c => some (42 + d.toNat * 256 + a.toNat * 8192 + b.toNat * 262144 + k.toNat * 8388608 + q.toNat * 67108864 + f.toNat * 1073741824 + c.toNat * 128)
  | .vmerge d a b k c => some (43 + d.toNat * 256 + a.toNat * 8192 + b.toNat * 262144 + k.toNat * 8388608 + c.toNat * 128)
  | .vmv d a k c => some (67108907 + d.toNat * 256 + a.toNat * 8192 + k.toNat * 8388608 + c.toNat * 128)
  | .vbcast d a k c => some (134217771 + d.toNat * 256 + a.toNat * 8192 + k.toNat * 8388608 + c.toNat * 128)
  | .vextN d a b c => some (201326635 + d.toNat * 256 + a.toNat * 8192 + b.toNat * 262144 + c.toNat * 128)
  | .vextI d a b c => some (268435499 + d.toNat * 256 + a.toNat * 8192 + b.toNat * 262144 + c.toNat * 128)
  | .vslideup d a b k c => some (44 + d.toNat * 256 + a.toNat * 8192 + b.toNat * 262144 + k.toNat * 8388608 + c.toNat * 128)
  | .vslidedn d a b k c => some (67108908 + d.toNat * 256 + a.toNat * 8192 + b.toNat * 262144 + k.toNat * 8388608 + c.toNat * 128)
  | .vperm d a b k c => some (134217772 + d.toNat * 256 + a.toNat * 8192 + b.toNat * 262144 + k.toNat * 8388608 + c.toNat * 128)
  | .vcompress d a k c => some (201326636 + d.toNat * 256 + a.toNat * 8192 + k.toNat * 8388608 + c.toNat * 128)
  | .vexpand d a k c => some (268435500 + d.toNat * 256 + a.toNat * 8192 + k.toNat * 8388608 + c.toNat * 128)
  | .viota d k c => some (335544364 + d.toNat * 256 + k.toNat * 8388608 + c.toNat * 128)
  | .vconf d a k c => some (402653228 + d.toNat * 256 + a.toNat * 8192 + k.toNat * 8388608 + c.toNat * 128)
  | .vredsum d a b k c => some (45 + d.toNat * 256 + a.toNat * 8192 + b.toNat * 262144 + k.toNat * 8388608 + c.toNat * 128)
  | .vredmaxI d a b k c => some (67108909 + d.toNat * 256 + a.toNat * 8192 + b.toNat * 262144 + k.toNat * 8388608 + c.toNat * 128)
  | .vredmaxN d a b k c => some (134217773 + d.toNat * 256 + a.toNat * 8192 + b.toNat * 262144 + k.toNat * 8388608 + c.toNat * 128)
  | .vredminI d a b k c => some (201326637 + d.toNat * 256 + a.toNat * 8192 + b.toNat * 262144 + k.toNat * 8388608 + c.toNat * 128)
  | .vredminN d a b k c => some (268435501 + d.toNat * 256 + a.toNat * 8192 + b.toNat * 262144 + k.toNat * 8388608 + c.toNat * 128)
  | .vfredsum d a b k f c => some (335544365 + d.toNat * 256 + a.toNat * 8192 + b.toNat * 262144 + k.toNat * 8388608 + f.toNat * 1073741824 + c.toNat * 128)
  | .vredmaxF d a b k f c => some (402653229 + d.toNat * 256 + a.toNat * 8192 + b.toNat * 262144 + k.toNat * 8388608 + f.toNat * 1073741824 + c.toNat * 128)
  | .vredminF d a b k f c => some (469762093 + d.toNat * 256 + a.toNat * 8192 + b.toNat * 262144 + k.toNat * 8388608 + f.toNat * 1073741824 + c.toNat * 128)
  | .vcvt d a t s k r g c => some (46 + d.toNat * 256 + a.toNat * 8192 + t.toNat * 262144 + s.toNat * 524288 + k.toNat * 8388608 + r.toNat * 67108864 + g.toNat * 268435456 + c.toNat * 128)
  | .vqnt d a b k q c => some (47 + d.toNat * 256 + a.toNat * 8192 + b.toNat * 262144 + k.toNat * 8388608 + q.toNat * 67108864 + c.toNat * 128)
  | .vdqnt d a b k q c => some (48 + d.toNat * 256 + a.toNat * 8192 + b.toNat * 262144 + k.toNat * 8388608 + q.toNat * 67108864 + c.toNat * 128)
  | .mand d a b k c => some (49 + d.toNat * 256 + a.toNat * 8192 + b.toNat * 262144 + k.toNat * 8388608 + c.toNat * 128)
  | .mor d a b k c => some (67108913 + d.toNat * 256 + a.toNat * 8192 + b.toNat * 262144 + k.toNat * 8388608 + c.toNat * 128)
  | .mxor d a b k c => some (134217777 + d.toNat * 256 + a.toNat * 8192 + b.toNat * 262144 + k.toNat * 8388608 + c.toNat * 128)
  | .mnot d a k c => some (201326641 + d.toNat * 256 + a.toNat * 8192 + k.toNat * 8388608 + c.toNat * 128)
  | .mpopc d a k c => some (268435505 + d.toNat * 256 + a.toNat * 8192 + k.toNat * 8388608 + c.toNat * 128)
  | .mfirst d a k c => some (335544369 + d.toNat * 256 + a.toNat * 8192 + k.toNat * 8388608 + c.toNat * 128)
  | .mseti d a c => some (402653233 + d.toNat * 256 + a.toNat * 8192 + c.toNat * 128)
  | .mvfm d c => some (469762097 + d.toNat * 256 + c.toNat * 128)
  | .vld d b k t s o c => some (64 + d.toNat * 256 + b.toNat * 8192 + k.toNat * 8388608 + t.toNat * 67108864 + s.toNat * 134217728 + o.toNat * 536870912 + c.toNat * 128)
  | .vlds d b x k t s o c => some (65 + d.toNat * 256 + b.toNat * 8192 + x.toNat * 262144 + k.toNat * 8388608 + t.toNat * 67108864 + s.toNat * 134217728 + o.toNat * 536870912 + c.toNat * 128)
  | .vldx d b x k t s o c => some (66 + d.toNat * 256 + b.toNat * 8192 + x.toNat * 262144 + k.toNat * 8388608 + t.toNat * 67108864 + s.toNat * 134217728 + o.toNat * 536870912 + c.toNat * 128)
  | .vldff d b k t s o => some (67 + d.toNat * 256 + b.toNat * 8192 + k.toNat * 8388608 + t.toNat * 67108864 + s.toNat * 134217728 + o.toNat * 536870912)
  | .vst d b k t s o c => some (68 + d.toNat * 256 + b.toNat * 8192 + k.toNat * 8388608 + t.toNat * 67108864 + s.toNat * 134217728 + o.toNat * 536870912 + c.toNat * 128)
  | .vsts d b x k t s o c => some (69 + d.toNat * 256 + b.toNat * 8192 + x.toNat * 262144 + k.toNat * 8388608 + t.toNat * 67108864 + s.toNat * 134217728 + o.toNat * 536870912 + c.toNat * 128)
  | .vstx d b x k t s o c => some (70 + d.toNat * 256 + b.toNat * 8192 + x.toNat * 262144 + k.toNat * 8388608 + t.toNat * 67108864 + s.toNat * 134217728 + o.toNat * 536870912 + c.toNat * 128)
  | .vstxa d f b x k t s o c => some (71 + d.toNat * 256 + f.toNat * 4096 + b.toNat * 8192 + x.toNat * 262144 + k.toNat * 8388608 + t.toNat * 67108864 + s.toNat * 134217728 + o.toNat * 536870912 + c.toNat * 128)
  | .vgll d b x k t s o c => some (72 + d.toNat * 256 + b.toNat * 8192 + x.toNat * 262144 + k.toNat * 8388608 + t.toNat * 67108864 + s.toNat * 134217728 + o.toNat * 536870912 + c.toNat * 128)
  | .vscc d b x k t s o c => some (73 + d.toNat * 256 + b.toNat * 8192 + x.toNat * 262144 + k.toNat * 8388608 + t.toNat * 67108864 + s.toNat * 134217728 + o.toNat * 536870912 + c.toNat * 128)
  | .vamoWAdd d a x k o => some (74 + d.toNat * 256 + a.toNat * 8192 + x.toNat * 262144 + k.toNat * 8388608 + o.toNat * 1073741824)
  | .vamoWAnd d a x k o => some (67108938 + d.toNat * 256 + a.toNat * 8192 + x.toNat * 262144 + k.toNat * 8388608 + o.toNat * 1073741824)
  | .vamoWOr d a x k o => some (134217802 + d.toNat * 256 + a.toNat * 8192 + x.toNat * 262144 + k.toNat * 8388608 + o.toNat * 1073741824)
  | .vamoWXor d a x k o => some (201326666 + d.toNat * 256 + a.toNat * 8192 + x.toNat * 262144 + k.toNat * 8388608 + o.toNat * 1073741824)
  | .vamoWMin d a x k o => some (268435530 + d.toNat * 256 + a.toNat * 8192 + x.toNat * 262144 + k.toNat * 8388608 + o.toNat * 1073741824)
  | .vamoWMax d a x k o => some (335544394 + d.toNat * 256 + a.toNat * 8192 + x.toNat * 262144 + k.toNat * 8388608 + o.toNat * 1073741824)
  | .vamoWMinn d a x k o => some (402653258 + d.toNat * 256 + a.toNat * 8192 + x.toNat * 262144 + k.toNat * 8388608 + o.toNat * 1073741824)
  | .vamoWMaxn d a x k o => some (469762122 + d.toNat * 256 + a.toNat * 8192 + x.toNat * 262144 + k.toNat * 8388608 + o.toNat * 1073741824)
  | .vamoWSwap d a x k o => some (536870986 + d.toNat * 256 + a.toNat * 8192 + x.toNat * 262144 + k.toNat * 8388608 + o.toNat * 1073741824)
  | .vamoWCas d a x k o => some (603979850 + d.toNat * 256 + a.toNat * 8192 + x.toNat * 262144 + k.toNat * 8388608 + o.toNat * 1073741824)
  | .vamoDAdd d a x k o => some (75 + d.toNat * 256 + a.toNat * 8192 + x.toNat * 262144 + k.toNat * 8388608 + o.toNat * 1073741824)
  | .vamoDAnd d a x k o => some (67108939 + d.toNat * 256 + a.toNat * 8192 + x.toNat * 262144 + k.toNat * 8388608 + o.toNat * 1073741824)
  | .vamoDOr d a x k o => some (134217803 + d.toNat * 256 + a.toNat * 8192 + x.toNat * 262144 + k.toNat * 8388608 + o.toNat * 1073741824)
  | .vamoDXor d a x k o => some (201326667 + d.toNat * 256 + a.toNat * 8192 + x.toNat * 262144 + k.toNat * 8388608 + o.toNat * 1073741824)
  | .vamoDMin d a x k o => some (268435531 + d.toNat * 256 + a.toNat * 8192 + x.toNat * 262144 + k.toNat * 8388608 + o.toNat * 1073741824)
  | .vamoDMax d a x k o => some (335544395 + d.toNat * 256 + a.toNat * 8192 + x.toNat * 262144 + k.toNat * 8388608 + o.toNat * 1073741824)
  | .vamoDMinn d a x k o => some (402653259 + d.toNat * 256 + a.toNat * 8192 + x.toNat * 262144 + k.toNat * 8388608 + o.toNat * 1073741824)
  | .vamoDMaxn d a x k o => some (469762123 + d.toNat * 256 + a.toNat * 8192 + x.toNat * 262144 + k.toNat * 8388608 + o.toNat * 1073741824)
  | .vamoDSwap d a x k o => some (536870987 + d.toNat * 256 + a.toNat * 8192 + x.toNat * 262144 + k.toNat * 8388608 + o.toNat * 1073741824)
  | .vamoDCas d a x k o => some (603979851 + d.toNat * 256 + a.toNat * 8192 + x.toNat * 262144 + k.toNat * 8388608 + o.toNat * 1073741824)
  | .vwait d a x k z q => some (76 + d.toNat * 256 + a.toNat * 8192 + x.toNat * 262144 + k.toNat * 8388608 + z.toNat * 268435456 + q.toNat * 536870912)
  | .tagl d a k => some (77 + d.toNat * 256 + a.toNat * 8192 + k.toNat * 8388608)
  | .tagw a b k => some (67108941 + a.toNat * 8192 + b.toNat * 262144 + k.toNat * 8388608)
  | .vspill a b s => some (78 + a.toNat * 8192 + b.toNat * 262144 + s.toNat * 8388608)
  | .vfill a s => some (79 + a.toNat * 8192 + s.toNat * 8388608)
  | .matt d a => some (80 + d.toNat * 256 + a.toNat * 8192)
  | .mdet => some (67108944)
  | .mmode d a => some (134217808 + d.toNat * 256 + a.toNat * 8192)
  | .mzero d => some (201326672 + d.toNat * 256)
  | .mopa d a b n q p => some (81 + d.toNat * 256 + a.toNat * 8192 + b.toNat * 262144 + n.toNat * 8388608 + q.toNat * 67108864 + p.toNat * 536870912)
  | .mopa2 d a b n q p => some (82 + d.toNat * 256 + a.toNat * 8192 + b.toNat * 262144 + n.toNat * 8388608 + q.toNat * 67108864 + p.toNat * 536870912)
  | .mopa4 d a b n q p => some (83 + d.toNat * 256 + a.toNat * 8192 + b.toNat * 262144 + n.toNat * 8388608 + q.toNat * 67108864 + p.toNat * 536870912)
  | .mops d a n p => some (84 + d.toNat * 256 + a.toNat * 8192 + n.toNat * 8388608 + p.toNat * 536870912)
  | .mopg d a b n q p => some (85 + d.toNat * 256 + a.toNat * 8192 + b.toNat * 262144 + n.toNat * 8388608 + q.toNat * 67108864 + p.toNat * 536870912)
  | .mopq d a b q => some (86 + d.toNat * 256 + a.toNat * 8192 + b.toNat * 262144 + q.toNat * 67108864)
  | .mrd d a t => some (87 + d.toNat * 256 + a.toNat * 8192 + t.toNat * 8388608)
  | .mwr d a t => some (67108951 + d.toNat * 256 + a.toNat * 8192 + t.toNat * 8388608)
  | .mcbl a => some (88 + a.toNat * 8192)
  | .mrll a => some (89 + a.toNat * 8192)
  | .msave a => some (90 + a.toNat * 8192)
  | .mrest a => some (67108954 + a.toNat * 8192)
  | .schIn d a b => some (96 + d.toNat * 256 + a.toNat * 8192 + b.toNat * 262144)
  | .schOut d a b => some (8388704 + d.toNat * 256 + a.toNat * 8192 + b.toNat * 262144)
  | .schRel d => some (16777312 + d.toNat * 256)
  | .sld d a => some (97 + d.toNat * 256 + a.toNat * 8192)
  | .sst d a => some (98 + d.toNat * 256 + a.toNat * 8192)
  | .sgath d a b k => some (99 + d.toNat * 256 + a.toNat * 8192 + b.toNat * 262144 + k.toNat * 8388608)
  | .sscat d a b k => some (100 + d.toNat * 256 + a.toNat * 8192 + b.toNat * 262144 + k.toNat * 8388608)
  | .sscataInt d a b k => some (67108964 + d.toNat * 256 + a.toNat * 8192 + b.toNat * 262144 + k.toNat * 8388608)
  | .sscataFloat d a b k => some (134217828 + d.toNat * 256 + a.toNat * 8192 + b.toNat * 262144 + k.toNat * 8388608)
  | .swm d a b => some (101 + d.toNat * 256 + a.toNat * 8192 + b.toNat * 262144)
  | .sdrain b => some (67108965 + b.toNat * 262144)
  | .sdrainAll => some (75497573)
  | .rcfg a b s => some (102 + a.toNat * 8192 + b.toNat * 262144 + s.toNat * 8388608)
  | .rwait d a b s => some (103 + d.toNat * 256 + a.toNat * 8192 + b.toNat * 262144 + s.toNat * 8388608)
  | .rfree d a s => some (67108967 + d.toNat * 256 + a.toNat * 8192 + s.toNat * 8388608)
  | .chcfg a b s => some (104 + a.toNat * 8192 + b.toNat * 262144 + s.toNat * 8388608)
  | .run a s => some (105 + a.toNat * 8192 + s.toNat * 8388608)
  | .chwait d s => some (106 + d.toNat * 256 + s.toNat * 8388608)
  | .chbrk d s => some (67108970 + d.toNat * 256 + s.toNat * 8388608)
  | .hwpub d a b n => some (107 + d.toNat * 256 + a.toNat * 8192 + b.toNat * 262144 + n.toNat * 8388608)
  | .tkpush d a => some (108 + d.toNat * 256 + a.toNat * 8192)
  | .tkpop d => some (67108972 + d.toNat * 256)
  | .qwr d a => some (109 + d.toNat * 256 + a.toNat * 8192)
  | .qrd d a => some (67108973 + d.toNat * 256 + a.toNat * 8192)
  | .launch d a => some (110 + d.toNat * 256 + a.toNat * 8192)

/-- The word of a well-formed instruction (02 R46, R47). -/
def encode (i : Instr) : Option W32 := (encodeNat i).map (BitVec.ofNat 32)

end Sys2Proof
end

