-- ==== Sys2Proof/Config.lean ====
section
/-! DEFINITION. What an implementation fixes and the manual leaves open. Every constant is opaque: nothing can be proved of
its value, so a claim holds whatever it is (assumption 6, and 7 for the cryptographic functions). -/
namespace Sys2Proof.Config

/-- A value that the manual leaves open, numbered by the counter `State.free` that reads advance. -/
opaque freeValue : Nat → Nat
/-- How far ccount of a core has advanced between two reads of it, the `n`-th read (01 R28, 09 R263). -/
opaque cycles : Nat → Nat
/-- The power in watts that the controller estimates for partition `part` at estimate `n` under a clock ceiling in MHz, an
issue limit per 16 and narrowed links (20 R430 gives no formula). -/
opaque power (n part clk iss : Nat) (nar : Bool) : Nat
/-- HMAC-SHA-256 under the key that firmware provisions, truncated to 128 bits (20 R428, R432). -/
opaque hmac : List Byte → BitVec 128
/-- SHA-384 (20 R436, R437, R440). -/
opaque sha384 : List Byte → BitVec 384
/-- Whether a boot image's ECDSA P-384 signature verifies against the fused key hash (20 R436). -/
opaque ecdsaVerifies : List Byte → Bool
/-- Whether a boot image's LMS signature verifies against the second fused key hash (20 R436). -/
opaque lmsVerifies : List Byte → Bool
/-- The security version that a boot image carries (20 R436). -/
opaque imageVersion : List Byte → Nat
/-- The fused security counter (20 R436). -/
opaque fusedCounter : Nat
/-- The ECDSA P-384 signature of a report by attestation key `k` (20 R440): 96 bytes, low byte first. -/
opaque ecdsaSign (k : Nat) : List Byte → BitVec 768
/-- The LMS signature of a report by attestation key `k`, its `n`-th (20 R440): 1,740 bytes, low byte first. -/
opaque lmsSign (k n : Nat) : List Byte → BitVec 13920
/-- The identity key pairs that boot derives from the fused device secret (20 R438): the two public keys. -/
opaque identityKeys : BitVec 1024
/-- The Jekuldo ECDSA P-384 signature of an identity certificate over its two public keys (20 R438). -/
opaque identityEcdsa : BitVec 1024 → BitVec 768
/-- The Jekuldo LMS signature of an identity certificate (20 R438). -/
opaque identityLms : BitVec 1024 → BitVec 13920
/-- The two public keys of attestation key pair `k` (20 R440). -/
opaque attestationKeys (k : Nat) : BitVec 1024
/-- The signatures by which the identity keys certify an attestation key pair (20 R440). -/
opaque attestationEcdsa : BitVec 1024 → BitVec 768
/-- The LMS one of them. -/
opaque attestationLms : BitVec 1024 → BitVec 13920
/-- Whether the host can record a poisoned write (20 R435). -/
opaque hostPoisons : Bool
/-- The frame of device memory at which the resource-map view of a partition starts, in units of 4 KiB (19 R409). -/
opaque viewFrame : Nat → Nat
/-- The space-0 address of that view, in units of 4 KiB (19 R409). -/
opaque viewPage : Nat → Nat
/-- The unit of 64 KiB of which the loader thinks in its `k`-th attempt to place segment `seg` (1 data, 3 chain) of a code object for a
partition (01 R45). -/
opaque loadUnit (part : Nat) (obj : Word) (seg k : Nat) : Nat
/-- The host frame, in units of 4 KiB, that a migration to host memory takes (13 R312). -/
opaque hostFrame : Nat → Nat
/-- The native image that the loader makes of a ZPF form, if it can be translated (15 R331, R332); the manual does not give
the form. -/
opaque translateZpf : List Byte → Option (List Byte)
/-- What a walk finds at an address beyond device memory: the entry that the manual leaves open (13 R298). -/
opaque absentEntry : Nat → Nat
/-- The HBM channel of a frame of device memory (19 R411 numbers the channels; the manual does not place the frames). -/
opaque frameChannel : Nat → Nat
/-- Whether the host platform reports an AtomicOp completer (20 R422). -/
opaque hostAtomics : Bool

/-- The request that an MREQ of a virtual interface makes, by its tag, `OPA`, address and data units: the manual does not give the
layout of the data (20 R429). -/
opaque request (vi : Nat) (tag : BitVec 16) (code addr : Nat) (data : List Byte) : Option Instr
/-- The data of a status response (20 R429 gives no layout): the stopped threads, the withdrawn units, the state of the links, the
completion words that were not written, and the counts of dropped writes, of poisoned reads and of ignored frames. -/
opaque statusData (stopped : List Nat) (withdrawn : List UnitRef) (links : List Nat) (words : List (Nat × Nat))
    (drops reads ignored : Nat) : List Byte
/-- The issue cycles per 16 that a supply current alarm leaves (20 R431 does not say). -/
opaque alarmIssue : Nat → Nat

end Sys2Proof.Config
end

