-- ==== Sys2Proof/Machine/Seeds.lean ====
section
/-! DEFINITION. The seeding of the stochastic-rounding generators (03 R90), which a thread's registers hold from the start. -/
namespace Sys2Proof.Machine

/-- The state of generator `j` after seeding. -/
def srSeed (seed : W32) (j : Nat) : W32 :=
  let s := seed ^^^ BitVec.ofNat 32 (j * 0x9E3779B9)
  if s = 0 then 1 else s
/-- All 128 generators after seeding. -/
def srSeedAll (seed : W32) : List W32 := (List.range 128).map (srSeed seed)

end Sys2Proof.Machine
end

