-- ==== Sys2Proof/Machine/State.lean ====
section
/-! DEFINITION. The state of the module as plain data: the hardware threads, the cores, the matrix units, the clusters, the
memories, the launch unit's groups, launches and partitions, the hub die's links, reductions, migration, management, power
and security state; and the ways in which a step can stop. -/
namespace Sys2Proof.Machine

/-! ## Tables -/

/-- A table of records by number, in ascending order of the number; a number that is not listed reads as a default that the
reader gives. -/
abbrev SMap (α : Type) := List (Nat × α)

/-- The record at `k`, if one is listed. -/
def SMap.look {α : Type} (m : SMap α) (k : Nat) : Option α :=
  match m with
  | [] => none
  | (j, a) :: r => if j = k then some a else SMap.look r k

/-- The record at `k`, or the default. -/
def SMap.get {α : Type} (m : SMap α) (k : Nat) (d : α) : α := (SMap.look m k).getD d

/-- The table with `a` at `k`. -/
def SMap.set {α : Type} (m : SMap α) (k : Nat) (a : α) : SMap α :=
  match m with
  | [] => [(k, a)]
  | (j, b) :: r => if k < j then (k, a) :: (j, b) :: r else if j = k then (k, a) :: r else (j, b) :: SMap.set r k a

/-- The table without the record at `k`. -/
def SMap.erase {α : Type} (m : SMap α) (k : Nat) : SMap α :=
  match m with
  | [] => []
  | (j, b) :: r => if j = k then r else (j, b) :: SMap.erase r k

/-! ## Memory -/

/-- Byte memory: the bytes that differ from what an unlisted address reads as, in rising address order (assumption 1). -/
abbrev Memory := List Host.Cell

/-- What a byte that nothing has written reads as: zero (assumption 1; for a tile allocation 11 R273). -/
def Memory.fill : Byte := 0

/-- The byte at `a`. -/
def Memory.read (m : Memory) (a : Nat) : Byte :=
  match m with
  | [] => Memory.fill
  | (k, b) :: r => if k = a then b else Memory.read r a

/-- The memory without an entry at `a`. -/
def Memory.erase (m : Memory) (a : Nat) : Memory :=
  match m with
  | [] => []
  | (k, b) :: r => if k = a then r else (k, b) :: Memory.erase r a

/-- The memory with an entry for `b` at `a`. -/
def Memory.insert (m : Memory) (a : Nat) (b : Byte) : Memory :=
  match m with
  | [] => [(a, b)]
  | (k, c) :: r => if a < k then (a, b) :: (k, c) :: r else if k = a then (a, b) :: r else (k, c) :: Memory.insert r a b

/-- The memory with byte `b` at `a`, in canonical form: writing what an unlisted address reads as removes the entry. -/
def Memory.write (m : Memory) (a : Nat) (b : Byte) : Memory :=
  if b = Memory.fill then m.erase a else m.insert a b

/-- The canonical form: addresses rise strictly from `lo` and no entry holds the value of an unlisted address. -/
def Memory.wfFrom (lo : Nat) (m : Memory) : Bool :=
  match m with
  | [] => true
  | (k, b) :: r => decide (lo ≤ k) && b != Memory.fill && Memory.wfFrom (k + 1) r

/-- The canonical form of a memory. -/
def Memory.wf (m : Memory) : Bool := Memory.wfFrom 0 m

/-! ## Threads -/

/-- The privilege levels (01 R20); emulation mode is user level with `EM` set (01 R21). -/
inductive Level where
  | user | supervisor | firmware
  deriving DecidableEq, Repr

/-- The number of a level in `PLEV` (19 R379). -/
def Level.num : Level → Nat
  | .user => 0 | .supervisor => 1 | .firmware => 2

/-- The allocation state of a thread (09 R242). -/
structure LatThr where
  lim : Nat := 0
  ask : Bool := false
  share : Nat := 0
  req : Nat := 0
  deriving DecidableEq, Repr

/-- What SETVLW changes before its read of the status word, as it was before: the vector configuration, the registers, the allocation
state and the lane groups (05 R140, R142). -/
structure VConf where
  ew : Nat := 2
  vl : Nat := 0
  vlmax : Nat := 0
  vrlen : Nat := 0
  estart : Nat := 0
  v : Vector Nat 32 := Vector.replicate 32 0
  m : Vector Nat 8 := Vector.replicate 8 0
  lat : LatThr := {}
  lanes : List (Nat × Nat) := []
  deriving DecidableEq, Repr

/-- Where an access is performed, once its address is checked and translated. -/
inductive Loc where
  /-- Device memory, by physical address (11 R270). -/
  | dev (pa : Nat)
  /-- Host memory, by physical address (13 R311). -/
  | hostmem (pa : Nat)
  /-- The allocation of a group on a core, by local offset (11 R272 to R274). -/
  | tile (core group off : Nat)
  deriving DecidableEq, Repr

/-- What a parked thread waits for (09 R260), with the operands of its instruction, so that the wake completes it. -/
inductive Wait where
  /-- VWAIT (06 R190): the elements already satisfied, and the lines of the others as it read them. -/
  | vwait (d a x : BitVec 5) (k : BitVec 3) (z : BitVec 1) (q : BitVec 3) (done : Nat) (seen : List (Loc × Nat))
  /-- SETVLW on a status word (05 R140), and the word's line as it read it. -/
  | setvlw (d a b : BitVec 5) (e : BitVec 2) (seen : List (Loc × Nat))
  /-- RWAIT (07 R224). -/
  | rwait (d a b : BitVec 5) (s : BitVec 3)
  /-- SWM (07 R219). -/
  | swm (d a b : BitVec 5)
  /-- SDRAIN of one channel, or of all (07 R219). -/
  | sdrain (ch : Option Nat)
  /-- QWR into a full queue (07 R229). -/
  | qwr (d a : BitVec 5)
  /-- QRD from an empty queue (07 R229). -/
  | qrd (d a : BitVec 5)
  /-- CHWAIT (07 R228). -/
  | chwait (d : BitVec 5) (slot : Nat)
  /-- TLBSYNC (04 R129). -/
  | tlbsync
  /-- CHCFG waiting for a claimant place (02 R68), with its slot, which is already empty, and the image that it has read: its address, its
  frames and their number. -/
  | chcfgClaim (s : BitVec 2) (image : Word) (frames n : Nat)
  /-- A ninth transfer waiting for a channel slot (07 R217). -/
  | transferSlot (ch : Nat)
  /-- An instruction waiting behind a RUN (07 R227, 17 R360). -/
  | runWait
  /-- A tile access stalled on a channel's watermark (07 R218). -/
  | stall (ch : Nat)
  /-- SCH, RCFG or CHCFG waiting until a channel is idle or a RUN is over (07 R213, R222, R225). -/
  | channelIdle (ch : Nat)
  /-- An access waiting for the migration unit (13 R312). -/
  | migrate (leaf va : Nat)
  /-- An access to host memory held while the link retrains (20 R418): whether it reads. -/
  | link (read : Bool)
  /-- A read of bytes of host memory whose DRD has no completion yet (20 R420). -/
  | reply (pa n : Nat)
  /-- The finish of a broken chain with no ready node (19 R401). -/
  | finish
  deriving DecidableEq, Repr

/-- What a hardware thread is doing (09 R237, R243, R260). -/
inductive Status where
  /-- Not resident. -/
  | absent
  | issuing
  | parked (w : Wait)
  /-- Under IDLE (04 R132). -/
  | idle
  /-- Stopped by a synchronous cause to firmware while fstatus `TIH` = 1 (19 R386). -/
  | stopped
  /-- Ended at the exit address (01 R32) or terminated as failed; its resources are not yet released (07 R214). -/
  | ending (failed : Bool)
  /-- Terminated, its accesses settled and its task marked (15 R345); its resources are not yet released. -/
  | settled
  deriving DecidableEq, Repr

/-- The trap-entry registers of one level (19 R378 to R381). -/
structure TrapRegs where
  cause : Word := 0
  epc : Word := 0
  fpc : Word := 0
  tval : Word := 0
  info : Word := 0
  vec : Word := 0
  scratch : Word := 0
  aie : Bool := false
  paie : Bool := false
  tih : Bool := false
  deriving DecidableEq, Repr

/-- The convoy in progress: the next member, `e0`, whether its last member has been performed, whether it resumed at the recorded member
(09 R251, R257), the elements that the member has performed or found satisfied when it stopped within itself, the element at which one that
merges stands there (assumption 10), and what a SETVLW that waits has changed (05 R142). -/
structure Convoy where
  idx : Nat := 0
  e0 : Nat := 0
  last : Bool := false
  resumed : Bool := false
  part : Option Nat := none
  upTo : Option Nat := none
  old : Option VConf := none
  deriving DecidableEq, Repr

/-- A chain frame with its target resolved at CHCFG (02 R59 to R61): the word, the target core, the physical lane group of a
vector stage, and the output core of a switch. -/
structure Frame where
  word : Nat := 0
  core : Nat := 0
  lg : Nat := 0
  outCore : Nat := 0
  deriving DecidableEq, Repr

/-- The progress of one frame in a RUN: elements completed, steps completed of the element in progress (17 R360), the entries that a
switch has moved (17 R356), and the queue entries that a matrix stage has popped for that element (17 R358). -/
structure Progress where
  done : Nat := 0
  steps : Nat := 0
  moved : Nat := 0
  in0 : List W32 := []
  in1 : List W32 := []
  in2 : List W32 := []
  deriving DecidableEq, Repr

/-- Where a RUN stands: streaming; broken and draining; drained, its finish pending (19 R398 to R401). -/
inductive RunPhase where
  | streaming | draining | drained
  deriving DecidableEq, Repr

/-- A RUN (07 R226): the element count, the scalar registers as read at RUN, the level that issued it, its phase, whether CHBRK ends the
chain after its finish, the CHBRK that waits for that finish, with its destination, its result and its address, the least number of elements
that a compute stage or port completed spatially, once the RUN is broken, and the progress of each frame. -/
structure Run where
  n : Nat := 0
  g : Vector Word 32 := Vector.replicate 32 0
  level : Level := .user
  phase : RunPhase := .streaming
  endAfter : Bool := false
  chbrk : Option (BitVec 5 × Nat × Word) := none
  spatial : Option Nat := none
  progress : List Progress := []
  deriving DecidableEq, Repr

/-- A configured bake slot (07 R225): image, frames, CHCFG sequence, the RUN in progress, the count of the last RUN, the
banks (256 × core + bank) handed on in the RUN in progress or awaiting its end, whether the slot only holds a record that is still to
be configured again (19 R397, R405), and the queues whose entries came with such a record: core, queue and frame. A record has frames once its
finish is prepared. -/
structure Slot where
  image : Word := 0
  nframes : Nat := 0
  frames : List Frame := []
  seq : Nat := 0
  run : Option Run := none
  lastN : Nat := 0
  handed : List Nat := []
  recorded : Bool := false
  kept : List (Nat × Nat × Nat) := []
  deriving DecidableEq, Repr

/-- A record of a fault batch (13 R307), bits [127:0]. -/
abbrev FaultRecord := Nat

/-- An asynchronous fault of a stream transfer (13 R295): PAGEBATCH with its records, or PROT with its address; its stream element; and
the channel and place of the transfer. -/
structure StreamFault where
  ch : Nat := 0
  seq : Nat := 0
  prot : Bool := false
  addr : Nat := 0
  elem : Nat := 0
  records : List FaultRecord := []
  deriving DecidableEq, Repr

/-- A translation held by a TLB or an engine (13 R305): the base and size of the virtual range, its identifier, whether it is
global, the physical base, its side and permissions, and the physical address of its leaf entry. -/
structure Trans where
  va : Nat := 0
  size : Nat := 4096
  asid : Nat := 0
  glob : Bool := false
  pa : Nat := 0
  host : Bool := false
  user : Bool := false
  write : Bool := false
  mig : Bool := false
  leaf : Nat := 0
  deriving DecidableEq, Repr

/-- The context of one hardware thread: the register classes of 01 R13, the user control registers of 01 R23, the supervisor
and firmware registers of 19 R378, and the thread's place in the machine. -/
structure Thread where
  /-- g0 to g31; g0 reads as zero through the accessors (01 R13). -/
  g : Vector Word 32 := Vector.replicate 32 0
  /-- v0 to v31 as byte images (01 R14). -/
  v : Vector Nat 32 := Vector.replicate 32 0
  /-- m0 to m7 (01 R16). -/
  m : Vector Nat 8 := Vector.replicate 8 0
  /-- The stochastic-rounding generators G0 to G127 (03 R90). -/
  gens : List W32 := srSeedAll 1
  pc : Word := 0
  level : Level := .user
  em : Bool := false
  vl : Nat := 0
  /-- vtype `EW` (01 R24). -/
  ew : Nat := 2
  vlmax : Nat := 0
  vrlen : Nat := 0
  estart : Nat := 0
  fmask : Nat := 0
  fflags : Nat := 0
  frm : Nat := 0
  srseed : Nat := 1
  qthr : Nat := 0x7F800000
  mvl : Nat := 64
  mgrant : Nat := 0
  mprog : Nat := 0
  rmvAck : Nat := 0
  rmvCur : Nat := 0
  thrcause : Nat := 0
  hwfail : Nat := 0
  tkcur : Word := 0
  emvec : Word := 0
  empc : Word := 0
  eminst : W32 := 0
  /-- cdim1 to cdim3 of channel c at 4c+f (07 R215). -/
  cdim : SMap Word := []
  sup : TrapRegs := {}
  fw : TrapRegs := {}
  ptroot : Word := 0
  fbarea : Word := 0
  /-- spend, bits [5:0] (19 R382). -/
  spend : Nat := 0
  /-- CHBREAK values pending: bake slot and `stval` (19 R405). -/
  chbreaks : List (Nat × Nat) := []
  /-- UNCORR classes pending (19 R407). -/
  uncorrs : List Nat := []
  /-- The rank of the pending POWEREMERG (20 R432). -/
  shed : Nat := 0
  streamFaults : List StreamFault := []
  rmLeft : Nat := 0
  rmAllow : Nat := 0x100000
  /-- The grace has just run out (19 R416). -/
  rmDue : Bool := false
  /-- An UNCORR has been taken, so that a TRET to a lower level ends the context (19 R384). -/
  uncorr : Bool := false
  /-- CTXSV has saved the context, and it runs again only after CTXLD or a return (17 R363). -/
  saved : Bool := false
  /-- CTXLD has restored the context at this level, and it has not been resumed (19 R397). -/
  restored : Option Level := none
  cv : Option Convoy := none
  /-- The restart instruction is reissued for fmask only (04 R121). -/
  reissue : Bool := false
  status : Status := .absent
  group : Nat := 0
  /-- The launch's lane request (09 R246, SETVLW). -/
  lanes : Nat := 1
  slots : SMap Slot := []
  /-- Stores of chain ports that nothing orders before the thread's younger accesses yet, latest first: the slot, the place, the bytes and what
  they held before (07 R228, 11 R281, assumption 94). -/
  unseen : List (Nat × Loc × Nat × Nat) := []
  /-- Aligned 8-byte pieces of tile memory that strips of the thread's inward transfers have written since its last tile access, with what they
  held before: no edge orders those writes before what a RUN of the thread fetches (11 R281, 18 R374, assumption 94). -/
  fills : List (Loc × Nat) := []
  /-- TLBINVs of the thread that have acted and not completed (13 R309). -/
  tlbinvs : Nat := 0
  deriving DecidableEq, Repr

/-! ## Cores -/

/-- A chaining queue (01 R18): entries, oldest first, and the chain (thread, slot) that produces and consumes it. -/
structure Queue where
  entries : List W32 := []
  prod : Option (Nat × Nat) := none
  cons : Option (Nat × Nat) := none
  deriving DecidableEq, Repr

/-- The kinds of transfer (07 R216). -/
inductive XferKind where
  | sld | sst | sgath | sscat | sscataInt | sscataFloat
  deriving DecidableEq, Repr

/-- An issued transfer (07 R216, R217, 13 R297): its operands as they stood at issue, the first strip not completed, and the
translations that the engine holds. -/
structure Xfer where
  kind : XferKind := .sld
  ew : Nat := 0
  base : Word := 0
  vl : Nat := 0
  cursor : Nat := 0
  dim1 : Word := 0
  dim2 : Word := 0
  dim3 : Word := 0
  idx : List Nat := []
  mask : Option Nat := none
  strip : Nat := 0
  root : Word := 0
  level : Level := .user
  held : List Trans := []
  /-- Its place in the core's order of issue (07 R218). -/
  seq : Nat := 0
  /-- Stopped by a failed re-translation until the supervisor returns (13 R295), or restored and not yet resumed (19 R397). -/
  stopped : Bool := false
  /-- A strip under way: the elements still to move, with their places; a masked-off one of SGATH has none (assumption 14). -/
  begun : Option (List (Nat × Option Loc)) := none
  deriving DecidableEq, Repr

/-- A stream channel (07 R213, R215). -/
structure Channel where
  owner : Option Nat := none
  outward : Bool := false
  tb : Nat := 0
  tl : Nat := 0
  cursor : Nat := 0
  wm : Nat := 0
  xfers : List Xfer := []
  ring : Option Nat := none
  /-- Tile ranges of abandoned transfers, which are never moved (13 R295). -/
  lost : List (Nat × Nat) := []
  deriving DecidableEq, Repr

/-- A ring slot (07 R223, R224). -/
structure RingSlot where
  fph : Bool := false
  eph : Bool := false
  ect : Nat := 0
  deriving DecidableEq, Repr

/-- A ring (07 R222): the configuring thread and its group, the RCFG operands, the slots, and the slot the engine fills
next. -/
structure Ring where
  owner : Nat := 0
  group : Nat := 0
  ecnt : Nat := 0
  ns : Nat := 0
  ch : Nat := 0
  rb : Nat := 0
  sb : Nat := 0
  slots : SMap RingSlot := []
  nxt : Nat := 0
  /-- Fills completed since RCFG. -/
  fills : Nat := 0
  deriving DecidableEq, Repr

/-- A tile allocation on a core (11 R273): its size in bytes, its memory, its poisoned 8-byte pieces, the claimant queue of
each bank, head first, with the bakes that wait for a place in it (02 R68), and the tag slots of the group (06 R192). -/
structure Alloc where
  size : Nat := 0
  mem : Memory := []
  poison : List Nat := []
  claims : SMap (List (Nat × Nat)) := []
  waiting : SMap (List (Nat × Nat)) := []
  tagSlots : Nat := 0
  /-- The keys of the valid slots. -/
  tags : SMap Nat := []
  /-- The rotation pointers `RP` of the sets. -/
  rotate : SMap Nat := []
  deriving DecidableEq, Repr

/-- The owner of a lane group, as latab codes it (09 R240). -/
inductive LaneOwner where
  | thread (t : Nat) | free | bake | dead
  deriving DecidableEq, Repr

/-- A presented core (09 R237 to R242): the owners of its nine physical lane groups, the allocation state of its threads, its
gang, its queues, channels, rings, tile allocations by group, deque (oldest first, each with its launch), steal generator,
ccount with the number of reads of it, and the VTLB. -/
structure Core where
  lanes : List LaneOwner := []
  lat : SMap LatThr := []
  /-- log2 of the gang size, and the gang's first core. -/
  gang : Nat := 0
  gangFirst : Nat := 0
  queues : SMap Queue := []
  channels : SMap Channel := []
  /-- Transfers issued. -/
  xferSeq : Nat := 0
  rings : SMap Ring := []
  allocs : SMap Alloc := []
  deque : List (Word × Nat) := []
  stealGen : Nat := 0
  ccount : Nat := 0
  vtlb : List Trans := []
  deriving DecidableEq, Repr

/-- A core's attachment to its matrix unit (07 R201, R210): the thread, its rows and mode, the codebook slot (`CB`, `ESC` and
`OSAT` at their places in the header of 03 R81) and the raisin list slot (the 576-byte area of 03 R83). -/
structure Attachment where
  h : Nat := 0
  rows : Nat := 0
  mode : Nat := 0
  codebook : Option Nat := none
  raisins : Option Nat := none
  deriving DecidableEq, Repr

/-- A matrix unit (00 R1, 17 R361): the rows of its accumulators at 64 × tile + physical row, each the image of 64 FP32 values,
the attachments of the even and the odd core of its pair, and the MTLB. -/
structure MatUnit where
  acc : SMap Nat := []
  even : Option Attachment := none
  odd : Option Attachment := none
  mtlb : List Trans := []
  deriving DecidableEq, Repr

/-- A cluster (09 R261, 15 R337): its code store, the windows, the loaded object, stealctl and lerr. -/
structure Cluster where
  code : Memory := []
  codeLen : Nat := 0
  rtBase : Nat := 0
  rtLen : Nat := 0
  obj : Word := 0
  /-- The offset in the object of the image that is loaded; none for one translated from the ZPF form. -/
  img : Option Nat := none
  stealctl : Nat := 3
  lerrV : Bool := false
  lerrAddr : Nat := 0
  deriving DecidableEq, Repr

/-! ## The launch unit -/

/-- What the loader keeps of a selected image (15 R331): its offset in the object (none for an image translated from the ZPF
form), its bytes, the header's lengths, and where its data and chain segments stand (01 R42, R45). -/
structure Image where
  off : Option Nat := none
  bytes : List Byte := []
  codeLen : Nat := 0
  dataLen : Nat := 0
  tileLen : Nat := 0
  chainLen : Nat := 0
  nkern : Nat := 0
  dataBase : Nat := 0
  chainBase : Nat := 0
  deriving DecidableEq, Repr

/-- How image selection ended for the head of a queue: an image, or a refusal with its status and `DET` (15 R331, R332). -/
inductive Selection where
  | image (i : Image)
  | refused (st det : Nat)
  deriving DecidableEq, Repr

/-- A launch (15 R323, R326): its record, its partition and queue, the interface or partition it came from, its environment
as a virtual interface, the selection made at the head of its queue, the placement so far and the counts. -/
structure Launch where
  record : Nat := 0
  part : Nat := 0
  /-- The virtual interface whose launch environment applies (15 R327). -/
  vi : Nat := 0
  /-- The priority and weight of its queue when it was queued (15 R325). -/
  qprio : Nat := 0
  qwt : Nat := 1
  sel : Option Selection := none
  placed : Nat := 0
  prevCluster : Nat := 0
  gdone : Nat := 0
  gfail : Nat := 0
  /-- Management withdrew it (15 R330). -/
  aborted : Bool := false
  /-- Its completion word has been written, with a refusal. -/
  reported : Bool := false
  deriving DecidableEq, Repr

/-- A placed group (15 R334): its launch, its index, its cluster and first cores of its units, its gang size, threads per
unit and in all, the tile allocation per core, and how many of its threads have ended. -/
structure Group where
  launch : Nat := 0
  idx : Nat := 0
  cluster : Nat := 0
  firsts : List Nat := []
  gang : Nat := 0
  perUnit : Nat := 1
  threads : Nat := 1
  lanes : Nat := 1
  tile : Nat := 0
  tagSlots : Nat := 64
  entry : Nat := 0
  started : Bool := false
  ended : Nat := 0
  failed : Bool := false
  /-- Swapped out: the allocations in core order, and the threads with their unit and hardware thread number (19 R397). -/
  swapped : Bool := false
  savedAllocs : List Alloc := []
  savedThreads : List (Nat × Nat × Thread) := []
  deriving DecidableEq, Repr

/-- A launch queue (15 R325): its configuration and its launches, head first. -/
structure LQueue where
  owner : Nat := 0xFF
  wt : Nat := 1
  prio : Nat := 0
  items : List Nat := []
  used : Nat := 0
  deriving DecidableEq, Repr

/-- A partition (20 R424) with its dispatcher (15 R328, R329) and caps (20 R433). -/
structure Partition where
  clusters : List Nat := []
  feat : Nat := 0
  queues : SMap LQueue := []
  ptr : SMap Nat := []
  images : List (Word × Selection) := []
  cap : Nat := 0
  rank : Nat := 0
  /-- The rank in force: that of PCAP at the last estimate (20 R433). -/
  rankNow : Nat := 0
  /-- Throttle steps applied (20 R431), and the limit of an alarm or of shedding. -/
  steps : Nat := 0
  cause : Nat := 0
  shed : Bool := false
  alarm : Bool := false
  /-- The controller has set its view of the resource map aside (19 R409). -/
  viewed : Bool := false
  deriving DecidableEq, Repr

/-- A memory window (20 R423). -/
structure Window where
  hostBase : Nat := 0
  len : Nat := 0
  vbase : Nat := 0
  asid : Nat := 0
  deriving DecidableEq, Repr

/-- A virtual interface (20 R423, R424, 15 R327). -/
structure VI where
  part : Option Nat := none
  env : Env := {}
  windows : SMap Window := []
  deriving DecidableEq, Repr

/-! ## The hub die -/

/-- The states of a migration (13 R312). -/
inductive MigPhase where
  | splice | switch | hold
  deriving DecidableEq, Repr

/-- A page that the migration unit serves (13 R312 to R315), under the physical address of its leaf entry: the value read at
acceptance, the old and new frame and side, the virtual page and whether the host asked. -/
structure Migration where
  phase : MigPhase := .splice
  entry : Nat := 0
  va : Nat := 0
  oldPa : Nat := 0
  oldHost : Bool := false
  newPa : Nat := 0
  newHost : Bool := false
  vi : Nat := 0
  deriving DecidableEq, Repr

/-- A device request that waits at the migration unit: the thread, or the hub die on behalf of a partition, its leaf and page (13 R312). -/
structure MigRequest where
  h : Nat := 0
  leaf : Nat := 0
  va : Nat := 0
  deriving DecidableEq, Repr

/-- The states of a reduction node (17 R365). -/
inductive NodeState where
  | idle | armed | done | failed
  deriving DecidableEq, Repr

/-- A reduction node (17 R365 to R368): the virtual interface whose partition armed it, its descriptor and the next token. -/
structure Node where
  state : NodeState := .idle
  vi : Nat := 0
  desc : Nat := 0
  uport : Nat := 15
  dport : Nat := 15
  fmt : Nat := 0
  ntok : Nat := 0
  outstw : Nat := 0
  outbuf : Nat := 0
  instw : Nat := 0
  inbuf : Nat := 0
  next : Nat := 0
  deriving DecidableEq, Repr

/-- A transaction of the Knadivy Serial Link or of a peer port (20 R419): the header as a 128-bit number and the data; and of a write to host
memory, its bytes and what they held before, so that one which is never delivered is undone (20 R418, assumption 9). -/
structure Transaction where
  header : Nat := 0
  data : List Byte := []
  old : Option (Nat × Nat) := none
  deriving DecidableEq, Repr

/-- Whether a link carries traffic (20 R418). -/
inductive LinkPhase where
  | up | retraining | down
  deriving DecidableEq, Repr

/-- The link layer of the Knadivy Serial Link or of a peer port (20 R417, R418): next sequence numbers, the last 64 flits
sent, failed replays in a row, the phase, transactions not yet put into flits, the units of a transaction that is not yet
complete, transactions received that wait before they are performed, the flits sent, the flits taken in for which no credit has been returned, the
credits returned by the other side, and the writes to host memory held while the link retrains: the address, and the bytes with their value,
or none where the piece there is written as poisoned; the launches whose completion words are among them, with their addresses; and the writes
to host memory in the last 64 flits, each under the sequence number of the flit that ends it, and the first flit that the other side lacks
while the link retrains. -/
structure Link where
  txSeq : Nat := 0
  rxSeq : Nat := 0
  replay : List Nat := []
  fails : Nat := 0
  failSeq : Nat := 0
  phase : LinkPhase := .up
  out : List Transaction := []
  partialUnits : List Nat := []
  inbox : List Transaction := []
  sent : List Nat := []
  owed : Nat := 0
  credits : Nat := 0
  held : List (Nat × Option (Nat × Nat)) := []
  words : List (Nat × Nat) := []
  writes : List (Nat × Transaction) := []
  lostFrom : Nat := 0
  deriving DecidableEq, Repr

/-- Power state of a link (20 R426). -/
inductive LinkPower where
  | full | narrow | sleep
  deriving DecidableEq, Repr

/-- A link's power: its state, whether a wake is under way, and whether a cap holds it narrow (04 R131, 20 R431). -/
structure LinkState where
  power : LinkPower := .full
  waking : Bool := false
  capped : Bool := false
  /-- Raised by LWAKE, so that it stays full for at least 20 µs (20 R426). -/
  raised : Bool := false
  deriving DecidableEq, Repr

/-- A physical core of the resource map (19 R411): its state (0 live, 1 spare, 2 fused off, 3 retired), its live lane groups,
its live banks, its link capabilities and its corrected errors. -/
structure PhysCore where
  st : Nat := 0
  lg : Nat := 0xFF
  banks : Nat := 0xFFFFFFFFFFFFFFFF
  links : Nat := 0xAA
  cerr : Nat := 0
  deriving DecidableEq, Repr

/-- The management controller (20 R427 to R429): the managing interface, the `SEQ` counters, frames ignored, stopped threads,
completion words that could not be written, writes to the host that were dropped and reads of it that completed as poisoned (20 R418,
R435), the withdrawal threshold, and the responses on the management port. -/
structure Management where
  managing : Nat := 0
  seq : Option Nat := none
  capSeq : Option Nat := none
  ignored : Nat := 0
  stopped : List Nat := []
  undelivered : List (Nat × Nat) := []
  drops : Nat := 0
  poisonedReads : Nat := 0
  threshold : Nat := 16
  responses : List (List Byte) := []
  deriving DecidableEq, Repr

/-- Power capping (20 R430 to R433). -/
structure Power where
  mcap : Nat := 3200
  limit : Nat := 3200
  shed : Nat := 0xFF
  estimates : Nat := 0
  /-- Clock ceilings lowered by thermal alarms, by die, in MHz. -/
  thermal : SMap Nat := []
  /-- Steps in the order in which they were taken: partition and cause (20 R431). -/
  history : List (Nat × Nat) := []
  deriving DecidableEq, Repr

/-- The resource map (19 R409 to R414): the version, the selected bank, whether a change other than a withdrawal waits to be published, the physical
cores, the matrix units, HBM channels, die boundaries and peer ports, the clock ceilings, and corrected errors by unit. -/
structure ResMap where
  ver : Nat := 0
  sel : Bool := false
  pending : Bool := false
  /-- Units that reached the threshold and are not yet withdrawn by a published version (19 R406). -/
  waiting : List UnitRef := []
  /-- Units withdrawn. -/
  withdrawn : List UnitRef := []
  phys : SMap PhysCore := []
  deadUnits : List Nat := []
  hbm : SMap Nat := []
  boundaries : SMap Nat := []
  ports : SMap Nat := []
  clk : SMap Nat := []
  errors : List (UnitRef × Nat) := []
  deriving DecidableEq, Repr

/-- The boot state (20 R436). -/
inductive BootPhase where
  | reset | recovery | running
  deriving DecidableEq, Repr

/-- A certificate that binds the two public keys of an ECDSA and an LMS pair, with its two signatures (20 R438, R440). -/
structure Certificate where
  keys : BitVec 1024
  ecdsa : BitVec 768
  lms : BitVec 13920
  deriving DecidableEq, Repr

/-- The security engine (20 R436 to R440): the boot flash by stage, the phase, the measurement registers, the running
security version, the identity keys with their certificate, the attestation key in use with its certificate, and the reports it has
signed. -/
structure Security where
  flash : List (List Byte) := []
  phase : BootPhase := .reset
  measure : Vector (BitVec 384) 8 := Vector.replicate 8 0
  version : Nat := 0
  keys : BitVec 1024 := 0
  identity : Option Certificate := none
  attKey : Nat := 0
  attCert : Option Certificate := none
  reports : Nat := 0
  deriving DecidableEq, Repr

/-- A link tag of VGLL (06 R183): the thread, the line by side and physical address, and whether it is unbroken. -/
structure LinkTag where
  h : Nat := 0
  host : Bool := false
  tile : Option (Nat × Nat) := none
  line : Nat := 0
  deriving DecidableEq, Repr

/-- A read of host memory that awaits its completion (20 R420): the tag and the place of the DRD, the thread or the hub's agent that reads, and
what the model holds there. -/
structure HostRead where
  tag : Nat := 0
  addr : Nat := 0
  n : Nat := 8
  agent : Nat := 0
  old : Nat := 0
  deriving DecidableEq, Repr

/-- Whose turn the model's schedule gives (assumption 3). -/
inductive Turn where
  | thread | engine
  deriving DecidableEq, Repr

/-- How far the next instruction comes before something may arrive within it (assumption 10): the elements or steps that it performs, and
the elements above them that are performed too where 06 R175 lets them be performed again; of a MATT, that the other core's MATT is
served in the same cycle (07 R201). -/
structure Cut where
  after : Nat := 0
  above : Nat := 0
  deriving DecidableEq, Repr

/-- The module. -/
structure State where
  /-- The thread on whose behalf an instruction executes, `cur` = 4 × core + thread, and the others. -/
  cur : Nat := 0
  th : Thread := {}
  others : SMap Thread := []
  cores : SMap Core := []
  units : SMap MatUnit := []
  clusters : SMap Cluster := []
  dram : Memory := []
  dramPoison : List Nat := []
  host : Memory := []
  hostPoison : List Nat := []
  tags : List LinkTag := []
  groups : SMap Group := []
  launches : SMap Launch := []
  parts : SMap Partition := []
  vis : SMap VI := []
  /-- Numbers for the next launch and group. -/
  nextLaunch : Nat := 0
  nextGroup : Nat := 0
  migrations : SMap Migration := []
  migRequests : List MigRequest := []
  pool : List Nat := []
  holdNanos : Nat := 1000000
  nodes : SMap Node := []
  ksl : Link := {}
  peers : SMap Link := []
  links : List (LinkRef × LinkState) := []
  /-- Reads of the device that await their CPL (20 R420). -/
  outstanding : List HostRead := []
  /-- The 8-byte pieces of host memory that have come with a CPL and are not read yet: the agent and the piece. -/
  answers : List (Nat × Nat) := []
  nextTag : Nat := 0
  mgmt : Management := {}
  power : Power := {}
  rmap : ResMap := {}
  sec : Security := {}
  /-- Inputs and choices that the next steps perform, first one first (assumption 3). -/
  agenda : List Instr := []
  turn : Turn := .engine
  /-- A choice, as the agenda holds them: the next instruction of the current thread stops within itself, if it can (assumption 10). -/
  cut : Option Cut := none
  /-- A choice too: the elements that the next strip moves before something else may happen within it (assumption 14). -/
  ahead : Option Nat := none
  /-- A choice too: the next load or matrix step reads the bytes of such stores as they stood before (11 R282, assumption 94). -/
  lag : Bool := false
  /-- Choices too, for the coming steps of matrix stages that fetch behind a strip, first one first: the pieces, by their place in
  Thread.fills, that the step reads as they stood before (18 R374, assumption 94). -/
  older : List Nat := []
  /-- What the host itself does to its memory before the coming device turns, first one first: nothing, a value for the 8-byte piece at an
  address, or a piece that it refuses to read, which is as one that is poisoned (11 R287, 20 R420, R421, assumption 9). -/
  hostNews : List (Option (Nat × Option Nat)) := []
  /-- A choice too: the completions of reads of host memory come later, as CPL, and not within the step that reads (20 R420, assumption 9). -/
  slow : Bool := false
  /-- How many internal device steps the schedule has performed (assumption 3). -/
  rot : Nat := 0
  /-- The model's own counter of open values read (assumption 6). -/
  free : Nat := 0
  deriving DecidableEq, Repr

/-- The module right after reset (assumption 5): nothing is resident, memory lists nothing, and the boot ROM has not run. -/
def State.reset : State := {}

/-! ## Ways in which a step stops -/

/-- Ways in which the machine stops where the manual gives no effect. -/
inductive Fault where
  /-- An access through a translation whose frame lies beyond the 768 GiB of device memory of 00 R4: the manual gives no
  memory there. Raised by every access to device memory. Safe: the device does something that the model does not show. -/
  | frameAbsent (pa : Nat)
  deriving DecidableEq, Repr

/-- Steps without a meaning. -/
inductive Refusal where
  /-- The instruction has no meaning yet. Raised by `exec` alone. Safe. -/
  | notModelled (mnemonic : String)
  deriving DecidableEq, Repr

end Sys2Proof.Machine
end

