-- ==== Sys2Proof/Machine/Ops.lean ====
section
/-! DEFINITION. The named operations over the state: threads and registers, memory by location, translation, the checks of an
access, and taking an exception. -/
namespace Sys2Proof.Machine

/-! ## Numbers of things -/

/-- The cluster of a presented core (00 R3). A retired core that still serves residents stands at 1000 + its physical number. -/
def clusterOf (core : Nat) : Nat := if core < 320 then core / 32 * 4 + core % 32 / 8 else (core - 1000) / 9
/-- The position of a presented core in its cluster's block of eight (00 R3). -/
def ordinalOf (core : Nat) : Nat := core % 8
/-- The presented core at an ordinal of a cluster (00 R3). -/
def coreAt (cluster ord : Nat) : Nat := cluster / 4 * 32 + cluster % 4 * 8 + ord
/-- The compute die of a presented core (00 R3). -/
def dieOf (core : Nat) : Nat := clusterOf core / 4 / 5 * 4 + clusterOf core % 4

/-! ## Threads -/

/-- The presented core of the current thread; in a gang its first core (09 R238). -/
def State.core (s : State) : Nat := s.cur / 4
/-- thrno of the current thread (01 R30). -/
def State.thr (s : State) : Nat := s.cur % 4

/-- The thread numbered `h` (15 R327). -/
def State.getTh (s : State) (h : Nat) : Thread := if h = s.cur then s.th else s.others.get h {}

/-- The state with `t` as the thread numbered `h`. -/
def State.setTh (s : State) (h : Nat) (t : Thread) : State :=
  if h = s.cur then { s with th := t } else { s with others := s.others.set h t }

/-- The state with thread `h` current. -/
def State.switchTo (s : State) (h : Nat) : State :=
  if h = s.cur then s
  else { s with cur := h, th := s.others.get h {}, others := (s.others.erase h).set s.cur s.th }

/-- The state after an update of the current thread. -/
def State.upd (s : State) (f : Thread → Thread) : State := { s with th := f s.th }

/-- A thread is resident from its placement until its resources are released (09 R237, 07 R214). -/
def Thread.resident (t : Thread) : Bool := t.status != .absent

/-! ## Tables of units -/

/-- A presented core as it stands at reset: eight live lane groups and the spare, and the steal generator at coreno + 1
(09 R240, 15 R343). -/
def Core.init (n : Nat) : Core :=
  { lanes := List.replicate 8 .free ++ [.dead], gangFirst := n, stealGen := n + 1 }

/-- The presented core `n`. -/
def State.getCore (s : State) (n : Nat) : Core := s.cores.get n (Core.init n)
/-- The state with presented core `n` replaced. -/
def State.setCore (s : State) (n : Nat) (c : Core) : State := { s with cores := s.cores.set n c }
/-- The state after an update of presented core `n`. -/
def State.updCore (s : State) (n : Nat) (f : Core → Core) : State := s.setCore n (f (s.getCore n))
/-- The cluster `n`. -/
def State.getCluster (s : State) (n : Nat) : Cluster := s.clusters.get n {}
/-- The state with cluster `n` replaced. -/
def State.setCluster (s : State) (n : Nat) (c : Cluster) : State := { s with clusters := s.clusters.set n c }
/-- The group of the current thread. -/
def State.group (s : State) : Group := s.groups.get s.th.group {}
/-- The launch of the current thread. -/
def State.launch (s : State) : Launch := s.launches.get s.group.launch {}
/-- The partition of the current thread. -/
def State.part (s : State) : Partition := s.parts.get s.launch.part {}
/-- A feature of 01 R31 as the current thread's partition presents it. -/
def State.hasFeat (s : State) (bit : Nat) : Bool := bitOf s.part.feat bit

/-! ## Scalar registers -/

/-- g[r]; g0 reads as zero (01 R13). -/
def State.rd (s : State) (r : BitVec 5) : Word := if r = 0 then 0 else s.th.g[r.toNat]
/-- g[r] := x; a result written to g0 is discarded (01 R13, 04 R99). -/
def State.wr (s : State) (r : BitVec 5) (x : Word) : State :=
  if r = 0 then s else { s with th := { s.th with g := s.th.g.set r.toNat x } }
/-- g[r] as a natural number. -/
def State.rdN (s : State) (r : BitVec 5) : Nat := (s.rd r).toNat
/-- g[r] := x modulo 2^64. -/
def State.wrN (s : State) (r : BitVec 5) (x : Nat) : State := s.wr r (BitVec.ofNat 64 x)

/-- Execution continues at pc + 4 (04 R99). -/
def State.advance (s : State) : State := { s with th := { s.th with pc := s.th.pc + 4, cv := none, reissue := false } }
/-- g[d] := x and on to the next instruction. -/
def State.wrAdvance (s : State) (d : BitVec 5) (x : Word) : State := (s.wr d x).advance

/-! ## Bytes -/

/-- The little-endian value of `n` bytes from `a` (00 R8). -/
def Memory.load (m : Memory) (a : Nat) : Nat → Nat
  | 0 => 0
  | n + 1 => (m.read a).toNat + 256 * Memory.load m (a + 1) n

/-- The memory with the low `n` bytes of `x` at `a`, little-endian (00 R8). -/
def Memory.store (m : Memory) (a : Nat) : Nat → Nat → Memory
  | 0, _ => m
  | n + 1, x => Memory.store (m.write a (BitVec.ofNat 8 x)) (a + 1) n (x / 256)

/-- The `n` little-endian bytes of `x`. -/
def bytesOf : Nat → Nat → List Byte
  | 0, _ => []
  | n + 1, x => BitVec.ofNat 8 x :: bytesOf n (x / 256)

/-- The little-endian value of a list of bytes. -/
def natOf : List Byte → Nat
  | [] => 0
  | b :: r => b.toNat + 256 * natOf r

/-- Whether any 8-byte piece of [a, a+n) is poisoned (20 R435). -/
def poisoned (p : List Nat) (a n : Nat) : Bool := p.any fun k => k * 8 < a + n && a < k * 8 + 8
/-- The poison left by a write of [a, a+n): a whole piece written is clean, a part leaves it poisoned (20 R435). -/
def clearPoison (p : List Nat) (a n : Nat) : List Nat := p.filter fun k => !(a ≤ k * 8 && k * 8 + 8 ≤ a + n)
/-- The poison with piece `k`. -/
def addPoison (p : List Nat) (k : Nat) : List Nat := if p.contains k then p else p ++ [k]

/-! ## Locations -/

/-- The next byte's location. -/
def Loc.add (l : Loc) (k : Nat) : Loc :=
  match l with
  | .dev p => .dev (p + k)
  | .hostmem p => .hostmem (p + k)
  | .tile c g o => .tile c g (o + k)

/-- The allocation of group `g` on core `c` (11 R273). -/
def State.alloc (s : State) (c g : Nat) : Alloc := (s.getCore c).allocs.get g {}
/-- The state with the allocation of group `g` on core `c` replaced. -/
def State.setAlloc (s : State) (c g : Nat) (a : Alloc) : State :=
  s.updCore c fun k => { k with allocs := k.allocs.set g a }

/-- The `n` bytes at a location. While the link is down host memory gives nothing to read; the value is poisoned (20 R418). -/
def State.readLoc (s : State) (l : Loc) (n : Nat) : Nat :=
  match l with
  | .dev p => s.dram.load p n
  | .hostmem p => s.host.load p n
  | .tile c g o => (s.alloc c g).mem.load o n

/-- Whether a location is in host memory, where the hub performs each element by itself (06 R198, 13 R311). -/
def Loc.isHost (l : Loc) : Bool :=
  match l with
  | .hostmem _ => true
  | _ => false
/-- The 64-byte line of a location. -/
def Loc.line (l : Loc) : Loc :=
  match l with
  | .dev p => .dev (p / 64 * 64)
  | .hostmem p => .hostmem (p / 64 * 64)
  | .tile c g o => .tile c g (o / 64 * 64)
/-- The lines of some locations with what they hold, which a parked thread watches (05 R140, 06 R190). -/
def State.watch (s : State) (l : List Loc) : List (Loc × Nat) := (l.map Loc.line).eraseDups.map fun x => (x, s.readLoc x 64)
/-- Whether a write to a watched line is visible; none is while the host link is not up. -/
def State.stirred (s : State) (seen : List (Loc × Nat)) : Bool :=
  seen.any fun x => !(x.1.isHost && s.ksl.phase != .up) && s.readLoc x.1 64 != x.2

/-- Whether the data at a location are poisoned (20 R435); a read of host memory completes as poisoned while the link is
down (20 R418). -/
def State.poisonedLoc (s : State) (l : Loc) (n : Nat) : Bool :=
  match l with
  | .dev p => poisoned s.dramPoison p n
  | .hostmem p => poisoned s.hostPoison p n || s.ksl.phase == .down
  | .tile c g o => poisoned (s.alloc c g).poison o n

/-- Whether a link tag is on the 64-byte line of a location (06 R183). -/
def LinkTag.on (t : LinkTag) (l : Loc) : Bool :=
  match l with
  | .dev p => t.tile == none && !t.host && t.line == p / 64
  | .hostmem p => t.tile == none && t.host && t.line == p / 64
  | .tile c g o => t.tile == some (c, g) && t.line == o / 64

/-- A transaction from the device to the host, with its header fields (20 R419). `LEN` of a read (4 DRD) counts the units asked for
(assumption 32). -/
def mkTransaction (type opa stat vi tag addr : Nat) (data : List Byte) : Transaction :=
  { header := type + opa * 2 ^ 8 + stat * 2 ^ 24 + vi * 2 ^ 32 + (data.length + 15) / 16 * 2 ^ 40 + tag % 2 ^ 16 * 2 ^ 48
      + addr % 2 ^ 64 * 2 ^ 64
    data := if type = 4 then [] else data }

/-- The lowest-numbered interface bound to a partition (20 R424). -/
def State.lowestVi (s : State) (part : Nat) : Nat :=
  match s.vis.find? (fun p => p.2.part == some part) with
  | some p => p.1
  | none => 0

/-- The state with a transaction queued towards the host; it carries the lowest interface of the partition (20 R421, R424). -/
def State.send (s : State) (part type opa stat addr : Nat) (data : List Byte) : State :=
  { s with
    ksl := { s.ksl with out := s.ksl.out ++ [mkTransaction type opa stat (s.lowestVi part) s.nextTag addr data] }
    nextTag := s.nextTag + 1 }

/-- A page in splice or switch whose old frame holds the location: its writes are forked to the new frame (13 R313, R314). -/
def Migration.forks (m : Migration) (l : Loc) : Bool :=
  m.phase != .hold &&
    match l with
    | .dev p => !m.oldHost && p / 4096 == m.oldPa / 4096
    | .hostmem p => m.oldHost && p / 4096 == m.oldPa / 4096
    | .tile _ _ _ => false

/-- A write of `n` bytes at one location, without the fork of a migration. While the link retrains a write to host memory is held, and while
it is down it is dropped and reported (20 R418). -/
def State.put (s : State) (l : Loc) (n x : Nat) : State :=
  match l with
  | .dev p => { s with dram := s.dram.store p n x, dramPoison := clearPoison s.dramPoison p n }
  | .hostmem p =>
    if s.ksl.phase = .down then { s with mgmt := { s.mgmt with drops := s.mgmt.drops + 1 } }
    else if s.ksl.phase = .retraining then { s with ksl := { s.ksl with held := s.ksl.held ++ [(p, some (n, x))] } }
    else { s with host := s.host.store p n x, hostPoison := clearPoison s.hostPoison p n }
  | .tile c g o =>
    let a := s.alloc c g
    s.setAlloc c g { a with mem := a.mem.store o n x, poison := clearPoison a.poison o n }

/-- The offset of a location in its 4 KiB page. -/
def Loc.pageOff (l : Loc) : Nat :=
  match l with
  | .dev p => p % 4096
  | .hostmem p => p % 4096
  | .tile _ _ o => o

/-- A migration's new frame at an offset of the page. -/
def Migration.newLoc (m : Migration) (off : Nat) : Loc :=
  if m.newHost then .hostmem (m.newPa + off) else .dev (m.newPa + off)

/-- A write at one location that breaks every link on its line (06 R183). -/
def State.putBreak (s : State) (l : Loc) (n x : Nat) : State :=
  let s1 := s.put l n x
  { s1 with tags := s1.tags.filter fun t => !t.on l }

/-- The location in the new frame to which a migration in progress forks a write (13 R313). -/
def State.forkOf (s : State) (l : Loc) : Option Loc :=
  (s.migrations.find? fun p => p.2.forks l).map fun p => p.2.newLoc l.pageOff

/-- A write of the low `n` bytes of `x`: the bytes change, whole pieces lose their poison (20 R435), every link on the line
is broken (06 R183), and a migration in progress forks the write, which breaks the links on its line too (13 R313). -/
def State.storeLoc (s : State) (l : Loc) (n x : Nat) : State :=
  let s1 := s.putBreak l n x
  match s.forkOf l with
  | some k => s1.putBreak k n x
  | none => s1

/-- The kinds of access (13 R307 `KIND`); `update` is HWPUB's read-modify-write, which 20 R422 does not name. -/
inductive AKind where
  | read | write | rmw | update
  deriving DecidableEq, Repr

/-- The code of a kind in a fault record (13 R307). -/
def AKind.num : AKind → Nat
  | .read => 0 | .write => 1 | .rmw => 2 | .update => 2

/-- The 8-byte pieces of [a, a+n). -/
def piecesOf (a n : Nat) : List Nat := (List.range ((a + n + 7) / 8 - a / 8)).map (a / 8 + ·)
/-- Whether the completions of an agent's read of host memory have come (20 R420). -/
def State.answered (s : State) (agent pa n : Nat) : Bool := s.answers != [] && (piecesOf pa n).all fun p => s.answers.contains (agent, p)
/-- Those completions taken by the read. -/
def State.took (s : State) (agent pa n : Nat) : State :=
  { s with answers := s.answers.filter fun x => !(x.1 == agent && (piecesOf pa n).contains x.2) }
/-- Why an agent's access to host memory waits: for a retraining link (20 R418), or a read for its completion where the schedule has chosen that
it comes later (20 R420, assumption 9). -/
def State.hostWait (s : State) (agent pa n : Nat) (k : AKind) : Option Wait :=
  if k = .read ∧ s.answered agent pa n = true then none
  else if s.ksl.phase = .retraining then some (.link (k != .write))
  else if k = .read ∧ s.slow = true ∧ s.ksl.phase = .up then some (.reply pa n)
  else none
/-- The DRD of a read that waits, sent once (20 R420). -/
def State.askHost (s : State) (agent part pa n : Nat) : State :=
  if (s.outstanding.any fun x => x.agent == agent && x.addr == pa && x.n == n) = true then s
  else
    { s.send part 4 0 0 pa (List.replicate n 0) with
      outstanding := s.outstanding ++ [{ tag := s.nextTag % 2 ^ 16, addr := pa, n := n, agent := agent, old := s.host.load pa n }] }
/-- The transaction of an agent's access to host memory: none while the link is down (20 R418), nor for a read whose completions have come with
its DRD. -/
def State.noteFor (s : State) (agent part type opa p : Nat) (data : List Byte) : State :=
  if s.ksl.phase = .down then s
  else if type = 4 ∧ s.answered agent p data.length = true then s.took agent p data.length
  else s.send part type opa 0 p data
/-- The transaction of an access to a host-resident page (13 R311, 20 R420), held in its order while the link retrains and not sent while
it is down (20 R418): 4 DRD, 5 DWR, 6 DATM. -/
def State.note (s : State) (type opa : Nat) (l : Loc) (data : List Byte) : State :=
  match l with
  | .hostmem p => s.noteFor s.cur s.launch.part type opa p data
  | _ => s
/-- The last transaction queued, a write to host memory, with its bytes and what they held before. -/
def State.keepOld (s : State) (l : Loc) (n old : Nat) : State :=
  match l, s.ksl.out.reverse with
  | .hostmem _, t :: r => if s.ksl.phase = .up then { s with ksl := { s.ksl with out := (({ t with old := some (n, old) } : Transaction) :: r).reverse } } else s
  | _, _ => s
/-- The 8-byte piece that holds a location. -/
def Loc.piece (l : Loc) : Loc :=
  match l with
  | .dev p => .dev (p / 8 * 8)
  | .hostmem p => .hostmem (p / 8 * 8)
  | .tile c g o => .tile c g (o / 8 * 8)
/-- The reads of some locations, sent as DRD of their pieces where they lie in host memory. -/
def State.noteReads (s : State) (l : List Loc) : State := l.foldl (fun t x => t.note 4 0 x.piece (List.replicate 8 0)) s

/-- A plain write at a location. -/
def State.writeLoc (s : State) (l : Loc) (n x : Nat) : State := ((s.storeLoc l n x).note 5 0 l (bytesOf n x)).keepOld l n (s.readLoc l n)

/-- The DATM of an atomic operation, numbered as AMO `OP` with bit 7 set for 8 bytes (20 R419, R422), with its operand. -/
def State.noteAtomic (s : State) (l : Loc) (n op operand : Nat) : State :=
  s.note 6 (op + if n = 8 then 0x80 else 0) l (bytesOf n operand)

/-- The piece at a location poisoned (20 R434, R435); in host memory behind the writes that a retraining link holds, and not at all while
the link is down. -/
def State.poisonAt (s : State) (l : Loc) : State :=
  match l with
  | .dev p => { s with dramPoison := addPoison s.dramPoison (p / 8) }
  | .hostmem p =>
    if s.ksl.phase = .down then s
    else if s.ksl.phase = .retraining then { s with ksl := { s.ksl with held := s.ksl.held ++ [(p, none)] } }
    else { s with hostPoison := addPoison s.hostPoison (p / 8) }
  | .tile c g o =>
    let a := s.alloc c g
    s.setAlloc c g { a with poison := addPoison a.poison (o / 8) }

/-- Data written as poisoned: the piece is poisoned (07 R217, 20 R435), and a migration in progress forks that too (13 R313). -/
def State.poisonLoc (s : State) (l : Loc) : State :=
  match s.forkOf l with
  | some k => (s.poisonAt l).poisonAt k
  | none => s.poisonAt l

/-- A write of poisoned data by a transfer (07 R217). To host memory it goes as a poisoned DWR, with `STAT` 4 (assumption 32); a host that
cannot record it drops the write, which the management controller reports (20 R435). -/
def State.writePoisoned (s : State) (l : Loc) (n x : Nat) : State :=
  match l with
  | .hostmem p =>
    let s1 := if s.ksl.phase = .down then s else s.send s.launch.part 5 0 4 p (bytesOf n x)
    if Config.hostPoisons then (s1.storeLoc l n x).poisonLoc l else { s1 with mgmt := { s1.mgmt with drops := s1.mgmt.drops + 1 } }
  | _ => (s.storeLoc l n x).poisonLoc l

/-- The bytes of device memory (00 R4: 768 GiB). -/
def deviceBytes : Nat := 768 * 2 ^ 30

/-! ## Traps -/

/-- A trap before it is taken: its cause (19 R376), `stval`, `DET`, the element and frame of `sinfo`, the restart point and
the faulting address where they differ from the instruction's own, and the records of a fault batch. -/
structure Trap where
  cause : Nat
  tval : Word := 0
  det : Nat := 0
  elem : Nat := 0
  frame : Nat := 0
  slot : Nat := 0
  fin : Bool := false
  async : Bool := false
  epc : Option Word := none
  fpc : Option Word := none
  /-- Whether the recorded member and `E0` are those of a convoy position that has not started (09 R255, 19 R383). -/
  fresh : Bool := false
  records : List FaultRecord := []
  deriving DecidableEq, Repr

/-- How an instruction ends otherwise than by completing: it traps, it parks its thread, or the machine stops. -/
inductive Exn where
  | trap (t : Trap) (s : State)
  | park (w : Wait) (s : State)
  | fault (f : Fault)
  deriving DecidableEq, Repr

/-- The result of an instruction or of a part of it. -/
abbrev M (α : Type) := Except Exn α

/-! Cause codes (19 R376). -/
namespace Cause
def undef := 1
def illegal := 2
def priv := 3
def misalign := 4
def codewin := 5
def badframe := 6
def emudouble := 7
def pagebatch := 16
def prot := 17
def poison := 18
def tilebnd := 19
def ringerr := 20
def raisinovf := 32
def cbook := 33
def prodfail := 34
def mnogrant := 35
def preempt := 40
def rmchange := 41
def rmsusp := 42
def chbreak := 43
def ecall := 48
def brk := 49
def double := 50
def uncorr := 56
def poweremerg := 57
end Cause

/-! ## Code -/

/-- The 32-bit word at an offset of the code store of a core's cluster (09 R261, 02 R46). -/
def State.codeWord (s : State) (core : Nat) (off : Nat) : W32 :=
  BitVec.ofNat 32 ((s.getCluster (clusterOf core)).code.load off 4)

/-- The address of the instruction being executed: the convoy's first word plus the member (09 R255). -/
def Thread.ipc (t : Thread) : Word :=
  match t.cv with
  | some c => t.pc + BitVec.ofNat 64 (4 * c.idx)
  | none => t.pc

/-- The word of the instruction being executed. -/
def State.word (s : State) : W32 := s.codeWord s.core s.th.ipc.toNat

/-- Whether a word may be issued from an offset: the code window at user level, and either window above (09 R262). -/
def State.inWindow (s : State) (level : Level) (core off : Nat) : Bool :=
  let c := s.getCluster (clusterOf core)
  decide (off + 4 ≤ c.codeLen)
    || (level != .user && decide (c.rtBase ≤ off) && decide (off + 4 ≤ c.rtBase + c.rtLen))

/-- Whether an offset lies in the runtime window (15 R327). -/
def State.inRuntime (s : State) (core : Nat) (off : Nat) : Bool :=
  let c := s.getCluster (clusterOf core)
  decide (c.rtBase ≤ off) && decide (off < c.rtBase + c.rtLen)

/-! ## Translation -/

/-- Why an access is not performed. -/
inductive AErr where
  | misalign
  | tilebnd
  | prot
  /-- Not mapped (0) or not present (1), and the level of the entry (13 R301). -/
  | page (cause lvl : Nat)
  | poison
  /-- The access waits: for a watermark, for the migration unit, or for the link. -/
  | wait (w : Wait)
  | absent (pa : Nat)
  deriving DecidableEq, Repr

/-- How a walk goes on from an entry (13 R300 to R302). -/
inductive WalkStep where
  | table (frame : Nat)
  | leaf (t : Trans)
  | stop (e : AErr)
  deriving DecidableEq, Repr

/-- The bits that must be zero in an entry with `V` = `P` = 1: the reserved ones, `B` off levels 1 and 2, the leaf and block
fields of a pointer, and `M` of a block (13 R300, R301). -/
def entryMalformed (lvl e : Nat) : Bool :=
  let b := bitOf e 7
  let isLeaf := lvl == 0 || b
  bits e 61 3 != 0 || bits e 52 7 != 0 || bits e 8 2 != 0 || bits e 4 3 != 0
    || (b && !(lvl == 1 || lvl == 2))
    || (!isLeaf && (bitOf e 60 || bitOf e 59 || bitOf e 11 || bitOf e 10 || bitOf e 3 || bitOf e 2))
    || (isLeaf && lvl != 0 && bitOf e 59)

/-- The range of one translation by level, without and with `SPAN` (13 R299, R302). -/
def spanSize (lvl : Nat) (span : Bool) : Nat := 4096 * 512 ^ lvl * (if span then 16 else 1)

/-- One entry of a walk: `pa` is the entry's own address (13 R301, R302). -/
def walkEntry (hostpg : Bool) (asid va lvl pa e : Nat) : WalkStep :=
  if !bitOf e 0 then .stop (.page 0 lvl)
  else if !bitOf e 1 then .stop (.page 1 lvl)
  else if entryMalformed lvl e then .stop .prot
  else if lvl == 0 || bitOf e 7 then
    if bitOf e 60 && !hostpg then .stop .prot
    else
      let size := spanSize lvl (bitOf e 11)
      .leaf { va := va / size * size, size := size, asid := asid, glob := bitOf e 10,
              pa := bits e 12 40 * 4096 / size * size, host := bitOf e 60, user := bitOf e 3, write := bitOf e 2,
              mig := bitOf e 59, leaf := pa }
  else .table (bits e 12 40)

/-- The page-table entry at a physical address, with whatever the frame holds (13 R298), poisoned or not (assumption 49). A frame beyond
device memory holds an entry that the manual leaves open (assumption 12). -/
def State.entryAt (s : State) (pa : Nat) : Nat :=
  if pa + 8 ≤ deviceBytes then s.dram.load pa 8 else Config.absentEntry pa % 2 ^ 64

/-- The walk from a table at a level, over the levels below it (13 R299). -/
def State.walkFrom (s : State) (hostpg : Bool) (asid va : Nat) (table lvl : Nat) : Except AErr Trans :=
  let pa := table * 4096 + 8 * bits va (12 + 9 * lvl) 9
  match walkEntry hostpg asid va lvl pa (s.entryAt pa) with
  | .stop e => .error e
  | .leaf t => .ok t
  | .table f =>
    match lvl with
    | 0 => .error .prot
    | l + 1 => s.walkFrom hostpg asid va f l
termination_by structural lvl

/-- The view of the resource map of a partition: 0x40000 bytes of device memory from here, which the controller sets aside (19 R409,
assumption 51). -/
def viewBase (part : Nat) : Nat := 4096 * (Config.viewFrame part % (deviceBytes / 4096 - 64))
/-- rmbase of a partition: the space-0 address of its view. -/
def viewAddr (part : Nat) : Nat := 4096 * (Config.viewPage part % 2 ^ 45)
/-- The mapping of a partition's view: read-only and readable at supervisor level (19 R409). -/
def State.viewTrans (s : State) (part : Nat) (root : Word) (va : Nat) : Option Trans :=
  if (s.parts.get part {}).viewed ∧ viewAddr part ≤ va ∧ va < viewAddr part + 0x40000 then
    some { va := va / 4096 * 4096, asid := bits root.toNat 40 16, pa := viewBase part + (va / 4096 * 4096 - viewAddr part), leaf := deviceBytes }
  else none
/-- Whether a device address lies in a view, which only the controller writes (19 R409). -/
def State.inView (s : State) (pa : Nat) : Bool :=
  s.parts.any fun p => p.2.viewed && decide (viewBase p.1 ≤ pa) && decide (pa < viewBase p.1 + 0x40000)

/-- The walk from a translation root for a partition (13 R298, R299); the partition's view is mapped where the tables leave its addresses
unmapped (19 R409). -/
def State.walkPart (s : State) (part : Nat) (root : Word) (va : Nat) : Except AErr Trans :=
  match s.walkFrom (bitOf (s.parts.get part {}).feat 5) (bits root.toNat 40 16) va (bits root.toNat 0 40) 4 with
  | .error (.page 0 l) =>
    match s.viewTrans part root va with
    | some t => .ok t
    | none => .error (.page 0 l)
  | r => r
/-- The walk for the current thread. -/
def State.walk (s : State) (root : Word) (va : Nat) : Except AErr Trans := s.walkPart s.launch.part root va

/-- Whether a translation serves an address of an identifier (13 R305). -/
def Trans.serves (t : Trans) (asid va : Nat) : Bool :=
  decide (t.va ≤ va) && decide (va < t.va + t.size) && (t.asid == asid || t.glob)

/-- Whether a translation is the view's own, which no table entry gives (State.viewTrans). -/
def Trans.ofView (t : Trans) : Bool := t.leaf == deviceBytes
/-- The translation of an address through a list of held ones, walking on a miss. A stopped walk is never kept (13 R304), nor is the view's own
translation, which stands where the walk stopped. -/
def State.lookup (s : State) (held : List Trans) (root : Word) (va : Nat) : Except AErr (Trans × List Trans) :=
  match held.find? fun t => t.serves (bits root.toNat 40 16) va with
  | some t => .ok (t, held)
  | none =>
    match s.walk root va with
    | .ok t => .ok (t, if t.ofView then held else t :: held)
    | .error e => .error e

/-- The permission check on a leaf or block (13 R303), and at a host-resident page the AtomicOps of 20 R422. -/
def Trans.permits (t : Trans) (level : Level) (k : AKind) : Bool :=
  (level != .user || t.user) && (k == .read || t.write) && (k != .rmw || !t.host || Config.hostAtomics)

/-- The location of an address under a translation, or why the access waits or stops: a page with `HOST` and `M` goes to the
migration unit (13 R312), host memory waits for a retraining link (20 R418) or for a completion (R420), a view is not written (19 R409), and a frame must exist
(00 R4). -/
def State.transLoc (s : State) (t : Trans) (va n : Nat) (k : AKind) : Except AErr Loc :=
  let pa := t.pa + va % t.size
  if t.host then
    if t.mig then .error (.wait (.migrate t.leaf va))
    else
      match s.hostWait s.cur pa n k with
      | some w => .error (.wait w)
      | none => .ok (.hostmem pa)
  else if k != .read && s.inView pa then .error .prot
  else if deviceBytes < pa + n then .error (.absent pa)
  else .ok (.dev pa)

/-- Which TLB an access uses (13 R305): the core's VTLB, its matrix unit's MTLB, or the MTLB of a named matrix unit. -/
inductive Tlb where
  | v | m | unit (n : Nat)
  deriving DecidableEq, Repr

/-- The translations that a TLB of the current thread's core holds. -/
def State.tlb (s : State) (w : Tlb) : List Trans :=
  match w with
  | .v => (s.getCore s.core).vtlb
  | .m => (s.units.get (s.core / 2) {}).mtlb
  | .unit n => (s.units.get n {}).mtlb

/-- The state with the translations of a TLB replaced. -/
def State.setTlb (s : State) (w : Tlb) (l : List Trans) : State :=
  match w with
  | .v => s.updCore s.core fun c => { c with vtlb := l }
  | .m => { s with units := s.units.set (s.core / 2) { s.units.get (s.core / 2) {} with mtlb := l } }
  | .unit n => { s with units := s.units.set n { s.units.get n {} with mtlb := l } }

/-- A space-0 access of the current thread at a level: the high bits (04 R109, 06 R168), the translation under ptroot and
the permission check. -/
def State.locate0 (s : State) (w : Tlb) (level : Level) (a n : Nat) (k : AKind) : Except AErr (Loc × State) :=
  if a / 2 ^ 57 ≠ 0 then .error .prot
  else
    match s.lookup (s.tlb w) s.th.ptroot a with
    | .error e => .error e
    | .ok (t, held) =>
      if t.permits level k then
        match s.transLoc t a n k with
        | .error e => .error e
        | .ok l => .ok (l, s.setTlb w held)
      else .error .prot

/-! ## Tile memory -/

/-- The tile space of the current thread's group in bytes (11 R273, R274): min(g × A, 4 MiB). -/
def Group.tileSpace (g : Group) : Nat := Nat.min (2 ^ g.gang * g.tile) (4 * 2 ^ 20)

/-- The location of a gang offset: core `o` div A from the first core, local offset `o` mod A (11 R274). -/
def State.tileLoc (s : State) (core : Nat) (o : Nat) : Loc :=
  let g := s.group
  if g.gang = 0 ∨ g.tile = 0 then .tile core s.th.group o
  else .tile (core + o / g.tile) s.th.group (o % g.tile)

/-- The strip structure of a transfer: strips and bytes in all (07 R216). -/
def Xfer.strips (x : Xfer) : Nat :=
  match x.kind with
  | .sld | .sst => (bits x.dim1.toNat 48 16 + 1) * (bits x.dim2.toNat 48 16 + 1) * (bits x.dim3.toNat 48 16 + 1)
  | _ => 1

/-- The bytes per element of a transfer (07 R216). -/
def Xfer.bytes (x : Xfer) : Nat := 2 ^ x.ew

/-- The lowest element of a transfer that is not performed: of a strip under way, the lowest that is left. -/
def Xfer.front (x : Xfer) : Nat :=
  match x.begun with
  | some (m :: _) => m.1
  | _ => x.strip * x.vl
/-- The tile bytes of a transfer from its lowest element not performed: from, to (07 R216, R218). -/
def Xfer.pending (x : Xfer) : Nat × Nat := (x.cursor + x.front * x.bytes, x.cursor + x.strips * x.vl * x.bytes)

/-- The channel whose unfinished transfer an access to tile bytes stalls on (07 R218): any access on an inward channel of the
group not bound to a ring, and a younger store of the issuing thread on an outward one. -/
def State.stalledOn (s : State) (core o n : Nat) (k : AKind) : Option Nat :=
  match (s.getCore core).channels.find? fun p =>
    let c := p.2
    c.ring == none &&
      (match c.owner with
       | some h => (s.getTh h).group == s.th.group && (!c.outward || (h == s.cur && k != .read))
       | none => false) &&
      (c.xfers.map Xfer.pending ++ c.lost).any fun x => decide (x.1 < o + n) && decide (o < x.2) with
  | some p => some p.1
  | none => none

/-- A tile access of the current thread (04 R109, 06 R168): bit 63 is ignored, bits [62:22] must be zero, and the offset and
size must lie in the group's tile space; then the watermarks (07 R218). -/
def State.locate1 (s : State) (a n : Nat) (k : AKind) : Except AErr (Loc × State) :=
  let o := a % 2 ^ 22
  if bits a 22 41 ≠ 0 ∨ s.group.tileSpace < o + n then .error .tilebnd
  else
    match s.stalledOn s.core o n k with
    | some c => .error (.wait (.stall c))
    | none => .ok (s.tileLoc s.core o, s)

/-- An access of the current thread at a level, in space 0 or 1, checked in the order of 04 R111 and 06 R171. -/
def State.locateAt (s : State) (w : Tlb) (level : Level) (tile : Bool) (a n : Nat) (k : AKind) :
    Except AErr (Loc × State) :=
  if a % n ≠ 0 then .error .misalign
  else if tile then s.locate1 a n k
  else s.locate0 w level a n k

/-- An access of the current thread at its own level through the VTLB. -/
def State.locate (s : State) (tile : Bool) (a n : Nat) (k : AKind) : Except AErr (Loc × State) :=
  s.locateAt .v s.th.level tile a n k

/-- A fault record (13 R307). -/
def mkRecord (elem asid src ch lvl kind cause va : Nat) : FaultRecord :=
  va % 2 ^ 57 + cause * 2 ^ 64 + kind * 2 ^ 67 + lvl * 2 ^ 69 + ch * 2 ^ 72 + src * 2 ^ 76 + asid * 2 ^ 80
    + elem % 2 ^ 32 * 2 ^ 96

/-- Whether the migration unit moves a page: its writes are forked and its requests are settled when it switches (13 R312). -/
def State.moving (s : State) (leaf : Nat) : Bool :=
  match s.migrations.look leaf with
  | some m => m.phase != .hold
  | none => false
/-- A request for a page, at the end of the unit's arrival order (13 R312). -/
def State.askFrom (s : State) (h leaf va : Nat) : State :=
  if s.moving leaf ∨ (s.migRequests.any fun r => r.h == h && r.leaf == leaf) = true then s
  else { s with migRequests := s.migRequests ++ [{ h := h, leaf := leaf, va := va }] }
/-- The request of the current thread. -/
def State.askMigration (s : State) (leaf va : Nat) : State := s.askFrom s.cur leaf va
/-- What an access that waits asks for. -/
def State.asks (s : State) (w : Wait) : State :=
  match w with
  | .migrate leaf va => s.askMigration leaf va
  | .reply pa n => s.askHost s.cur s.launch.part pa n
  | _ => s
/-- The state with what another, which has only asked, has asked of the migration unit and the host. -/
def State.asked (s t : State) : State :=
  { s with migRequests := t.migRequests, outstanding := t.outstanding, nextTag := t.nextTag, ksl := t.ksl }

/-- The trap of an access that failed (19 R376), with the element and the source of its record. -/
def accTrap (s : State) (e : AErr) (a elem src : Nat) (k : AKind) : Exn :=
  match e with
  | .misalign => .trap { cause := Cause.misalign, tval := BitVec.ofNat 64 a, elem := elem } s
  | .tilebnd => .trap { cause := Cause.tilebnd, tval := BitVec.ofNat 64 (a % 2 ^ 22), elem := elem } s
  | .prot => .trap { cause := Cause.prot, tval := BitVec.ofNat 64 a, elem := elem } s
  | .page c l =>
    .trap { cause := Cause.pagebatch, tval := s.th.fbarea, det := 1, elem := elem,
            records := [mkRecord elem (bits s.th.ptroot.toNat 40 16) src 0 l k.num c a] } s
  | .poison => .trap { cause := Cause.poison, tval := BitVec.ofNat 64 a, elem := elem } s
  | .wait w => .park w (s.asks w)
  | .absent p => .fault (.frameAbsent p)

/-! ## Taking an exception -/

/-- The trap-entry registers of a level. -/
def Thread.regs (t : Thread) (l : Level) : TrapRegs :=
  match l with
  | .firmware => t.fw
  | _ => t.sup

/-- The thread with the trap-entry registers of a level replaced. -/
def Thread.setRegs (t : Thread) (l : Level) (r : TrapRegs) : Thread :=
  match l with
  | .firmware => { t with fw := r }
  | _ => { t with sup := r }

/-- The level that takes a cause raised at a level (19 R376): firmware takes DOUBLE and every cause of firmware level, and
the ECALL of the supervisor. -/
def trapLevel (cause : Nat) (from_ : Level) : Level :=
  if cause = Cause.double ∨ from_ = .firmware ∨ (cause = Cause.ecall ∧ from_ = .supervisor) then .firmware
  else .supervisor

/-- The cause register (19 R379). -/
def causeWord (t : Trap) (plev : Level) (pem : Bool) (member e0 : Nat) : Word :=
  BitVec.ofNat 64 (t.cause + e0 % 2 ^ 16 * 2 ^ 24 + member % 4 * 2 ^ 40 + t.det % 256 * 2 ^ 48 + pem.toNat * 2 ^ 59
    + plev.num * 2 ^ 60 + t.fin.toNat * 2 ^ 62 + t.async.toNat * 2 ^ 63)

/-- The info register (19 R380). -/
def infoWord (t : Trap) : Word :=
  BitVec.ofNat 64 (t.slot % 4 + t.frame % 64 * 2 ^ 16 + t.elem % 2 ^ 32 * 2 ^ 32)

/-- The recorded convoy position (09 R256, 19 R383). -/
def Thread.position (t : Thread) (fresh : Bool) : Nat × Nat :=
  match t.cv with
  | some c => if fresh then (0, c.e0) else (c.idx, c.e0)
  | none => (0, t.estart)

/-- The entry of a trap into level `l` (19 R383): the trap-entry registers are written, `PAIE` := `AIE`, `AIE` := 0, `TIH` :=
1, the level becomes `l`, `EM` := 0 and pc := the handler. Nothing else of the context changes; the links of the thread are
broken (06 R183) and it issues again. -/
def State.enter (s : State) (t : Trap) (l : Level) : State :=
  let th := s.th
  let r := th.regs l
  let pos := th.position t.fresh
  let epc := t.epc.getD th.pc
  let r' : TrapRegs :=
    { r with
      cause := causeWord t th.level th.em pos.1 pos.2
      epc := epc
      fpc := if t.async then epc else t.fpc.getD th.ipc
      tval := t.tval
      info := infoWord t
      paie := r.aie
      aie := false
      tih := true }
  { s with
    th := { th.setRegs l r' with pc := r.vec, level := l, em := false, cv := none, reissue := false, status := .issuing }
    tags := s.tags.filter fun x => x.h != s.cur }

/-- The thread is terminated as failed (15 R330, R345); its links are broken. -/
def State.terminate (s : State) : State :=
  { s with th := { s.th with status := .ending true, cv := none }
           tags := s.tags.filter fun x => x.h != s.cur }

/-- A trap whose handler offset lies outside the runtime window terminates the thread (15 R327). -/
def State.enterOrEnd (s : State) (t : Trap) (l : Level) : State :=
  if s.inRuntime s.core (s.th.regs l).vec.toNat then s.enter t l else s.terminate

/-- A synchronous cause to firmware while fstatus `TIH` = 1 stops the thread, and the controller reports it (19 R386). -/
def State.toFirmware (s : State) (t : Trap) : State :=
  if s.th.fw.tih && !t.async then
    { s with th := { s.th with status := .stopped, cv := none }
             mgmt := { s.mgmt with stopped := s.mgmt.stopped ++ [s.cur] }
             tags := s.tags.filter fun x => x.h != s.cur }
  else s.enterOrEnd t .firmware

/-- The cause `t` that is not taken, raised as DOUBLE to firmware (19 R376, R386). -/
def Trap.doubled (t : Trap) : Trap :=
  { t with cause := Cause.double, det := t.cause, records := [], async := false }

/-- The place of a write that an exception makes, with its fault, if it has one: it does not wait for the migration unit, which gets
its request, nor for a retraining link, which sends it in its order (assumption 84). -/
def State.locateNow (s : State) (level : Level) (a n : Nat) : Except AErr (Loc × State) :=
  match s.locateAt .v level false a n .write with
  | .error (.wait w) =>
    match s.lookup (s.tlb .v) s.th.ptroot a with
    | .ok (t, held) => .ok (.hostmem (t.pa + a % t.size), (s.setTlb .v held).asks w)
    | .error e => .error e
  | r => r

/-- The writes of a fault batch at its area (13 R307). -/
def putRecords (s : State) (l : Loc) : List FaultRecord → State
  | [] => s
  | r :: rs => putRecords (s.writeLoc l 16 r) (l.add 16) rs

/-- A fault batch is written before its trap is entered; a fault on the area raises DOUBLE instead (13 R307). -/
def State.withBatch (s : State) (t : Trap) (l : Level) (k : State → State) : State :=
  if t.records.isEmpty then k s
  else
    match s.locateNow l s.th.fbarea.toNat 256 with
    | .ok (loc, s1) =>
      if s1.poisonedLoc loc 256 then s.toFirmware { t.doubled with tval := s.th.fbarea }
      else k (putRecords s1 loc t.records)
    | .error _ => s.toFirmware { t.doubled with tval := s.th.fbarea }

/-- TAKING AN EXCEPTION (19 R376, R383, R386): emulation of UNDEF at user level (01 R21), EMUDOUBLE in emulation mode, DOUBLE
where the target level already handles a trap or the fault batch area faults, and else the entry at the target level. -/
def State.takeTrap (s : State) (t : Trap) : State :=
  if t.cause = Cause.undef ∧ s.th.level = .user ∧ s.th.em = false ∧ s.th.emvec ≠ 0 then
    { s with
      th := { s.th with empc := t.epc.getD s.th.ipc, eminst := BitVec.ofNat 32 t.tval.toNat, em := true, pc := s.th.emvec,
                        cv := none, reissue := false, status := .issuing }
      tags := s.tags.filter fun x => x.h != s.cur }
  else
    let t := if t.cause = Cause.undef ∧ s.th.level = .user ∧ s.th.em then { t with cause := Cause.emudouble } else t
    match trapLevel t.cause s.th.level with
    | .firmware => if s.th.fw.tih then s.toFirmware t else s.withBatch t .firmware (·.toFirmware t)
    | l =>
      if s.th.sup.tih && !t.async then s.toFirmware t.doubled
      else s.withBatch t l (·.enterOrEnd t l)

/-- An instruction's result as an outcome: a trap is taken, a wait parks the thread. -/
def finish (r : M State) : Host.Outcome State Fault Refusal :=
  match r with
  | .ok s => .next s
  | .error (.trap t s) => .next (s.takeTrap t)
  | .error (.park w s) => .next { s with th := { s.th with status := .parked w } }
  | .error (.fault f) => .fault f

/-- Raising a trap. -/
def raise {α : Type} (s : State) (t : Trap) : M α := .error (.trap t s)

/-- ILLEGAL at the instruction being executed, with its word (19 R376). -/
def illegal {α : Type} (s : State) (det : Nat := 0) : M α :=
  raise s { cause := Cause.illegal, tval := s.word.setWidth 64, det := det }

/-- PRIV at the instruction being executed (01 R20). -/
def privTrap {α : Type} (s : State) : M α := raise s { cause := Cause.priv, tval := s.word.setWidth 64 }

/-! ## Returning from an exception -/

/-- The abort address (19 R384). -/
def abortAddress : Word := 0xFFFFFFFFFFFFFFF8
/-- The exit address (01 R32). -/
def exitAddress : Word := 0xFFFFFFFFFFFFFFFC

/-- The level that `PLEV` names, if any (19 R379). -/
def levelOf (n : Nat) : Option Level :=
  if n = 0 then some .user else if n = 1 then some .supervisor else if n = 2 then some .firmware else none

/-- A value in the program counter, whose bits [1:0] are always zero (02 R46). -/
def aligned (x : Word) : Word := x &&& 0xFFFFFFFFFFFFFFFC

/-- THE RETURN FROM AN EXCEPTION (04 R121, 19 R384): pc := the restart point, the level := `PLEV`, `EM` := `PEM`, `AIE` :=
`PAIE`, `TIH` := 0, and execution resumes at the recorded member (09 R257). -/
def State.leave (s : State) (ri : Bool) (plev : Level) : State :=
  let l := s.th.level
  let r := s.th.regs l
  let c := r.cause.toNat
  let member := bits c 40 2
  let th := s.th.setRegs l { r with aie := r.paie, tih := false }
  { s with
    th := { th with
      pc := aligned r.epc
      level := plev
      em := bitOf c 59
      saved := th.saved && decide (l.num ≤ plev.num)
      restored := match th.restored with
        | some k => if plev.num < k.num then none else some k
        | none => none
      cv := some { idx := member, e0 := bits c 24 16, resumed := true }
      reissue := ri && th.fmask != 0 } }

end Sys2Proof.Machine
end

