-- ==== Sys2Proof/Machine/Flags.lean ====
section
/-! DEFINITION. Number formats, rounding and flags (03): the exact values that bit patterns stand for, the rounding of an exact
value into a format with its flags and m0 mark, conversions to and from integers, and the stochastic-rounding generators. -/
namespace Sys2Proof.Machine

/-! ## Flags (01 R24, 03 R94) -/
namespace Flag
def nx : Nat := 1
def uf : Nat := 2
def of : Nat := 4
def dz : Nat := 8
def nv : Nat := 16
end Flag

/-- An exact value (03 R95): a NaN with its kind and sign, an infinity, or (−1)^neg × m × 2^e with a signed zero. -/
inductive FVal where
  | nan (sig neg : Bool)
  | inf (neg : Bool)
  | fin (neg : Bool) (m : Nat) (e : Int)
  deriving DecidableEq, Repr

/-- A floating element format (03 R75): width, exponent bits, fraction bits, bias, and what its encodings hold. -/
structure Fmt where
  width : Nat
  expBits : Nat
  frac : Nat
  bias : Nat
  hasInf : Bool
  hasNaN : Bool
  /-- Whether the format tells signalling NaNs (03 R77). -/
  hasSig : Bool
  /-- mxi8 (03 R80): an 8-bit integer times 2^−6. -/
  fixed : Bool := false
  deriving DecidableEq, Repr

namespace Fmt
def f64 : Fmt := ⟨64, 11, 52, 1023, true, true, true, false⟩
def f32 : Fmt := ⟨32, 8, 23, 127, true, true, true, false⟩
def bf16 : Fmt := ⟨16, 8, 7, 127, true, true, true, false⟩
def f16 : Fmt := ⟨16, 5, 10, 15, true, true, true, false⟩
def e5m2 : Fmt := ⟨8, 5, 2, 15, true, true, false, false⟩
def e4m3 : Fmt := ⟨8, 4, 3, 7, false, true, false, false⟩
def e3m2 : Fmt := ⟨6, 3, 2, 3, false, false, false, false⟩
def e2m3 : Fmt := ⟨6, 2, 3, 1, false, false, false, false⟩
def e2m1 : Fmt := ⟨4, 2, 1, 1, false, false, false, false⟩
def mxi8 : Fmt := ⟨8, 0, 0, 0, false, false, false, true⟩

/-- The canonical NaN (03 R77). -/
def canon (f : Fmt) : Nat :=
  if f.hasInf then (2 ^ f.expBits - 1) * 2 ^ f.frac + 2 ^ (f.frac - 1) else 2 ^ (f.width - 1) - 1
/-- The infinity of a format that has one. -/
def infBits (f : Fmt) : Nat := (2 ^ f.expBits - 1) * 2 ^ f.frac
/-- The greatest finite magnitude *M* as a pattern (03 R75). -/
def maxBits (f : Fmt) : Nat :=
  if f.fixed then 127
  else if f.hasInf then f.infBits - 1
  else if f.hasNaN then 2 ^ (f.width - 1) - 2
  else 2 ^ (f.width - 1) - 1
/-- A magnitude pattern with a sign. -/
def signed (f : Fmt) (neg : Bool) (x : Nat) : Nat :=
  if f.fixed then (if neg && x != 0 then 256 - x else x) else (if neg then 2 ^ (f.width - 1) else 0) + x
end Fmt

/-- dec(bits, fmt) (03 R75, R80): the value that a pattern encodes; bits above the format's width are ignored. -/
def dec (f : Fmt) (x : Nat) : FVal :=
  if f.fixed then
    let k := toS 8 x
    .fin (decide (k < 0)) k.natAbs (-6)
  else
    let neg := bitOf x (f.width - 1)
    let ef := bits x f.frac f.expBits
    let ff := bits x 0 f.frac
    if f.hasInf && ef == 2 ^ f.expBits - 1 then
      if ff = 0 then .inf neg else .nan (f.hasSig && !bitOf ff (f.frac - 1)) neg
    else if f.hasNaN && !f.hasInf && bits x 0 (f.width - 1) == 2 ^ (f.width - 1) - 1 then .nan false neg
    else if ef = 0 then .fin neg ff (1 - (f.bias : Int) - f.frac)
    else .fin neg (2 ^ f.frac + ff) ((ef : Int) - f.bias - f.frac)

/-! ## Rounding (03 R88, R91) -/

/-- The rounding modes of frm `RM` (01 R24); 6 and 7 name none. -/
inductive RMode where
  | rne | rtz | rdn | rup | rna | sr
  deriving DecidableEq, Repr

/-- The mode of a frm or suffix code (01 R24, 04 R116). -/
def rmodeOf (n : Nat) : RMode :=
  match n with
  | 0 => .rne | 1 => .rtz | 2 => .rdn | 3 => .rup | 4 => .rna | _ => .sr

/-- Whether the truncated magnitude `q` with `k` discarded bits `r` moves one unit away from zero; `w` is the stochastic
word (03 R88, R91). -/
def movesAway (mode : RMode) (neg : Bool) (w q r k : Nat) : Bool :=
  match mode with
  | .rne => decide (2 ^ k < 2 * r) || (decide (2 * r = 2 ^ k) && q % 2 == 1)
  | .rtz => false
  | .rdn => neg && r != 0
  | .rup => !neg && r != 0
  | .rna => decide (2 ^ k ≤ 2 * r)
  | .sr =>
    let d := if 16 ≤ k then r >>> (k - 16) else r <<< (16 - k)
    let l := decide (16 < k) && r % 2 ^ (k - 16) != 0
    decide (w < d) || (d == w && l)

/-- m × 2^e rounded to a multiple of 2^t: the multiple, whether it is inexact, and whether it moved away from zero. -/
def roundTo (mode : RMode) (neg : Bool) (w m : Nat) (e t : Int) : Nat × Bool × Bool :=
  if t ≤ e then (m <<< (e - t).toNat, false, false)
  else
    let k := (t - e).toNat
    let q := m >>> k
    let r := m % 2 ^ k
    let up := movesAway mode neg w q r k
    (q + up.toNat, r != 0, up && r != 0)

/-- Whether q × 2^t is greater than q' × 2^t'. -/
def magGt (q : Nat) (t : Int) (q' : Nat) (t' : Int) : Bool :=
  if t' ≤ t then decide (q' < q <<< (t - t').toNat) else decide (q' <<< (t' - t).toNat < q)

/-- A rounded result: its pattern, its flags, and whether the element's m0 bit is set. -/
structure Rounded where
  val : Nat
  flags : Nat := 0
  mark : Bool := false
  deriving DecidableEq, Repr

/-- The value of a format's greatest finite magnitude as mantissa and exponent. -/
def Fmt.maxVal (f : Fmt) : Nat × Int :=
  match dec f f.maxBits with
  | .fin _ m e => (m, e)
  | _ => (0, 0)

/-- The result of an overflow (03 R89): `away` is the stochastic decision. -/
def overflow (f : Fmt) (mode : RMode) (neg away : Bool) : Rounded :=
  let inf := f.hasInf &&
    (match mode with
     | .rne | .rna => true
     | .rtz => false
     | .rdn => neg
     | .rup => !neg
     | .sr => away)
  { val := f.signed neg (if inf then f.infBits else f.maxBits), flags := Flag.of + Flag.nx, mark := !f.hasInf }

/-- enc of a finite nonzero m × 2^e (03 R76, R88, R89): subnormal results keep the fixed precision of the format. -/
def encFin (f : Fmt) (mode : RMode) (w : Nat) (neg : Bool) (m : Nat) (e : Int) : Rounded :=
  let lead := e + (Nat.log2 m : Int)
  let tu : Int := if f.fixed then -6 else lead - f.frac
  let emin : Int := 1 - (f.bias : Int)
  let u := roundTo mode neg w m e tu
  let mx := f.maxVal
  if magGt u.1 tu mx.1 mx.2 then overflow f mode neg u.2.2
  else if f.fixed then { val := f.signed neg u.1, flags := if u.2.1 then Flag.nx else 0 }
  else
    let t := if tu < emin - f.frac then emin - f.frac else tu
    let r := roundTo mode neg w m e t
    let tiny := magGt 1 emin u.1 tu
    -- A mantissa of 2^frac or more carries the implied bit; a carry out of the fraction raises the exponent field.
    let val := if r.1 < 2 ^ f.frac then r.1 else ((t + f.frac + f.bias).toNat - 1) * 2 ^ f.frac + r.1
    { val := f.signed neg val
      flags := (if r.2.1 then Flag.nx else 0) + (if tiny && r.2.1 then Flag.uf else 0) }

/-- enc(x, fmt, mode, i), with the stochastic word of element i (03 R92, R95). A NaN becomes the canonical NaN, setting `NV`
if it is signalling, or is forced finite; an infinity stays or is forced finite. -/
def enc (f : Fmt) (mode : RMode) (w : Nat) (x : FVal) : Rounded :=
  match x with
  | .nan sig neg =>
    if f.hasNaN then { val := f.canon, flags := if sig then Flag.nv else 0 }
    else { val := f.signed neg f.maxBits, flags := Flag.nv, mark := true }
  | .inf neg =>
    if f.hasInf then { val := f.signed neg f.infBits }
    else { val := f.signed neg f.maxBits, flags := Flag.of, mark := true }
  | .fin neg m e =>
    if m = 0 then { val := f.signed neg 0 } else encFin f mode w neg m e

/-! ## Exact arithmetic -/

/-- Whether a value is a NaN. -/
def FVal.isNaN : FVal → Bool
  | .nan _ _ => true
  | _ => false
/-- Whether a value is a signalling NaN (03 R77). -/
def FVal.isSig : FVal → Bool
  | .nan s _ => s
  | _ => false
/-- The sign bit. -/
def FVal.sign : FVal → Bool
  | .nan _ n => n
  | .inf n => n
  | .fin n _ _ => n
/-- The value with its sign reversed. -/
def FVal.neg : FVal → FVal
  | .nan s n => .nan s (!n)
  | .inf n => .inf (!n)
  | .fin n m e => .fin (!n) m e
/-- Whether a value is a zero. -/
def FVal.isZero : FVal → Bool
  | .fin _ m _ => m == 0
  | _ => false

/-- The mantissa of m × 2^e at exponent t ≤ e. -/
def alignTo (m : Nat) (e t : Int) : Nat := m <<< (e - t).toNat

/-- The exact sum; a zero sum has the sign of IEEE 754 addition under the mode (04 R117). The second part tells an invalid
operation: ∞ − ∞. A NaN operand gives a quiet NaN. -/
def FVal.add (x y : FVal) (mode : RMode) : FVal × Bool :=
  match x, y with
  | .nan _ _, _ => (.nan false false, false)
  | _, .nan _ _ => (.nan false false, false)
  | .inf a, .inf b => if a = b then (.inf a, false) else (.nan false false, true)
  | .inf a, _ => (.inf a, false)
  | _, .inf b => (.inf b, false)
  | .fin a m e, .fin b n g =>
    let t := if e ≤ g then e else g
    let p : Int := (if a then -1 else 1) * (alignTo m e t : Int)
    let q : Int := (if b then -1 else 1) * (alignTo n g t : Int)
    let r := p + q
    if r = 0 then (.fin (if m = 0 ∧ n = 0 ∧ a = b then a else mode == .rdn) 0 0, false)
    else (.fin (decide (r < 0)) r.natAbs t, false)

/-- The exact product; 0 × ∞ is invalid. -/
def FVal.mul (x y : FVal) : FVal × Bool :=
  match x, y with
  | .nan _ _, _ => (.nan false false, false)
  | _, .nan _ _ => (.nan false false, false)
  | .inf a, .inf b => (.inf (a != b), false)
  | .inf a, .fin b n _ => if n = 0 then (.nan false false, true) else (.inf (a != b), false)
  | .fin a m _, .inf b => if m = 0 then (.nan false false, true) else (.inf (a != b), false)
  | .fin a m e, .fin b n g => (.fin (a != b) (m * n) (e + g), false)

/-- x × 2^k. -/
def FVal.scale (x : FVal) (k : Int) : FVal :=
  match x with
  | .fin n m e => .fin n m (e + k)
  | y => y

/-- The order of two values that are not NaNs: −1, 0 or 1; +0 equals −0 (03 R76). -/
def FVal.cmp (x y : FVal) : Int :=
  match x, y with
  | .inf a, .inf b => if a = b then 0 else if a then -1 else 1
  | .inf a, _ => if a then -1 else 1
  | _, .inf b => if b then 1 else -1
  | .fin a m e, .fin b n g =>
    let t := if e ≤ g then e else g
    let p : Int := (if a then -1 else 1) * (alignTo m e t : Int)
    let q : Int := (if b then -1 else 1) * (alignTo n g t : Int)
    if p < q then -1 else if p = q then 0 else 1
  | _, _ => 0

/-- The flag of a signalling NaN among operands, or of an invalid operation (03 R77, 04 R117). -/
def nvIf (b : Bool) : Nat := if b then Flag.nv else 0

/-- enc(a + b) as an arithmetic instruction does it (04 R117). -/
def fpAdd (f : Fmt) (mode : RMode) (w : Nat) (a b : FVal) : Rounded :=
  let r := a.add b mode
  let e := enc f mode w r.1
  { e with flags := e.flags ||| nvIf (r.2 || a.isSig || b.isSig) }
/-- enc(a × b) (04 R117). -/
def fpMul (f : Fmt) (mode : RMode) (w : Nat) (a b : FVal) : Rounded :=
  let r := a.mul b
  let e := enc f mode w r.1
  { e with flags := e.flags ||| nvIf (r.2 || a.isSig || b.isSig) }
/-- enc(a × b + d) with the product not rounded; ∞ × 0 + d is invalid (04 R117). -/
def fpFma (f : Fmt) (mode : RMode) (w : Nat) (a b d : FVal) : Rounded :=
  let p := a.mul b
  let r := p.1.add d mode
  let e := enc f mode w r.1
  { e with flags := e.flags ||| nvIf (p.2 || r.2 || a.isSig || b.isSig || d.isSig) }

/-- The integer square root of `n` by `k` binary digits from the top. -/
def isqrtAux (n : Nat) : Nat → Nat → Nat
  | 0, r => r
  | k + 1, r => let c := r + 2 ^ k; isqrtAux n k (if c * c ≤ n then c else r)
/-- The integer square root. -/
def isqrt (n : Nat) : Nat := isqrtAux n (Nat.log2 n / 2 + 1) 0

/-- enc(a ÷ b): the quotient carries the digits that any mode needs, and a sticky last bit (05 R150). -/
def fpDiv (f : Fmt) (mode : RMode) (w : Nat) (a b : FVal) : Rounded :=
  let neg := a.sign != b.sign
  match a, b with
  | .nan _ _, _ => { val := f.canon, flags := nvIf (a.isSig || b.isSig) }
  | _, .nan _ _ => { val := f.canon, flags := nvIf b.isSig }
  | .inf _, .inf _ => { val := f.canon, flags := Flag.nv }
  | .inf _, _ => { val := f.signed neg f.infBits }
  | _, .inf _ => { val := f.signed neg 0 }
  | .fin _ m e, .fin _ n g =>
    if n = 0 then
      if m = 0 then { val := f.canon, flags := Flag.nv } else { val := f.signed neg f.infBits, flags := Flag.dz }
    else if m = 0 then { val := f.signed neg 0 }
    else
      let k := f.frac + 24 + Nat.log2 n
      let q := (m <<< k) / n
      let s := if (m <<< k) % n = 0 then 0 else 1
      encFin f mode w neg (2 * q + s) (e - g - k - 1)

/-- enc(√a) (05 R150): −0 gives −0, a negative number is invalid. -/
def fpSqrt (f : Fmt) (mode : RMode) (w : Nat) (a : FVal) : Rounded :=
  match a with
  | .nan _ _ => { val := f.canon, flags := nvIf a.isSig }
  | .inf neg => if neg then { val := f.canon, flags := Flag.nv } else { val := f.infBits }
  | .fin neg m e =>
    if m = 0 then { val := f.signed neg 0 }
    else if neg then { val := f.canon, flags := Flag.nv }
    else
      let k := 2 * (f.frac + 24)
      let odd := e % 2 != 0
      let m' := (if odd then 2 * m else m) <<< k
      let e' := (if odd then e - 1 else e) - k
      let q := isqrt m'
      let s := if q * q = m' then 0 else 1
      encFin f mode w false (2 * q + s) (e' / 2 - 1)

/-- The floating relations (04 R119, 05 R151): 0 eq, 1 lt, 2 le, 3 un, 4 ne; with the flag each raises. -/
def fpRel (cnd : Nat) (a b : FVal) : Bool × Nat :=
  let nan := a.isNaN || b.isNaN
  let sig := a.isSig || b.isSig
  let c := a.cmp b
  match cnd with
  | 0 => (!nan && c == 0, nvIf sig)
  | 1 => (!nan && decide (c < 0), nvIf nan)
  | 2 => (!nan && decide (c ≤ 0), nvIf nan)
  | 3 => (nan, nvIf sig)
  | _ => (nan || c != 0, nvIf sig)

/-! ## Integers (03 R93, 04 R118) -/

/-- A value rounded to an integer, with its inexactness; infinities and NaNs give none. -/
def roundInt (mode : RMode) (w : Nat) (x : FVal) : Option (Int × Bool) :=
  match x with
  | .fin neg m e =>
    let r := roundTo mode neg w m e 0
    some ((if neg then -1 else 1) * (r.1 : Int), r.2.1)
  | _ => none

/-- Conversion to an integer of `w` bits (03 R93): out of range, infinities and NaNs clamp, set `NV` and the m0 bit. -/
def toInt (width : Nat) (signed_ : Bool) (mode : RMode) (w : Nat) (x : FVal) : Rounded :=
  let lo : Int := if signed_ then -(2 ^ (width - 1) : Nat) else 0
  let hi : Int := if signed_ then (2 ^ (width - 1) : Nat) - 1 else (2 ^ width : Nat) - 1
  match x with
  | .nan _ _ => { val := 0, flags := Flag.nv, mark := true }
  | .inf neg => { val := ofS width (if neg then lo else hi), flags := Flag.nv, mark := true }
  | .fin _ _ _ =>
    match roundInt mode w x with
    | some (r, inx) =>
      if r < lo then { val := ofS width lo, flags := Flag.nv, mark := true }
      else if hi < r then { val := ofS width hi, flags := Flag.nv, mark := true }
      else { val := ofS width r, flags := if inx then Flag.nx else 0 }
    | none => { val := 0 }

/-- The exact value of an integer pattern. -/
def ofInt (width : Nat) (signed_ : Bool) (x : Nat) : FVal :=
  let k : Int := if signed_ then toS width x else (x % 2 ^ width : Nat)
  .fin (decide (k < 0)) k.natAbs 0

/-! ## FP32 helpers -/

/-- rne32(x) (03 R95). -/
def rne32 (x : FVal) : Rounded := enc .f32 .rne 0 x
/-- dec of a rounded FP32 result. -/
def dec32 (x : Nat) : FVal := dec .f32 x

/-- The value of a scaled element (03 R79, R80): rounded to FP32; a scale of 0xFF gives the canonical NaN without flags. -/
def decScaled (f : Fmt) (x scale : Nat) : Rounded :=
  if scale = 0xFF then { val := Fmt.f32.canon }
  else rne32 ((dec f x).scale ((scale : Int) - 127))

/-! ## Stochastic rounding (03 R90) -/

/-- One step of a generator. -/
def srStep (g : W32) : W32 :=
  let s := g ^^^ (g <<< 13)
  let s := s ^^^ (s >>> 17)
  s ^^^ (s <<< 5)
/-- The word that a generator's new state gives. -/
def srWordOf (g : W32) : Nat := (g >>> 16).toNat
/-- sr_word(j): steps generator `j` of a list of generators and returns its word. -/
def srDraw (gens : List W32) (j : Nat) : Nat × List W32 :=
  let g := srStep (gens.getD (j % 128) 0)
  (srWordOf g, gens.set (j % 128) g)

end Sys2Proof.Machine
end

