-- ==== Sys2Proof/Machine/Operands.lean ====
section
/-! DEFINITION. The operand forms: immediates, integer operations at a width, the elements of vector registers, governing
masks, and the element-wise operation that a vector instruction and a chain stage share. -/
namespace Sys2Proof.Machine

/-! ## Immediates (02 R47, R48) -/

/-- sext of an immediate field. -/
def simm {n : Nat} (i : BitVec n) : Word := i.signExtend 64
/-- sext of an offset in words. -/
def simm4 {n : Nat} (i : BitVec n) : Word := i.signExtend 64 * 4

/-! ## Integer operations at width w (04 R100, R101, 05 R143) -/

/-- Shift counts are taken modulo the width (04 R100: b[5:0]; 05 R143). -/
def shCount {w : Nat} (b : BitVec w) : Nat := b.toNat % w
def aluAdd {w : Nat} (a b : BitVec w) : BitVec w := a + b
def aluSub {w : Nat} (a b : BitVec w) : BitVec w := a - b
def aluAnd {w : Nat} (a b : BitVec w) : BitVec w := a &&& b
def aluOr {w : Nat} (a b : BitVec w) : BitVec w := a ||| b
def aluXor {w : Nat} (a b : BitVec w) : BitVec w := a ^^^ b
def aluSll {w : Nat} (a b : BitVec w) : BitVec w := a <<< shCount b
def aluSrl {w : Nat} (a b : BitVec w) : BitVec w := a >>> shCount b
def aluSra {w : Nat} (a b : BitVec w) : BitVec w := a.sshiftRight (shCount b)
def aluSlt {w : Nat} (a b : BitVec w) : BitVec w := if a.slt b then 1 else 0
def aluSltn {w : Nat} (a b : BitVec w) : BitVec w := if a.ult b then 1 else 0
def aluMul {w : Nat} (a b : BitVec w) : BitVec w := a * b
/-- Bits [2w−1:w] of the two's complement product. -/
def aluMulh {w : Nat} (a b : BitVec w) : BitVec w := BitVec.ofInt w (a.toInt * b.toInt / 2 ^ w)
/-- Bits [2w−1:w] of the natural product. -/
def aluMulhn {w : Nat} (a b : BitVec w) : BitVec w := BitVec.ofNat w (a.toNat * b.toNat / 2 ^ w)
/-- Truncating division; by zero it gives −1 (04 R101). -/
def aluDiv {w : Nat} (a b : BitVec w) : BitVec w := if b = 0 then BitVec.allOnes w else a.sdiv b
def aluDivn {w : Nat} (a b : BitVec w) : BitVec w := if b = 0 then BitVec.allOnes w else a.udiv b
/-- The remainder takes the sign of `a`; by zero it is `a` (04 R101). -/
def aluRem {w : Nat} (a b : BitVec w) : BitVec w := if b = 0 then a else a.srem b
def aluRemn {w : Nat} (a b : BitVec w) : BitVec w := if b = 0 then a else a.umod b
def aluMin {w : Nat} (a b : BitVec w) : BitVec w := if b.slt a then b else a
def aluMax {w : Nat} (a b : BitVec w) : BitVec w := if a.slt b then b else a
def aluMinn {w : Nat} (a b : BitVec w) : BitVec w := if b.ult a then b else a
def aluMaxn {w : Nat} (a b : BitVec w) : BitVec w := if a.ult b then b else a
def aluRotl {w : Nat} (a b : BitVec w) : BitVec w := a.rotateLeft (shCount b)
def aluRotr {w : Nat} (a b : BitVec w) : BitVec w := a.rotateRight (shCount b)

/-- The number of one bits among the low `n` bits of `x`. -/
def popBits (x : Nat) : Nat → Nat
  | 0 => 0
  | n + 1 => popBits x n + (x.testBit n).toNat
/-- The zero bits of `x` below bit `n`, counted down from bit n − 1 to the first one bit. -/
def lzBits (x : Nat) : Nat → Nat
  | 0 => 0
  | n + 1 => if x.testBit n then 0 else 1 + lzBits x n
/-- The zero bits of `x` counted up from bit `i`, among `n` bits. -/
def tzBits (x i : Nat) : Nat → Nat
  | 0 => 0
  | n + 1 => if x.testBit i then 0 else 1 + tzBits x (i + 1) n
/-- The bytes of `x`, `n` of them, in reverse order. -/
def swapBytes (x : Nat) : Nat → Nat
  | 0 => 0
  | n + 1 => swapBytes x n + (x / 2 ^ (8 * n) % 256) * 2 ^ (8 * (7 - n))

/-- The carry-less product of two w-bit numbers, over the low `n` bits of `b` (05 R144). -/
def clmul (a b : Nat) : Nat → Nat
  | 0 => 0
  | n + 1 => clmul a b n ^^^ (if b.testBit n then a <<< n else 0)

/-- The AMO operations (04 R113, R114): the new value, or none for a failed cas. -/
def amoNew {w : Nat} (op : Nat) (old b d : BitVec w) : Option (BitVec w) :=
  match op with
  | 0 => some (aluAdd old b)
  | 1 => some (aluAnd old b)
  | 2 => some (aluOr old b)
  | 3 => some (aluXor old b)
  | 4 => some (aluMin old b)
  | 5 => some (aluMax old b)
  | 6 => some (aluMinn old b)
  | 7 => some (aluMaxn old b)
  | 8 => some b
  | _ => if old = d then some b else none

/-! ## Elements (01 R14, 03 R73) -/

/-- The width that vtype `EW` gives (01 R24). -/
def ewBits (ew : Nat) : Nat := 8 * 2 ^ ew
/-- Element `i` of width `w` of a byte image. -/
def elt (img w i : Nat) : Nat := bits img (w * i) w
/-- The image with element `i` of width `w` replaced. -/
def setElt (img w i x : Nat) : Nat := setBits img (w * i) w x

/-- v[r] as a byte image. -/
def State.vreg (s : State) (r : BitVec 5) : Nat := s.th.v[r.toNat]
/-- v[r] := an image. -/
def State.setV (s : State) (r : BitVec 5) (x : Nat) : State := { s with th := { s.th with v := s.th.v.set r.toNat x } }
/-- m[r]; bits at or above vlmax read as zero (01 R16). -/
def State.mreg (s : State) (r : Nat) : Nat := (s.th.m.toArray.getD r 0) % 2 ^ s.th.vlmax
/-- m[r] := a mask; writes to bits at or above vlmax are discarded (01 R16). -/
def State.setM (s : State) (r : Nat) (x : Nat) : State :=
  { s with th := { s.th with m := s.th.m.setIfInBounds r (setBits (s.th.m.toArray.getD r 0) 0 s.th.vlmax x) } }
/-- ORing marks into the offender mask and flags into fflags (01 R17, 03 R94). -/
def State.mark (s : State) (flags marks : Nat) : State :=
  { s with th := { s.th with fflags := s.th.fflags ||| flags, m := s.th.m.set 0 (s.th.m[0] ||| marks) } }
/-- Whether element `i` is active under a governing mask (05 R133). -/
def State.active (s : State) (k : BitVec 3) (i : Nat) : Bool := k == 0 || (s.mreg k.toNat).testBit i

/-- The natural numbers from `a` to `b` − 1. -/
def span (a b : Nat) : List Nat := (List.range (b - a)).map (a + ·)

/-! ## The element-wise operation (05 R134) -/

/-- What an element-wise operation knows besides its elements: the element width, the rounding mode, features and vsc; and
for VQNT the threshold (01 R23). -/
structure ECtx where
  ew : Nat
  frm : Nat
  vf64 : Bool
  srnd : Bool
  vsc : Nat
  deriving DecidableEq, Repr

/-- The context of a vector instruction of the current thread. -/
def State.ectx (s : State) : ECtx :=
  { ew := s.th.ew, frm := s.th.frm, vf64 := s.hasFeat 0, srnd := s.hasFeat 2, vsc := s.vreg 30 }

/-- Where an operand's elements come from: a vector register at a width, a scalar register, or nowhere. -/
inductive Src where
  | vec (r : BitVec 5) (w : Nat)
  | scalar (r : BitVec 5)
  | none
  deriving DecidableEq, Repr

/-- Where results go: a vector register at a width, or a mask register. -/
inductive Dst where
  | vec (r : BitVec 5) (w : Nat)
  | mask (r : Nat)
  deriving DecidableEq, Repr

/-- One element's inputs: its index, its operands, the old destination element, the bit of a selecting mask, and the
stochastic word. -/
structure EIn where
  i : Nat
  a : Nat
  b : Nat
  d : Nat
  sel : Bool
  word : Nat
  deriving DecidableEq, Repr

/-- An element-wise operation (05 R134): operands, destination, the governing and the selecting mask, whether each element
draws a stochastic word (03 R90), and the function of one element. -/
structure ElemOp where
  a : Src
  b : Src
  dst : Dst
  k : BitVec 3
  selMask : BitVec 3 := 0
  draws : Bool := false
  f : EIn → Rounded

/-- The element of a source; a scalar gives all its bits and the operation takes those of its width. -/
def State.srcElt (s : State) (x : Src) (i : Nat) : Nat :=
  match x with
  | .vec r w => elt (s.vreg r) w i
  | .scalar r => (s.rd r).toNat
  | .none => 0

/-- What an element-wise pass accumulates: the destination, flags, m0 marks and generators. -/
structure EAcc where
  out : Nat
  flags : Nat
  marks : Nat
  gens : List W32
  deriving DecidableEq, Repr

/-- The destination's image before the pass. -/
def State.dstImage (s : State) (d : Dst) : Nat :=
  match d with
  | .vec r _ => s.vreg r
  | .mask r => s.mreg r
/-- The old element of a destination. -/
def dstElt (d : Dst) (img i : Nat) : Nat :=
  match d with
  | .vec _ w => elt img w i
  | .mask _ => bits img i 1
/-- The image with the element written. -/
def dstSet (d : Dst) (img i x : Nat) : Nat :=
  match d with
  | .vec _ w => setElt img w i x
  | .mask _ => setBits img i 1 x
/-- The destination written back. -/
def State.setDst (s : State) (d : Dst) (img : Nat) : State :=
  match d with
  | .vec r _ => s.setV r img
  | .mask r => s.setM r img

/-- One active element of a pass. -/
def State.elemStep (s : State) (op : ElemOp) (acc : EAcc) (i : Nat) : EAcc :=
  let dr := if op.draws then srDraw acc.gens i else (0, acc.gens)
  let r := op.f { i := i, a := s.srcElt op.a i, b := s.srcElt op.b i, d := dstElt op.dst acc.out i,
                  sel := (s.mreg op.selMask.toNat).testBit i, word := dr.1 }
  { out := dstSet op.dst acc.out i r.val
    flags := acc.flags ||| r.flags
    marks := acc.marks ||| (if r.mark then 2 ^ i else 0)
    gens := dr.2 }

/-- The pass over the active elements from `start` to vl − 1, in ascending order (05 R134, R135). -/
def State.elemPass (s : State) (op : ElemOp) (start : Nat) : State :=
  let acc := ((span start s.th.vl).filter (s.active op.k)).foldl (s.elemStep op)
    { out := s.dstImage op.dst, flags := 0, marks := 0, gens := s.th.gens }
  let s1 := s.setDst op.dst acc.out
  { s1 with th := { s1.th with gens := acc.gens } }.mark acc.flags acc.marks

/-! ## Convoy members (09 R251, R257) -/

/-- The start of a member: its state with the convoy position recorded, and the element it starts from: estart at the
convoy's issue, or for the member at which it resumes estart as it stands, also when that member waits and is executed again. -/
def State.begin (s : State) : State × Nat :=
  match s.th.cv with
  | none => ({ s with th := { s.th with cv := some { e0 := s.th.estart } } }, s.th.estart)
  | some c => (s, if c.resumed then s.th.estart else c.e0)

/-- A member has completed every element: the next member, which runs from `e0` (09 R257), follows it, or the convoy is ready to retire
(09 R254). -/
def State.endMember (s : State) (c : BitVec 1) : State :=
  match s.th.cv with
  | some v =>
    { s with th := { s.th with
        cv := some { v with idx := v.idx + 1, last := c == 0, resumed := false, part := none, upTo := none }, estart := v.e0, reissue := false } }
  | none => s

/-- An element-wise instruction of 05: the checks of R137, then the pass. -/
def runElem (op : ECtx → Option ElemOp) (c : BitVec 1) (s : State) : M State :=
  let (s1, start) := s.begin
  match op s1.ectx with
  | none => illegal s1
  | some o => .ok ((s1.elemPass o start).endMember c)

/-- A whole-vector instruction of 05: estart must be zero and the widths and features allowed (05 R137). -/
def runWhole (pre : ECtx → Bool) (f : State → State) (c : BitVec 1) (s : State) : M State :=
  let (s1, start) := s.begin
  if start ≠ 0 ∨ pre s1.ectx = false then illegal s1
  else .ok ((f s1).endMember c)

end Sys2Proof.Machine
end

