-- ==== Sys2Proof/Machine/Bulk.lean ====
section
/-! DEFINITION. Accesses of an area as 8-byte pieces, every page checked and translated before any byte is accessed: VSPILL and
VFILL, the matrix transfers and panels, chain images, code objects and save areas (06 R197, 07 R206, R209, R212, R225). -/
namespace Sys2Proof.Machine

/-- The first of a list for which a function answers. -/
def firstSome {α β : Type} (f : α → Option β) : List α → Option β
  | [] => none
  | x :: r => match f x with
    | some y => some y
    | none => firstSome f r

/-- Checked addresses of a list of accesses: number, address, and the location or the error; translations are kept as they
are found. -/
def State.locateAll (s : State) (w : Tlb) (level : Level) (tile : Bool) (n : Nat) (k : AKind) :
    List (Nat × Nat) → State × List (Nat × Nat × Except AErr Loc)
  | [] => (s, [])
  | (i, a) :: r =>
    match s.locateAt w level tile a n k with
    | .ok (l, s1) => let t := s1.locateAll w level tile n k r; (t.1, (i, a, .ok l) :: t.2)
    | .error e => let t := s.locateAll w level tile n k r; (t.1, (i, a, .error e) :: t.2)

/-- The first entry with an error that a test accepts. -/
def firstErr (p : AErr → Bool) (l : List (Nat × Nat × Except AErr Loc)) : Option (Nat × Nat × AErr) :=
  firstSome (fun x => match x.2.2 with
    | .error e => if p e then some (x.1, x.2.1, e) else none
    | .ok _ => none) l

/-- The errors by the steps of 06 R171. -/
def AErr.isMisalign : AErr → Bool | .misalign => true | _ => false
def AErr.isTilebnd : AErr → Bool | .tilebnd => true | _ => false
def AErr.isProt : AErr → Bool | .prot => true | _ => false
def AErr.isPage : AErr → Bool | .page _ _ => true | _ => false
def AErr.isPoison : AErr → Bool | .poison => true | _ => false
/-- An access that waits, or that has no frame: neither is a trap. -/
def AErr.isStop : AErr → Bool | .wait _ => true | .absent _ => true | _ => false

/-- The accesses that stop at a page that is not mapped or not present, one for each 4 KiB granule, in their order
(13 R306). -/
def pageErrs (seen : List Nat) : List (Nat × Nat × Except AErr Loc) → List (Nat × Nat × Nat × Nat)
  | [] => []
  | (i, a, .error (.page c l)) :: r =>
    if seen.contains (a / 4096) then pageErrs seen r else (i, a, c, l) :: pageErrs (a / 4096 :: seen) r
  | _ :: r => pageErrs seen r

/-- PAGEBATCH with at most 16 records (06 R172, 13 R307, R308). -/
def batchTrap (s : State) (src ch : Nat) (k : AKind) (root : Word) (l : List (Nat × Nat × Nat × Nat)) : Trap :=
  let recs := (l.take 16).map fun p => mkRecord p.1 (bits root.toNat 40 16) src ch p.2.2.2 k.num p.2.2.1 p.2.1
  { cause := Cause.pagebatch, tval := s.th.fbarea, det := recs.length, elem := (l.head?.map (·.1)).getD 0,
    records := recs }

/-- The traps of an area in the order of 06 R171: MISALIGN, TILEBND, PROT, PAGEBATCH; then the waits. -/
def areaErr (s : State) (src : Nat) (k : AKind) (l : List (Nat × Nat × Except AErr Loc)) : Option Exn :=
  let one (p : AErr → Bool) : Option Exn := (firstErr p l).map fun x => accTrap s x.2.2 x.2.1 x.1 src k
  match one AErr.isMisalign with
  | some e => some e
  | none =>
    match one AErr.isTilebnd with
    | some e => some e
    | none =>
      match one AErr.isProt with
      | some e => some e
      | none =>
        match pageErrs [] l with
        | [] => one fun e => e.isPoison || e.isStop
        | ps => some (.trap (batchTrap s src 0 k s.th.ptroot ps) s)

/-- The locations of the 8-byte pieces of [a, a+n), checked as a whole. -/
def State.area (s : State) (w : Tlb) (level : Level) (tile : Bool) (a n : Nat) (k : AKind) (src : Nat) :
    M (List (Nat × Loc) × State) :=
  let (s1, l) := s.locateAll w level tile 8 k ((List.range ((n + 7) / 8)).map fun i => (0, (a + 8 * i) % 2 ^ 64))
  match areaErr s1 src k l with
  | some e => .error e
  | none => .ok (l.filterMap fun x => match x.2.2 with
      | .ok loc => some (x.2.1, loc)
      | .error _ => none, s1)

/-- The value of an area's pieces; poison in any piece traps POISON at the lowest (04 R111). -/
def State.readArea (s : State) (l : List (Nat × Loc)) (src : Nat) : M Nat :=
  match l.find? fun p => s.poisonedLoc p.2 8 with
  | some p => .error (accTrap s .poison p.1 0 src .read)
  | none => .ok (l.foldr (fun p x => s.readLoc p.2 8 + 2 ^ 64 * x) 0)

/-- The pieces written with the 8-byte words of a value. -/
def State.writeArea (s : State) : List (Nat × Loc) → Nat → State
  | [], _ => s
  | p :: r, x => (s.writeLoc p.2 8 (x % 2 ^ 64)).writeArea r (x / 2 ^ 64)

/-- An area read at the thread's level through a TLB. -/
def State.fetchArea (s : State) (w : Tlb) (tile : Bool) (a n src : Nat) : M (Nat × State) := do
  let (l, s1) ← s.area w s.th.level tile a n .read src
  let x ← s1.readArea l src
  .ok (x, s1.noteReads (l.map (·.2)))

/-- An area written at the thread's level through a TLB. -/
def State.storeArea (s : State) (w : Tlb) (tile : Bool) (a n x src : Nat) : M State := do
  let (l, s1) ← s.area w s.th.level tile a n .write src
  .ok (s1.writeArea l x)

end Sys2Proof.Machine
end

