-- ==== Sys2Proof/Machine/Lanes.lean ====
section
/-! DEFINITION. Physical cores and hop-count addressing, the fields of chain frames that name hardware, and the lane allocation
table (02 R58 to R61, 09 R239 to R250). -/
namespace Sys2Proof.Machine

/-! ## Physical cores (00 R3, 02 R60, 19 R411) -/

/-- A physical core as it stands at reset: live but for the spare of position 8 (00 R1). -/
def physDefault (n : Nat) : PhysCore := if n % 9 = 8 then { st := 1 } else {}
/-- The record of physical core 9c+p in the resource map. -/
def State.phys (s : State) (n : Nat) : PhysCore := s.rmap.phys.get n (physDefault n)
/-- The live positions of a cluster, in ascending order. -/
def State.livePos (s : State) (cluster : Nat) : List Nat := (List.range 9).filter fun p => (s.phys (9 * cluster + p)).st == 0
/-- The physical core that a presented number names, if it is present (00 R3). -/
def State.physOf (s : State) (core : Nat) : Option Nat :=
  if 1000 ≤ core then some (core - 1000) else ((s.livePos (clusterOf core))[ordinalOf core]?).map fun p => 9 * clusterOf core + p
/-- Whether a presented number is present. -/
def State.coreLive (s : State) (core : Nat) : Bool := decide (core < 320) && (s.physOf core).isSome
/-- The presented number of a physical core: its live ordinal in its cluster (00 R3, 19 R411 `PRES`). -/
def State.presOf (s : State) (n : Nat) : Option Nat :=
  let c := n / 9
  if (s.phys n).st == 0 then some (coreAt c ((s.livePos c).filter (· < n % 9)).length) else none
/-- The live physical lane groups of a presented core, as a mask (19 R411 `LG`). -/
def State.liveLg (s : State) (core : Nat) : Nat :=
  match s.physOf core with
  | some n => (s.phys n).lg
  | none => 0
/-- The live lane group of an ordinal, counted upward from physical lane group 0 (02 R60). -/
def State.lgAt (s : State) (core ord : Nat) : Option Nat := ((List.range 9).filter fun p => bitOf (s.liveLg core) p)[ord]?

/-- The physical core at a row and a column of nine positions a cluster. -/
def physAt (row col : Nat) : Nat := 9 * (4 * row + col / 9) + col % 9
/-- The live cores east of column `col` of a row, nearest first, as presented numbers. -/
def State.eastOf (s : State) (row col : Nat) : List Nat := (span (col + 1) 36).filterMap fun q => s.presOf (physAt row q)
/-- The live cores west of it, nearest first. -/
def State.westOf (s : State) (row col : Nat) : List Nat := (List.range col).reverse.filterMap fun q => s.presOf (physAt row q)

/-- The target of a walk of `hop` live cores in a direction (02 R60): 0 local, 1 east, 2 west, 3 north, 4 south. A thread of a core that has left its
cluster, recorded under 1000 and its physical number, has no live ordinal: for it the model resolves local as its own core and takes that record's
number modulo 8 as its ordinal for north and south (DESIGN CHOICE, assumption 71). -/
def State.walkHops (s : State) (core dir hop : Nat) : Option Nat :=
  let c := clusterOf core
  match s.physOf core with
  | none => none
  | some n =>
    let row := c / 4
    let col := c % 4 * 9 + n % 9
    if dir = 0 then some core
    else if dir = 1 then (s.eastOf row col)[hop - 1]?
    else if dir = 2 then (s.westOf row col)[hop - 1]?
    else
      let target (r : Nat) : Option Nat :=
        let k := coreAt (4 * r + c % 4) (ordinalOf core)
        if s.coreLive k then some k else none
      if dir = 3 then (if hop ≤ row then target (row - hop) else none)
      else (if row + hop < 10 then target (row + hop) else none)

/-! ## Frames (02 R59 to R71) -/

/-- `KIND` of a frame (02 R59). -/
def Frame.kind (f : Frame) : Nat := bits f.word 252 4
/-- The major opcode of a frame's `INS0` or `INS`. -/
def Frame.op0 (f : Frame) : Nat := bits f.word 0 7
/-- A vector compute stage (02 R65). -/
def Frame.isVecStage (f : Frame) : Bool := f.kind == 1 && decide (0x21 ≤ f.op0) && decide (f.op0 ≤ 0x31)
/-- A matrix stage (17 R358). -/
def Frame.isMatStage (f : Frame) : Bool := f.kind == 1 && decide (0x51 ≤ f.op0) && decide (f.op0 ≤ 0x57)
/-- A memory port (02 R66). -/
def Frame.isPort (f : Frame) : Bool := f.kind == 2
/-- A switch (02 R71). -/
def Frame.isSwitch (f : Frame) : Bool := f.kind == 3
/-- An address generator (02 R70). -/
def Frame.isGen (f : Frame) : Bool := f.kind == 4

/-- Whether a configured chain of the thread has a vector stage on a lane group (09 R250). -/
def Thread.namesLane (t : Thread) (core lg : Nat) : Bool :=
  t.slots.any fun x => !x.2.recorded && x.2.frames.any fun f => f.isVecStage && f.core == core && f.lg == lg
/-- The numbers of the threads that the state lists. -/
def State.threadIds (s : State) : List Nat := s.cur :: s.others.map (·.1)
/-- Whether any configured chain has a vector stage on a lane group. -/
def State.laneNamed (s : State) (core lg : Nat) : Bool := s.threadIds.any fun h => (s.getTh h).namesLane core lg

/-! ## The lane allocation table (09 R238 to R246) -/

/-- The cores of the gang that a core belongs to, in order (09 R238). -/
def State.gangCores (s : State) (core : Nat) : List Nat :=
  let c := s.getCore core
  (List.range (2 ^ c.gang)).map (c.gangFirst + ·)
/-- The resident threads that a core or gang issues for. -/
def State.residents (s : State) (core : Nat) : List Nat :=
  (List.range 4).filter fun t => (s.getTh (4 * (s.getCore core).gangFirst + t)).resident
/-- The physical lane groups of a gang, in the order of 09 R246, with their owners and whether they are live. -/
def State.laneList (s : State) (core : Nat) : List (Nat × Nat × LaneOwner × Bool) :=
  (s.gangCores core).flatMap fun c =>
    let lg := s.liveLg c
    let k := (s.getCore c).lanes
    (List.range 9).map fun p => (c, p, k.getD p .dead, bitOf lg p)
/-- The owner of a lane group replaced. -/
def State.setLane (s : State) (core lg : Nat) (o : LaneOwner) : State :=
  s.updCore core fun c => { c with lanes := c.lanes.set lg o }
/-- The allocation state of thread `t` of a core (09 R242). -/
def State.lat (s : State) (core t : Nat) : LatThr := (s.getCore core).lat.get t {}
/-- The state with it replaced. -/
def State.setLat (s : State) (core t : Nat) (x : LatThr) : State :=
  s.updCore core fun c => { c with lat := c.lat.set t x }
/-- `LIVE` (09 R241). -/
def State.live (s : State) (core : Nat) : Nat := ((s.laneList core).filter fun l => l.2.2.2).length
/-- `HELD` of thread `t` (09 R242). -/
def State.held (s : State) (core t : Nat) : Nat := ((s.laneList core).filter fun l => l.2.2.1 == .thread t).length
/-- The live, free lane groups, lowest first. -/
def State.freeLanes (s : State) (core : Nat) : List (Nat × Nat) :=
  (s.laneList core).filterMap fun l => if l.2.2.1 == .free && l.2.2.2 then some (l.1, l.2.1) else none
/-- The resident threads with `ASK` = 0 (09 R244). -/
def State.unasked (s : State) (core : Nat) : List Nat := (s.residents core).filter fun t => !(s.lat core t).ask
/-- The resident threads for which a lane group is kept free: those that have not asked (09 R244), and those whose every lane group the map
has withdrawn, so that each holds one after its next grant (09 R247). -/
def State.owed (s : State) (core : Nat) : List Nat :=
  (s.residents core).filter fun t => !(s.lat core t).ask || !(s.laneList core).any fun l => l.2.2.1 == .thread t && l.2.2.2
/-- The live, free lane groups are no fewer than those threads. -/
def State.covered (s : State) (core : Nat) : Bool := decide ((s.owed core).length ≤ (s.freeLanes core).length)

/-- shares() of 09 R245, for the core or the gang whose first core this is. -/
def State.shares (s : State) (core : Nat) : State :=
  let bakes := ((s.laneList core).filter fun l => l.2.2.1 == .bake && l.2.2.2).length
  let l := s.live core - bakes
  let res := s.residents core
  let as := res.filter fun t => (s.lat core t).ask
  let e := l - as.length - (res.length - as.length)
  let want (t : Nat) : Nat := Nat.min (s.lat core t).req l - 1
  let w := (as.map want).sum
  let base (t : Nat) : Nat := if w ≤ e then want t else e * want t / w
  let rest := if w ≤ e then 0 else e - (as.map base).sum
  let ahead (t : Nat) : Nat :=
    (as.filter fun u => decide (e * want t % w < e * want u % w) || (e * want u % w == e * want t % w && decide (u < t))).length
  let share (t : Nat) : Nat := 1 + base t + (if ahead t < rest then 1 else 0)
  (List.range 4).foldl (fun st t => st.setLat core t { st.lat core t with share := if as.contains t then share t else 0 }) s

/-- A lane group leaves thread `t`: dead if the map has withdrawn it, a bake's if a chain of the thread names it, else free
(09 R250, 19 R406). -/
def State.releaseLane (s : State) (th : Thread) (l : Nat × Nat) : State :=
  s.setLane l.1 l.2
    (if !bitOf (s.liveLg l.1) l.2 then .dead else if th.namesLane l.1 l.2 then .bake else .free)

/-- grant(r) of 09 R246 for the current thread; a held lane group that the map has withdrawn is first given up (19 R406), and one is kept
free for another thread that holds only such (assumption 61). -/
def State.grant (s : State) (r0 : Nat) : State × Nat :=
  let core := s.core
  let t := s.thr
  let x := s.lat core t
  let r := if x.lim ≠ 0 then Nat.min r0 x.lim else r0
  let gone := (s.laneList core).filterMap fun l => if l.2.2.1 == .thread t && !l.2.2.2 then some (l.1, l.2.1) else none
  let s0 := gone.foldl (fun st l => st.setLane l.1 l.2 .dead) s
  let s1 := (s0.setLat core t { x with req := r, ask := true }).shares core
  let mine := (s1.laneList core).filterMap fun l => if l.2.2.1 == .thread t then some (l.1, l.2.1) else none
  let share := (s1.lat core t).share
  let s2 :=
    if share < mine.length then (mine.drop share).foldl (fun st l => st.releaseLane st.th l) s1
    else
      let free := s1.freeLanes core
      let avail := free.length - ((s1.owed core).filter (· != t)).length
      (free.take (Nat.min (share - mine.length) avail)).foldl (fun st l => st.setLane l.1 l.2 (.thread t)) s1
  (s2, s2.held core t)

/-- The lane groups of thread `h` are released, its allocation state returns to 0 and shares() runs (09 R246). -/
def State.releaseLanes (s : State) (h : Nat) : State :=
  let core := h / 4
  let t := h % 4
  let th := s.getTh h
  let mine := (s.laneList core).filterMap fun l => if l.2.2.1 == .thread t then some (l.1, l.2.1) else none
  let s1 := mine.foldl (fun st l => st.releaseLane th l) s
  (s1.setLat core t { s1.lat core t with req := 0, ask := false, share := 0 }).shares core

/-! ## Core control registers (09 R239 to R243) -/

/-- The 4-bit code of an owner (09 R240). -/
def LaneOwner.code : LaneOwner → Nat
  | .thread t => t | .free => 8 | .bake => 9 | .dead => 0xF
/-- latab. -/
def State.latab (s : State) (core : Nat) : Nat :=
  (List.range 9).foldl (fun n p => n + ((s.getCore core).lanes.getD p .dead).code * 16 ^ p) 0
/-- corecfg; a core that is no longer presented reads the low nine bits of its record's number (09 R241, assumption 71). -/
def State.corecfg (s : State) (core : Nat) : Nat :=
  let c := s.getCore core
  s.live core * 2 ^ 32 + c.gangFirst % 512 * 2 ^ 16 + c.gang * 2 ^ 8 + ((s.residents core).map (2 ^ ·)).sum
/-- latthr of thread `t`; zero on a gang's other cores. -/
def State.latthr (s : State) (core t : Nat) : Nat :=
  if (s.getCore core).gangFirst ≠ core then 0
  else
    let x := s.lat core t
    (s.getTh (4 * core + t)).resident.toNat * 2 ^ 63 + x.ask.toNat * 2 ^ 62 + x.lim * 2 ^ 24 + s.held core t * 2 ^ 16
      + x.share * 2 ^ 8 + x.req
/-- Suspended under the resource map rules (19 R416). -/
def Thread.suspended (t : Thread) : Bool := t.rmvAck != t.rmvCur && t.rmLeft == 0
/-- `ST` of a thread (09 R243); 1 also for a resident thread that has ended and waits for what it started. 4 stands for a thread suspended under the
resource map rules and for one that a trap has stopped (19 R386), and not for one whose context the supervisor has saved, which runs on as any other
(DEDUCED, assumption 96). -/
def Thread.st (t : Thread) : Nat :=
  match t.status with
  | .absent => 0
  | .idle => if t.suspended then 4 else 3
  | .parked _ => if t.suspended then 4 else 2
  | .stopped => 4
  | _ => if t.suspended then 4 else 1
/-- thrstate; zero on a gang's other cores. -/
def State.thrstate (s : State) (core : Nat) : Nat :=
  if (s.getCore core).gangFirst ≠ core then 0
  else (List.range 4).foldl (fun n t => n + (s.getTh (4 * core + t)).st * 16 ^ t) 0

/-! ## SETVL (05 R139, 09 R249) -/

/-- Every vector element and mask bit at or above vl reads as zero (01 R14). -/
def State.tailZero (s : State) : State :=
  { s with th := { s.th with v := s.th.v.map (· % 2 ^ (s.th.vl * ewBits s.th.ew)), m := s.th.m.map (· % 2 ^ s.th.vl) } }

/-- The configuration that a grant of `lg` lane groups and a width give (05 R139). -/
def State.configure (s : State) (lg ew : Nat) : State :=
  { s with th := { s.th with ew := ew, vrlen := lg * 512, vlmax := lg * 512 * 8 / ewBits ew, estart := 0 } }

/-! ## Links and their wake (04 R131, 20 R426) -/

/-- The power state of a link. -/
def State.linkSt (s : State) (r : LinkRef) : LinkState :=
  match s.links.find? fun x => x.1 == r with
  | some x => x.2
  | none => {}
/-- The state with it replaced. -/
def State.setLinkSt (s : State) (r : LinkRef) (x : LinkState) : State :=
  { s with links := s.links.filter (fun y => y.1 != r) ++ [(r, x)] }
/-- Raising a link to full width: a full, waking or capped one is left as it is. -/
def State.wakeLink (s : State) (r : LinkRef) : State :=
  let x := s.linkSt r
  if x.power = .full ∨ x.waking ∨ (x.capped ∧ x.power = .narrow) then s
  else s.setLinkSt r { x with waking := true, raised := true }
/-- The die boundary between two neighbouring dies, if the step crosses one (19 R410). -/
def boundaryOf (a b : Nat) : Option Nat :=
  let d := dieOf a
  let e := dieOf b
  if d = e then none
  else if d / 4 = e / 4 then some (3 * (d / 4) + Nat.min (d % 4) (e % 4))
  else some (6 + d % 4)
/-- The links of one step from a core in a direction (1 east to 4 south), onto a core if there is one. A lane link has one power state
for each core and direction, so that the two directions between neighbours are two links; the manual does not say (DESIGN CHOICE,
assumption 92). -/
def stepLinks (dir core : Nat) (dest : Option Nat) : List LinkRef :=
  .lane core (dir - 1) :: (match dest.bind (boundaryOf core) with
    | some d => [.die d]
    | none => [])
/-- The links on the walk of R60, up to the grid's edge. North and south the walk goes by the presented number, also through a row in
which that ordinal is not live, where 02 R60 resolves no target; 04 R131 speaks only of the grid's edge (DESIGN CHOICE, assumption 92). -/
def State.pathLinks (s : State) (core dir hop : Nat) : List LinkRef :=
  match s.physOf core with
  | none => []
  | some n =>
    let c := clusterOf core
    let row := c / 4
    let col := c % 4 * 9 + n % 9
    let at_ (r : Nat) : Nat := coreAt (4 * r + c % 4) (ordinalOf core)
    let cells :=
      if dir = 1 then s.eastOf row col
      else if dir = 2 then s.westOf row col
      else if dir = 3 then (List.range row).reverse.map at_
      else (span (row + 1) 10).map at_
    let walk := (core :: cells).take (hop + 1)
    (walk.zip walk.tail).flatMap fun p => stepLinks dir p.1 (some p.2)
/-- Every link of a path raised. -/
def State.wakePath (s : State) (core dir hop : Nat) : State := (s.pathLinks core dir hop).foldl State.wakeLink s

end Sys2Proof.Machine
end

