-- ==== Sys2Proof/Machine/Vector.lean ====
section
/-! DEFINITION. Vector arithmetic, comparison, move, permutation, reduction, mask and conversion instructions (05). Each
element-wise instruction is an operation on one element (`elem…`), which a compute stage of a chain shares (02 R65). -/
namespace Sys2Proof.Machine

/-! ## Integer arithmetic (05 R143 to R146) -/

/-- A vector and vector operation at the element width (05 R143). -/
def intVV (op : {w : Nat} → BitVec w → BitVec w → BitVec w) (d a b : BitVec 5) (k : BitVec 3) (c : ECtx) : Option ElemOp :=
  let w := ewBits c.ew
  some { a := .vec a w, b := .vec b w, dst := .vec d w, k := k
         f := fun e => { val := (op (BitVec.ofNat w e.a) (BitVec.ofNat w e.b)).toNat } }
/-- A vector and scalar operation: the operand of every element is g[VB][w−1:0] (05 R133). -/
def intVS (op : {w : Nat} → BitVec w → BitVec w → BitVec w) (d a b : BitVec 5) (k : BitVec 3) (c : ECtx) : Option ElemOp :=
  let w := ewBits c.ew
  some { a := .vec a w, b := .scalar b, dst := .vec d w, k := k
         f := fun e => { val := (op (BitVec.ofNat w e.a) (BitVec.ofNat w e.b)).toNat } }
/-- VCLMUL (05 R144). -/
def aluClmul {w : Nat} (a b : BitVec w) : BitVec w := BitVec.ofNat w (clmul a.toNat b.toNat w)
/-- VCLMULH (05 R144). -/
def aluClmulh {w : Nat} (a b : BitVec w) : BitVec w := BitVec.ofNat w (clmul a.toNat b.toNat w / 2 ^ w)
/-- VWID and VWIDN: the source at half the width (05 R145). -/
def widen (signed_ : Bool) (d a : BitVec 5) (k : BitVec 3) (c : ECtx) : Option ElemOp :=
  let w := ewBits c.ew
  if c.ew = 0 then none
  else some { a := .vec a (w / 2), b := .none, dst := .vec d w, k := k
              f := fun e => { val := if signed_ then ofS w (toS (w / 2) e.a) else e.a } }
/-- sat_int (03 R74, R95): clamped to the range of a type, with the m0 mark where the clamp changes the value. -/
def satInt (width : Nat) (signed_ : Bool) (x : Int) : Rounded :=
  let lo : Int := if signed_ then -(2 ^ (width - 1) : Nat) else 0
  let hi : Int := if signed_ then (2 ^ (width - 1) : Nat) - 1 else (2 ^ width : Nat) - 1
  if x < lo then { val := ofS width lo, mark := true }
  else if hi < x then { val := ofS width hi, mark := true }
  else { val := ofS width x }
/-- The integer of a pattern, two's complement or natural. -/
def intOf (signed_ : Bool) (w x : Nat) : Int := if signed_ then toS w x else (x % 2 ^ w : Nat)
/-- Saturating add and subtract (05 R146). -/
def satOp (signed_ sub : Bool) (scalar : Bool) (d a b : BitVec 5) (k : BitVec 3) (c : ECtx) : Option ElemOp :=
  let w := ewBits c.ew
  some { a := .vec a w, b := if scalar then .scalar b else .vec b w, dst := .vec d w, k := k
         f := fun e =>
           let x := intOf signed_ w e.a
           let y := intOf signed_ w e.b
           satInt w signed_ (if sub then x - y else x + y) }
/-- Narrowing to half the width with saturation (05 R146). -/
def narrow (from_ to_ : Bool) (d a : BitVec 5) (k : BitVec 3) (c : ECtx) : Option ElemOp :=
  let w := ewBits c.ew
  if c.ew = 0 then none
  else some { a := .vec a w, b := .none, dst := .vec d (w / 2), k := k
              f := fun e => satInt (w / 2) to_ (intOf from_ w e.a) }

/-- The element of VADD (05 R143). -/
def elemVadd (d : BitVec 5) (a : BitVec 5) (b : BitVec 5) (k : BitVec 3) : ECtx → Option ElemOp := intVV aluAdd d a b k
/-- VADD (05 R143). -/
def execVadd (d : BitVec 5) (a : BitVec 5) (b : BitVec 5) (k : BitVec 3) (c : BitVec 1) (s : State) : Host.Outcome State Fault Refusal :=
  finish (runElem (elemVadd d a b k) c s)
/-- The element of VSUB (05 R143). -/
def elemVsub (d : BitVec 5) (a : BitVec 5) (b : BitVec 5) (k : BitVec 3) : ECtx → Option ElemOp := intVV aluSub d a b k
/-- VSUB (05 R143). -/
def execVsub (d : BitVec 5) (a : BitVec 5) (b : BitVec 5) (k : BitVec 3) (c : BitVec 1) (s : State) : Host.Outcome State Fault Refusal :=
  finish (runElem (elemVsub d a b k) c s)
/-- The element of VAND (05 R143). -/
def elemVand (d : BitVec 5) (a : BitVec 5) (b : BitVec 5) (k : BitVec 3) : ECtx → Option ElemOp := intVV aluAnd d a b k
/-- VAND (05 R143). -/
def execVand (d : BitVec 5) (a : BitVec 5) (b : BitVec 5) (k : BitVec 3) (c : BitVec 1) (s : State) : Host.Outcome State Fault Refusal :=
  finish (runElem (elemVand d a b k) c s)
/-- The element of VOR (05 R143). -/
def elemVor (d : BitVec 5) (a : BitVec 5) (b : BitVec 5) (k : BitVec 3) : ECtx → Option ElemOp := intVV aluOr d a b k
/-- VOR (05 R143). -/
def execVor (d : BitVec 5) (a : BitVec 5) (b : BitVec 5) (k : BitVec 3) (c : BitVec 1) (s : State) : Host.Outcome State Fault Refusal :=
  finish (runElem (elemVor d a b k) c s)
/-- The element of VXOR (05 R143). -/
def elemVxor (d : BitVec 5) (a : BitVec 5) (b : BitVec 5) (k : BitVec 3) : ECtx → Option ElemOp := intVV aluXor d a b k
/-- VXOR (05 R143). -/
def execVxor (d : BitVec 5) (a : BitVec 5) (b : BitVec 5) (k : BitVec 3) (c : BitVec 1) (s : State) : Host.Outcome State Fault Refusal :=
  finish (runElem (elemVxor d a b k) c s)
/-- The element of VSLL (05 R143). -/
def elemVsll (d : BitVec 5) (a : BitVec 5) (b : BitVec 5) (k : BitVec 3) : ECtx → Option ElemOp := intVV aluSll d a b k
/-- VSLL (05 R143). -/
def execVsll (d : BitVec 5) (a : BitVec 5) (b : BitVec 5) (k : BitVec 3) (c : BitVec 1) (s : State) : Host.Outcome State Fault Refusal :=
  finish (runElem (elemVsll d a b k) c s)
/-- The element of VSRL (05 R143). -/
def elemVsrl (d : BitVec 5) (a : BitVec 5) (b : BitVec 5) (k : BitVec 3) : ECtx → Option ElemOp := intVV aluSrl d a b k
/-- VSRL (05 R143). -/
def execVsrl (d : BitVec 5) (a : BitVec 5) (b : BitVec 5) (k : BitVec 3) (c : BitVec 1) (s : State) : Host.Outcome State Fault Refusal :=
  finish (runElem (elemVsrl d a b k) c s)
/-- The element of VSRA (05 R143). -/
def elemVsra (d : BitVec 5) (a : BitVec 5) (b : BitVec 5) (k : BitVec 3) : ECtx → Option ElemOp := intVV aluSra d a b k
/-- VSRA (05 R143). -/
def execVsra (d : BitVec 5) (a : BitVec 5) (b : BitVec 5) (k : BitVec 3) (c : BitVec 1) (s : State) : Host.Outcome State Fault Refusal :=
  finish (runElem (elemVsra d a b k) c s)
/-- The element of VMUL (05 R143). -/
def elemVmul (d : BitVec 5) (a : BitVec 5) (b : BitVec 5) (k : BitVec 3) : ECtx → Option ElemOp := intVV aluMul d a b k
/-- VMUL (05 R143). -/
def execVmul (d : BitVec 5) (a : BitVec 5) (b : BitVec 5) (k : BitVec 3) (c : BitVec 1) (s : State) : Host.Outcome State Fault Refusal :=
  finish (runElem (elemVmul d a b k) c s)
/-- The element of VMULH (05 R143). -/
def elemVmulh (d : BitVec 5) (a : BitVec 5) (b : BitVec 5) (k : BitVec 3) : ECtx → Option ElemOp := intVV aluMulh d a b k
/-- VMULH (05 R143). -/
def execVmulh (d : BitVec 5) (a : BitVec 5) (b : BitVec 5) (k : BitVec 3) (c : BitVec 1) (s : State) : Host.Outcome State Fault Refusal :=
  finish (runElem (elemVmulh d a b k) c s)
/-- The element of VMULHN (05 R143). -/
def elemVmulhn (d : BitVec 5) (a : BitVec 5) (b : BitVec 5) (k : BitVec 3) : ECtx → Option ElemOp := intVV aluMulhn d a b k
/-- VMULHN (05 R143). -/
def execVmulhn (d : BitVec 5) (a : BitVec 5) (b : BitVec 5) (k : BitVec 3) (c : BitVec 1) (s : State) : Host.Outcome State Fault Refusal :=
  finish (runElem (elemVmulhn d a b k) c s)
/-- The element of VDIV (05 R143). -/
def elemVdiv (d : BitVec 5) (a : BitVec 5) (b : BitVec 5) (k : BitVec 3) : ECtx → Option ElemOp := intVV aluDiv d a b k
/-- VDIV (05 R143). -/
def execVdiv (d : BitVec 5) (a : BitVec 5) (b : BitVec 5) (k : BitVec 3) (c : BitVec 1) (s : State) : Host.Outcome State Fault Refusal :=
  finish (runElem (elemVdiv d a b k) c s)
/-- The element of VDIVN (05 R143). -/
def elemVdivn (d : BitVec 5) (a : BitVec 5) (b : BitVec 5) (k : BitVec 3) : ECtx → Option ElemOp := intVV aluDivn d a b k
/-- VDIVN (05 R143). -/
def execVdivn (d : BitVec 5) (a : BitVec 5) (b : BitVec 5) (k : BitVec 3) (c : BitVec 1) (s : State) : Host.Outcome State Fault Refusal :=
  finish (runElem (elemVdivn d a b k) c s)
/-- The element of VREM (05 R143). -/
def elemVrem (d : BitVec 5) (a : BitVec 5) (b : BitVec 5) (k : BitVec 3) : ECtx → Option ElemOp := intVV aluRem d a b k
/-- VREM (05 R143). -/
def execVrem (d : BitVec 5) (a : BitVec 5) (b : BitVec 5) (k : BitVec 3) (c : BitVec 1) (s : State) : Host.Outcome State Fault Refusal :=
  finish (runElem (elemVrem d a b k) c s)
/-- The element of VREMN (05 R143). -/
def elemVremn (d : BitVec 5) (a : BitVec 5) (b : BitVec 5) (k : BitVec 3) : ECtx → Option ElemOp := intVV aluRemn d a b k
/-- VREMN (05 R143). -/
def execVremn (d : BitVec 5) (a : BitVec 5) (b : BitVec 5) (k : BitVec 3) (c : BitVec 1) (s : State) : Host.Outcome State Fault Refusal :=
  finish (runElem (elemVremn d a b k) c s)
/-- The element of VMIN (05 R143). -/
def elemVmin (d : BitVec 5) (a : BitVec 5) (b : BitVec 5) (k : BitVec 3) : ECtx → Option ElemOp := intVV aluMin d a b k
/-- VMIN (05 R143). -/
def execVmin (d : BitVec 5) (a : BitVec 5) (b : BitVec 5) (k : BitVec 3) (c : BitVec 1) (s : State) : Host.Outcome State Fault Refusal :=
  finish (runElem (elemVmin d a b k) c s)
/-- The element of VMAX (05 R143). -/
def elemVmax (d : BitVec 5) (a : BitVec 5) (b : BitVec 5) (k : BitVec 3) : ECtx → Option ElemOp := intVV aluMax d a b k
/-- VMAX (05 R143). -/
def execVmax (d : BitVec 5) (a : BitVec 5) (b : BitVec 5) (k : BitVec 3) (c : BitVec 1) (s : State) : Host.Outcome State Fault Refusal :=
  finish (runElem (elemVmax d a b k) c s)
/-- The element of VMINN (05 R143). -/
def elemVminn (d : BitVec 5) (a : BitVec 5) (b : BitVec 5) (k : BitVec 3) : ECtx → Option ElemOp := intVV aluMinn d a b k
/-- VMINN (05 R143). -/
def execVminn (d : BitVec 5) (a : BitVec 5) (b : BitVec 5) (k : BitVec 3) (c : BitVec 1) (s : State) : Host.Outcome State Fault Refusal :=
  finish (runElem (elemVminn d a b k) c s)
/-- The element of VMAXN (05 R143). -/
def elemVmaxn (d : BitVec 5) (a : BitVec 5) (b : BitVec 5) (k : BitVec 3) : ECtx → Option ElemOp := intVV aluMaxn d a b k
/-- VMAXN (05 R143). -/
def execVmaxn (d : BitVec 5) (a : BitVec 5) (b : BitVec 5) (k : BitVec 3) (c : BitVec 1) (s : State) : Host.Outcome State Fault Refusal :=
  finish (runElem (elemVmaxn d a b k) c s)
/-- The element of VCLMUL (05 R143). -/
def elemVclmul (d : BitVec 5) (a : BitVec 5) (b : BitVec 5) (k : BitVec 3) : ECtx → Option ElemOp := intVV aluClmul d a b k
/-- VCLMUL (05 R143). -/
def execVclmul (d : BitVec 5) (a : BitVec 5) (b : BitVec 5) (k : BitVec 3) (c : BitVec 1) (s : State) : Host.Outcome State Fault Refusal :=
  finish (runElem (elemVclmul d a b k) c s)
/-- The element of VCLMULH (05 R143). -/
def elemVclmulh (d : BitVec 5) (a : BitVec 5) (b : BitVec 5) (k : BitVec 3) : ECtx → Option ElemOp := intVV aluClmulh d a b k
/-- VCLMULH (05 R143). -/
def execVclmulh (d : BitVec 5) (a : BitVec 5) (b : BitVec 5) (k : BitVec 3) (c : BitVec 1) (s : State) : Host.Outcome State Fault Refusal :=
  finish (runElem (elemVclmulh d a b k) c s)
/-- The element of VWID (05 R145). -/
def elemVwid (d : BitVec 5) (a : BitVec 5) (k : BitVec 3) : ECtx → Option ElemOp := widen true d a k
/-- VWID (05 R145). -/
def execVwid (d : BitVec 5) (a : BitVec 5) (k : BitVec 3) (c : BitVec 1) (s : State) : Host.Outcome State Fault Refusal :=
  finish (runElem (elemVwid d a k) c s)
/-- The element of VWIDN (05 R145). -/
def elemVwidn (d : BitVec 5) (a : BitVec 5) (k : BitVec 3) : ECtx → Option ElemOp := widen false d a k
/-- VWIDN (05 R145). -/
def execVwidn (d : BitVec 5) (a : BitVec 5) (k : BitVec 3) (c : BitVec 1) (s : State) : Host.Outcome State Fault Refusal :=
  finish (runElem (elemVwidn d a k) c s)
/-- The element of VADD with a scalar operand (05 R143). -/
def elemVaddScalar (d : BitVec 5) (a : BitVec 5) (b : BitVec 5) (k : BitVec 3) : ECtx → Option ElemOp := intVS aluAdd d a b k
/-- VADD with a scalar operand (05 R143). -/
def execVaddScalar (d : BitVec 5) (a : BitVec 5) (b : BitVec 5) (k : BitVec 3) (c : BitVec 1) (s : State) : Host.Outcome State Fault Refusal :=
  finish (runElem (elemVaddScalar d a b k) c s)
/-- The element of VSUB with a scalar operand (05 R143). -/
def elemVsubScalar (d : BitVec 5) (a : BitVec 5) (b : BitVec 5) (k : BitVec 3) : ECtx → Option ElemOp := intVS aluSub d a b k
/-- VSUB with a scalar operand (05 R143). -/
def execVsubScalar (d : BitVec 5) (a : BitVec 5) (b : BitVec 5) (k : BitVec 3) (c : BitVec 1) (s : State) : Host.Outcome State Fault Refusal :=
  finish (runElem (elemVsubScalar d a b k) c s)
/-- The element of VAND with a scalar operand (05 R143). -/
def elemVandScalar (d : BitVec 5) (a : BitVec 5) (b : BitVec 5) (k : BitVec 3) : ECtx → Option ElemOp := intVS aluAnd d a b k
/-- VAND with a scalar operand (05 R143). -/
def execVandScalar (d : BitVec 5) (a : BitVec 5) (b : BitVec 5) (k : BitVec 3) (c : BitVec 1) (s : State) : Host.Outcome State Fault Refusal :=
  finish (runElem (elemVandScalar d a b k) c s)
/-- The element of VOR with a scalar operand (05 R143). -/
def elemVorScalar (d : BitVec 5) (a : BitVec 5) (b : BitVec 5) (k : BitVec 3) : ECtx → Option ElemOp := intVS aluOr d a b k
/-- VOR with a scalar operand (05 R143). -/
def execVorScalar (d : BitVec 5) (a : BitVec 5) (b : BitVec 5) (k : BitVec 3) (c : BitVec 1) (s : State) : Host.Outcome State Fault Refusal :=
  finish (runElem (elemVorScalar d a b k) c s)
/-- The element of VXOR with a scalar operand (05 R143). -/
def elemVxorScalar (d : BitVec 5) (a : BitVec 5) (b : BitVec 5) (k : BitVec 3) : ECtx → Option ElemOp := intVS aluXor d a b k
/-- VXOR with a scalar operand (05 R143). -/
def execVxorScalar (d : BitVec 5) (a : BitVec 5) (b : BitVec 5) (k : BitVec 3) (c : BitVec 1) (s : State) : Host.Outcome State Fault Refusal :=
  finish (runElem (elemVxorScalar d a b k) c s)
/-- The element of VSLL with a scalar operand (05 R143). -/
def elemVsllScalar (d : BitVec 5) (a : BitVec 5) (b : BitVec 5) (k : BitVec 3) : ECtx → Option ElemOp := intVS aluSll d a b k
/-- VSLL with a scalar operand (05 R143). -/
def execVsllScalar (d : BitVec 5) (a : BitVec 5) (b : BitVec 5) (k : BitVec 3) (c : BitVec 1) (s : State) : Host.Outcome State Fault Refusal :=
  finish (runElem (elemVsllScalar d a b k) c s)
/-- The element of VSRL with a scalar operand (05 R143). -/
def elemVsrlScalar (d : BitVec 5) (a : BitVec 5) (b : BitVec 5) (k : BitVec 3) : ECtx → Option ElemOp := intVS aluSrl d a b k
/-- VSRL with a scalar operand (05 R143). -/
def execVsrlScalar (d : BitVec 5) (a : BitVec 5) (b : BitVec 5) (k : BitVec 3) (c : BitVec 1) (s : State) : Host.Outcome State Fault Refusal :=
  finish (runElem (elemVsrlScalar d a b k) c s)
/-- The element of VSRA with a scalar operand (05 R143). -/
def elemVsraScalar (d : BitVec 5) (a : BitVec 5) (b : BitVec 5) (k : BitVec 3) : ECtx → Option ElemOp := intVS aluSra d a b k
/-- VSRA with a scalar operand (05 R143). -/
def execVsraScalar (d : BitVec 5) (a : BitVec 5) (b : BitVec 5) (k : BitVec 3) (c : BitVec 1) (s : State) : Host.Outcome State Fault Refusal :=
  finish (runElem (elemVsraScalar d a b k) c s)
/-- The element of VMUL with a scalar operand (05 R143). -/
def elemVmulScalar (d : BitVec 5) (a : BitVec 5) (b : BitVec 5) (k : BitVec 3) : ECtx → Option ElemOp := intVS aluMul d a b k
/-- VMUL with a scalar operand (05 R143). -/
def execVmulScalar (d : BitVec 5) (a : BitVec 5) (b : BitVec 5) (k : BitVec 3) (c : BitVec 1) (s : State) : Host.Outcome State Fault Refusal :=
  finish (runElem (elemVmulScalar d a b k) c s)
/-- The element of VMULH with a scalar operand (05 R143). -/
def elemVmulhScalar (d : BitVec 5) (a : BitVec 5) (b : BitVec 5) (k : BitVec 3) : ECtx → Option ElemOp := intVS aluMulh d a b k
/-- VMULH with a scalar operand (05 R143). -/
def execVmulhScalar (d : BitVec 5) (a : BitVec 5) (b : BitVec 5) (k : BitVec 3) (c : BitVec 1) (s : State) : Host.Outcome State Fault Refusal :=
  finish (runElem (elemVmulhScalar d a b k) c s)
/-- The element of VMULHN with a scalar operand (05 R143). -/
def elemVmulhnScalar (d : BitVec 5) (a : BitVec 5) (b : BitVec 5) (k : BitVec 3) : ECtx → Option ElemOp := intVS aluMulhn d a b k
/-- VMULHN with a scalar operand (05 R143). -/
def execVmulhnScalar (d : BitVec 5) (a : BitVec 5) (b : BitVec 5) (k : BitVec 3) (c : BitVec 1) (s : State) : Host.Outcome State Fault Refusal :=
  finish (runElem (elemVmulhnScalar d a b k) c s)
/-- The element of VDIV with a scalar operand (05 R143). -/
def elemVdivScalar (d : BitVec 5) (a : BitVec 5) (b : BitVec 5) (k : BitVec 3) : ECtx → Option ElemOp := intVS aluDiv d a b k
/-- VDIV with a scalar operand (05 R143). -/
def execVdivScalar (d : BitVec 5) (a : BitVec 5) (b : BitVec 5) (k : BitVec 3) (c : BitVec 1) (s : State) : Host.Outcome State Fault Refusal :=
  finish (runElem (elemVdivScalar d a b k) c s)
/-- The element of VDIVN with a scalar operand (05 R143). -/
def elemVdivnScalar (d : BitVec 5) (a : BitVec 5) (b : BitVec 5) (k : BitVec 3) : ECtx → Option ElemOp := intVS aluDivn d a b k
/-- VDIVN with a scalar operand (05 R143). -/
def execVdivnScalar (d : BitVec 5) (a : BitVec 5) (b : BitVec 5) (k : BitVec 3) (c : BitVec 1) (s : State) : Host.Outcome State Fault Refusal :=
  finish (runElem (elemVdivnScalar d a b k) c s)
/-- The element of VREM with a scalar operand (05 R143). -/
def elemVremScalar (d : BitVec 5) (a : BitVec 5) (b : BitVec 5) (k : BitVec 3) : ECtx → Option ElemOp := intVS aluRem d a b k
/-- VREM with a scalar operand (05 R143). -/
def execVremScalar (d : BitVec 5) (a : BitVec 5) (b : BitVec 5) (k : BitVec 3) (c : BitVec 1) (s : State) : Host.Outcome State Fault Refusal :=
  finish (runElem (elemVremScalar d a b k) c s)
/-- The element of VREMN with a scalar operand (05 R143). -/
def elemVremnScalar (d : BitVec 5) (a : BitVec 5) (b : BitVec 5) (k : BitVec 3) : ECtx → Option ElemOp := intVS aluRemn d a b k
/-- VREMN with a scalar operand (05 R143). -/
def execVremnScalar (d : BitVec 5) (a : BitVec 5) (b : BitVec 5) (k : BitVec 3) (c : BitVec 1) (s : State) : Host.Outcome State Fault Refusal :=
  finish (runElem (elemVremnScalar d a b k) c s)
/-- The element of VMIN with a scalar operand (05 R143). -/
def elemVminScalar (d : BitVec 5) (a : BitVec 5) (b : BitVec 5) (k : BitVec 3) : ECtx → Option ElemOp := intVS aluMin d a b k
/-- VMIN with a scalar operand (05 R143). -/
def execVminScalar (d : BitVec 5) (a : BitVec 5) (b : BitVec 5) (k : BitVec 3) (c : BitVec 1) (s : State) : Host.Outcome State Fault Refusal :=
  finish (runElem (elemVminScalar d a b k) c s)
/-- The element of VMAX with a scalar operand (05 R143). -/
def elemVmaxScalar (d : BitVec 5) (a : BitVec 5) (b : BitVec 5) (k : BitVec 3) : ECtx → Option ElemOp := intVS aluMax d a b k
/-- VMAX with a scalar operand (05 R143). -/
def execVmaxScalar (d : BitVec 5) (a : BitVec 5) (b : BitVec 5) (k : BitVec 3) (c : BitVec 1) (s : State) : Host.Outcome State Fault Refusal :=
  finish (runElem (elemVmaxScalar d a b k) c s)
/-- The element of VMINN with a scalar operand (05 R143). -/
def elemVminnScalar (d : BitVec 5) (a : BitVec 5) (b : BitVec 5) (k : BitVec 3) : ECtx → Option ElemOp := intVS aluMinn d a b k
/-- VMINN with a scalar operand (05 R143). -/
def execVminnScalar (d : BitVec 5) (a : BitVec 5) (b : BitVec 5) (k : BitVec 3) (c : BitVec 1) (s : State) : Host.Outcome State Fault Refusal :=
  finish (runElem (elemVminnScalar d a b k) c s)
/-- The element of VMAXN with a scalar operand (05 R143). -/
def elemVmaxnScalar (d : BitVec 5) (a : BitVec 5) (b : BitVec 5) (k : BitVec 3) : ECtx → Option ElemOp := intVS aluMaxn d a b k
/-- VMAXN with a scalar operand (05 R143). -/
def execVmaxnScalar (d : BitVec 5) (a : BitVec 5) (b : BitVec 5) (k : BitVec 3) (c : BitVec 1) (s : State) : Host.Outcome State Fault Refusal :=
  finish (runElem (elemVmaxnScalar d a b k) c s)
/-- The element of VCLMUL with a scalar operand (05 R143). -/
def elemVclmulScalar (d : BitVec 5) (a : BitVec 5) (b : BitVec 5) (k : BitVec 3) : ECtx → Option ElemOp := intVS aluClmul d a b k
/-- VCLMUL with a scalar operand (05 R143). -/
def execVclmulScalar (d : BitVec 5) (a : BitVec 5) (b : BitVec 5) (k : BitVec 3) (c : BitVec 1) (s : State) : Host.Outcome State Fault Refusal :=
  finish (runElem (elemVclmulScalar d a b k) c s)
/-- The element of VCLMULH with a scalar operand (05 R143). -/
def elemVclmulhScalar (d : BitVec 5) (a : BitVec 5) (b : BitVec 5) (k : BitVec 3) : ECtx → Option ElemOp := intVS aluClmulh d a b k
/-- VCLMULH with a scalar operand (05 R143). -/
def execVclmulhScalar (d : BitVec 5) (a : BitVec 5) (b : BitVec 5) (k : BitVec 3) (c : BitVec 1) (s : State) : Host.Outcome State Fault Refusal :=
  finish (runElem (elemVclmulhScalar d a b k) c s)
/-- The element of VSADD (05 R146). -/
def elemVsadd (d : BitVec 5) (a : BitVec 5) (b : BitVec 5) (k : BitVec 3) : ECtx → Option ElemOp := satOp true false false d a b k
/-- VSADD (05 R146). -/
def execVsadd (d : BitVec 5) (a : BitVec 5) (b : BitVec 5) (k : BitVec 3) (c : BitVec 1) (s : State) : Host.Outcome State Fault Refusal :=
  finish (runElem (elemVsadd d a b k) c s)
/-- The element of VSSUB (05 R146). -/
def elemVssub (d : BitVec 5) (a : BitVec 5) (b : BitVec 5) (k : BitVec 3) : ECtx → Option ElemOp := satOp true true false d a b k
/-- VSSUB (05 R146). -/
def execVssub (d : BitVec 5) (a : BitVec 5) (b : BitVec 5) (k : BitVec 3) (c : BitVec 1) (s : State) : Host.Outcome State Fault Refusal :=
  finish (runElem (elemVssub d a b k) c s)
/-- The element of VSADDN (05 R146). -/
def elemVsaddn (d : BitVec 5) (a : BitVec 5) (b : BitVec 5) (k : BitVec 3) : ECtx → Option ElemOp := satOp false false false d a b k
/-- VSADDN (05 R146). -/
def execVsaddn (d : BitVec 5) (a : BitVec 5) (b : BitVec 5) (k : BitVec 3) (c : BitVec 1) (s : State) : Host.Outcome State Fault Refusal :=
  finish (runElem (elemVsaddn d a b k) c s)
/-- The element of VSSUBN (05 R146). -/
def elemVssubn (d : BitVec 5) (a : BitVec 5) (b : BitVec 5) (k : BitVec 3) : ECtx → Option ElemOp := satOp false true false d a b k
/-- VSSUBN (05 R146). -/
def execVssubn (d : BitVec 5) (a : BitVec 5) (b : BitVec 5) (k : BitVec 3) (c : BitVec 1) (s : State) : Host.Outcome State Fault Refusal :=
  finish (runElem (elemVssubn d a b k) c s)
/-- The element of VSADD (05 R146). -/
def elemVsaddScalar (d : BitVec 5) (a : BitVec 5) (b : BitVec 5) (k : BitVec 3) : ECtx → Option ElemOp := satOp true false true d a b k
/-- VSADD (05 R146). -/
def execVsaddScalar (d : BitVec 5) (a : BitVec 5) (b : BitVec 5) (k : BitVec 3) (c : BitVec 1) (s : State) : Host.Outcome State Fault Refusal :=
  finish (runElem (elemVsaddScalar d a b k) c s)
/-- The element of VSSUB (05 R146). -/
def elemVssubScalar (d : BitVec 5) (a : BitVec 5) (b : BitVec 5) (k : BitVec 3) : ECtx → Option ElemOp := satOp true true true d a b k
/-- VSSUB (05 R146). -/
def execVssubScalar (d : BitVec 5) (a : BitVec 5) (b : BitVec 5) (k : BitVec 3) (c : BitVec 1) (s : State) : Host.Outcome State Fault Refusal :=
  finish (runElem (elemVssubScalar d a b k) c s)
/-- The element of VSADDN (05 R146). -/
def elemVsaddnScalar (d : BitVec 5) (a : BitVec 5) (b : BitVec 5) (k : BitVec 3) : ECtx → Option ElemOp := satOp false false true d a b k
/-- VSADDN (05 R146). -/
def execVsaddnScalar (d : BitVec 5) (a : BitVec 5) (b : BitVec 5) (k : BitVec 3) (c : BitVec 1) (s : State) : Host.Outcome State Fault Refusal :=
  finish (runElem (elemVsaddnScalar d a b k) c s)
/-- The element of VSSUBN (05 R146). -/
def elemVssubnScalar (d : BitVec 5) (a : BitVec 5) (b : BitVec 5) (k : BitVec 3) : ECtx → Option ElemOp := satOp false true true d a b k
/-- VSSUBN (05 R146). -/
def execVssubnScalar (d : BitVec 5) (a : BitVec 5) (b : BitVec 5) (k : BitVec 3) (c : BitVec 1) (s : State) : Host.Outcome State Fault Refusal :=
  finish (runElem (elemVssubnScalar d a b k) c s)
/-- The element of VNRW (05 R146). -/
def elemVnrw (d : BitVec 5) (a : BitVec 5) (k : BitVec 3) : ECtx → Option ElemOp := narrow true true d a k
/-- VNRW (05 R146). -/
def execVnrw (d : BitVec 5) (a : BitVec 5) (k : BitVec 3) (c : BitVec 1) (s : State) : Host.Outcome State Fault Refusal :=
  finish (runElem (elemVnrw d a k) c s)
/-- The element of VNRWN (05 R146). -/
def elemVnrwn (d : BitVec 5) (a : BitVec 5) (k : BitVec 3) : ECtx → Option ElemOp := narrow false false d a k
/-- VNRWN (05 R146). -/
def execVnrwn (d : BitVec 5) (a : BitVec 5) (k : BitVec 3) (c : BitVec 1) (s : State) : Host.Outcome State Fault Refusal :=
  finish (runElem (elemVnrwn d a k) c s)
/-- The element of VNRWSN (05 R146). -/
def elemVnrwsn (d : BitVec 5) (a : BitVec 5) (k : BitVec 3) : ECtx → Option ElemOp := narrow true false d a k
/-- VNRWSN (05 R146). -/
def execVnrwsn (d : BitVec 5) (a : BitVec 5) (k : BitVec 3) (c : BitVec 1) (s : State) : Host.Outcome State Fault Refusal :=
  finish (runElem (elemVnrwsn d a k) c s)

/-! ## Floating arithmetic (05 R147 to R149) -/

/-- The format of `BF` and `EW`, if allowed and present (05 R137, R147). -/
def vfFmt (c : ECtx) (bf : BitVec 1) : Option Fmt :=
  if bf = 1 then (if c.ew = 1 then some .bf16 else none)
  else if c.ew = 1 then some .f16
  else if c.ew = 2 then some .f32
  else if c.ew = 3 ∧ c.vf64 then some .f64
  else none
/-- A rounding operation under frm: SR needs srnd and draws a word for each element (05 R137, 03 R90). -/
def fpElem (f : Fmt → RMode → Nat → FVal → FVal → FVal → Rounded) (scalar : Bool) (d a b : BitVec 5) (bf : BitVec 1)
    (k : BitVec 3) (c : ECtx) : Option ElemOp :=
  match vfFmt c bf with
  | none => none
  | some t =>
    if c.frm = 5 ∧ c.srnd = false then none
    else
      let w := ewBits c.ew
      let m := rmodeOf c.frm
      some { a := .vec a w, b := if scalar then .scalar b else .vec b w, dst := .vec d w, k := k, draws := m == .sr
             f := fun e => f t m e.word (dec t e.a) (dec t e.b) (dec t e.d) }
/-- VFMIN and VFMAX on two patterns: minimumNumber and maximumNumber (05 R149). -/
def fpMinMax (t : Fmt) (isMax : Bool) (x y : Nat) : Rounded :=
  let a := dec t x
  let b := dec t y
  let fl := nvIf (a.isSig || b.isSig)
  if a.isNaN && b.isNaN then { val := t.canon, flags := fl }
  else if a.isNaN then { val := y % 2 ^ t.width, flags := fl }
  else if b.isNaN then { val := x % 2 ^ t.width, flags := fl }
  else
    let c := a.cmp b
    let less := decide (c < 0) || (c == 0 && a.sign && !b.sign)
    { val := (if less != isMax then x else y) % 2 ^ t.width, flags := fl }
/-- VFMIN or VFMAX (05 R149). -/
def minMaxElem (isMax scalar : Bool) (d a b : BitVec 5) (bf : BitVec 1) (k : BitVec 3) (c : ECtx) : Option ElemOp :=
  match vfFmt c bf with
  | none => none
  | some t =>
    let w := ewBits c.ew
    some { a := .vec a w, b := if scalar then .scalar b else .vec b w, dst := .vec d w, k := k
           f := fun e => fpMinMax t isMax e.a e.b }
/-- The value 1. -/
def fpOne : FVal := .fin false 1 0

/-- The element of VFADD (05 R147). -/
def elemVfadd (d : BitVec 5) (a : BitVec 5) (b : BitVec 5) (k : BitVec 3) (f : BitVec 1) : ECtx → Option ElemOp := fpElem (fun t m w a b _ => fpAdd t m w a b) false d a b f k
/-- VFADD (05 R147). -/
def execVfadd (d : BitVec 5) (a : BitVec 5) (b : BitVec 5) (k : BitVec 3) (f c : BitVec 1) (s : State) : Host.Outcome State Fault Refusal :=
  finish (runElem (elemVfadd d a b k f) c s)
/-- The element of VFSUB (05 R147). -/
def elemVfsub (d : BitVec 5) (a : BitVec 5) (b : BitVec 5) (k : BitVec 3) (f : BitVec 1) : ECtx → Option ElemOp := fpElem (fun t m w a b _ => fpAdd t m w a b.neg) false d a b f k
/-- VFSUB (05 R147). -/
def execVfsub (d : BitVec 5) (a : BitVec 5) (b : BitVec 5) (k : BitVec 3) (f c : BitVec 1) (s : State) : Host.Outcome State Fault Refusal :=
  finish (runElem (elemVfsub d a b k f) c s)
/-- The element of VFMUL (05 R147). -/
def elemVfmul (d : BitVec 5) (a : BitVec 5) (b : BitVec 5) (k : BitVec 3) (f : BitVec 1) : ECtx → Option ElemOp := fpElem (fun t m w a b _ => fpMul t m w a b) false d a b f k
/-- VFMUL (05 R147). -/
def execVfmul (d : BitVec 5) (a : BitVec 5) (b : BitVec 5) (k : BitVec 3) (f c : BitVec 1) (s : State) : Host.Outcome State Fault Refusal :=
  finish (runElem (elemVfmul d a b k f) c s)
/-- The element of VFMA (05 R147). -/
def elemVfma (d : BitVec 5) (a : BitVec 5) (b : BitVec 5) (k : BitVec 3) (f : BitVec 1) : ECtx → Option ElemOp := fpElem (fun t m w a b d => fpFma t m w a b d) false d a b f k
/-- VFMA (05 R147). -/
def execVfma (d : BitVec 5) (a : BitVec 5) (b : BitVec 5) (k : BitVec 3) (f c : BitVec 1) (s : State) : Host.Outcome State Fault Refusal :=
  finish (runElem (elemVfma d a b k f) c s)
/-- The element of VFMS (05 R147). -/
def elemVfms (d : BitVec 5) (a : BitVec 5) (b : BitVec 5) (k : BitVec 3) (f : BitVec 1) : ECtx → Option ElemOp := fpElem (fun t m w a b d => fpFma t m w a b d.neg) false d a b f k
/-- VFMS (05 R147). -/
def execVfms (d : BitVec 5) (a : BitVec 5) (b : BitVec 5) (k : BitVec 3) (f c : BitVec 1) (s : State) : Host.Outcome State Fault Refusal :=
  finish (runElem (elemVfms d a b k f) c s)
/-- The element of VFNMA (05 R147). -/
def elemVfnma (d : BitVec 5) (a : BitVec 5) (b : BitVec 5) (k : BitVec 3) (f : BitVec 1) : ECtx → Option ElemOp := fpElem (fun t m w a b d => fpFma t m w a.neg b d) false d a b f k
/-- VFNMA (05 R147). -/
def execVfnma (d : BitVec 5) (a : BitVec 5) (b : BitVec 5) (k : BitVec 3) (f c : BitVec 1) (s : State) : Host.Outcome State Fault Refusal :=
  finish (runElem (elemVfnma d a b k f) c s)
/-- The element of VFDIV (05 R147). -/
def elemVfdiv (d : BitVec 5) (a : BitVec 5) (b : BitVec 5) (k : BitVec 3) (f : BitVec 1) : ECtx → Option ElemOp := fpElem (fun t m w a b _ => fpDiv t m w a b) false d a b f k
/-- VFDIV (05 R147). -/
def execVfdiv (d : BitVec 5) (a : BitVec 5) (b : BitVec 5) (k : BitVec 3) (f c : BitVec 1) (s : State) : Host.Outcome State Fault Refusal :=
  finish (runElem (elemVfdiv d a b k f) c s)
/-- The element of VFSQRT (05 R147). -/
def elemVfsqrt (d : BitVec 5) (a : BitVec 5) (k : BitVec 3) (f : BitVec 1) : ECtx → Option ElemOp := fpElem (fun t m w a _ _ => fpSqrt t m w a) false d a 0 f k
/-- VFSQRT (05 R147). -/
def execVfsqrt (d : BitVec 5) (a : BitVec 5) (k : BitVec 3) (f c : BitVec 1) (s : State) : Host.Outcome State Fault Refusal :=
  finish (runElem (elemVfsqrt d a k f) c s)
/-- The element of VFMIN (05 R149). -/
def elemVfmin (d : BitVec 5) (a : BitVec 5) (b : BitVec 5) (k : BitVec 3) (f : BitVec 1) : ECtx → Option ElemOp := minMaxElem false false d a b f k
/-- VFMIN (05 R149). -/
def execVfmin (d : BitVec 5) (a : BitVec 5) (b : BitVec 5) (k : BitVec 3) (f c : BitVec 1) (s : State) : Host.Outcome State Fault Refusal :=
  finish (runElem (elemVfmin d a b k f) c s)
/-- The element of VFMAX (05 R149). -/
def elemVfmax (d : BitVec 5) (a : BitVec 5) (b : BitVec 5) (k : BitVec 3) (f : BitVec 1) : ECtx → Option ElemOp := minMaxElem true false d a b f k
/-- VFMAX (05 R149). -/
def execVfmax (d : BitVec 5) (a : BitVec 5) (b : BitVec 5) (k : BitVec 3) (f c : BitVec 1) (s : State) : Host.Outcome State Fault Refusal :=
  finish (runElem (elemVfmax d a b k f) c s)
/-- The element of VFRCP (05 R147). -/
def elemVfrcp (d : BitVec 5) (a : BitVec 5) (k : BitVec 3) (f : BitVec 1) : ECtx → Option ElemOp := fpElem (fun t m w a _ _ => fpDiv t m w fpOne a) false d a 0 f k
/-- VFRCP (05 R147). -/
def execVfrcp (d : BitVec 5) (a : BitVec 5) (k : BitVec 3) (f c : BitVec 1) (s : State) : Host.Outcome State Fault Refusal :=
  finish (runElem (elemVfrcp d a k f) c s)
/-- The element of VFADD with a scalar operand (05 R147). -/
def elemVfaddScalar (d : BitVec 5) (a : BitVec 5) (b : BitVec 5) (k : BitVec 3) (f : BitVec 1) : ECtx → Option ElemOp := fpElem (fun t m w a b _ => fpAdd t m w a b) true d a b f k
/-- VFADD with a scalar operand (05 R147). -/
def execVfaddScalar (d : BitVec 5) (a : BitVec 5) (b : BitVec 5) (k : BitVec 3) (f c : BitVec 1) (s : State) : Host.Outcome State Fault Refusal :=
  finish (runElem (elemVfaddScalar d a b k f) c s)
/-- The element of VFSUB with a scalar operand (05 R147). -/
def elemVfsubScalar (d : BitVec 5) (a : BitVec 5) (b : BitVec 5) (k : BitVec 3) (f : BitVec 1) : ECtx → Option ElemOp := fpElem (fun t m w a b _ => fpAdd t m w a b.neg) true d a b f k
/-- VFSUB with a scalar operand (05 R147). -/
def execVfsubScalar (d : BitVec 5) (a : BitVec 5) (b : BitVec 5) (k : BitVec 3) (f c : BitVec 1) (s : State) : Host.Outcome State Fault Refusal :=
  finish (runElem (elemVfsubScalar d a b k f) c s)
/-- The element of VFMUL with a scalar operand (05 R147). -/
def elemVfmulScalar (d : BitVec 5) (a : BitVec 5) (b : BitVec 5) (k : BitVec 3) (f : BitVec 1) : ECtx → Option ElemOp := fpElem (fun t m w a b _ => fpMul t m w a b) true d a b f k
/-- VFMUL with a scalar operand (05 R147). -/
def execVfmulScalar (d : BitVec 5) (a : BitVec 5) (b : BitVec 5) (k : BitVec 3) (f c : BitVec 1) (s : State) : Host.Outcome State Fault Refusal :=
  finish (runElem (elemVfmulScalar d a b k f) c s)
/-- The element of VFMA with a scalar operand (05 R147). -/
def elemVfmaScalar (d : BitVec 5) (a : BitVec 5) (b : BitVec 5) (k : BitVec 3) (f : BitVec 1) : ECtx → Option ElemOp := fpElem (fun t m w a b d => fpFma t m w a b d) true d a b f k
/-- VFMA with a scalar operand (05 R147). -/
def execVfmaScalar (d : BitVec 5) (a : BitVec 5) (b : BitVec 5) (k : BitVec 3) (f c : BitVec 1) (s : State) : Host.Outcome State Fault Refusal :=
  finish (runElem (elemVfmaScalar d a b k f) c s)
/-- The element of VFMS with a scalar operand (05 R147). -/
def elemVfmsScalar (d : BitVec 5) (a : BitVec 5) (b : BitVec 5) (k : BitVec 3) (f : BitVec 1) : ECtx → Option ElemOp := fpElem (fun t m w a b d => fpFma t m w a b d.neg) true d a b f k
/-- VFMS with a scalar operand (05 R147). -/
def execVfmsScalar (d : BitVec 5) (a : BitVec 5) (b : BitVec 5) (k : BitVec 3) (f c : BitVec 1) (s : State) : Host.Outcome State Fault Refusal :=
  finish (runElem (elemVfmsScalar d a b k f) c s)
/-- The element of VFNMA with a scalar operand (05 R147). -/
def elemVfnmaScalar (d : BitVec 5) (a : BitVec 5) (b : BitVec 5) (k : BitVec 3) (f : BitVec 1) : ECtx → Option ElemOp := fpElem (fun t m w a b d => fpFma t m w a.neg b d) true d a b f k
/-- VFNMA with a scalar operand (05 R147). -/
def execVfnmaScalar (d : BitVec 5) (a : BitVec 5) (b : BitVec 5) (k : BitVec 3) (f c : BitVec 1) (s : State) : Host.Outcome State Fault Refusal :=
  finish (runElem (elemVfnmaScalar d a b k f) c s)
/-- The element of VFDIV with a scalar operand (05 R147). -/
def elemVfdivScalar (d : BitVec 5) (a : BitVec 5) (b : BitVec 5) (k : BitVec 3) (f : BitVec 1) : ECtx → Option ElemOp := fpElem (fun t m w a b _ => fpDiv t m w a b) true d a b f k
/-- VFDIV with a scalar operand (05 R147). -/
def execVfdivScalar (d : BitVec 5) (a : BitVec 5) (b : BitVec 5) (k : BitVec 3) (f c : BitVec 1) (s : State) : Host.Outcome State Fault Refusal :=
  finish (runElem (elemVfdivScalar d a b k f) c s)
/-- The element of VFSQRT with a scalar operand (05 R147). -/
def elemVfsqrtScalar (d : BitVec 5) (a : BitVec 5) (k : BitVec 3) (f : BitVec 1) : ECtx → Option ElemOp := fpElem (fun t m w a _ _ => fpSqrt t m w a) true d a 0 f k
/-- VFSQRT with a scalar operand (05 R147). -/
def execVfsqrtScalar (d : BitVec 5) (a : BitVec 5) (k : BitVec 3) (f c : BitVec 1) (s : State) : Host.Outcome State Fault Refusal :=
  finish (runElem (elemVfsqrtScalar d a k f) c s)
/-- The element of VFMIN with a scalar operand (05 R149). -/
def elemVfminScalar (d : BitVec 5) (a : BitVec 5) (b : BitVec 5) (k : BitVec 3) (f : BitVec 1) : ECtx → Option ElemOp := minMaxElem false true d a b f k
/-- VFMIN with a scalar operand (05 R149). -/
def execVfminScalar (d : BitVec 5) (a : BitVec 5) (b : BitVec 5) (k : BitVec 3) (f c : BitVec 1) (s : State) : Host.Outcome State Fault Refusal :=
  finish (runElem (elemVfminScalar d a b k f) c s)
/-- The element of VFMAX with a scalar operand (05 R149). -/
def elemVfmaxScalar (d : BitVec 5) (a : BitVec 5) (b : BitVec 5) (k : BitVec 3) (f : BitVec 1) : ECtx → Option ElemOp := minMaxElem true true d a b f k
/-- VFMAX with a scalar operand (05 R149). -/
def execVfmaxScalar (d : BitVec 5) (a : BitVec 5) (b : BitVec 5) (k : BitVec 3) (f c : BitVec 1) (s : State) : Host.Outcome State Fault Refusal :=
  finish (runElem (elemVfmaxScalar d a b k f) c s)
/-- The element of VFRCP with a scalar operand (05 R147). -/
def elemVfrcpScalar (d : BitVec 5) (a : BitVec 5) (k : BitVec 3) (f : BitVec 1) : ECtx → Option ElemOp := fpElem (fun t m w a _ _ => fpDiv t m w fpOne a) true d a 0 f k
/-- VFRCP with a scalar operand (05 R147). -/
def execVfrcpScalar (d : BitVec 5) (a : BitVec 5) (k : BitVec 3) (f c : BitVec 1) (s : State) : Host.Outcome State Fault Refusal :=
  finish (runElem (elemVfrcpScalar d a k f) c s)

/-! ## Comparisons and moves (05 R150 to R152) -/

/-- The integer conditions of VCMP (05 R150). -/
def cmpCond {w : Nat} (q : Nat) (a b : BitVec w) : Bool :=
  match q with
  | 0 => a == b | 1 => a != b | 2 => a.slt b | 3 => !b.slt a | 4 => b.slt a | 5 => !a.slt b
  | 6 => a.ult b | 7 => !b.ult a | 8 => b.ult a | _ => !a.ult b
/-- An integer comparison into a mask register (05 R150). -/
def cmpElem (scalar : Bool) (d a b : BitVec 5) (k : BitVec 3) (q : BitVec 6) (c : ECtx) : Option ElemOp :=
  let w := ewBits c.ew
  some { a := .vec a w, b := if scalar then .scalar b else .vec b w, dst := .mask d.toNat, k := k
         f := fun e => { val := (cmpCond q.toNat (BitVec.ofNat w e.a) (BitVec.ofNat w e.b)).toNat } }
/-- The element of VCMP. -/
def elemVcmp (d a b : BitVec 5) (k : BitVec 3) (q : BitVec 6) : ECtx → Option ElemOp := cmpElem false d a b k q
/-- VCMP (05 R150). -/
def execVcmp (d a b : BitVec 5) (k : BitVec 3) (q : BitVec 6) (c : BitVec 1) (s : State) : Host.Outcome State Fault Refusal :=
  finish (runElem (elemVcmp d a b k q) c s)
/-- The element of VCMPS. -/
def elemVcmps (d a b : BitVec 5) (k : BitVec 3) (q : BitVec 6) : ECtx → Option ElemOp := cmpElem true d a b k q
/-- VCMPS (05 R150). -/
def execVcmps (d a b : BitVec 5) (k : BitVec 3) (q : BitVec 6) (c : BitVec 1) (s : State) : Host.Outcome State Fault Refusal :=
  finish (runElem (elemVcmps d a b k q) c s)
/-- A floating comparison into a mask register (05 R151). -/
def fcmpElem (scalar : Bool) (d a b : BitVec 5) (k q : BitVec 3) (f : BitVec 1) (c : ECtx) : Option ElemOp :=
  match vfFmt c f with
  | none => none
  | some t =>
    let w := ewBits c.ew
    some { a := .vec a w, b := if scalar then .scalar b else .vec b w, dst := .mask d.toNat, k := k
           f := fun e => let r := fpRel q.toNat (dec t e.a) (dec t e.b); { val := r.1.toNat, flags := r.2 } }
/-- The element of VFCMP. -/
def elemVfcmp (d a b : BitVec 5) (k q : BitVec 3) (f : BitVec 1) : ECtx → Option ElemOp := fcmpElem false d a b k q f
/-- VFCMP (05 R151). -/
def execVfcmp (d a b : BitVec 5) (k q : BitVec 3) (f c : BitVec 1) (s : State) : Host.Outcome State Fault Refusal :=
  finish (runElem (elemVfcmp d a b k q f) c s)
/-- The element of VFCMPS. -/
def elemVfcmps (d a b : BitVec 5) (k q : BitVec 3) (f : BitVec 1) : ECtx → Option ElemOp := fcmpElem true d a b k q f
/-- VFCMPS (05 R151). -/
def execVfcmps (d a b : BitVec 5) (k q : BitVec 3) (f c : BitVec 1) (s : State) : Host.Outcome State Fault Refusal :=
  finish (runElem (elemVfcmps d a b k q f) c s)
/-- The element of VMERGE: the mask selects and does not govern (05 R152). -/
def elemVmerge (d a b : BitVec 5) (k : BitVec 3) (c : ECtx) : Option ElemOp :=
  let w := ewBits c.ew
  some { a := .vec a w, b := .vec b w, dst := .vec d w, k := 0, selMask := k
         f := fun e => { val := if e.sel then e.a else e.b } }
/-- VMERGE (05 R152). -/
def execVmerge (d a b : BitVec 5) (k : BitVec 3) (c : BitVec 1) (s : State) : Host.Outcome State Fault Refusal :=
  finish (runElem (elemVmerge d a b k) c s)
/-- The element of VMV. -/
def elemVmv (d a : BitVec 5) (k : BitVec 3) (c : ECtx) : Option ElemOp :=
  let w := ewBits c.ew
  some { a := .vec a w, b := .none, dst := .vec d w, k := k, f := fun e => { val := e.a } }
/-- VMV (05 R152). -/
def execVmv (d a : BitVec 5) (k : BitVec 3) (c : BitVec 1) (s : State) : Host.Outcome State Fault Refusal :=
  finish (runElem (elemVmv d a k) c s)
/-- The element of VBCAST: `VA` names a scalar register. -/
def elemVbcast (d a : BitVec 5) (k : BitVec 3) (c : ECtx) : Option ElemOp :=
  some { a := .scalar a, b := .none, dst := .vec d (ewBits c.ew), k := k, f := fun e => { val := e.a } }
/-- VBCAST (05 R152). -/
def execVbcast (d a : BitVec 5) (k : BitVec 3) (c : BitVec 1) (s : State) : Host.Outcome State Fault Refusal :=
  finish (runElem (elemVbcast d a k) c s)

/-- Every width and feature is allowed (05 R137). -/
def anyCtx (_ : ECtx) : Bool := true
/-- The element that VEXT reads: v[VA].e[j] if j < vl, else 0 (05 R152). -/
def State.vextElt (s : State) (a b : BitVec 5) : Nat :=
  if s.rdN b < s.th.vl then elt (s.vreg a) (ewBits s.th.ew) (s.rdN b) else 0
/-- VEXT.N (05 R152). -/
def execVextN (d a b : BitVec 5) (c : BitVec 1) (s : State) : Host.Outcome State Fault Refusal :=
  finish (runWhole anyCtx (fun s => s.wrN d (s.vextElt a b)) c s)
/-- VEXT.I (05 R152). -/
def execVextI (d a b : BitVec 5) (c : BitVec 1) (s : State) : Host.Outcome State Fault Refusal :=
  finish (runWhole anyCtx (fun s => s.wrN d (ofS 64 (toS (ewBits s.th.ew) (s.vextElt a b)))) c s)

/-! ## Permutation and conflict detection (05 R153, R154) -/

/-- The active elements below vl, in ascending order. -/
def State.actives (s : State) (k : BitVec 3) : List Nat := (span 0 s.th.vl).filter (s.active k)
/-- v[d] with element i of each pair (i, x) replaced. -/
def State.setElts (s : State) (d : BitVec 5) (l : List (Nat × Nat)) : State :=
  s.setV d (l.foldl (fun img p => setElt img (ewBits s.th.ew) p.1 p.2) (s.vreg d))
/-- A permutation that writes the active elements below vl, each with a function of its index. -/
def State.permute (s : State) (d : BitVec 5) (k : BitVec 3) (f : Nat → Nat) : State :=
  s.setElts d ((s.actives k).map fun i => (i, f i))
/-- An element of v[a] at the element width. -/
def State.ve (s : State) (a : BitVec 5) (i : Nat) : Nat := elt (s.vreg a) (ewBits s.th.ew) i
/-- The count of active elements below `i`. -/
def State.rank (s : State) (k : BitVec 3) (i : Nat) : Nat := ((span 0 i).filter (s.active k)).length
/-- VSLIDEUP (05 R153). -/
def execVslideup (d a b : BitVec 5) (k : BitVec 3) (c : BitVec 1) (s : State) : Host.Outcome State Fault Refusal :=
  finish (runWhole anyCtx (fun s =>
    let n := s.rdN b
    s.setElts d (((s.actives k).filter (n ≤ ·)).map fun i => (i, s.ve a (i - n)))) c s)
/-- VSLIDEDN (05 R153). -/
def execVslidedn (d a b : BitVec 5) (k : BitVec 3) (c : BitVec 1) (s : State) : Host.Outcome State Fault Refusal :=
  finish (runWhole anyCtx (fun s =>
    let n := s.rdN b
    s.permute d k fun i => if i + n < s.th.vl then s.ve a (i + n) else 0) c s)
/-- VPERM (05 R153). -/
def execVperm (d a b : BitVec 5) (k : BitVec 3) (c : BitVec 1) (s : State) : Host.Outcome State Fault Refusal :=
  finish (runWhole anyCtx (fun s =>
    s.permute d k fun i => if s.ve b i < s.th.vl then s.ve a (s.ve b i) else 0) c s)
/-- VCOMPRESS (05 R153). -/
def execVcompress (d a : BitVec 5) (k : BitVec 3) (c : BitVec 1) (s : State) : Host.Outcome State Fault Refusal :=
  finish (runWhole anyCtx (fun s =>
    s.setElts d ((s.actives k).zipIdx.map fun p => (p.2, s.ve a p.1))) c s)
/-- VEXPAND (05 R153). -/
def execVexpand (d a : BitVec 5) (k : BitVec 3) (c : BitVec 1) (s : State) : Host.Outcome State Fault Refusal :=
  finish (runWhole anyCtx (fun s => s.permute d k fun i => s.ve a (s.rank k i)) c s)
/-- VIOTA (05 R153). -/
def execViota (d : BitVec 5) (k : BitVec 3) (c : BitVec 1) (s : State) : Host.Outcome State Fault Refusal :=
  finish (runWhole anyCtx (fun s => s.permute d k fun i => s.rank k i) c s)
/-- The mask with the bits below vl replaced by a function of the index. -/
def maskFn (old : Nat) (l : List Nat) (f : Nat → Bool) : Nat :=
  l.foldl (fun m i => setBit m i (f i)) old
/-- VCONF: the first active occurrence of each value (05 R154). -/
def execVconf (d a : BitVec 5) (k : BitVec 3) (c : BitVec 1) (s : State) : Host.Outcome State Fault Refusal :=
  finish (runWhole anyCtx (fun s =>
    s.setM d.toNat (maskFn (s.mreg d.toNat) (span 0 s.th.vl) fun i =>
      s.active k i && ((span 0 i).filter (s.active k)).all fun j => s.ve a j != s.ve a i)) c s)

/-! ## Reductions (05 R155) -/

/-- A reduction: with vl ≥ 1 element 0 of v[VD] takes the fold of the start value and the active elements. -/
def reduce (f : Nat → Nat → Nat) (d a b : BitVec 5) (k : BitVec 3) (s : State) : State :=
  if s.th.vl = 0 then s
  else s.setElts d [(0, (s.actives k).foldl (fun x i => f x (s.ve a i)) (s.ve b 0))]
/-- An integer reduction at the element width. -/
def reduceInt (op : {w : Nat} → BitVec w → BitVec w → BitVec w) (d a b : BitVec 5) (k : BitVec 3) (s : State) : State :=
  let w := ewBits s.th.ew
  reduce (fun x y => (op (BitVec.ofNat w x) (BitVec.ofNat w y)).toNat) d a b k s

/-- VREDSUM (05 R155). -/
def execVredsum (d a b : BitVec 5) (k : BitVec 3) (c : BitVec 1) (s : State) : Host.Outcome State Fault Refusal :=
  finish (runWhole anyCtx (reduceInt aluAdd d a b k) c s)
/-- VREDMAXI (05 R155). -/
def execVredmaxI (d a b : BitVec 5) (k : BitVec 3) (c : BitVec 1) (s : State) : Host.Outcome State Fault Refusal :=
  finish (runWhole anyCtx (reduceInt aluMax d a b k) c s)
/-- VREDMAXN (05 R155). -/
def execVredmaxN (d a b : BitVec 5) (k : BitVec 3) (c : BitVec 1) (s : State) : Host.Outcome State Fault Refusal :=
  finish (runWhole anyCtx (reduceInt aluMaxn d a b k) c s)
/-- VREDMINI (05 R155). -/
def execVredminI (d a b : BitVec 5) (k : BitVec 3) (c : BitVec 1) (s : State) : Host.Outcome State Fault Refusal :=
  finish (runWhole anyCtx (reduceInt aluMin d a b k) c s)
/-- VREDMINN (05 R155). -/
def execVredminN (d a b : BitVec 5) (k : BitVec 3) (c : BitVec 1) (s : State) : Host.Outcome State Fault Refusal :=
  finish (runWhole anyCtx (reduceInt aluMinn d a b k) c s)
/-- A floating reduction fold of patterns that collects flags (05 R155). It begins with the start against itself, so that a NaN start is the
canonical NaN also where no element is active, and a signalling one raises `NV` (03 R77). -/
def reduceMinMax (isMax : Bool) (d a b : BitVec 5) (k : BitVec 3) (f : BitVec 1) (s : State) : State :=
  match vfFmt s.ectx f with
  | none => s
  | some t =>
    if s.th.vl = 0 then s
    else
      let x0 := fpMinMax t isMax (s.ve b 0) (s.ve b 0)
      let r := (s.actives k).foldl (fun (x : Nat × Nat) i =>
        let y := fpMinMax t isMax x.1 (s.ve a i); (y.val, x.2 ||| y.flags)) (x0.val, x0.flags)
      (s.setElts d [(0, r.1)]).mark r.2 0
/-- The checks of a floating reduction (05 R137, R147). -/
def fpPre (rounds : Bool) (f : BitVec 1) (c : ECtx) : Bool :=
  (vfFmt c f).isSome && !(rounds && c.frm == 5 && !c.srnd)
/-- VREDMAX.F (05 R155). -/
def execVredmaxF (d a b : BitVec 5) (k : BitVec 3) (f c : BitVec 1) (s : State) : Host.Outcome State Fault Refusal :=
  finish (runWhole (fpPre false f) (reduceMinMax true d a b k f) c s)
/-- VREDMIN.F (05 R155). -/
def execVredminF (d a b : BitVec 5) (k : BitVec 3) (f c : BitVec 1) (s : State) : Host.Outcome State Fault Refusal :=
  finish (runWhole (fpPre false f) (reduceMinMax false d a b k f) c s)

/-- The least power of two that is at least `n`, 1 for n ≤ 1 (03 R98), as its exponent. -/
def ceilLog2 (n : Nat) : Nat := if n ≤ 1 then 0 else Nat.log2 (n - 1) + 1
/-- One level of the pairwise tree (03 R98): neighbours are added under the mode, each add drawing its index. -/
def treeLevel (t : Fmt) (m : RMode) : List Nat → Nat → Nat → List W32 → List Nat × Nat × List W32
  | x :: y :: r, j, fl, gens =>
    let dr := if m = .sr then srDraw gens j else (0, gens)
    let v := fpAdd t m dr.1 (dec t x) (dec t y)
    let rest := treeLevel t m r (j + 1) (fl ||| v.flags) dr.2
    (v.val :: rest.1, rest.2)
  | l, _, fl, gens => (l, fl, gens)
/-- tree_sum over `k` levels (03 R98). -/
def treeSum (t : Fmt) (m : RMode) : Nat → List Nat → Nat → List W32 → Nat × Nat × List W32
  | 0, l, fl, gens => (l.headD 0, fl, gens)
  | k + 1, l, fl, gens => let r := treeLevel t m l 0 fl gens; treeSum t m k r.1 r.2.1 r.2.2
/-- VFREDSUM: the tree over the active elements, then one final add of the start value (05 R155, 03 R98). With vl = 0 nothing is
written and no flag is raised, and the draw that 03 R90 and R98 give the final add is made (DEDUCED, assumption 91). -/
def reduceFsum (d a b : BitVec 5) (k : BitVec 3) (f : BitVec 1) (s : State) : State :=
  match vfFmt s.ectx f with
  | none => s
  | some t =>
    let m := rmodeOf s.th.frm
    if s.th.vl = 0 then (if m = .sr then { s with th := { s.th with gens := (srDraw s.th.gens 0).2 } } else s)
    else
      let lg := ceilLog2 s.th.vl
      let leaves := (List.range (2 ^ lg)).map fun i => if i < s.th.vl ∧ s.active k i then s.ve a i else 0
      let r := treeSum t m lg leaves 0 s.th.gens
      let dr := if m = .sr then srDraw r.2.2 0 else (0, r.2.2)
      let v := fpAdd t m dr.1 (dec t r.1) (dec t (s.ve b 0))
      let s1 := (s.setElts d [(0, v.val)]).mark (r.2.1 ||| v.flags) 0
      { s1 with th := { s1.th with gens := dr.2 } }
/-- VFREDSUM (05 R155). -/
def execVfredsum (d a b : BitVec 5) (k : BitVec 3) (f c : BitVec 1) (s : State) : Host.Outcome State Fault Refusal :=
  finish (runWhole (fpPre true f) (reduceFsum d a b k f) c s)

/-! ## Mask instructions (05 R156) -/

/-- A mask operation over the active bits below vl. -/
def maskOp (f : Bool → Bool → Bool) (d a b : BitVec 5) (k : BitVec 3) (s : State) : State :=
  s.setM d.toNat (maskFn (s.mreg d.toNat) (s.actives k) fun i =>
    f ((s.mreg a.toNat).testBit i) ((s.mreg b.toNat).testBit i))
/-- MAND. -/
def execMand (d a b : BitVec 5) (k : BitVec 3) (c : BitVec 1) (s : State) : Host.Outcome State Fault Refusal :=
  finish (runWhole anyCtx (maskOp (· && ·) d a b k) c s)
/-- MOR. -/
def execMor (d a b : BitVec 5) (k : BitVec 3) (c : BitVec 1) (s : State) : Host.Outcome State Fault Refusal :=
  finish (runWhole anyCtx (maskOp (· || ·) d a b k) c s)
/-- MXOR. -/
def execMxor (d a b : BitVec 5) (k : BitVec 3) (c : BitVec 1) (s : State) : Host.Outcome State Fault Refusal :=
  finish (runWhole anyCtx (maskOp (· != ·) d a b k) c s)
/-- MNOT. -/
def execMnot (d a : BitVec 5) (k : BitVec 3) (c : BitVec 1) (s : State) : Host.Outcome State Fault Refusal :=
  finish (runWhole anyCtx (maskOp (fun x _ => !x) d a a k) c s)
/-- MPOPC: the count of active set bits, into a scalar register. -/
def execMpopc (d a : BitVec 5) (k : BitVec 3) (c : BitVec 1) (s : State) : Host.Outcome State Fault Refusal :=
  finish (runWhole anyCtx (fun s =>
    s.wrN d ((s.actives k).filter (s.mreg a.toNat).testBit).length) c s)
/-- MFIRST: the lowest active set bit, or all ones if there is none. -/
def execMfirst (d a : BitVec 5) (k : BitVec 3) (c : BitVec 1) (s : State) : Host.Outcome State Fault Refusal :=
  finish (runWhole anyCtx (fun s =>
    s.wr d (match (s.actives k).find? (s.mreg a.toNat).testBit with
      | some i => BitVec.ofNat 64 i
      | none => BitVec.allOnes 64)) c s)
/-- MSETI: the bits below g[VA]. -/
def execMseti (d a : BitVec 5) (c : BitVec 1) (s : State) : Host.Outcome State Fault Refusal :=
  finish (runWhole anyCtx (fun s =>
    s.setM d.toNat (maskFn (s.mreg d.toNat) (span 0 s.th.vl) fun i => decide (i < s.rdN a))) c s)
/-- MVFM: fmask into a mask register; fmask is not written. -/
def execMvfm (d : BitVec 5) (c : BitVec 1) (s : State) : Host.Outcome State Fault Refusal :=
  finish (runWhole anyCtx (fun s =>
    s.setM d.toNat (maskFn (s.mreg d.toNat) (span 0 s.th.vl) s.th.fmask.testBit)) c s)

/-! ## Conversions (05 R157 to R159) -/

/-- The format of a code of 05 R158; codes 10 and 11 are integers. -/
def cvtFmt (c : Nat) : Fmt :=
  match c with
  | 0 => .f64 | 1 => .f32 | 2 => .bf16 | 3 => .f16 | 4 => .e5m2 | 5 => .e4m3 | 6 => .e3m2 | 7 => .e2m3 | 8 => .e2m1 | _ => .mxi8
/-- The element width of a code (05 R158): an integer takes the element width. -/
def cvtWidth (w c : Nat) : Nat :=
  if 10 ≤ c then w else if c = 0 then 64 else if c = 1 then 32 else if c ≤ 3 then 16 else if c = 8 then 4 else 8
/-- The scale byte of element `i` (03 R79). -/
def scaleOf (vsc i : Nat) : Nat := bits vsc (8 * (i / 32)) 8
/-- One element of VCVT (05 R159). -/
def cvtOne (sc : Bool) (sf df w vsc : Nat) (m : RMode) (e : EIn) : Rounded :=
  let scale := scaleOf vsc e.i
  let x : FVal × Nat :=
    if 10 ≤ sf then (ofInt w (sf == 10) e.a, 0)
    else if sc && 4 ≤ sf then
      if scale = 0xFF then (.nan false false, 0)
      else let r := decScaled (cvtFmt sf) e.a scale; (dec32 r.val, r.flags)
    else (dec (cvtFmt sf) e.a, 0)
  let y : FVal :=
    if sc && 4 ≤ df && df ≤ 9 then
      (if scale = 0xFF then .nan x.1.isSig false else x.1.scale (127 - (scale : Int)))
    else x.1
  let r := if 10 ≤ df then toInt w (df == 10) m e.word y else enc (cvtFmt df) m e.word y
  { r with flags := r.flags ||| x.2 }
/-- The element of VCVT with its checks of `EW` and features (05 R158). -/
def elemVcvt (d a : BitVec 5) (t : BitVec 1) (sf : BitVec 4) (k : BitVec 3) (r : BitVec 2) (g : BitVec 4) (c : ECtx) :
    Option ElemOp :=
  let s := sf.toNat
  let f := g.toNat
  let w := ewBits c.ew
  let need := Nat.max 8 (if 10 ≤ s then cvtWidth 0 f else if 10 ≤ f then cvtWidth 0 s else Nat.max (cvtWidth 0 s) (cvtWidth 0 f))
  let m := if r = 0 then rmodeOf c.frm else if r = 1 then .rne else if r = 2 then .rtz else .sr
  if w ≠ need ∨ ((s = 0 ∨ f = 0) ∧ c.vf64 = false) ∨ (m = .sr ∧ c.srnd = false) then none
  else some { a := .vec a (cvtWidth w s), b := .none, dst := .vec d (cvtWidth w f), k := k, draws := m == .sr
              f := cvtOne (t == 1) s f w c.vsc m }
/-- VCVT (05 R157 to R159). -/
def execVcvt (d a : BitVec 5) (t : BitVec 1) (sf : BitVec 4) (k : BitVec 3) (r : BitVec 2) (g : BitVec 4) (c : BitVec 1)
    (s : State) : Host.Outcome State Fault Refusal :=
  finish (runElem (elemVcvt d a t sf k r g) c s)

/-! ## Quantisation to and from cb4 (05 R160 to R164, 03 R81 to R87) -/

/-- Whether a code is an escape under `ESC` (03 R84). -/
def isEscape (esc c : Nat) : Bool := (esc == 1 && c == 15) || (esc == 2 && 14 ≤ c)
/-- Entry `c` of a codebook, a bf16 pattern (03 R81). -/
def cbEntry (frame c : Nat) : Nat := bits frame (16 * c) 16
/-- The candidates of a codebook (03 R86). -/
def candidates (esc : Nat) : List Nat := (List.range 16).filter fun c => !isEscape esc c
/-- Whether a codebook entry that is not an escape is an infinity or a NaN (03 R85). -/
def cbBad (frame : Nat) : Bool :=
  (candidates (bits frame 256 2)).any fun c =>
    match dec .bf16 (cbEntry frame c) with
    | .fin _ _ _ => false
    | _ => true
/-- The magnitude of a value. -/
def FVal.abs : FVal → FVal
  | .nan s _ => .nan s false
  | .inf _ => .inf false
  | .fin _ m e => .fin false m e
/-- The candidate nearest to a finite value, a tie going to the lower code (03 R86), and whether it differs from it. -/
def nearest (frame : Nat) (x : FVal) : Nat × Bool :=
  let dist (c : Nat) : FVal := ((dec .bf16 (cbEntry frame c)).add x.neg .rne).1.abs
  let best := (candidates (bits frame 256 2)).foldl (fun (b : Option (Nat × FVal)) c =>
    match b with
    | none => some (c, dist c)
    | some (c0, d0) => if (dist c).cmp d0 < 0 then some (c, dist c) else some (c0, d0)) none
  match best with
  | some (c, d) => (c, !d.isZero)
  | none => (0, false)
/-- The candidate of greatest magnitude among some codes, the lowest such code. -/
def greatest (frame : Nat) (l : List Nat) : Option Nat :=
  (l.foldl (fun (b : Option (Nat × FVal)) c =>
    let d := (dec .bf16 (cbEntry frame c)).abs
    match b with
    | none => some (c, d)
    | some (c0, d0) => if d0.cmp d < 0 then some (c, d) else some (c0, d0)) none).map (·.1)
/-- The forced code for a sign (03 R86). -/
def forced (frame : Nat) (neg : Bool) : Nat :=
  let l := candidates (bits frame 256 2)
  match greatest frame (l.filter fun c => (dec .bf16 (cbEntry frame c)).sign == neg) with
  | some c => c
  | none => (greatest frame l).getD 0
/-- cb4_quant: the code of an element that is not elected, with its flags and mark; or its election (03 R86). -/
def cb4Quant (frame qthr e : Nat) (x : FVal) : Option Rounded :=
  if e = 0xFF then some { val := forced frame x.sign, flags := Flag.nv, mark := true }
  else
    let xs := x.scale (127 - (e : Int))
    let t := dec32 qthr
    if bits frame 256 2 ≠ 0 ∧ xs.isNaN = false ∧ t.isNaN = false ∧ t.cmp xs.abs < 0 then none
    else
      match xs with
      | .fin _ _ _ => let n := nearest frame xs; some { val := n.1, flags := if n.2 then Flag.nx else 0 }
      | .nan _ _ => some { val := forced frame x.sign, flags := Flag.nv, mark := true }
      | .inf _ => some { val := forced frame x.sign, flags := Flag.of, mark := true }
/-- The code of an elected element once the list is full and `OSAT` = 1 (03 R87, 05 R163). -/
def cb4Overflow (frame e : Nat) (x : FVal) : Rounded :=
  let xs := x.scale (127 - (e : Int))
  match xs with
  | .fin _ _ _ => let n := nearest frame xs; { val := n.1, flags := if n.2 then Flag.nx else 0, mark := true }
  | _ => { val := forced frame x.sign, flags := Flag.of, mark := true }
/-- cb4_dec of a code that is not an escape (03 R84). -/
def cb4Dec (frame c e : Nat) : Rounded := decScaled .bf16 (cbEntry frame c) e

/-- The `DET` of a CBOOK on a quantisation frame, lowest first (05 R162). -/
def frameDet (frame vl : Nat) : Option Nat :=
  if bits frame 296 216 ≠ 0 ∨ bits frame 259 13 ≠ 0 ∨ bits frame 256 2 = 3 then some 1
  else if cbBad frame then some 2
  else if 64 < bits frame 288 8 then some 3
  else if 4096 < bits frame 272 16 + vl then some 7
  else none
/-- Raisin entry `k` of a list image (03 R83). -/
def raisin (list k : Nat) : Nat := bits list (64 * k) 64
/-- Whether the entries below a count have a reserved bit or fail to ascend (03 R85). -/
def listBad (list count : Nat) : Bool :=
  (List.range count).any fun k =>
    bits (raisin list k) 12 20 != 0 || (k != 0 && decide (bits (raisin list k) 0 12 ≤ bits (raisin list (k - 1)) 0 12))
/-- Whether an entry contradicts its element's code: not an escape, or an escape of the other sign (03 R85). -/
def entryBad (esc code entry : Nat) : Bool :=
  !isEscape esc code || (esc == 2 && (code == 14) != bitOf entry 63)
/-- The `DET` of a CBOOK on the list of VDQNT (05 R162). -/
def listDet (frame list codes vl : Nat) : Option Nat :=
  let count := bits frame 288 8
  match frameDet frame vl with
  | some 7 => if listBad list count then some 4 else if bad then some 5 else some 7
  | some d => some d
  | none => if listBad list count then some 4 else if bad then some 5 else none
where
  /-- Some entry of the strip contradicts its code. -/
  bad : Bool :=
    (List.range (bits frame 288 8)).any fun k =>
      let o := bits (raisin list k) 0 12
      let next := bits frame 272 16
      decide (next ≤ o) && decide (o < next + vl) && entryBad (bits frame 256 2) (elt codes 4 (o - next)) (raisin list k)

/-- What VQNT accumulates: codes, list, count, flags, marks, and the element at which the list overflowed. -/
structure QAcc where
  out : Nat
  list : Nat
  count : Nat
  flags : Nat := 0
  marks : Nat := 0
  stop : Option Nat := none
  deriving DecidableEq, Repr

/-- One element of VQNT (05 R163). -/
def qntStep (frame qthr vsc src : Nat) (f32 : Bool) (acc : QAcc) (i : Nat) : QAcc :=
  if acc.stop.isSome then acc
  else
    let next := bits frame 272 16
    let o := next + i
    let e := bits vsc (8 * (o / 32 - next / 32)) 8
    let p := elt src (if f32 then 32 else 16) i
    let x := dec (if f32 then .f32 else .bf16) p
    match cb4Quant frame qthr e x with
    | some r =>
      { acc with out := setElt acc.out 4 i r.val, flags := acc.flags ||| r.flags,
                 marks := acc.marks ||| (if r.mark then 2 ^ i else 0) }
    | none =>
      if acc.count < 64 then
        let val := if f32 then p else p * 2 ^ 16
        let c := if bits frame 256 2 = 1 ∨ bitOf val 31 = false then 15 else 14
        { acc with out := setElt acc.out 4 i c, list := setElt acc.list 64 acc.count (val * 2 ^ 32 + o),
                   count := acc.count + 1 }
      else if bitOf frame 258 then
        let r := cb4Overflow frame e x
        { acc with out := setElt acc.out 4 i r.val, flags := acc.flags ||| r.flags, marks := acc.marks ||| 2 ^ i }
      else { acc with stop := some i }

/-- A frame register with `COUNT` and `NEXT` replaced. -/
def putFrame (v count next : Nat) : Nat := setBits (setBits v 288 8 count) 272 16 next

/-- Whether the width and the features that VQNT and VDQNT need are there (05 R137, R161). -/
def qntPre (cb4 : Bool) (q : BitVec 1) (c : ECtx) : Bool := cb4 && c.ew == (if q = 0 then 1 else 2)

/-- VQNT (05 R163): elements in ascending order; an overflow with `OSAT` = 0 traps RAISINOVF at the candidate, with estart at
it and the codes and the list below it written. -/
def execVqnt (d a b : BitVec 5) (k : BitVec 3) (q c : BitVec 1) (s : State) : Host.Outcome State Fault Refusal :=
  finish (
    let (s1, start) := s.begin
    let frame := bits (s1.vreg b) 0 512
    if qntPre (s1.hasFeat 1) q s1.ectx = false then illegal s1
    else
      match frameDet frame s1.th.vl with
      | some det => raise s1 { cause := Cause.cbook, det := det }
      | none =>
        let acc := ((span start s1.th.vl).filter (s1.active k)).foldl
          (qntStep frame s1.th.qthr (s1.vreg 30) (s1.vreg a) (q == 1))
          { out := s1.vreg d, list := s1.vreg (b + 1), count := bits frame 288 8 }
        let next := bits frame 272 16
        let s2 := (((s1.setV d acc.out).setV (b + 1) acc.list).setV b
          (putFrame (s1.vreg b) acc.count (if acc.stop.isSome then next else next + s1.th.vl))).mark acc.flags acc.marks
        match acc.stop with
        | some i =>
          raise { s2 with th := { s2.th with estart := i } }
            { cause := Cause.raisinovf, tval := BitVec.ofNat 64 (next + i), elem := i }
        | none => .ok (s2.endMember c))

/-- The value of a cb4 element with a code, a scale and a list (03 R84): an escape takes `VAL` of its entry, or +0. -/
def cb4Value (frame list code e o : Nat) : Rounded :=
  if isEscape (bits frame 256 2) code then
    match (List.range (bits frame 288 8)).find? fun k => bits (raisin list k) 0 12 == o with
    | some k => { val := raisin list k / 2 ^ 32 }
    | none => { val := 0 }
  else cb4Dec frame code e

/-- The element of VDQNT (05 R164). -/
def dqntElem (frame list : Nat) (d a : BitVec 5) (k : BitVec 3) (q : BitVec 1) (c : ECtx) : ElemOp :=
  let m := rmodeOf c.frm
  let next := bits frame 272 16
  { a := .vec a 4, b := .none, dst := .vec d (if q = 0 then 16 else 32), k := k, draws := m == .sr
    f := fun e =>
      let o := next + e.i
      let x := cb4Value frame list e.a (bits c.vsc (8 * (o / 32 - next / 32)) 8) o
      let r := enc (if q = 0 then .bf16 else .f32) m e.word (dec32 x.val)
      { r with flags := r.flags ||| x.flags } }

/-- VDQNT (05 R164). -/
def execVdqnt (d a b : BitVec 5) (k : BitVec 3) (q c : BitVec 1) (s : State) : Host.Outcome State Fault Refusal :=
  finish (
    let (s1, start) := s.begin
    let frame := bits (s1.vreg b) 0 512
    if qntPre (s1.hasFeat 1) q s1.ectx = false ∨ (s1.th.frm = 5 ∧ s1.hasFeat 2 = false) then illegal s1
    else
      match listDet frame (s1.vreg (b + 1)) (s1.vreg a) s1.th.vl with
      | some det => raise s1 { cause := Cause.cbook, det := det }
      | none =>
        let s2 := s1.elemPass (dqntElem frame (s1.vreg (b + 1)) d a k q s1.ectx) start
        .ok ((s2.setV b (putFrame (s2.vreg b) (bits frame 288 8) (bits frame 272 16 + s1.th.vl))).endMember c))

end Sys2Proof.Machine
end

