-- ==== Sys2Proof/Machine/Matrix.lean ====
section
/-! DEFINITION. The matrix unit of a core pair (07 R200 to R212, 03 R96, R97, 17 R361 to R364): attachments, panels, the steps of the
accumulate instructions, tile transfers, the codebook and raisin slots, and save images. -/
namespace Sys2Proof.Machine

/-! ## Attachments (07 R201, R202) -/

/-- The matrix unit of a core's pair (00 R3). -/
def State.unit (s : State) (core : Nat) : MatUnit := s.units.get (core / 2) {}
/-- The attachment of a core, if it has one. -/
def State.attOf (s : State) (core : Nat) : Option Attachment :=
  if core % 2 = 0 then (s.unit core).even else (s.unit core).odd
/-- The attachment of a core replaced. -/
def State.setAtt (s : State) (core : Nat) (a : Option Attachment) : State :=
  { s with units := s.units.set (core / 2) (if core % 2 = 0 then { s.unit core with even := a } else { s.unit core with odd := a }) }
/-- The attachment of the current thread. -/
def State.att (s : State) : Option Attachment :=
  match s.attOf s.core with
  | some a => if a.h = s.cur then some a else none
  | none => none
/-- The physical row of logical row `i` of a core that holds `rows` (07 R201). -/
def physRow (core rows i : Nat) : Nat := if core % 2 = 0 then i else 64 - rows + i
/-- Logical row `i` of tile `t`: the image of its 64 values. -/
def State.accRow (s : State) (core rows t i : Nat) : Nat := (s.unit core).acc.get (64 * t + physRow core rows i) 0
/-- That row replaced. -/
def State.setAccRow (s : State) (core rows t i x : Nat) : State :=
  let u := s.unit core
  { s with units := s.units.set (core / 2) { u with acc := u.acc.set (64 * t + physRow core rows i) x } }
/-- +0 written to every row of a tile that a core holds. -/
def State.zeroTile (s : State) (core rows t : Nat) : State :=
  (List.range rows).foldl (fun st i => st.setAccRow core rows t i 0) s

/-- The other core of the pair. -/
def pairOf (core : Nat) : Nat := if core % 2 = 0 then core + 1 else core - 1

/-- The rows that a MATT asks for (07 R201). -/
def rowsAsked (r : Nat) : Nat := if r = 0 ∨ 64 < r then 64 else r
/-- Whether a core's MATT finds a unit: neither it nor the core is withdrawn (17 R363, 19 R406). -/
def State.unitLive (s : State) (core : Nat) : Bool := !s.rmap.deadUnits.contains (core / 2) && s.coreLive core
/-- The current thread attached with `g` rows (07 R201). -/
def State.attachRows (s : State) (g : Nat) : State :=
  let s1 := s.setAtt s.core (some { h := s.cur, rows := g })
  (List.range 4).foldl (fun st t => st.zeroTile s.core g t) { s1 with th := { s1.th with mgrant := g } }
/-- The attachment of a thread of a core with a request of `r` rows: the rows obtained (07 R201; 0 where the unit is withdrawn,
19 R406). -/
def State.attach (s : State) (r0 : Nat) : State × Nat :=
  let core := s.core
  let r := rowsAsked r0
  let g := match s.attOf (pairOf core) with
    | some a => Nat.min r (64 - a.rows)
    | none => r
  if (s.attOf core).isSome ∨ g = 0 ∨ s.unitLive core = false then (s, 0) else (s.attachRows g, g)
/-- The rows that a request obtains beside another one served in the same cycle: a row that both divisions leave over goes to the
lower-numbered core (07 R201). -/
def shareRows (r other : Nat) (lower : Bool) : Nat :=
  if r + other ≤ 64 then r
  else 64 * r / (r + other) + (if lower then 64 - 64 * r / (r + other) - 64 * other / (r + other) else 0)
/-- Two MATTs of a pair of cores served in the same cycle (07 R201): the current thread's, and that of thread `h`; one that obtains no row is
not attached. -/
def State.attachPair (s : State) (d a : BitVec 5) (h : Nat) (d2 a2 : BitVec 5) : State :=
  let low := decide (s.cur < h)
  let r := rowsAsked (s.rdN a)
  let r2 := rowsAsked ((s.switchTo h).rdN a2)
  let g := shareRows r r2 low
  let g2 := shareRows r2 r (!low)
  let take (t : State) (n : Nat) : State := if n = 0 then t else t.attachRows n
  let s1 := ((take s g).wrAdvance d (BitVec.ofNat 64 g)).switchTo h
  ((take s1 g2).wrAdvance d2 (BitVec.ofNat 64 g2)).switchTo s.cur

/-- The release of thread `h`'s attachment, as MDET does: the rows keep their contents, the slots are emptied (07 R202). -/
def State.detach (s : State) (h : Nat) : State :=
  match s.attOf (h / 4) with
  | some a =>
    if a.h = h then
      let s1 := s.setAtt (h / 4) none
      s1.setTh h { s1.getTh h with mgrant := 0 }
    else s
  | none => s

/-- The launch of a thread. -/
def State.launchOf (s : State) (h : Nat) : Nat := (s.groups.get (s.getTh h).group {}).launch
/-- Whether a configured chain has a matrix stage on a core that acts through the current thread's attachment: one of the same launch (17
R359, R360). -/
def State.stageOn (s : State) (core : Nat) : Bool :=
  s.threadIds.any fun h => s.launchOf h == s.launchOf s.cur && (s.getTh h).slots.any fun x =>
    !x.2.recorded && x.2.frames.any fun f => f.isMatStage && f.core == core

/-- MATT (07 R201). -/
def execMatt (d a : BitVec 5) (s : State) : Host.Outcome State Fault Refusal :=
  finish (
    if s.att.isSome then illegal s
    else
      let r := s.attach (s.rdN a)
      .ok (r.1.wrAdvance d (BitVec.ofNat 64 r.2)))
/-- MDET: ILLEGAL while a configured chain uses the attachment (17 R360); no effect when not attached (07 R202). -/
def execMdet (s : State) : Host.Outcome State Fault Refusal :=
  finish (
    if s.att.isNone then .ok s.advance
    else if s.stageOn s.core then illegal s
    else .ok (s.detach s.cur).advance)

/-- MNOGRANT when the thread is not attached. -/
def State.need (s : State) : M Attachment :=
  match s.att with
  | some a => .ok a
  | none => raise s { cause := Cause.mnogrant }

/-- MMODE (07 R202). -/
def execMmode (d a : BitVec 5) (s : State) : Host.Outcome State Fault Refusal :=
  finish (do
    let t ← s.need
    if s.rdN a / 4 ≠ 0 then illegal s
    else .ok ((s.setAtt s.core (some { t with mode := s.rdN a })).wrAdvance d (BitVec.ofNat 64 t.mode)))
/-- MZERO (07 R202). -/
def execMzero (d : BitVec 5) (s : State) : Host.Outcome State Fault Refusal :=
  finish (do
    let t ← s.need
    .ok (s.zeroTile s.core t.rows d.toNat).advance)

/-! ## Steps (03 R96, R97, 07 R203 to R205, 17 R364) -/

/-- The formats by the code of 07 R204. -/
def panelFmt (c : Nat) : Fmt :=
  match c with
  | 0 => .bf16 | 1 => .f16 | 2 => .e4m3 | 3 => .e5m2 | 4 => .e3m2 | 5 => .e2m3 | 6 => .e2m1 | _ => .mxi8
/-- Container width in bits (03 R73). -/
def panelWidth (c : Nat) : Nat := if c ≤ 1 then 16 else if c = 6 then 4 else 8

/-- The kinds of step instruction. -/
inductive MatKind where
  | mopa | mops | mopg | mopq
  deriving DecidableEq, Repr

/-- A step instruction as encoded (07 R204, R208): kind, tile, products per step, format codes, `NEG`. -/
structure MatOp where
  kind : MatKind
  tile : Nat
  p : Nat := 1
  fa : Nat := 0
  fb : Nat := 0
  neg : Bool := false
  deriving DecidableEq, Repr

/-- The number of steps (07 R205, R208). -/
def MatOp.count (o : MatOp) (mvl : Nat) : Nat := if o.kind = .mopq then 16 else mvl
/-- The reduction length *K*. -/
def MatOp.k (o : MatOp) (mvl : Nat) : Nat := if o.kind = .mopq then 64 else mvl * o.p

/-- The operands of an execution: the images of the A panel (the tile record for MOPQ) and of the B panel (MOPG: the gathered rows
one after another), the pieces of 8 bytes that are poisoned, vsc, the mode, the core and its rows, mvl, the codebook and the raisin
area, and the address of the tile record. -/
structure MatIn where
  ia : Nat
  ib : Nat
  pa : Nat := 0
  pb : Nat := 0
  vsc : Nat
  mode : Nat
  core : Nat
  rows : Nat
  mvl : Nat
  header : Nat := 0
  list : Nat := 0
  record : Word := 0
  deriving DecidableEq, Repr

/-- The pieces of 8 bytes of [off, off+n), as a mask. -/
def pieceMask (off n : Nat) : Nat := if n = 0 then 0 else (2 ^ ((off + n - 1) / 8 - off / 8 + 1) - 1) * 2 ^ (off / 8)
/-- The pieces that hold elements p to p+c−1 of width w. -/
def eltPieces (w p c : Nat) : Nat := pieceMask (p * w / 8) (((p + c) * w + 7) / 8 - p * w / 8)
/-- The pieces of a panel that step `s` reads: `n` elements of a reduction index, or `P` of a row if it is transposed (07 R203). -/
def panelPieces (w k p n s : Nat) (transposed : Bool) : Nat :=
  if transposed then (List.range n).foldl (fun m i => m ||| eltPieces w (i * k + s * p) p) 0
  else (span (s * p) (s * p + p)).foldl (fun m q => m ||| eltPieces w (q * 64) n) 0
/-- The pieces of the A side that step `s` reads (07 R203, R208). -/
def MatOp.piecesA (o : MatOp) (mode rows mvl s : Nat) : Nat :=
  match o.kind with
  | .mopq => (List.range rows).foldl (fun m i => m ||| pieceMask (32 * i + 2 * s) 2 ||| pieceMask (2048 + 2 * i + s / 8) 1) 0
  | .mops => panelPieces (panelWidth o.fa) (o.k mvl) o.p 64 s (bitOf mode 0)
  | _ => panelPieces (panelWidth o.fa) (o.k mvl) o.p rows s (bitOf mode 0)
/-- The pieces of the B side that step `s` reads; MOPG's rows stand one after another (07 R207). -/
def MatOp.piecesB (o : MatOp) (mode mvl s : Nat) : Nat :=
  match o.kind with
  | .mops => 0
  | .mopg => panelPieces (panelWidth o.fb) (o.k mvl) o.p 64 s false
  | _ => panelPieces (panelWidth o.fb) (o.k mvl) o.p 64 s (bitOf mode 1)

/-- The value of an element of a panel: scaled by vsc for the MX formats (07 R203). -/
def panelElt (img fc vsc scaleBase p : Nat) : FVal × Nat :=
  let x := elt img (panelWidth fc) p
  if fc ≤ 1 then (dec (panelFmt fc) x, 0)
  else let r := decScaled (panelFmt fc) x (bits vsc (8 * (scaleBase + p / 32)) 8); (dec32 r.val, r.flags)

/-- Whether a[i][k] of MOPQ is escaped, so that the dense part has no product for it (03 R84, R97). -/
def MatOp.escaped (o : MatOp) (x : MatIn) (i k : Nat) : Bool :=
  o.kind == .mopq && isEscape (bits x.header 256 2) (elt x.ia 4 (64 * i + k))
/-- a[i][k] (07 R203); for MOPQ the dense value of the code, zero for an escape (03 R84, R97). -/
def MatOp.adec (o : MatOp) (x : MatIn) (i k : Nat) : FVal × Nat :=
  match o.kind with
  | .mopq =>
    let code := elt x.ia 4 (64 * i + k)
    if o.escaped x i k then (.fin false 0 0, 0)
    else let r := cb4Dec x.header code (elt x.ia 8 (2048 + 2 * i + k / 32)); (dec32 r.val, r.flags)
  | _ => panelElt x.ia o.fa x.vsc 0 (if bitOf x.mode 0 then i * o.k x.mvl + k else k * 64 + i)
/-- b[k][j] (07 R203, R204, R207). -/
def MatOp.bdec (o : MatOp) (x : MatIn) (k j : Nat) : FVal × Nat :=
  match o.kind with
  | .mops => o.adec x j k
  | .mopg => panelElt x.ib o.fb x.vsc 512 (k * 64 + j)
  | _ => panelElt x.ib o.fb x.vsc 512 (if bitOf x.mode 1 then j * o.k x.mvl + k else k * 64 + j)

/-- rne32 with `NV` for every NaN (03 R96). -/
def stepRound (x : FVal) : Rounded :=
  let r := rne32 x
  if x.isNaN then { r with flags := r.flags ||| Flag.nv } else r
/-- The exact sum of some values from the first one on; a zero sum is −0 only where every term is −0 (03 R96). -/
def exactSum (l : List FVal) : FVal :=
  match l with
  | [] => .fin false 0 0
  | x :: r => r.foldl (fun a b => (a.add b .rne).1) x
/-- The dense part of one element of a step: one rounding (03 R96, R97: MOPQ's sum starts from zero). An escaped element gives no
product. -/
def denseElt (plus0 neg : Bool) (acc : Nat) (as : List (Option FVal)) (bs : List FVal) : Rounded :=
  let prods := (as.zip bs).filterMap fun p => p.1.map fun a => (a.mul p.2).1
  let t := exactSum (if plus0 then .fin false 0 0 :: prods else prods)
  stepRound ((dec32 acc).add (if neg then t.neg else t) .rne).1

/-- The entries of a raisin area: `OFF` and `VAL` (03 R83). -/
def raisinEntries (area : Nat) : List (Nat × Nat) :=
  (List.range (bits area 0 7)).map fun k => (bits area (512 + 64 * k) 12, bits area (512 + 64 * k + 32) 32)
/-- The relevant entries of step `s` (17 R364). -/
def relevant (x : MatIn) (s : Nat) : List (Nat × Nat) :=
  (raisinEntries x.list).filter fun e => decide (e.1 / 64 < x.rows) && e.1 % 64 / 4 == s
/-- The first relevant entry that fails R85's last condition (07 R208). -/
def badRaisin (x : MatIn) (s : Nat) : Option (Nat × Nat) :=
  let esc := bits x.header 256 2
  (relevant x s).find? fun e =>
    let code := elt x.ia 4 e.1
    !isEscape esc code || (esc == 2 && (code == 14) != bitOf e.2 31)

/-- The escape part of one element (03 R97): each product rounded, then added with its own rounding. -/
def escapeElt (o : MatOp) (x : MatIn) (j : Nat) (r : Rounded) (e : Nat × Nat) : Rounded :=
  let p := stepRound ((dec32 e.2).mul (o.bdec x (e.1 % 64) j).1).1
  let q := stepRound ((dec32 r.val).add (dec32 p.val) .rne).1
  { val := q.val, flags := r.flags ||| p.flags ||| q.flags }

/-- The values of a list packed at a width, first one lowest. -/
def packElts (w : Nat) (l : List Nat) : Nat := l.foldr (fun x n => x + 2 ^ w * n) 0

/-- One row of a step: its new image and flags. -/
def stepRow (o : MatOp) (x : MatIn) (s i row : Nat) (cols : List (List (FVal × Nat))) : Nat × Nat :=
  let ks := span (s * o.p) (s * o.p + o.p)
  let as := ks.map fun k => o.adec x i k
  let used := ks.map fun k => if o.escaped x i k then none else some (o.adec x i k).1
  let rel := (relevant x s).filter fun e => e.1 / 64 == i
  let out := cols.zipIdx.map fun c =>
    let d := denseElt (o.kind == .mopq) o.neg (elt row 32 c.2) used (c.1.map (·.1))
    if o.kind = .mopq then rel.foldl (escapeElt o x c.2) d else d
  (packElts 32 (out.map (·.val)), (out.map (·.flags) ++ as.map (·.2)).foldl (· ||| ·) 0)

/-- One step on every row (07 R205); its flags go to the current thread. -/
def matStep (o : MatOp) (x : MatIn) (s : Nat) (st : State) : State :=
  let cols := (List.range 64).map fun j => (span (s * o.p) (s * o.p + o.p)).map fun k => o.bdec x k j
  let s1 := (List.range x.rows).foldl (fun t i =>
    let r := stepRow o x s i (t.accRow x.core x.rows o.tile i) cols
    (t.setAccRow x.core x.rows o.tile i r.1).mark r.2 0) st
  s1.mark (if x.rows = 0 then 0 else (cols.flatten.map (·.2)).foldl (· ||| ·) 0) 0

/-- Why an execution stopped before a step, if it did: CBOOK at an entry (07 R208), or POISON at a piece of a side. -/
inductive StepStop where
  | cbook
  | poison (b : Bool) (piece : Nat)
  deriving DecidableEq, Repr

/-- The lowest bit that is set in a mask. -/
def lowBit (m : Nat) : Option Nat := if m = 0 then none else some (tzBits m 0 (Nat.log2 m + 1))

/-- The check of a step before it changes the tile (07 R206 check 5). -/
def stepCheck (o : MatOp) (x : MatIn) (s : Nat) : Option StepStop :=
  if o.kind = .mopq ∧ (badRaisin x s).isSome then some .cbook
  else
    match lowBit (o.piecesA x.mode x.rows x.mvl s &&& x.pa) with
    | some p => some (.poison false p)
    | none => (lowBit (o.piecesB x.mode x.mvl s &&& x.pb)).map (.poison true)

/-- `n` steps from step `s`: the state, the steps completed in all, and the stop. -/
def matSteps (o : MatOp) (x : MatIn) : Nat → Nat → State → State × Nat × Option StepStop
  | 0, s, st => (st, s, none)
  | n + 1, s, st =>
    match stepCheck o x s with
    | some e => (st, s, some e)
    | none => matSteps o x n (s + 1) (matStep o x s st)

/-! ## Operand fetches (07 R206, R207) -/

/-- The pieces that steps `from_` to `to_` − 1 read, as a mask. -/
def piecesOver (f : Nat → Nat) (from_ to_ : Nat) : Nat := (span from_ to_).foldl (fun m s => m ||| f s) 0
/-- The pieces of a mask, in ascending order. -/
def maskList (m : Nat) : List Nat := (List.range (Nat.log2 m + 1)).filter m.testBit

/-- The addresses of the pieces of a side: each with the piece, the address and the element of a fault record. -/
abbrev Pieces := List (Nat × Nat × Nat)

/-- The pieces of a panel at an address. -/
def panelList (base m : Nat) (elem : Nat → Nat) : Pieces := (maskList m).map fun p => (p, (base + 8 * p) % 2 ^ 64, elem p)
/-- A tile offset as an address: one that 22 bits do not hold keeps a bit that no tile space reaches (07 R207). -/
def tileAddr (o : Nat) : Nat := if o < 2 ^ 22 then o else 2 ^ 22 + o % 2 ^ 22
/-- MOPG's B rows: piece 8·j of row s stands at tile offset tb + v[B].e[s] × rb (07 R207). -/
def gatherList (tb rb : Nat) (row : Nat → Nat) (from_ to_ : Nat) : Pieces :=
  (span from_ to_).flatMap fun s => (List.range (rb / 8)).map fun q => (s * (rb / 8) + q, tileAddr (tb + row s * rb + 8 * q), s)

/-- The locations of a side's pieces: checked against the tile space, or walked through the MTLB. -/
def State.locatePieces (s : State) (tile : Bool) (l : Pieces) : State × List (Nat × Nat × Except AErr Loc) :=
  s.locateAll .m s.th.level tile 8 .read (l.map fun p => (p.2.2, p.2.1))

/-- Entries of two lists in ascending address, each list ascending (13 R308). -/
def mergeByAddr : Nat → List (Nat × Nat × Except AErr Loc) → List (Nat × Nat × Except AErr Loc) → List (Nat × Nat × Except AErr Loc)
  | 0, a, b => a ++ b
  | _ + 1, [], b => b
  | _ + 1, a, [] => a
  | n + 1, x :: a, y :: b => if x.2.1 ≤ y.2.1 then x :: mergeByAddr n a (y :: b) else y :: mergeByAddr n (x :: a) b

/-- The image of located pieces, and the mask of the poisoned ones. -/
def State.pieceImage (s : State) (l : Pieces) (locs : List (Nat × Nat × Except AErr Loc)) : Nat × Nat :=
  (l.zip locs).foldl (fun acc p =>
    match p.2.2.2 with
    | .ok loc =>
      (acc.1 + s.readLoc loc 8 * 2 ^ (64 * p.1.1), if s.poisonedLoc loc 8 then acc.2 ||| 2 ^ p.1.1 else acc.2)
    | .error _ => acc) (0, 0)

/-- Whether an access stops at a page that is not mapped or not present, in a given 4 KiB granule. -/
def pageErrIn (g : Nat) (x : Nat × Nat × Except AErr Loc) : Bool :=
  match x.2.2 with
  | .error e => e.isPage && x.2.1 / 4096 == g
  | .ok _ => false
/-- Each access that stops at a page stands for its granule with the lowest element that touches it, and that element's address
(13 R307 `ELEM`, `VA`). -/
def leadElems (l : List (Nat × Nat × Except AErr Loc)) : List (Nat × Nat × Except AErr Loc) :=
  l.map fun x =>
    if pageErrIn (x.2.1 / 4096) x then
      let b := (l.filter (pageErrIn (x.2.1 / 4096))).foldl (fun b y => if y.1 < b.1 then (y.1, y.2.1) else b) (x.1, x.2.1)
      (b.1, b.2, x.2.2)
    else x
/-- Both sides checked (07 R206 check 4) and read. -/
def State.fetchSides (s : State) (ta tb : Bool) (la lb : Pieces) : M (State × (Nat × Nat) × (Nat × Nat)) :=
  let (s1, ra) := s.locatePieces ta la
  let (s2, rb) := s1.locatePieces tb lb
  match areaErr s2 2 .read (leadElems (mergeByAddr (ra.length + rb.length) ra rb)) with
  | some e => .error e
  | none =>
    let locs := (ra ++ rb).filterMap fun x => match x.2.2 with
      | .ok l => some l
      | .error _ => none
    .ok (s2.noteReads locs, s2.pieceImage la ra, s2.pieceImage lb rb)

/-- The scaled operands of a step instruction (07 R203). -/
def MatOp.scaled (o : MatOp) : Bool := decide (2 ≤ o.fa) || decide (2 ≤ o.fb)

/-- The lowest step among `from_` to `to_` − 1 that reads a piece: the `ELEM` of a MOPG record (13 R307). -/
def lowestStep (f : Nat → Nat) (from_ to_ p : Nat) : Nat := ((span from_ to_).find? fun s => (f s).testBit p).getD 0

/-- The operands of an instruction from memory, after checks 2 and 3 of 07 R206. -/
def State.matFetch (s : State) (o : MatOp) (t : Attachment) (a b : BitVec 5) (from_ : Nat) : M (State × MatIn) := do
  let mvl := s.th.mvl
  let n := o.count mvl
  let addrA := s.rdN a
  let fA := o.piecesA t.mode t.rows mvl
  let la := panelList addrA (piecesOver fA from_ n) (if o.kind = .mopg then lowestStep fA from_ n else fun _ => 0)
  let rb := 8 * panelWidth o.fb
  let lb :=
    match o.kind with
    | .mopg =>
      gatherList (s.rdN (a + 1) % 2 ^ 63) rb (fun k => elt (s.vreg b) (ewBits s.th.ew) k) from_ n
    | .mops => []
    | _ => panelList (s.rdN b) (piecesOver (o.piecesB t.mode mvl) from_ n) fun _ => 0
  let (s1, ra, rbb) ← s.fetchSides (bitOf addrA 63) (if o.kind = .mopg then true else bitOf (s.rdN b) 63) la lb
  .ok (s1, { ia := ra.1, ib := rbb.1, pa := ra.2, pb := rbb.2, vsc := s1.vreg 30, mode := t.mode, core := s1.core, rows := t.rows,
             mvl := mvl, header := t.codebook.getD 0, list := t.raisins.getD 0, record := s1.rd a })

/-- The stop of an execution as a trap at step `k` (07 R206, R208). -/
def stepTrap (x : MatIn) (addrB : Nat → Nat) (k : Nat) (e : StepStop) : Trap :=
  match e with
  | .cbook => { cause := Cause.cbook, tval := x.record, det := 5, elem := k }
  | .poison false p => { cause := Cause.poison, tval := x.record + BitVec.ofNat 64 (8 * p), elem := k }
  | .poison true p => { cause := Cause.poison, tval := BitVec.ofNat 64 (addrB p), elem := k }

/-- The address of a piece of MOPG's rows, or of a B panel. -/
def State.addrB (s : State) (o : MatOp) (a b : BitVec 5) (p : Nat) : Nat :=
  match o.kind with
  | .mopg =>
    let rb := 8 * panelWidth o.fb
    (s.rdN (a + 1) % 2 ^ 63 + elt (s.vreg b) (ewBits s.th.ew) (p / (rb / 8)) * rb + 8 * (p % (rb / 8)))
  | _ => s.rdN b + 8 * p

/-- Checks 2 and 3 of 07 R206 with those of R207 and R208; `n` is the step count. -/
def State.matPre (s : State) (o : MatOp) (t : Attachment) (a b : BitVec 5) : M Unit :=
  let n := o.count s.th.mvl
  if (o.scaled ∧ s.th.vrlen < 1024) ∨ n ≤ s.th.mprog ∨ (o.kind = .mopg ∧ s.th.vl < s.th.mvl)
      ∨ (o.kind = .mopq ∧ s.hasFeat 1 = false) then illegal s
  else if o.kind = .mopq ∧ t.codebook.isNone then raise s { cause := Cause.cbook, det := 6 }
  else if s.rdN a % 64 ≠ 0 then raise s { cause := Cause.misalign, tval := s.rd a }
  else if o.kind = .mopg then
    if s.rdN (a + 1) % 64 ≠ 0 then raise s { cause := Cause.misalign, tval := s.rd (a + 1) } else .ok ()
  else if o.kind ≠ .mops ∧ s.rdN b % 64 ≠ 0 then raise s { cause := Cause.misalign, tval := s.rd b }
  else .ok ()

/-- A step instruction (07 R205, R206): the checks, then the steps from mprog. -/
def mop (o : MatOp) (a b : BitVec 5) (s : State) : Host.Outcome State Fault Refusal :=
  finish (do
    let t ← s.need
    let _ ← s.matPre o t a b
    let (s1, x) ← s.matFetch o t a b s.th.mprog
    let n := o.count s.th.mvl
    let r := matSteps o x (n - s.th.mprog) s.th.mprog s1
    match r.2.2 with
    | none => .ok ({ r.1 with th := { r.1.th with mprog := 0 } }).advance
    | some e => raise { r.1 with th := { r.1.th with mprog := r.2.1 } } (stepTrap x (s.addrB o a b) r.2.1 e))

/-- MOPA (07 R204). -/
def execMopa (d a b : BitVec 5) (n : BitVec 1) (q p : BitVec 3) (s : State) : Host.Outcome State Fault Refusal :=
  mop { kind := .mopa, tile := d.toNat, p := 1, fa := p.toNat, fb := q.toNat, neg := n == 1 } a b s
/-- MOPA2 (07 R204). -/
def execMopa2 (d a b : BitVec 5) (n : BitVec 1) (q p : BitVec 3) (s : State) : Host.Outcome State Fault Refusal :=
  mop { kind := .mopa, tile := d.toNat, p := 2, fa := p.toNat, fb := q.toNat, neg := n == 1 } a b s
/-- MOPA4 (07 R204). -/
def execMopa4 (d a b : BitVec 5) (n : BitVec 1) (q p : BitVec 3) (s : State) : Host.Outcome State Fault Refusal :=
  mop { kind := .mopa, tile := d.toNat, p := 4, fa := p.toNat, fb := q.toNat, neg := n == 1 } a b s
/-- MOPS: the B side is the A panel (07 R204). -/
def execMops (d a : BitVec 5) (n : BitVec 1) (p : BitVec 3) (s : State) : Host.Outcome State Fault Refusal :=
  mop { kind := .mops, tile := d.toNat, p := 1, fa := p.toNat, fb := 0, neg := n == 1 } a 0 s
/-- MOPG: gathered B rows (07 R207). -/
def execMopg (d a b : BitVec 5) (n : BitVec 1) (q p : BitVec 3) (s : State) : Host.Outcome State Fault Refusal :=
  mop { kind := .mopg, tile := d.toNat, p := 1, fa := p.toNat, fb := q.toNat, neg := n == 1 } a b s
/-- MOPQ: a cb4 tile record against a B panel (07 R208). -/
def execMopq (d a b : BitVec 5) (q : BitVec 1) (s : State) : Host.Outcome State Fault Refusal :=
  mop { kind := .mopq, tile := d.toNat, p := 4, fa := 0, fb := q.toNat } a b s

/-! ## Tile transfers (07 R211) -/

/-- The checks of MRD and MWR, and the attachment. -/
def State.mxfPre (s : State) (start row0 : Nat) : M Attachment :=
  if start ≠ 0 ∨ s.th.ew ≠ 2 then illegal s
  else
    match s.att with
    | none => raise s { cause := Cause.mnogrant }
    | some t =>
      if s.th.vl ≠ 0 ∧ t.rows ≤ row0 + (s.th.vl - 1) / 64 then raise s { cause := Cause.mnogrant } else .ok t
/-- MRD: tile elements into the elements below vl, bit for bit. -/
def execMrd (d a : BitVec 5) (t : BitVec 2) (s : State) : Host.Outcome State Fault Refusal :=
  finish (do
    let (s1, start) := s.begin
    let row0 := s1.rdN a
    let att ← s1.mxfPre start row0
    .ok (s1.setV d ((List.range s1.th.vl).foldl (fun img i =>
      setElt img 32 i (elt (s1.accRow s1.core att.rows t.toNat (row0 + i / 64)) 32 (i % 64))) (s1.vreg d))).advance)
/-- MWR: elements into the tile. -/
def execMwr (d a : BitVec 5) (t : BitVec 2) (s : State) : Host.Outcome State Fault Refusal :=
  finish (do
    let (s1, start) := s.begin
    let row0 := s1.rdN a
    let att ← s1.mxfPre start row0
    .ok ((List.range s1.th.vl).foldl (fun st i =>
      st.setAccRow s1.core att.rows t.toNat (row0 + i / 64)
        (setElt (st.accRow s1.core att.rows t.toNat (row0 + i / 64)) 32 (i % 64) (elt (s1.vreg d) 32 i))) s1).advance)

/-! ## Codebook and raisin list slots (07 R209, 03 R85) -/

/-- The `DET` of a cb4 header that fails R85's first two conditions. -/
def headerDet (h : Nat) : Option Nat :=
  if bits h 256 2 = 3 ∨ bits h 259 29 ≠ 0 ∨ bits h 320 64 ≠ 0 then some 1 else if cbBad h then some 2 else none
/-- Whether entries have a nonzero reserved field or an `OFF` that does not rise. -/
def entriesBad (area : Nat) : List Nat → Option Nat → Bool
  | [], _ => false
  | k :: r, prev =>
    let e := bits area (512 + 64 * k) 64
    bits e 12 20 != 0 || (match prev with | some p => decide (bits e 0 12 ≤ p) | none => false)
      || entriesBad area r (some (bits e 0 12))
/-- The `DET` of a raisin area that fails R85's next two. -/
def raisinDet (area : Nat) : Option Nat :=
  if 64 < bits area 0 7 ∨ bits area 7 505 ≠ 0 then some 3
  else if entriesBad area (List.range (bits area 0 7)) none then some 4
  else none

/-- The area of a slot load, after the checks of R209 up to the causes of R111. -/
def State.slotArea (s : State) (a : BitVec 5) (n : Nat) : M (Attachment × Nat × State) := do
  let t ← s.need
  if s.hasFeat 1 = false then illegal s
  else if s.rdN a % 64 ≠ 0 then raise s { cause := Cause.misalign, tval := s.rd a }
  else
    let (x, s1) ← s.fetchArea .m (bitOf (s.rdN a) 63) (s.rdN a) n 2
    .ok (t, x, s1)
/-- MCBL (07 R209). -/
def execMcbl (a : BitVec 5) (s : State) : Host.Outcome State Fault Refusal :=
  finish (do
    let (t, h, s1) ← s.slotArea a 64
    match headerDet h with
    | some d => raise s1 { cause := Cause.cbook, tval := s.rd a, det := d }
    | none => .ok (s1.setAtt s1.core (some { t with codebook := some (bits h 0 259) })).advance)
/-- MRLL (07 R209). -/
def execMrll (a : BitVec 5) (s : State) : Host.Outcome State Fault Refusal :=
  finish (do
    let (t, x, s1) ← s.slotArea a 576
    match raisinDet x with
    | some d => raise s1 { cause := Cause.cbook, tval := s.rd a, det := d }
    | none => .ok (s1.setAtt s1.core (some { t with raisins := some x })).advance)

/-! ## Save images (07 R212) -/

/-- The image of an attachment. -/
def State.saveImage (s : State) (core : Nat) (t : Attachment) : Nat :=
  let head := 1 + t.rows * 2 ^ 8 + t.mode * 2 ^ 16 + t.codebook.isSome.toNat * 2 ^ 18 + t.raisins.isSome.toNat * 2 ^ 19
  let rows := (List.range 4).flatMap fun k => (List.range t.rows).map fun i => s.accRow core t.rows k i
  head + t.codebook.getD 0 * 2 ^ (8 * 0x40) + t.raisins.getD 0 * 2 ^ (8 * 0x80) + packElts 2048 rows * 2 ^ (8 * 0x300)
/-- The bytes of an image of `g` rows. -/
def saveSize (g : Nat) : Nat := 0x300 + 1024 * g
/-- Whether MREST refuses an image as ILLEGAL. -/
def imageIllegal (x g : Nat) : Bool :=
  bits x 0 8 != 1 || bits x 15 1 != 0 || bits x 20 492 != 0 || bits x 8 7 != g || bits x (512 + 259) 253 != 0
    || bits x (8 * 0x2C0) 512 != 0
/-- The `DET` of an image whose loaded slots fail R85. -/
def imageDet (x : Nat) : Option Nat :=
  match (if bitOf x 18 then headerDet (bits x 512 512) else none) with
  | some d => some d
  | none => if bitOf x 19 then raisinDet (bits x 1024 4608) else none
/-- The attachment and tiles restored from an image. -/
def State.loadImage (s : State) (core : Nat) (t : Attachment) (x : Nat) : State :=
  let s1 := s.setAtt core (some { t with
    mode := bits x 16 2
    codebook := if bitOf x 18 then some (bits x 512 259) else none
    raisins := if bitOf x 19 then some (bits x 1024 4608) else none })
  (List.range 4).foldl (fun st k => (List.range t.rows).foldl (fun st i =>
    st.setAccRow core t.rows k i (bits x (8 * (0x300 + (k * t.rows + i) * 256)) 2048)) st) s1

/-- MSAVE (07 R212). -/
def execMsave (a : BitVec 5) (s : State) : Host.Outcome State Fault Refusal :=
  finish (do
    let t ← s.need
    if s.rdN a % 64 ≠ 0 then raise s { cause := Cause.misalign, tval := s.rd a }
    else
      let s1 ← s.storeArea .m (bitOf (s.rdN a) 63) (s.rdN a) (saveSize t.rows) (s.saveImage s.core t) 2
      .ok s1.advance)
/-- MREST (07 R212). -/
def execMrest (a : BitVec 5) (s : State) : Host.Outcome State Fault Refusal :=
  finish (do
    let t ← s.need
    if s.rdN a % 64 ≠ 0 then raise s { cause := Cause.misalign, tval := s.rd a }
    else
      let (x, s1) ← s.fetchArea .m (bitOf (s.rdN a) 63) (s.rdN a) (saveSize t.rows) 2
      if imageIllegal x t.rows then illegal s1
      else
        match imageDet x with
        | some d => raise s1 { cause := Cause.cbook, tval := s.rd a, det := d }
        | none => .ok (s1.loadImage s1.core t x).advance)

end Sys2Proof.Machine
end

