-- ==== Sys2Proof/Machine/System.lean ====
section
/-! DEFINITION. System instructions: environment calls, the return from an exception, fences, control registers, translation
invalidation, RMACK, LWAKE, IDLE and the vector configuration (04 R120 to R132, 05 R138 to R140). The context save area stands in
Context.lean. -/
namespace Sys2Proof.Machine

/-- An instruction reserved to supervisor and firmware (01 R20). -/
def privileged (f : State → M State) (s : State) : Host.Outcome State Fault Refusal :=
  finish (if s.th.level = .user then privTrap s else f s)

/-- A reserved or unassigned opcode (02 R56). -/
def execUndefinedInstruction (w : BitVec 32) (s : State) : Host.Outcome State Fault Refusal :=
  finish (raise s { cause := Cause.undef, tval := w.setWidth 64 })

/-- ECALL: to the level above, with restart point pc + 4; ILLEGAL at firmware level (04 R120). -/
def execEcall (s : State) : Host.Outcome State Fault Refusal :=
  finish (if s.th.level = .firmware then illegal s else raise s { cause := Cause.ecall, epc := some (s.th.pc + 4) })
/-- BRK (04 R120). -/
def execBrk (s : State) : Host.Outcome State Fault Refusal := finish (raise s { cause := Cause.brk })

/-- A return by the supervisor, or one that resumes a restored context, lets the stopped transfers of the thread translate again
(13 R295, 19 R397). -/
def State.resumeEngines (s : State) (from_ : Level) (restored : Bool) : State :=
  if (from_ = .supervisor ∨ restored) ∧ s.th.restored = none ∧ s.th.streamFaults.isEmpty = true then
    s.updCore s.core fun c =>
      { c with channels := c.channels.map fun k =>
          if k.2.owner = some s.cur then (k.1, { k.2 with xfers := k.2.xfers.map fun x => { x with stopped := false } }) else k }
  else s

/-- TRET (04 R121, 19 R384): ILLEGAL for a level that `PLEV` cannot name; the abort address, and every return to a lower level
after an UNCORR, terminates the context; else the return. A return to user level of a suspended context takes RMSUSP at once
(19 R416). -/
def execTret (r : BitVec 1) (s : State) : Host.Outcome State Fault Refusal :=
  privileged (fun s =>
    let t := s.th.regs s.th.level
    match levelOf (bits t.cause.toNat 60 2) with
    | none => illegal s
    | some p =>
      if s.th.level.num < p.num then illegal s
      else if t.epc = abortAddress ∨ (s.th.uncorr = true ∧ p.num < s.th.level.num) then .ok s.terminate
      else
        let s1 := (s.leave (r == 1) p).resumeEngines s.th.level s.th.restored.isSome
        .ok (if p = .user ∧ s.th.suspended then { s1 with th := { s1.th with spend := setBit s1.th.spend 3 true } } else s1)) s

/-- EMURET (04 R122): only in emulation mode; a target outside the code window traps CODEWIN with `EM` still set. -/
def execEmuret (s : State) : Host.Outcome State Fault Refusal :=
  finish (
    if s.th.level ≠ .user ∨ s.th.em = false then illegal s
    else if s.inWindow .user s.core (aligned s.th.empc).toNat then
      .ok { s with th := { s.th with pc := aligned s.th.empc, em := false, cv := none, reissue := false } }
    else raise s { cause := Cause.codewin, tval := aligned s.th.empc })

/-- FENCE (04 R123): in this model every access is performed before the next instruction (assumption 2). -/
def execFence (_n : BitVec 3) (_k : BitVec 2) (s : State) : Host.Outcome State Fault Refusal := .next s.advance
/-- LSYNC (04 R124). -/
def execLsync (s : State) : Host.Outcome State Fault Refusal := .next s.advance

/-! ## Control registers (01 R22 to R31, 04 R126) -/

/-- The registers that a supervisor may not name (19 R378). -/
def crFirmware (n : Nat) : Bool := (decide (0x180 ≤ n) && decide (n ≤ 0x186)) || n == 0x189
/-- Whether a register number is above a level (01 R20). -/
def crPriv (l : Level) (n : Nat) : Bool :=
  match l with
  | .user => decide (0x100 ≤ n) && decide (n < 0x400)
  | .supervisor => crFirmware n
  | .firmware => false

/-- cwm of channel `c`: 0 unless the thread holds it (07 R215). -/
def State.cwm (s : State) (c : Nat) : Nat :=
  match (s.getCore s.core).channels.look c with
  | some ch =>
    if ch.owner = some s.cur then
      (!ch.xfers.isEmpty).toNat * 2 ^ 63 + ch.outward.toNat * 2 ^ 62 + ch.xfers.length * 2 ^ 56 + ch.wm % 2 ^ 22
    else 0
  | none => 0
/-- The channel registers (07 R215). -/
def State.channelCr (s : State) (n : Nat) : Nat := if n % 4 = 0 then s.cwm ((n - 0x40) / 4) else (s.th.cdim.get (n - 0x40) 0).toNat
/-- sstatus or fstatus (19 R381). -/
def TrapRegs.status (r : TrapRegs) : Nat := r.aie.toNat + 2 * r.paie.toNat + 4 * r.tih.toNat
/-- clstat (15 R337). -/
def State.clstat (s : State) (cl : Nat) : Nat :=
  let cores := (List.range 8).map (coreAt cl)
  let live := cores.filter s.coreLive
  let thr := (cores.map fun c => ((List.range 4).filter fun t => (s.getTh (4 * c + t)).resident).length).sum
  let free := live.filter fun c => (s.getCore c).gang == 0 && (s.residents c).isEmpty
  thr * 2 ^ 16 + free.length * 2 ^ 8 + live.length
/-- lerr (15 R339). -/
def Cluster.lerr (c : Cluster) : Nat := c.lerrV.toNat * 2 ^ 63 + c.lerrAddr % 2 ^ 57

/-- The value of a register of the trap-entry set: cause, restart point, faulting address, value, info, vector, scratch. -/
def TrapRegs.get (r : TrapRegs) (k : Nat) : Nat :=
  (match k with
   | 0 => r.cause | 1 => r.epc | 2 => r.fpc | 3 => r.tval | 4 => r.info | 5 => r.vec | _ => r.scratch).toNat

/-- The value of a control register, none for an unassigned number (01 R23, R30, 09 R239, 15 R337, 19 R378). fmask counts with all its bits,
also those at or above vlmax (DEDUCED, assumption 96); coreno is 0xFFFF on a core that is no longer presented (DEDUCED, assumption 71). -/
def State.crGet (s : State) (n : Nat) : Option Nat :=
  if n = 0 then some s.th.vl
  else if n = 1 then some s.th.ew
  else if n = 2 then some s.th.vlmax
  else if n = 3 then some s.th.vrlen
  else if n = 4 then some s.th.estart
  else if n = 5 then some (popBits s.th.fmask 32768)
  else if n = 6 then some s.th.fflags
  else if n = 7 then some s.th.frm
  else if n = 8 then some s.th.srseed
  else if n = 9 then some s.th.qthr
  else if n = 0xA then some s.th.mvl
  else if n = 0xB then some s.th.mgrant
  else if n = 0xC then some s.th.mprog
  else if n = 0xD then some (s.th.rmvAck * 2 ^ 32 + s.th.rmvCur)
  else if n = 0xE then some s.th.thrcause
  else if n = 0xF then some s.th.hwfail
  else if n = 0x10 then some (s.getCore s.core).ccount
  else if n = 0x11 then some s.th.tkcur.toNat
  else if n = 0x18 then some s.th.emvec.toNat
  else if n = 0x19 then some s.th.empc.toNat
  else if n = 0x1A then some s.th.eminst.toNat
  else if n = 0x1B then some s.th.em.toNat
  else if 0x40 ≤ n ∧ n < 0x80 then some (s.channelCr n)
  else if 0x100 ≤ n ∧ n ≤ 0x106 then some (s.th.sup.get (n - 0x100))
  else if n = 0x107 then some s.th.ptroot.toNat
  else if n = 0x108 then some s.th.fbarea.toNat
  else if n = 0x109 then some s.th.sup.status
  else if n = 0x10A then some s.th.spend
  else if n = 0x10B then some (s.th.rmLeft * 2 ^ 32 + s.th.rmAllow)
  else if n = 0x10C then some (viewAddr s.launch.part)
  else if 0x180 ≤ n ∧ n ≤ 0x186 then some (s.th.fw.get (n - 0x180))
  else if n = 0x189 then some s.th.fw.status
  else if n = 0x200 then some (s.latab s.core)
  else if n = 0x201 then some (s.corecfg s.core)
  else if 0x204 ≤ n ∧ n ≤ 0x207 then some (s.latthr s.core (n - 0x204))
  else if n = 0x208 then some (s.thrstate s.core)
  else if n = 0x300 then some (s.clstat (clusterOf s.core))
  else if n = 0x301 then some (s.getCluster (clusterOf s.core)).obj.toNat
  else if n = 0x302 then some (s.getCluster (clusterOf s.core)).stealctl
  else if n = 0x303 then some (s.getCluster (clusterOf s.core)).lerr
  else if n = 0x800 then some 0x0100
  else if n = 0x801 then some (s.part.feat % 64)
  else if n = 0x802 then some 2
  else if n = 0x803 then some (if s.core < 320 then s.core else 0xFFFF)
  else if n = 0x804 then some (clusterOf s.core)
  else if n = 0x805 then some (dieOf s.core)
  else if n = 0x806 then some s.thr
  else none

/-- A register of the trap-entry set written; fields that are not named read as zero (19 R379, R380). -/
def TrapRegs.set (r : TrapRegs) (k : Nat) (x : Word) : TrapRegs :=
  match k with
  | 0 => { r with cause := x &&& 0xF8FF03FFFF00003F }
  | 1 => { r with epc := x }
  | 2 => { r with fpc := x }
  | 3 => { r with tval := x }
  | 4 => { r with info := x &&& 0xFFFFFFFF003F0003 }
  | 5 => { r with vec := x &&& 0xFFFFFFFFFFFFFFFC }
  | _ => { r with scratch := x }
/-- sstatus or fstatus written. -/
def TrapRegs.setStatus (r : TrapRegs) (x : Nat) : TrapRegs := { r with aie := bitOf x 0, paie := bitOf x 1, tih := bitOf x 2 }

/-- How a control register is written: CRWR, or CRSET and CRCLR (04 R126). -/
inductive CrOp where
  | write | set | clear
  deriving DecidableEq, Repr
/-- The value that an operation produces. -/
def CrOp.value (o : CrOp) (old a : Word) : Word :=
  match o with
  | .write => a | .set => old ||| a | .clear => old &&& ~~~a

/-- srseed written; a CRWR reseeds every generator (01 R29, 03 R90). -/
def State.seed (s : State) (o : CrOp) (x : Nat) : State :=
  let v := x % 2 ^ 32
  { s with th := { s.th with srseed := v, gens := if o = .write then srSeedAll (BitVec.ofNat 32 v) else s.th.gens } }

/-- The per-thread user registers written (01 R23 to R25); none where the write is refused. -/
def State.crPutUser (s : State) (o : CrOp) (n : Nat) (a x : Word) : Option State :=
  let v := x.toNat
  if n = 4 then some { s with th := { s.th with estart := v % 2 ^ 16 } }
  else if n = 5 then (if o = .write ∧ a = 0 then some { s with th := { s.th with fmask := 0 } } else none)
  else if n = 6 then some { s with th := { s.th with fflags := v % 32 } }
  else if n = 7 then (if v % 8 ≤ 5 then some { s with th := { s.th with frm := v % 8 } } else none)
  else if n = 8 then some (s.seed o v)
  else if n = 9 then some { s with th := { s.th with qthr := v % 2 ^ 32 } }
  else if n = 0xA then
    (if 1 ≤ v % 128 ∧ v % 128 ≤ 64 then some { s with th := { s.th with mvl := v % 128 } } else none)
  else if n = 0xF then some { s with th := { s.th with hwfail := v % 2 } }
  else if n = 0x11 then some { s with th := { s.th with tkcur := x } }
  else if n = 0x18 then some { s with th := { s.th with emvec := x &&& 0xFFFFFFFFFFFFFFFC } }
  else if n = 0x19 then some { s with th := { s.th with empc := x } }
  else if 0x40 ≤ n ∧ n < 0x80 ∧ n % 4 ≠ 0 then some { s with th := { s.th with cdim := s.th.cdim.set (n - 0x40) x } }
  else none

/-- The supervisor, firmware, core and cluster registers written (09 R242, 15 R338, R339, 19 R378); none where refused. -/
def State.crPutSystem (s : State) (n : Nat) (a x : Word) : Option State :=
  let v := x.toNat
  let cl := clusterOf s.core
  if 0x100 ≤ n ∧ n ≤ 0x106 then some { s with th := { s.th with sup := s.th.sup.set (n - 0x100) x } }
  else if n = 0x107 then some { s with th := { s.th with ptroot := x &&& 0x00FFFFFFFFFFFFFF } }
  else if n = 0x108 then some { s with th := { s.th with fbarea := x &&& 0xFFFFFFFFFFFFFF00 } }
  else if n = 0x109 then some { s with th := { s.th with sup := s.th.sup.setStatus v } }
  else if n = 0x10B then (if v % 2 ^ 21 ≠ 0 then some { s with th := { s.th with rmAllow := v % 2 ^ 21 } } else none)
  else if 0x180 ≤ n ∧ n ≤ 0x186 then some { s with th := { s.th with fw := s.th.fw.set (n - 0x180) x } }
  else if n = 0x189 then some { s with th := { s.th with fw := s.th.fw.setStatus v } }
  else if 0x204 ≤ n ∧ n ≤ 0x207 then
    (if bits v 24 7 ≤ 64 then some (s.setLat s.core (n - 0x204) { s.lat s.core (n - 0x204) with lim := bits v 24 7 }) else none)
  else if n = 0x302 then some (s.setCluster cl { s.getCluster cl with stealctl := v % 4 })
  else if n = 0x303 then some (if bitOf a.toNat 63 then s.setCluster cl { s.getCluster cl with lerrV := false } else s)
  else none

/-- A control register written. -/
def State.crPut (s : State) (o : CrOp) (n : Nat) (a x : Word) : Option State :=
  if n < 0x100 then s.crPutUser o n a x else s.crPutSystem n a x

/-- A read of ccount finds it advanced by cycles that the manual leaves open (01 R27, R28). -/
def State.tick (s : State) (n : Nat) : State :=
  if n = 0x10 then
    { s.updCore s.core fun c => { c with ccount := c.ccount + Config.cycles s.free } with free := s.free + 1 }
  else s

/-- CRRD (04 R126). -/
def execCrrd (d : BitVec 5) (r : BitVec 12) (s : State) : Host.Outcome State Fault Refusal :=
  finish (
    if crPriv s.th.level r.toNat then privTrap s
    else
      let s1 := s.tick r.toNat
      match s1.crGet r.toNat with
      | none => illegal s
      | some x => .ok (s1.wrAdvance d (BitVec.ofNat 64 x)))

/-- CRWR, CRSET and CRCLR: PRIV, then ILLEGAL for an unassigned number, then the register's own rules (04 R126). -/
def crModify (o : CrOp) (d a : BitVec 5) (n : Nat) (s : State) : Host.Outcome State Fault Refusal :=
  finish (
    if crPriv s.th.level n then privTrap s
    else
      match s.crGet n with
      | none => illegal s
      | some old =>
        match s.crPut o n (s.rd a) (o.value (BitVec.ofNat 64 old) (s.rd a)) with
        | none => illegal s
        | some s1 => .ok (s1.wrAdvance d (BitVec.ofNat 64 old)))
/-- CRWR (04 R126). -/
def execCrwr (d a : BitVec 5) (r : BitVec 12) (s : State) : Host.Outcome State Fault Refusal := crModify .write d a r.toNat s
/-- CRSET (04 R126). -/
def execCrset (d a : BitVec 5) (r : BitVec 12) (s : State) : Host.Outcome State Fault Refusal := crModify .set d a r.toNat s
/-- CRCLR (04 R126). -/
def execCrclr (d a : BitVec 5) (r : BitVec 12) (s : State) : Host.Outcome State Fault Refusal := crModify .clear d a r.toNat s
/-- FMASK_CLEAR: a CRWR to fmask, zero clears it, any other value traps ILLEGAL (01 R25). -/
def execFmaskClear (d a : BitVec 5) (s : State) : Host.Outcome State Fault Refusal := crModify .write d a 5 s
/-- SRSEED_WRITE: a CRWR to srseed reseeds every generator (01 R29, 03 R90). -/
def execSrseedWrite (d a : BitVec 5) (s : State) : Host.Outcome State Fault Refusal := crModify .write d a 8 s

/-! ## Translation invalidation (04 R128, R129, 13 R309) -/

/-- Whether a TLBINV names a translation. -/
def Trans.named (t : Trans) (sel a asid : Nat) : Bool :=
  let covers := decide (t.va ≤ a) && decide (a < t.va + t.size)
  if sel = 0 then covers && (t.asid == asid || t.glob)
  else if sel = 1 then t.asid == asid && !t.glob
  else if sel = 2 then true
  else covers

/-- The presented cores of a list of clusters. -/
def coresOf (clusters : List Nat) : List Nat := clusters.flatMap fun c => (List.range 8).map (coreAt c)

/-- A transfer loses the named translations; the strip that needs one translates again (13 R309). -/
def Xfer.drop (p : Trans → Bool) (x : Xfer) : Xfer :=
  { x with held := x.held.filter fun t => !p t }

/-- The named translations leave every TLB and every engine of a list of cores. -/
def State.invalidate (s : State) (cores : List Nat) (p : Trans → Bool) : State :=
  { s with
    cores := s.cores.map fun k =>
      if cores.contains k.1 then
        (k.1, { k.2 with
          vtlb := k.2.vtlb.filter fun t => !p t
          channels := k.2.channels.map fun c => (c.1, { c.2 with xfers := c.2.xfers.map (Xfer.drop p) }) })
      else k
    units := s.units.map fun k =>
      if cores.contains (2 * k.1) || cores.contains (2 * k.1 + 1) then (k.1, { k.2 with mtlb := k.2.mtlb.filter fun t => !p t }) else k }

/-- The cores of some clusters, with the retired ones that still serve residents (19 R406). -/
def State.servingCores (s : State) (clusters : List Nat) : List Nat :=
  coresOf clusters ++ (s.cores.map (·.1)).filter fun c => decide (320 ≤ c) && clusters.contains (clusterOf c)
/-- TLBINV: acts at once on every core of the partition (04 R128). -/
def execTlbinv (a b : BitVec 5) (sel : BitVec 3) (s : State) : Host.Outcome State Fault Refusal :=
  privileged (fun s =>
    let s1 := s.invalidate (s.servingCores s.part.clusters) fun t => t.named sel.toNat (s.rdN a) (bits (s.rdN b) 0 16)
    .ok ({ s1 with th := { s1.th with tlbinvs := s1.th.tlbinvs + 1 } }).advance) s
/-- TLBSYNC: waits until every older TLBINV of the thread has completed (04 R129). -/
def execTlbsync (s : State) : Host.Outcome State Fault Refusal :=
  privileged (fun s => if s.th.tlbinvs = 0 then .ok s.advance else .error (.park .tlbsync s)) s

/-! ## RMACK, LWAKE, IDLE -/

/-- RMACK (04 R130). -/
def execRmack (d a : BitVec 5) (s : State) : Host.Outcome State Fault Refusal :=
  let v := s.rdN a % 2 ^ 32
  if s.th.rmvAck ≤ v ∧ v ≤ s.th.rmvCur then
    .next (({ s with th := { s.th with rmvAck := v } }).wrAdvance d 1)
  else .next (s.wrAdvance d 0)
/-- LWAKE (04 R131). -/
def execLwake (a : BitVec 5) (sel : BitVec 3) (s : State) : Host.Outcome State Fault Refusal :=
  .next (s.wakePath s.core sel.toNat (s.rdN a % 256)).advance
/-- Whether an asynchronous cause is pending and taken at the thread's level (19 R377). -/
def Thread.asyncReady (t : Thread) : Bool :=
  (t.spend != 0 || !t.streamFaults.isEmpty)
    && (match t.level with
        | .user => true
        | .supervisor => t.sup.aie
        | .firmware => false)
/-- IDLE: issue stops until such a cause is pending; it is taken with restart point pc + 4 (04 R132). -/
def execIdle (s : State) : Host.Outcome State Fault Refusal :=
  privileged (fun s =>
    let s1 := s.advance
    .ok (if s1.th.asyncReady then s1 else { s1 with th := { s1.th with status := .idle } })) s

/-! ## SETVL and SETVLW (05 R139, R140) -/

/-- SETVL (05 R139). -/
def execSetvl (d a b : BitVec 5) (e : BitVec 2) (s : State) : Host.Outcome State Fault Refusal :=
  let r := Nat.min (if s.rd b = 0 then s.th.lanes else s.rdN b) (8 * 2 ^ (s.getCore s.core).gang)
  let old := s.held s.core s.thr
  let g := s.grant r
  let s2 := g.1.configure g.2 e.toNat
  let s3 := { s2 with th := { s2.th with vl := Nat.min (s.rdN a) s2.th.vlmax } }
  let s4 := if g.2 = old then s3 else s3.tailZero
  .next (s4.wrAdvance d (BitVec.ofNat 64 s3.th.vl))

/-- A space-0 access of `n` bytes with the causes of 04 R111 in its order. -/
def State.space0 (s : State) (a : Word) (n : Nat) (k : AKind) : M (Loc × State) :=
  match s.locateAt .v s.th.level false a.toNat n k with
  | .error e => .error (accTrap s e a.toNat 0 0 k)
  | .ok (l, s1) =>
    if k ≠ .write ∧ s1.poisonedLoc l n then .error (accTrap s1 .poison a.toNat 0 0 k) else .ok (l, s1)

/-- The lane groups of the current thread, in the order of 09 R246. -/
def State.myLanes (s : State) : List (Nat × Nat) :=
  (s.laneList s.core).filterMap fun l => if l.2.2.1 == .thread s.thr then some (l.1, l.2.1) else none
/-- What SETVLW is about to change. -/
def State.vconf (s : State) : VConf :=
  { ew := s.th.ew, vl := s.th.vl, vlmax := s.th.vlmax, vrlen := s.th.vrlen, estart := s.th.estart, v := s.th.v, m := s.th.m
    lat := s.lat s.core s.thr, lanes := s.myLanes }
/-- The grant of SETVLW with the configuration (05 R140); vl stays within vlmax until the status word gives it. -/
def State.setvlwGrant (s : State) (e : BitVec 2) : State :=
  let req := (s.lat s.core s.thr).req
  let g := s.grant (if req = 0 then s.th.lanes else req)
  let s1 := g.1.configure g.2 e.toNat
  { s1 with th := { s1.th with vl := Nat.min s1.th.vl s1.th.vlmax } }
/-- The tail zeroed where the grant has changed (01 R14, 09 R249). -/
def State.setvlwTail (s : State) (old : VConf) : State := if s.th.vrlen = 512 * old.lanes.length then s else s.tailZero
/-- That grant undone, since a SETVLW that traps changes nothing (05 R142) and one that is interrupted re-executes in full: as far as other
threads have left the lane groups, and one free for each thread to which it is owed (09 R244). A lane group that the map has withdrawn
meanwhile serves on (19 R406). -/
def State.setvlwUndo (s : State) (x : VConf) : State :=
  let core := s.core
  let s1 := (s.myLanes.filter fun l => !x.lanes.contains l).foldl (fun st l => st.releaseLane st.th l) s
  let back := x.lanes.filter fun l => !s1.myLanes.contains l
  let free := back.filter (s1.freeLanes core).contains
  let avail := (s1.freeLanes core).length - ((s1.owed core).filter (· != s.thr)).length
  let dead := back.filter fun l => (s1.laneList core).any fun y => y.1 == l.1 && y.2.1 == l.2 && y.2.2.1 == .dead
  let s2 := (free.take avail ++ dead).foldl (fun st l => st.setLane l.1 l.2 (.thread s.thr)) s1
  let s3 := (s2.setLat core s.thr { s2.lat core s.thr with req := x.lat.req, ask := x.lat.ask }).shares core
  { s3 with th := { s3.th with
      ew := x.ew, vl := x.vl, vlmax := x.vlmax, vrlen := x.vrlen, estart := x.estart, v := x.v, m := x.m } }

/-- SETVLW completes with a new vl (05 R140). -/
def State.setvlwDone (s : State) (d : BitVec 5) (old : VConf) (vl : Nat) : State :=
  (({ s with th := { s.th with vl := vl, status := .issuing } } : State).setvlwTail old).wrAdvance d (BitVec.ofNat 64 vl)

/-- One reading of the status word: the strip, the end, the failure, or the wait (05 R140, R141). A trap undoes the grant; while SETVLW
waits, what it has changed stays beside it. -/
def setvlwRead (d a b : BitVec 5) (e : BitVec 2) (old : VConf) (s : State) : M State :=
  match s.space0 (s.rd b) 8 .read with
  | .error (.trap t s1) => .error (.trap t (s1.setvlwUndo old))
  | .error x => .error x
  | .ok (l, s1) =>
    let x := s1.readLoc l 8
    let s1 := s1.noteReads [l]
    let p := s1.rdN a
    let hw := bits x 0 32
    if bitOf x 63 then .ok (({ s1 with th := { s1.th with hwfail := 1 } }).setvlwDone d old 0)
    else if p < hw then .ok (s1.setvlwDone d old (Nat.min (hw - p) s1.th.vlmax))
    else if bitOf x 62 then .ok (s1.setvlwDone d old 0)
    else .error (.park (.setvlw d a b e (s1.watch [l])) s1)

/-- What a SETVLW of the current thread that waits has changed (05 R142). -/
def Thread.old (t : Thread) : Option VConf := t.cv.bind Convoy.old
/-- SETVLW (05 R140): PRODFAIL, the checks of the status word, the grant, then the reading; one that has waited for the migration unit or a
link reads on. -/
def execSetvlw (d a b : BitVec 5) (e : BitVec 2) (s : State) : Host.Outcome State Fault Refusal :=
  finish (
    match s.th.old with
    | some old => setvlwRead d a b e old s
    | none =>
      if s.th.hwfail = 1 then raise s { cause := Cause.prodfail, tval := s.rd b }
      else do
        let (_, s1) ← s.space0 (s.rd b) 8 .read
        let u := s1.setvlwGrant e
        setvlwRead d a b e s1.vconf { u with th := { u.th with cv := some { e0 := s1.th.estart, old := some s1.vconf } } })

end Sys2Proof.Machine
end

