-- ==== Sys2Proof/Machine/VecMem.lean ====
section
/-! DEFINITION. Vector memory, atomics, links, VWAIT, the tag table and spill frames (06). -/
namespace Sys2Proof.Machine

/-! ## Performing a vector memory instruction (06 R166 to R177) -/

/-- A vector memory instruction: its space, element bytes, kind, governing mask, the address of an element, its class,
whether it reads the data it may find poisoned, whether it merges the elements of one address (06 R181), and how it performs elements, in
ascending order. -/
structure VMem where
  tile : Bool
  n : Nat
  kind : AKind
  k : BitVec 3
  addr : Nat → Nat
  ordered : Bool
  reads : Bool
  merges : Bool := false
  perform : State → List (Nat × Loc) → State

/-- The elements that an instruction stopped within itself has performed or, for VWAIT, found satisfied (assumption 10). -/
def State.partMask (s : State) : Nat := (s.th.cv.bind Convoy.part).getD 0
/-- The candidate set (06 R172, R173): the active elements from `start`, on a reissue those of fmask, that are not performed. -/
def State.cands (s : State) (k : BitVec 3) (start : Nat) (reissue : Bool) : List Nat :=
  (span start s.th.vl).filter fun i => s.active k i && (!reissue || s.th.fmask.testBit i) && !s.partMask.testBit i

/-- An access whose data is poisoned counts as poisoned (06 R177). -/
def withPoison (s : State) (m : VMem) (l : List (Nat × Nat × Except AErr Loc)) : List (Nat × Nat × Except AErr Loc) :=
  l.map fun x =>
    match x.2.2 with
    | .ok loc => if m.reads && s.poisonedLoc loc m.n then (x.1, x.2.1, .error .poison) else x
    | .error _ => x

/-- The elements that can be performed. -/
def goodElts (l : List (Nat × Nat × Except AErr Loc)) : List (Nat × Loc) :=
  l.filterMap fun x => match x.2.2 with
    | .ok loc => some (x.1, loc)
    | .error _ => none
/-- The elements that cannot, as a mask. -/
def badMask (l : List (Nat × Nat × Except AErr Loc)) : Nat :=
  l.foldl (fun m x => match x.2.2 with
    | .ok _ => m
    | .error _ => m ||| 2 ^ x.1) 0

/-- The traps in which nothing is performed (06 R171 steps 1 and 2, and step 3 in the unordered class). -/
def earlyErr (s : State) (m : VMem) (l : List (Nat × Nat × Except AErr Loc)) : Option Exn :=
  match firstErr AErr.isMisalign l with
  | some x => some (accTrap s x.2.2 x.2.1 x.1 1 m.kind)
  | none =>
    match firstErr AErr.isTilebnd l with
    | some x => some (accTrap s x.2.2 x.2.1 x.1 1 m.kind)
    | none => (if m.ordered then none else firstErr AErr.isProt l).map fun x => accTrap s x.2.2 x.2.1 x.1 1 m.kind

/-- A memory instruction stopped at element `k`, which estart names (06 R174, R175). -/
def State.stopAt (s : State) (k : Nat) : State := { s with th := { s.th with estart := k } }
/-- The elements below `k` performed. -/
def VMem.below (m : VMem) (s : State) (l : List (Nat × Nat × Except AErr Loc)) (k : Nat) : State :=
  m.perform s (goodElts (l.filter fun x => x.1 < k))
/-- At a fault at element `k` the elements below it are performed and estart names it; an element that waits is waited for, with nothing
performed and nothing changed meanwhile (06 R174, 13 R296, R312). -/
def VMem.stopped (m : VMem) (s : State) (l : List (Nat × Nat × Except AErr Loc)) (k a : Nat) (e : AErr) : M State :=
  .error (accTrap (if e.isStop then s else (m.below s l k).stopAt k) e a k 1 m.kind)

/-- The unordered class (06 R172): everything that can be performed is; the rest is fmask and traps. With an element that waits, the
instruction waits, with nothing performed and nothing changed (13 R296, R312). -/
def unorderedRun (s : State) (m : VMem) (l : List (Nat × Nat × Except AErr Loc)) : M State :=
  match firstErr AErr.isStop l with
  | some (i, a, e) => .error (accTrap s e a i 1 m.kind)
  | none =>
    let s1 := m.perform s (goodElts l)
    let s2 := { s1 with th := { s1.th with fmask := badMask l } }
    match pageErrs [] l with
    | [] =>
      match firstErr AErr.isPoison l with
      | some x => .error (accTrap s2 .poison x.2.1 x.1 1 m.kind)
      | none => .ok s2
    | ps => raise s2 (batchTrap s2 1 0 m.kind s2.th.ptroot ps)

/-- The ordered class (06 R174): the elements below the first fault are performed and estart names it. -/
def orderedRun (s : State) (m : VMem) (l : List (Nat × Nat × Except AErr Loc)) : M State :=
  match firstErr (fun _ => true) l with
  | none => .ok (m.perform s (goodElts l))
  | some (k, a, e) => m.stopped s l k a e

/-- The first-fault class (06 R176): a fault above the lowest active element trims vl and completes. -/
def firstFaultRun (s : State) (m : VMem) (l : List (Nat × Nat × Except AErr Loc)) : M State :=
  match firstErr (fun _ => true) l with
  | none => .ok (m.perform s (goodElts l))
  | some (k, a, e) =>
    if (s.partMask != 0 || l.any fun x => x.1 < k) && !e.isStop then
      let s1 := m.below s l k
      .ok { s1 with th := { s1.th with vl := k } }
    else m.stopped s l k a e

/-- The accesses of an instruction after the run-ahead pipeline: its candidates with their addresses and locations (06 R171, 13 R306). -/
def State.runAhead (s : State) (m : VMem) (start : Nat) : State × List (Nat × Nat × Except AErr Loc) :=
  let cs := s.cands m.k start (s.th.reissue && !m.ordered)
  s.locateAll .v s.th.level m.tile m.n m.kind (cs.map fun i => (i, m.addr i))

/-- The checks of the run-ahead pipeline (06 R171, 13 R306), then the class. -/
def vmemRun (m : VMem) (cls : State → VMem → List (Nat × Nat × Except AErr Loc) → M State) (start : Nat) (s : State) :
    M State :=
  let (s1, l) := s.runAhead m start
  match earlyErr s1 m l with
  | some e => .error e
  | none => cls s1 m (withPoison s1 m l)

/-- A convoy-eligible memory instruction: the width check (06 R166), then its class. -/
def vmemMember (z : BitVec 2) (m : State → VMem) (cls : State → VMem → List (Nat × Nat × Except AErr Loc) → M State)
    (c : BitVec 1) (s : State) : M State := do
  let (s1, start) := s.begin
  if z.toNat ≠ s1.th.ew then illegal s1
  else
    let s2 ← vmemRun (m s1) cls start s1
    .ok (s2.endMember c)

/-- The class that `ORD` selects: ordered with .o (06 R165). -/
def ordClass (o : BitVec 2) : Bool := o == 1

/-- The addresses of the unit-stride, strided and indexed forms (06 R167), and of VAMO and VWAIT (06 R186). -/
def unitAddr (base n i : Nat) : Nat := (base + i * n) % 2 ^ 64
def strideAddr (base : Nat) (stride : Word) (i : Nat) : Nat := (((base : Int) + i * stride.toInt) % (2 ^ 64 : Nat)).toNat
def State.idxAddr (s : State) (base n : Nat) (x : BitVec 5) (i : Nat) : Nat :=
  (base + elt (s.vreg x) (8 * n) i * n) % 2 ^ 64

/-- Loads write the element of the register (06 R178). -/
def loadElts (d : BitVec 5) (n : Nat) (s : State) (l : List (Nat × Loc)) : State :=
  (s.noteReads (l.map (·.2))).setV d (l.foldl (fun img p => setElt img (8 * n) p.1 (s.readLoc p.2 n)) (s.vreg d))
/-- Stores write memory in ascending element order (06 R170, R178). -/
def storeElts (d : BitVec 5) (n : Nat) (s : State) (l : List (Nat × Loc)) : State :=
  l.foldl (fun t p => t.writeLoc p.2 n (elt (s.vreg d) (8 * n) p.1)) s

/-- A load by its address form (06 R178). -/
def vload (addr : State → Nat → Nat → Nat) (d : BitVec 5) (k : BitVec 3) (t : BitVec 1) (z o : BitVec 2) (s : State) : VMem :=
  let n := 2 ^ z.toNat
  { tile := t == 1, n := n, kind := .read, k := k, addr := addr s n, ordered := ordClass o, reads := true,
    perform := loadElts d n }
/-- A store by its address form (06 R178). -/
def vstore (addr : State → Nat → Nat → Nat) (d : BitVec 5) (k : BitVec 3) (t : BitVec 1) (z o : BitVec 2) (s : State) : VMem :=
  let n := 2 ^ z.toNat
  { tile := t == 1, n := n, kind := .write, k := k, addr := addr s n, ordered := ordClass o, reads := false,
    perform := storeElts d n }
/-- The class of a load or store: ordered with .o, else unordered (06 R165). -/
def ordRun (o : BitVec 2) : State → VMem → List (Nat × Nat × Except AErr Loc) → M State :=
  if ordClass o then orderedRun else unorderedRun

/-- The accesses of VLD (06 R167, R178). -/
def memVld (d b : BitVec 5) (k : BitVec 3) (t : BitVec 1) (z o : BitVec 2) : State → VMem :=
  vload (fun s n => unitAddr (s.rdN b) n) d k t z o
/-- VLD (06 R167, R178). -/
def execVld (d b : BitVec 5) (k : BitVec 3) (t : BitVec 1) (z o : BitVec 2) (c : BitVec 1) (s : State) : Host.Outcome State Fault Refusal :=
  finish (vmemMember z (memVld d b k t z o) (ordRun o) c s)
/-- The accesses of VLDS (06 R167, R178). -/
def memVlds (d b x : BitVec 5) (k : BitVec 3) (t : BitVec 1) (z o : BitVec 2) : State → VMem :=
  vload (fun s _ => strideAddr (s.rdN b) (s.rd x)) d k t z o
/-- VLDS (06 R167, R178). -/
def execVlds (d b x : BitVec 5) (k : BitVec 3) (t : BitVec 1) (z o : BitVec 2) (c : BitVec 1) (s : State) : Host.Outcome State Fault Refusal :=
  finish (vmemMember z (memVlds d b x k t z o) (ordRun o) c s)
/-- The accesses of VLDX (06 R167, R178). -/
def memVldx (d b x : BitVec 5) (k : BitVec 3) (t : BitVec 1) (z o : BitVec 2) : State → VMem :=
  vload (fun s n => s.idxAddr (s.rdN b) n x) d k t z o
/-- VLDX (06 R167, R178). -/
def execVldx (d b x : BitVec 5) (k : BitVec 3) (t : BitVec 1) (z o : BitVec 2) (c : BitVec 1) (s : State) : Host.Outcome State Fault Refusal :=
  finish (vmemMember z (memVldx d b x k t z o) (ordRun o) c s)
/-- The accesses of VST (06 R167, R178). -/
def memVst (d b : BitVec 5) (k : BitVec 3) (t : BitVec 1) (z o : BitVec 2) : State → VMem :=
  vstore (fun s n => unitAddr (s.rdN b) n) d k t z o
/-- VST (06 R167, R178). -/
def execVst (d b : BitVec 5) (k : BitVec 3) (t : BitVec 1) (z o : BitVec 2) (c : BitVec 1) (s : State) : Host.Outcome State Fault Refusal :=
  finish (vmemMember z (memVst d b k t z o) (ordRun o) c s)
/-- The accesses of VSTS (06 R167, R178). -/
def memVsts (d b x : BitVec 5) (k : BitVec 3) (t : BitVec 1) (z o : BitVec 2) : State → VMem :=
  vstore (fun s _ => strideAddr (s.rdN b) (s.rd x)) d k t z o
/-- VSTS (06 R167, R178). -/
def execVsts (d b x : BitVec 5) (k : BitVec 3) (t : BitVec 1) (z o : BitVec 2) (c : BitVec 1) (s : State) : Host.Outcome State Fault Refusal :=
  finish (vmemMember z (memVsts d b x k t z o) (ordRun o) c s)
/-- The accesses of VSTX (06 R167, R178). -/
def memVstx (d b x : BitVec 5) (k : BitVec 3) (t : BitVec 1) (z o : BitVec 2) : State → VMem :=
  vstore (fun s n => s.idxAddr (s.rdN b) n x) d k t z o
/-- VSTX (06 R167, R178). -/
def execVstx (d b x : BitVec 5) (k : BitVec 3) (t : BitVec 1) (z o : BitVec 2) (c : BitVec 1) (s : State) : Host.Outcome State Fault Refusal :=
  finish (vmemMember z (memVstx d b x k t z o) (ordRun o) c s)
/-- The accesses of VLDFF (06 R176). -/
def memVldff (d b : BitVec 5) (k : BitVec 3) (t : BitVec 1) (z o : BitVec 2) (s : State) : VMem :=
  { memVld d b k t z o s with ordered := true }
/-- VLDFF (06 R176). -/
def execVldff (d b : BitVec 5) (k : BitVec 3) (t : BitVec 1) (z o : BitVec 2) (s : State) : Host.Outcome State Fault Refusal :=
  finish (vmemMember z (memVldff d b k t z o) firstFaultRun 0 s)

/-! ## Scatter-add (06 R180 to R182) -/

/-- The floating format of a scatter-add, none for an integer add (06 R180). -/
def addFmt (f : BitVec 1) (z : Nat) : Option Fmt :=
  if f = 0 then none else if z = 1 then some .bf16 else if z = 2 then some .f32 else some .f64
/-- One add of a scatter-add: modulo 2^8n, or floating under RNE (06 R181). -/
def bankAdd (f : Option Fmt) (n x y : Nat) : Rounded :=
  match f with
  | none => { val := (x + y) % 2 ^ (8 * n) }
  | some t => fpAdd t .rne 0 (dec t x) (dec t y)
/-- A bank add to come: the address, its location and the sum. -/
abbrev BankAdd := Nat × Loc × Nat
/-- One performed element taken into the in-core sums, with the flags of its add: it joins the sum of its address, or begins one. -/
def mergeAdd (f : Option Fmt) (n : Nat) (val addr : Nat → Nat) (acc : List BankAdd × Nat) (p : Nat × Loc) : List BankAdd × Nat :=
  match acc.1.find? fun q => q.1 == addr p.1 && !q.2.1.isHost with
  | some q =>
    let r := bankAdd f n q.2.2 (val p.1)
    (acc.1.map fun b => if b.1 = addr p.1 then (b.1, b.2.1, r.val) else b, acc.2 ||| r.flags)
  | none => (acc.1 ++ [(addr p.1, p.2, val p.1)], acc.2)
/-- The distinct addresses among performed elements, each with the in-core sum of its elements, and the flags of those adds; an element
at a host-resident page stands alone. -/
def mergeAdds (f : Option Fmt) (n : Nat) (val addr : Nat → Nat) (l : List (Nat × Loc)) : List BankAdd × Nat :=
  l.foldl (mergeAdd f n val addr) ([], 0)
/-- One bank add: an indivisible read-modify-write that sets no flag (06 R181). -/
def State.bankPut (f : Option Fmt) (n : Nat) (s : State) (q : BankAdd) : State :=
  (s.storeLoc q.2.1 n (bankAdd f n (s.readLoc q.2.1 n) q.2.2).val).noteAtomic q.2.1 n 0 q.2.2
/-- The bank adds, one for each address. -/
def applyAdds (f : Option Fmt) (n : Nat) (s : State) (l : List BankAdd) : State := l.foldl (State.bankPut f n) s
/-- The accesses of VSTXA (06 R180, R181); bit 63 of a tile address is ignored (06 R168). -/
def memVstxa (d : BitVec 4) (f : BitVec 1) (b x : BitVec 5) (k : BitVec 3) (t : BitVec 1) (z : BitVec 2) (s : State) : VMem :=
  let fmt := addFmt f z.toNat
  let n := 2 ^ z.toNat
  { tile := t == 1, n := n, kind := .rmw, k := k, addr := s.idxAddr (s.rdN b) n x, ordered := false, reads := true
    merges := true
    perform := fun s l =>
      let m := mergeAdds fmt n (elt (s.vreg (d.setWidth 5)) (8 * n))
        (fun i => s.idxAddr (s.rdN b) n x i % (if t = 1 then 2 ^ 63 else 2 ^ 64)) l
      (applyAdds fmt n s m.1).mark (if f = 1 then m.2 else 0) 0 }
/-- VSTXA (06 R180, R181); f64 needs vf64. -/
def execVstxa (d : BitVec 4) (f : BitVec 1) (b x : BitVec 5) (k : BitVec 3) (t : BitVec 1) (z o : BitVec 2) (c : BitVec 1)
    (s : State) : Host.Outcome State Fault Refusal :=
  if f = 1 ∧ z = 3 ∧ s.hasFeat 0 = false ∧ s.th.ew = 3 then finish (illegal s.begin.1)
  else finish (vmemMember z (memVstxa d f b x k t z) (fun s m l => let _ := o; unorderedRun s m l) c s)

/-! ## Links (06 R183 to R185) -/

/-- Linking the line of a location to the current thread; host memory keeps no tag (06 R183, R198). -/
def State.link (s : State) (l : Loc) : State :=
  let tags := s.tags.filter fun t => !t.on l
  match l with
  | .dev p => { s with tags := tags ++ [{ h := s.cur, line := p / 64 }] }
  | .hostmem _ => s
  | .tile c g o => { s with tags := tags ++ [{ h := s.cur, tile := some (c, g), line := o / 64 }] }
/-- The accesses of VGLL: it loads as VLDX and links the lines (06 R184). -/
def memVgll (d b x : BitVec 5) (k : BitVec 3) (t : BitVec 1) (z o : BitVec 2) (s : State) : VMem :=
  let n := 2 ^ z.toNat
  { tile := t == 1, n := n, kind := .read, k := k, addr := s.idxAddr (s.rdN b) n x, ordered := o == 2, reads := true
    perform := fun s l => l.foldl (fun t p => t.link p.2) (loadElts d n s l) }
/-- VGLL (06 R184); ordered with .acq. -/
def execVgll (d b x : BitVec 5) (k : BitVec 3) (t : BitVec 1) (z o : BitVec 2) (c : BitVec 1) (s : State) : Host.Outcome State Fault Refusal :=
  finish (vmemMember z (memVgll d b x k t z o) (if o = 2 then orderedRun else unorderedRun) c s)
/-- The elements of VSCC (06 R185): a store where the thread's link holds, clearing the mask bit. -/
def sccElts (d : BitVec 5) (k : BitVec 3) (n : Nat) (s : State) (l : List (Nat × Loc)) : State :=
  l.foldl (fun t p =>
    if t.tags.any (fun g => g.h == t.cur && g.on p.2) then
      let t1 := t.writeLoc p.2 n (elt (s.vreg d) (8 * n) p.1)
      t1.setM k.toNat (setBit (t1.mreg k.toNat) p.1 false)
    else t) s
/-- The accesses of VSCC (06 R185). -/
def memVscc (d b x : BitVec 5) (k : BitVec 3) (t : BitVec 1) (z o : BitVec 2) (s : State) : VMem :=
  let n := 2 ^ z.toNat
  { tile := t == 1, n := n, kind := .write, k := k, addr := s.idxAddr (s.rdN b) n x, ordered := o == 3, reads := true
    perform := sccElts d k n }
/-- VSCC (06 R185); ordered with .rel. -/
def execVscc (d b x : BitVec 5) (k : BitVec 3) (t : BitVec 1) (z o : BitVec 2) (c : BitVec 1) (s : State) : Host.Outcome State Fault Refusal :=
  finish (vmemMember z (memVscc d b x k t z o) (if o = 3 then orderedRun else unorderedRun) c s)

/-! ## Atomics (06 R186 to R189) -/

/-- The elements of VAMO (06 R187): each an indivisible read-modify-write, in ascending order; the register receives the old
values; cas compares with v[D] and stores v[D+1]. -/
def vamoElts (op : Nat) (d : BitVec 5) (n : Nat) (s : State) (l : List (Nat × Loc)) : State :=
  l.foldl (fun t p =>
    let w := 8 * n
    let old := BitVec.ofNat w (t.readLoc p.2 n)
    let x := BitVec.ofNat w (elt (s.vreg d) w p.1)
    let b := if op = 9 then BitVec.ofNat w (elt (s.vreg (d + 1)) w p.1) else x
    let t1 := match amoNew op old b x with
      | some v => t.storeLoc p.2 n v.toNat
      | none => t
    (t1.noteAtomic p.2 n op b.toNat).setV d (setElt (t1.vreg d) w p.1 old.toNat)) s
/-- The accesses of VAMO (06 R186, R187); with an ordering it is of the ordered class (06 R189). -/
def memVamo (op n : Nat) (d a x : BitVec 5) (k : BitVec 3) (o : BitVec 2) (s : State) : VMem :=
  { tile := bitOf (s.rdN a) 63, n := n, kind := .rmw, k := k, addr := s.idxAddr (s.rdN a % 2 ^ 63) n x, ordered := o != 0
    reads := true, perform := vamoElts op d n }
/-- VAMO: the width check, the class that `ORD` selects (06 R189), then estart := 0. It is no convoy member. -/
def vamo (op n : Nat) (d a x : BitVec 5) (k : BitVec 3) (o : BitVec 2) (s : State) : Host.Outcome State Fault Refusal :=
  finish (do
    let (s1, start) := s.begin
    if 8 * n ≠ ewBits s1.th.ew then illegal s1
    else
      let s2 ← vmemRun (memVamo op n d a x k o s1) (if o = 0 then unorderedRun else orderedRun) start s1
      .ok ({ s2 with th := { s2.th with estart := 0, reissue := false } }).advance)

/-- VAMO.ADD.W (06 R187). -/
def execVamoWAdd (d a x : BitVec 5) (k : BitVec 3) (o : BitVec 2) (s : State) : Host.Outcome State Fault Refusal := vamo 0 4 d a x k o s
/-- VAMO.AND.W (06 R187). -/
def execVamoWAnd (d a x : BitVec 5) (k : BitVec 3) (o : BitVec 2) (s : State) : Host.Outcome State Fault Refusal := vamo 1 4 d a x k o s
/-- VAMO.OR.W (06 R187). -/
def execVamoWOr (d a x : BitVec 5) (k : BitVec 3) (o : BitVec 2) (s : State) : Host.Outcome State Fault Refusal := vamo 2 4 d a x k o s
/-- VAMO.XOR.W (06 R187). -/
def execVamoWXor (d a x : BitVec 5) (k : BitVec 3) (o : BitVec 2) (s : State) : Host.Outcome State Fault Refusal := vamo 3 4 d a x k o s
/-- VAMO.MIN.W (06 R187). -/
def execVamoWMin (d a x : BitVec 5) (k : BitVec 3) (o : BitVec 2) (s : State) : Host.Outcome State Fault Refusal := vamo 4 4 d a x k o s
/-- VAMO.MAX.W (06 R187). -/
def execVamoWMax (d a x : BitVec 5) (k : BitVec 3) (o : BitVec 2) (s : State) : Host.Outcome State Fault Refusal := vamo 5 4 d a x k o s
/-- VAMO.MINN.W (06 R187). -/
def execVamoWMinn (d a x : BitVec 5) (k : BitVec 3) (o : BitVec 2) (s : State) : Host.Outcome State Fault Refusal := vamo 6 4 d a x k o s
/-- VAMO.MAXN.W (06 R187). -/
def execVamoWMaxn (d a x : BitVec 5) (k : BitVec 3) (o : BitVec 2) (s : State) : Host.Outcome State Fault Refusal := vamo 7 4 d a x k o s
/-- VAMO.SWAP.W (06 R187). -/
def execVamoWSwap (d a x : BitVec 5) (k : BitVec 3) (o : BitVec 2) (s : State) : Host.Outcome State Fault Refusal := vamo 8 4 d a x k o s
/-- VAMO.CAS.W (06 R187). -/
def execVamoWCas (d a x : BitVec 5) (k : BitVec 3) (o : BitVec 2) (s : State) : Host.Outcome State Fault Refusal := vamo 9 4 d a x k o s
/-- VAMO.ADD.D (06 R187). -/
def execVamoDAdd (d a x : BitVec 5) (k : BitVec 3) (o : BitVec 2) (s : State) : Host.Outcome State Fault Refusal := vamo 0 8 d a x k o s
/-- VAMO.AND.D (06 R187). -/
def execVamoDAnd (d a x : BitVec 5) (k : BitVec 3) (o : BitVec 2) (s : State) : Host.Outcome State Fault Refusal := vamo 1 8 d a x k o s
/-- VAMO.OR.D (06 R187). -/
def execVamoDOr (d a x : BitVec 5) (k : BitVec 3) (o : BitVec 2) (s : State) : Host.Outcome State Fault Refusal := vamo 2 8 d a x k o s
/-- VAMO.XOR.D (06 R187). -/
def execVamoDXor (d a x : BitVec 5) (k : BitVec 3) (o : BitVec 2) (s : State) : Host.Outcome State Fault Refusal := vamo 3 8 d a x k o s
/-- VAMO.MIN.D (06 R187). -/
def execVamoDMin (d a x : BitVec 5) (k : BitVec 3) (o : BitVec 2) (s : State) : Host.Outcome State Fault Refusal := vamo 4 8 d a x k o s
/-- VAMO.MAX.D (06 R187). -/
def execVamoDMax (d a x : BitVec 5) (k : BitVec 3) (o : BitVec 2) (s : State) : Host.Outcome State Fault Refusal := vamo 5 8 d a x k o s
/-- VAMO.MINN.D (06 R187). -/
def execVamoDMinn (d a x : BitVec 5) (k : BitVec 3) (o : BitVec 2) (s : State) : Host.Outcome State Fault Refusal := vamo 6 8 d a x k o s
/-- VAMO.MAXN.D (06 R187). -/
def execVamoDMaxn (d a x : BitVec 5) (k : BitVec 3) (o : BitVec 2) (s : State) : Host.Outcome State Fault Refusal := vamo 7 8 d a x k o s
/-- VAMO.SWAP.D (06 R187). -/
def execVamoDSwap (d a x : BitVec 5) (k : BitVec 3) (o : BitVec 2) (s : State) : Host.Outcome State Fault Refusal := vamo 8 8 d a x k o s
/-- VAMO.CAS.D (06 R187). -/
def execVamoDCas (d a x : BitVec 5) (k : BitVec 3) (o : BitVec 2) (s : State) : Host.Outcome State Fault Refusal := vamo 9 8 d a x k o s

/-! ## Stops within a memory instruction (06 R175, 09 R258) -/

/-- The accesses of a word that pre-emption may stop between elements (06 R175), and whether its elements may be performed twice: so the
unordered loads and stores, but not a load over its own indices, which a repetition would find overwritten. -/
def memOfWord (w : Nat) : Option (Bool × (State → VMem)) :=
  let d := BitVec.ofNat 5 (bits w 8 5)
  let b := BitVec.ofNat 5 (bits w 13 5)
  let x := BitVec.ofNat 5 (bits w 18 5)
  let k := BitVec.ofNat 3 (bits w 23 3)
  let t := BitVec.ofNat 1 (bits w 26 1)
  let z := BitVec.ofNat 2 (bits w 27 2)
  let o := BitVec.ofNat 2 (bits w 29 2)
  match bits w 0 7 with
  | 0x40 => some (!ordClass o, memVld d b k t z o)
  | 0x41 => some (!ordClass o, memVlds d b x k t z o)
  | 0x42 => some (!ordClass o && d != x, memVldx d b x k t z o)
  | 0x43 => some (false, memVldff d b k t z o)
  | 0x44 => some (!ordClass o, memVst d b k t z o)
  | 0x45 => some (!ordClass o, memVsts d b x k t z o)
  | 0x46 => some (!ordClass o, memVstx d b x k t z o)
  | 0x47 => some (false, memVstxa (d.setWidth 4) (BitVec.ofNat 1 (bits w 12 1)) b x k t z)
  | 0x48 => some (false, memVgll d b x k t z o)
  | 0x49 => some (false, memVscc d b x k t z o)
  | 0x4A => some (false, memVamo (bits w 26 4) 4 d b x k (BitVec.ofNat 2 (bits w 30 2)))
  | 0x4B => some (false, memVamo (bits w 26 4) 8 d b x k (BitVec.ofNat 2 (bits w 30 2)))
  | _ => none
/-- The elements of an instruction that may be performed above the one at which it is stopped: those of `above`, none of them before a lower
element of its address (06 R170). -/
def VMem.ahead (m : VMem) (above k : Nat) (l : List (Nat × Nat × Except AErr Loc)) : List Nat :=
  let same := fun a b => a % (if m.tile then 2 ^ 63 else 2 ^ 64) == b % (if m.tile then 2 ^ 63 else 2 ^ 64)
  (l.filter fun y => decide (k ≤ y.1) && above.testBit y.1
    && !l.any fun w => decide (k ≤ w.1) && decide (w.1 < y.1) && !above.testBit w.1 && same w.2.1 y.2.1).map (·.1)
/-- A memory instruction that stops by itself after some of its elements, with those that are performed recorded; none where it does not come
that far without a fault or a wait, and is executed whole. One that merges the elements of an address has performed none: those below the
element at which it stands are merged and performed when a cause stops it, and with the others when none does (06 R175, R181). -/
def State.stopMember (s : State) (c : Cut) (again : Bool) (f : State → VMem) : Option State :=
  let (s1, start) := s.begin
  let m := f s1
  let (s2, l0) := s1.runAhead m start
  let l := withPoison s2 m l0
  if 8 * m.n ≠ ewBits s1.th.ew ∨ (earlyErr s2 m l0).isSome ∨ (firstErr (fun _ => true) (l.take c.after)).isSome then none
  else
    match l[c.after]? with
    | none => none
    | some x =>
      let up := if again then m.ahead c.above x.1 l else []
      let good := if m.merges then [] else goodElts (l.filter fun y => decide (y.1 < x.1) || up.contains y.1)
      let t := m.perform s2 good
      some { t with th := { t.th with
        cv := t.th.cv.map fun v => { v with
          part := some (good.foldl (fun n p => n ||| 2 ^ p.1) s1.partMask), upTo := if m.merges then some x.1 else none } } }
/-- Whether an element is one that an instruction which merges does not pass when a cause stops it: that at which it stands, those above, and
one that cannot be performed. -/
def VMem.standsAt (m : VMem) (s : State) (y : Nat × Nat × Except AErr Loc) : Bool :=
  match s.th.cv.bind Convoy.upTo with
  | some n => m.merges && (decide (n ≤ y.1) || !y.2.2.isOk)
  | none => false
/-- The place at which an asynchronous cause stops a memory instruction that has started: with an element waited for, the elements below the
lowest that cannot be performed are, and estart names it; else estart names the lowest that is not yet performed (06 R175, 09 R256,
13 R296, R312). -/
def State.stopStarted (s : State) : State :=
  let waits := match s.th.status with
    | .parked (.stall _) | .parked (.migrate _ _) | .parked (.link _) | .parked (.reply _ _) => true
    | _ => false
  if !waits && (s.th.cv.bind Convoy.part).isNone then s
  else
    match memOfWord s.word.toNat with
    | none => s
    | some f =>
      let (s1, start) := s.begin
      let m := f.2 s1
      let (s2, l0) := s1.runAhead m start
      let l := withPoison s2 m l0
      match l.head? with
      | none => s
      | some x =>
        match (if (earlyErr s2 m l0).isNone then l.find? fun y => (waits && !y.2.2.isOk) || m.standsAt s y else none) with
        | some (k, _) => (m.below s2 l k).stopAt k
        | none => s2.stopAt x.1

/-! ## VWAIT (06 R190, R191) -/

/-- The conditions of VWAIT (06 R190). -/
def waitCond {w : Nat} (q : Nat) (x y : BitVec w) : Bool :=
  match q with
  | 0 => x == y | 1 => x != y | 2 => x.slt y | 3 => !x.slt y | 4 => x.ult y | _ => !x.ult y
/-- One evaluation: the checks of R171 over the elements not yet done, POISON at the lowest poisoned one, and completion or
parking with the elements now done, which are remembered too where an element waits for something else. -/
def vwaitEval (d a x : BitVec 5) (k : BitVec 3) (z : BitVec 1) (q : BitVec 3) (done : Nat) (s : State) : M State :=
  let n := if z = 0 then 4 else 8
  let base := s.rdN a
  let todo := (s.actives k).filter fun i => !done.testBit i
  let (s1, l) := s.locateAll .v s.th.level (bitOf base 63) n .read
    (todo.map fun i => (i, s.idxAddr (base % 2 ^ 63) n x i))
  let stops := firstErr AErr.isStop l
  match areaErr s1 1 .read (l.filter fun y => match y.2.2 with | .error e => !e.isStop | .ok _ => true) with
  | some e => .error e
  | none =>
    let good := goodElts l
    match l.find? fun y => match y.2.2 with
      | .ok loc => s1.poisonedLoc loc n
      | .error _ => false with
    | some y => .error (accTrap s1 .poison y.2.1 y.1 1 .read)
    | none =>
      let done' := good.foldl (fun m p =>
        if waitCond q.toNat (BitVec.ofNat (8 * n) (s1.readLoc p.2 n)) (BitVec.ofNat (8 * n) (elt (s1.vreg d) (8 * n) p.1))
        then m ||| 2 ^ p.1 else m) done
      let s1 := s1.noteReads (good.map (·.2))
      match stops with
      | some (i, b, e) =>
        .error (accTrap { s1 with th := { s1.th with cv := s1.th.cv.map fun c => { c with part := some done' } } } e b i 1 .read)
      | none =>
        if good.all fun p => done'.testBit p.1 then
          .ok ({ s1 with th := { s1.th with status := .issuing } }).advance
        else .error (.park (.vwait d a x k z q done' (s1.watch ((good.filter fun p => !done'.testBit p.1).map (·.2)))) s1)
/-- VWAIT: whole-vector, at the width that `SZ` names (06 R190). -/
def execVwait (d a x : BitVec 5) (k : BitVec 3) (z : BitVec 1) (q : BitVec 3) (s : State) : Host.Outcome State Fault Refusal :=
  finish (
    let (s1, start) := s.begin
    if start ≠ 0 ∨ ewBits s1.th.ew ≠ (if z = 0 then 32 else 64) then illegal s1
    else vwaitEval d a x k z q s1.partMask s1)

/-! ## The tag table (06 R192 to R194) -/

/-- The allocation that holds the current thread's tag table: that of its core, in a gang the first one. -/
def State.tagAlloc (s : State) : Alloc := s.alloc s.core s.th.group
/-- The set of a key in a table of `sets` sets (06 R192). -/
def tagSet (key sets : Nat) : Nat :=
  ((bits key 48 16) ^^^ (bits key 32 16) ^^^ (bits key 16 16) ^^^ (bits key 0 16)) % sets
/-- The lookup of one key: its slot, or bit w−1 with the victim (06 R193). -/
def tagLookup (t : Alloc) (slots w key : Nat) : Nat :=
  let set := tagSet key (slots / 4)
  let ways := (List.range 4).map fun y => 4 * set + y
  match ways.find? fun sl => t.tags.look sl == some key with
  | some sl => sl
  | none =>
    2 ^ (w - 1) + (match ways.find? fun sl => (t.tags.look sl).isNone with
      | some sl => sl
      | none => 4 * set + t.rotate.get set 0)
/-- Whether TAGL and TAGW may run: estart zero, 32-bit or 64-bit elements (06 R193). -/
def tagPre (s : State) (start : Nat) : Bool := start == 0 && (s.th.ew == 2 || s.th.ew == 3)
/-- TAGL: every active element looks up the table as older instructions left it. -/
def execTagl (d a : BitVec 5) (k : BitVec 3) (s : State) : Host.Outcome State Fault Refusal :=
  finish (
    let (s1, start) := s.begin
    if tagPre s1 start = false then illegal s1
    else
      .ok (s1.permute d k fun i => tagLookup s1.tagAlloc s1.group.tagSlots (ewBits s1.th.ew) (s1.ve a i)).advance)
/-- One element of TAGW: the slot becomes invalid, or takes the key and may advance its set's pointer. -/
def tagPut (w : Nat) (t : Alloc) (key slot : Nat) : Alloc :=
  let sl := slot % 2 ^ (w - 1)
  if bitOf slot (w - 1) then { t with tags := t.tags.erase sl }
  else
    let set := sl / 4
    let rp := t.rotate.get set 0
    { t with tags := t.tags.set sl key, rotate := if sl % 4 = rp then t.rotate.set set ((rp + 1) % 4) else t.rotate }
/-- TAGW: a slot at or above T traps TILEBND with nothing written, its number in stval (DEDUCED, assumption 54); else the elements write in
ascending order. -/
def execTagw (a b : BitVec 5) (k : BitVec 3) (s : State) : Host.Outcome State Fault Refusal :=
  finish (
    let (s1, start) := s.begin
    if tagPre s1 start = false then illegal s1
    else
      let w := ewBits s1.th.ew
      let act := (span 0 s1.th.vl).filter (s1.active k)
      match act.find? fun i => decide (s1.group.tagSlots ≤ s1.ve b i % 2 ^ (w - 1)) with
      | some i =>
        raise s1 { cause := Cause.tilebnd, tval := BitVec.ofNat 64 (s1.ve b i % 2 ^ (w - 1)), elem := i }
      | none =>
        let t := act.foldl (fun t i => tagPut w t (s1.ve a i) (s1.ve b i)) s1.tagAlloc
        .ok (s1.setAlloc s1.core s1.th.group t).advance)

/-! ## Spill frames (06 R195 to R197) -/

/-- A size rounded up to a multiple of 64. -/
def up64 (n : Nat) : Nat := (n + 63) / 64 * 64
/-- The registers that a set names, in ascending number. -/
def regSet (n set : Nat) : List Nat := (List.range n).filter set.testBit
/-- The bytes of a register body and of a mask body (06 R196). -/
def vbody (vl w : Nat) : Nat := up64 (vl * w / 8)
def mbody (vl : Nat) : Nat := up64 ((vl + 7) / 8)
/-- The bytes of a frame (06 R196). -/
def frameSize (vl w vset mset : Nat) : Nat :=
  64 + (regSet 32 vset).length * vbody vl w + (regSet 8 mset).length * mbody vl
/-- The image of a spill frame: header, register bodies and mask bodies (06 R196). -/
def State.spillImage (s : State) (vset mset : Nat) : Nat :=
  let w := ewBits s.th.ew
  let vl := s.th.vl
  let head := 1 + s.th.ew * 2 ^ 14 + vl * 2 ^ 16 + vset * 2 ^ 32 + mset * 2 ^ 64
  let bodies := (regSet 32 vset).map (fun r => (vbody vl w, s.th.v.toArray.getD r 0 % 2 ^ (vl * w)))
    ++ (regSet 8 mset).map (fun r => (mbody vl, s.mreg r % 2 ^ vl))
  (bodies.foldl (fun (acc : Nat × Nat) b => (acc.1 + b.1, acc.2 + b.2 * 2 ^ (8 * acc.1))) (64, head)).2
/-- VSPILL (06 R197). -/
def execVspill (a b : BitVec 5) (t : BitVec 1) (s : State) : Host.Outcome State Fault Refusal :=
  finish (
    let (s1, start) := s.begin
    if s1.rdN a % 64 ≠ 0 then raise s1 { cause := Cause.misalign, tval := s1.rd a }
    else if start ≠ 0 then illegal s1
    else do
      let vset := bits (s1.rdN b) 0 32
      let mset := bits (s1.rdN b) 32 8
      let s2 ← s1.storeArea .v (t == 1) (s1.rdN a) (frameSize s1.th.vl (ewBits s1.th.ew) vset mset) (s1.spillImage vset mset) 4
      .ok s2.advance)
/-- Whether a frame header fails the checks of VFILL (06 R197). -/
def frameBad (hd ew vlmax : Nat) : Bool :=
  bits hd 0 8 != 1 || bits hd 8 6 != 0 || bits hd 72 440 != 0 || bits hd 14 2 != ew || decide (vlmax < bits hd 16 16)
/-- The registers that a frame names take its elements below `VL` and zero above, to vlmax. -/
def State.fillRegs (s : State) (x : Nat) : State :=
  let w := ewBits s.th.ew
  let vl := bits x 16 16
  let vmax := s.th.vlmax
  let s1 := ((regSet 32 (bits x 32 32)).foldl (fun (acc : Nat × State) r =>
    let body := bits x (8 * acc.1) (vl * w)
    let old := acc.2.th.v.toArray.getD r 0
    (acc.1 + vbody vl w,
      { acc.2 with th := { acc.2.th with v := acc.2.th.v.setIfInBounds r (setBits old 0 (vmax * w) body) } })) (64, s))
  ((regSet 8 (bits x 64 8)).foldl (fun (acc : Nat × State) r =>
    let body := bits x (8 * acc.1) vl
    (acc.1 + mbody vl, acc.2.setM r (setBits (acc.2.mreg r) 0 vmax body))) s1).2
/-- VFILL: the header is read and checked first, then the whole frame (06 R197). -/
def execVfill (a : BitVec 5) (t : BitVec 1) (s : State) : Host.Outcome State Fault Refusal :=
  finish (
    let (s1, start) := s.begin
    if s1.rdN a % 64 ≠ 0 then raise s1 { cause := Cause.misalign, tval := s1.rd a }
    else if start ≠ 0 then illegal s1
    else do
      let (hd, s2) ← s1.fetchArea .v (t == 1) (s1.rdN a) 64 4
      if frameBad hd s2.th.ew s2.th.vlmax then illegal s2
      else
        let n := frameSize (bits hd 16 16) (ewBits s2.th.ew) (bits hd 32 32) (bits hd 64 8)
        let (x, s3) ← s2.fetchArea .v (t == 1) (s2.rdN a) n 4
        .ok (s3.fillRegs x).advance)

end Sys2Proof.Machine
end

