-- ==== Sys2Proof/Machine/Stream.lean ====
section
/-! DEFINITION. Stream channels, transfers and rings (07 R213 to R224), and the device steps of the stream engine (13 R293 to R297, R309). -/
namespace Sys2Proof.Machine

/-! ## Helpers -/

/-- Some work done on behalf of thread `h`, leaving the current thread current. -/
def State.onThread (s : State) (h : Nat) (f : State → State) : State := (f (s.switchTo h)).switchTo s.cur
/-- Channel `c` of the current thread's core. -/
def State.chan (s : State) (c : Nat) : Channel := (s.getCore s.core).channels.get c {}
/-- Channel `c` of a core replaced. -/
def State.setChan (s : State) (core c : Nat) (x : Channel) : State :=
  s.updCore core fun k => { k with channels := k.channels.set c x }
/-- RINGERR with the channel or ring number and the reason (07 R221). -/
def ringErr {α : Type} (s : State) (n reason : Nat) : M α :=
  raise s { cause := Cause.ringerr, tval := BitVec.ofNat 64 n, det := reason }
/-- Whether the current thread holds a channel. -/
def State.holds (s : State) (c : Nat) : Bool := (s.chan c).owner == some s.cur

/-- Whether every transfer of a channel is complete, as SDRAIN waits for it (07 R219); an abandoned one never is (13 R295). -/
def Channel.idle (c : Channel) : Bool := c.xfers.isEmpty && c.lost.isEmpty

/-! ## SCH (07 R213) -/

/-- A claim of a channel. -/
def schClaim (out : Bool) (d a b : BitVec 5) (s : State) : M State :=
  let c := d.toNat
  let ch := s.chan c
  let tb := s.rdN a % 2 ^ 22
  let tl := s.rdN b
  if ch.owner.isSome ∧ s.holds c = false then ringErr s c 1
  else if ch.idle = false then .error (.park (.channelIdle c) s)
  else if tb % 64 ≠ 0 ∨ tl % 64 ≠ 0 ∨ tl = 0 ∨ s.group.tileSpace < tb + tl then ringErr s c 3
  else .ok (s.setChan s.core c { owner := some s.cur, outward := out, tb := tb, tl := tl, cursor := tb, wm := tb }).advance
/-- SCH.IN (07 R213). -/
def execSchIn (d a b : BitVec 5) (s : State) : Host.Outcome State Fault Refusal := finish (schClaim false d a b s)
/-- SCH.OUT (07 R213). -/
def execSchOut (d a b : BitVec 5) (s : State) : Host.Outcome State Fault Refusal := finish (schClaim true d a b s)
/-- SCH.REL (07 R213). -/
def execSchRel (d : BitVec 5) (s : State) : Host.Outcome State Fault Refusal :=
  finish (
    if s.holds d.toNat = false then ringErr s d.toNat 1
    else if (s.chan d.toNat).idle = false then .error (.park (.channelIdle d.toNat) s)
    else .ok (s.setChan s.core d.toNat {}).advance)

/-! ## Transfers (07 R216, R217) -/

/-- Whether a transfer is indexed. -/
def Xfer.indexed (x : Xfer) : Bool :=
  match x.kind with
  | .sld | .sst => false
  | _ => true
/-- Whether a transfer moves into tile memory. -/
def Xfer.inward (x : Xfer) : Bool :=
  match x.kind with
  | .sld | .sgath => true
  | _ => false
/-- The number of elements. -/
def Xfer.count (x : Xfer) : Nat := x.strips * x.vl
/-- The signed stride of a dimension register (07 R215). -/
def stride48 (d : Word) : Int := toS 48 d.toNat
/-- ext(e) (07 R216), modulo 2^64. -/
def Xfer.ext (x : Xfer) (e : Nat) : Nat :=
  if x.indexed then (x.base.toNat + x.idx.getD e 0 * x.bytes) % 2 ^ 64
  else
    let n1 := bits x.dim1.toNat 48 16 + 1
    let n2 := bits x.dim2.toNat 48 16 + 1
    let i0 := e % x.vl
    let i1 := e / x.vl % n1
    let i2 := e / (x.vl * n1) % n2
    let i3 := e / (x.vl * n1 * n2)
    (((x.base.toNat : Int) + i0 * x.bytes + i1 * stride48 x.dim1 + i2 * stride48 x.dim2 + i3 * stride48 x.dim3)
      % (2 ^ 64 : Nat)).toNat
/-- tile(e) (07 R216). -/
def Xfer.tileAt (x : Xfer) (e : Nat) : Nat := x.cursor + e * x.bytes
/-- Whether element `e` accesses memory: a masked-off one does not. -/
def Xfer.act (x : Xfer) (e : Nat) : Bool :=
  match x.mask with
  | some m => m.testBit e
  | none => true
/-- The kind of its accesses in space 0 (13 R307). -/
def Xfer.akind (x : Xfer) : AKind :=
  match x.kind with
  | .sld | .sgath => .read
  | .sst | .sscat => .write
  | _ => .rmw

/-- The translation and permission of an address, held or walked (13 R294, R301, R303). -/
def State.xlate (s : State) (held : List Trans) (root : Word) (level : Level) (va : Nat) (k : AKind) :
    Except AErr (Trans × List Trans) :=
  if va / 2 ^ 57 ≠ 0 then .error .prot
  else
    match s.lookup held root va with
    | .error e => .error e
    | .ok (t, h) =>
      if t.permits level k && !(k != .read && !t.host && s.inView (t.pa + va % t.size)) then .ok (t, if t.ofView then t :: h else h)
      else .error .prot

/-- The elements of a transfer from a strip on, translated: the translations held, and the errors with element and address. -/
def State.xlateAll (s : State) (x : Xfer) : List Nat → List Trans → List Trans × List (Nat × Nat × Except AErr Loc)
  | [], held => (held, [])
  | e :: r, held =>
    match s.xlate held x.root x.level (x.ext e) x.akind with
    | .ok (_, h) => s.xlateAll x r h
    | .error err => let t := s.xlateAll x r held; (t.1, (e, x.ext e, .error err) :: t.2)

/-- The active elements of a transfer from element `from_` on. -/
def Xfer.elts (x : Xfer) (from_ : Nat) : List Nat := (span from_ x.count).filter x.act

/-- The first failing check of an issue (07 R217 steps 2 to 4), with the translations to hold. -/
def State.issueCheck (s : State) (c : Nat) (x : Xfer) : M (List Trans) :=
  let es := x.elts 0
  match es.find? fun e => x.ext e % x.bytes != 0 with
  | some e => raise s { cause := Cause.misalign, tval := BitVec.ofNat 64 (x.ext e), elem := e }
  | none =>
    if x.cursor % x.bytes ≠ 0 then raise s { cause := Cause.misalign, tval := BitVec.ofNat 64 x.cursor }
    else
      let r := s.xlateAll x es []
      match firstErr AErr.isProt r.2 with
      | some e => raise s { cause := Cause.prot, tval := BitVec.ofNat 64 e.2.1, elem := e.1 }
      | none =>
        match pageErrs [] r.2 with
        | [] =>
          match firstErr (fun _ => true) r.2 with
          | some e => .error (accTrap s e.2.2 e.2.1 e.1 3 x.akind)
          | none => .ok r.1
        | ps => raise s (batchTrap s 3 c x.akind x.root ps)

/-- A transfer as the current thread's registers make it (07 R215, R216). -/
def State.mkXfer (s : State) (kind : XferKind) (c : Nat) (a b : BitVec 5) (k : BitVec 3) : Xfer :=
  { kind := kind, ew := s.th.ew, base := s.rd a, vl := s.th.vl, cursor := (s.chan c).cursor
    dim1 := s.th.cdim.get (4 * c + 1) 0, dim2 := s.th.cdim.get (4 * c + 2) 0, dim3 := s.th.cdim.get (4 * c + 3) 0
    idx := match kind with
      | .sld | .sst => []
      | _ => (List.range s.th.vl).map fun i => elt (s.vreg b) (ewBits s.th.ew) i
    mask := if k = 0 then none else some (s.mreg k.toNat)
    root := s.th.ptroot, level := s.th.level, seq := (s.getCore s.core).xferSeq }

/-- The cursor after the issue: advanced by the bytes moved, wrapping to `RB` at the end of a ring's last slot (07 R216, R222). -/
def State.nextCursor (s : State) (ch : Channel) (bytes : Nat) : Nat :=
  match ch.ring with
  | some r =>
    let ring := (s.getCore s.core).rings.get r {}
    if ch.cursor + bytes = ring.rb + (ring.ns + 1) * ring.sb then ring.rb else ch.cursor + bytes
  | none => ch.cursor + bytes

/-- The issue of a transfer (07 R216, R217): the wait for a place, RINGERR, the other checks, then the queueing; one of no elements
completes at once. -/
def issue (kind : XferKind) (d a b : BitVec 5) (k : BitVec 3) (s : State) : M State :=
  let c := d.toNat
  let ch := s.chan c
  let x := s.mkXfer kind c a b k
  let bytes := x.count * x.bytes
  if s.holds c = false then ringErr s c 1
  else if ch.xfers.length = 8 then .error (.park (.transferSlot c) s)
  else if ch.outward = x.inward then ringErr s c 2
  else if ch.ring.isNone ∧ ch.tb + ch.tl < ch.cursor + bytes then ringErr s c 4
  else if (match ch.ring with
      | some r => bytes != ((s.getCore s.core).rings.get r {}).sb
      | none => false) = true then ringErr s c 5
  else do
    let held ← s.issueCheck c x
    let q := if x.count = 0 then ch.xfers else ch.xfers ++ [{ x with held := held }]
    let s1 := s.updCore s.core fun k => { k with xferSeq := k.xferSeq + 1 }
    .ok (s1.setChan s.core c { ch with xfers := q, cursor := s.nextCursor ch bytes }).advance

/-- SLD (07 R216). -/
def execSld (d a : BitVec 5) (s : State) : Host.Outcome State Fault Refusal := finish (issue .sld d a 0 0 s)
/-- SST (07 R216). -/
def execSst (d a : BitVec 5) (s : State) : Host.Outcome State Fault Refusal := finish (issue .sst d a 0 0 s)
/-- SGATH (07 R216). -/
def execSgath (d a b : BitVec 5) (k : BitVec 3) (s : State) : Host.Outcome State Fault Refusal := finish (issue .sgath d a b k s)
/-- SSCAT (07 R216). -/
def execSscat (d a b : BitVec 5) (k : BitVec 3) (s : State) : Host.Outcome State Fault Refusal := finish (issue .sscat d a b k s)
/-- SSCATA, integer add (07 R216). -/
def execSscataInt (d a b : BitVec 5) (k : BitVec 3) (s : State) : Host.Outcome State Fault Refusal :=
  finish (issue .sscataInt d a b k s)
/-- SSCATA, floating add: `EW` 0b00, and f64 without vf64, trap ILLEGAL (07 R216). -/
def execSscataFloat (d a b : BitVec 5) (k : BitVec 3) (s : State) : Host.Outcome State Fault Refusal :=
  finish (if s.th.ew = 0 ∨ (s.th.ew = 3 ∧ s.hasFeat 0 = false) then illegal s else issue .sscataFloat d a b k s)

/-! ## SWM and SDRAIN (07 R219) -/

/-- SWM: waits until the watermark reaches g[A][21:0] or the channel is idle. A channel with bytes of an abandoned transfer is not, since an
instruction that waits on those waits for good (13 R295). -/
def swm (d a b : BitVec 5) (s : State) : M State :=
  let ch := s.chan b.toNat
  if s.holds b.toNat = false then ringErr s b.toNat 1
  else if s.rdN a % 2 ^ 22 ≤ ch.wm ∨ ch.idle = true then .ok (s.wrAdvance d (BitVec.ofNat 64 ch.wm))
  else .error (.park (.swm d a b) s)
/-- SWM (07 R219). -/
def execSwm (d a b : BitVec 5) (s : State) : Host.Outcome State Fault Refusal := finish (swm d a b s)
/-- SDRAIN of one channel, or of every channel that the thread holds. -/
def sdrain (c : Option Nat) (s : State) : M State :=
  let busy := (s.getCore s.core).channels.any fun k =>
    k.2.owner == some s.cur && !k.2.idle && (match c with | some n => n == k.1 | none => true)
  match c with
  | some n => if s.holds n = false then ringErr s n 1 else if busy then .error (.park (.sdrain c) s) else .ok s.advance
  | none => if busy then .error (.park (.sdrain c) s) else .ok s.advance
/-- SDRAIN (07 R219). -/
def execSdrain (b : BitVec 5) (s : State) : Host.Outcome State Fault Refusal := finish (sdrain (some b.toNat) s)
/-- SDRAIN.ALL (07 R219). -/
def execSdrainAll (s : State) : Host.Outcome State Fault Refusal := finish (sdrain none s)

/-! ## Rings (07 R222 to R224) -/

/-- Ring `r` of the current thread's core, if it is configured. -/
def State.ring (s : State) (r : Nat) : Option Ring := (s.getCore s.core).rings.look r
/-- Ring `r` of a core replaced. -/
def State.setRing (s : State) (core r : Nat) (x : Ring) : State := s.updCore core fun k => { k with rings := k.rings.set r x }

/-- RCFG (07 R221, R222). A ring that reaches beyond the channel's range reports reason 8, also where it reaches beyond the tile allocation, of which
every channel's range is a part (DESIGN CHOICE, assumption 80). A ring that another channel holds is unbound from it; transfers still queued there
go on as those of a channel without a ring (DESIGN CHOICE, assumption 102). -/
def execRcfg (a b : BitVec 5) (r : BitVec 3) (s : State) : Host.Outcome State Fault Refusal :=
  let x := s.rdN a
  let sb := s.rdN b
  let c := bits x 24 4
  let ch := s.chan c
  let rb := bits x 0 22
  let ns := bits x 32 4
  let n := r.toNat
  finish (
    if s.holds c = false then ringErr s n 1
    else if ch.outward then ringErr s n 2
    else if rb % 64 ≠ 0 ∨ sb % 64 ≠ 0 ∨ sb = 0 then ringErr s n 3
    else if bits x 45 19 ≠ 0 ∨ bits x 36 4 ≠ 0 ∨ bits x 28 4 ≠ 0 ∨ bits x 22 2 ≠ 0 ∨ sb / 2 ^ 22 ≠ 0
        ∨ rb < ch.tb ∨ ch.tb + ch.tl < rb + (ns + 1) * sb then ringErr s n 8
    else if (match s.ring n with | some k => k.owner != s.cur | none => false) = true then ringErr s n 9
    else if ch.idle = false then .error (.park (.channelIdle c) s)
    else
      let s1 := s.updCore s.core fun k =>
        { k with channels := k.channels.map fun y => if y.2.ring = some n then (y.1, { y.2 with ring := none }) else y }
      let s2 := s1.setRing s.core n
        { owner := s.cur, group := s.th.group, ecnt := bits x 40 5, ns := ns, ch := c, rb := rb, sb := sb }
      .ok (s2.setChan s.core c { ch with ring := some n, cursor := rb, wm := rb }).advance)

/-- The status word of a slot (07 R224). -/
def Ring.status (r : Ring) (slot : Nat) : Nat :=
  let x := r.slots.get slot {}
  x.fph.toNat + 2 * x.eph.toNat + 4 * (x.ect % 32) + r.nxt % 16 * 2 ^ 16

/-- RWAIT: waits until the slot's full phase is g[B][0] (07 R224). -/
def rwait (d a b : BitVec 5) (r : BitVec 3) (s : State) : M State :=
  match s.ring r.toNat with
  | none => ringErr s r.toNat 6
  | some k =>
    if k.ns < s.rdN a then ringErr s r.toNat 6
    else if k.group ≠ s.th.group then ringErr s r.toNat 9
    else if (k.slots.get (s.rdN a) {}).fph = bitOf (s.rdN b) 0 then .ok (s.wrAdvance d (BitVec.ofNat 64 (k.status (s.rdN a))))
    else .error (.park (.rwait d a b r) s)
/-- RWAIT (07 R224). -/
def execRwait (d a b : BitVec 5) (r : BitVec 3) (s : State) : Host.Outcome State Fault Refusal := finish (rwait d a b r s)
/-- RFREE: an arrival on the empty barrier, which completes at `ECNT` + 1 arrivals (07 R223, R224). -/
def execRfree (d a : BitVec 5) (r : BitVec 3) (s : State) : Host.Outcome State Fault Refusal :=
  finish (
    match s.ring r.toNat with
    | none => ringErr s r.toNat 6
    | some k =>
      let slot := s.rdN a
      let x := k.slots.get slot {}
      if k.ns < slot then ringErr s r.toNat 6
      else if x.fph = x.eph then ringErr s r.toNat 7
      else if k.group ≠ s.th.group then ringErr s r.toNat 9
      else
        let x' : RingSlot := if x.ect = k.ecnt then { x with eph := !x.eph, ect := 0 } else { x with ect := x.ect + 1 }
        let k' := { k with slots := k.slots.set slot x' }
        .ok ((s.setRing s.core r.toNat k').wrAdvance d (BitVec.ofNat 64 (k'.status slot))))

/-! ## The stream engine (13 R293 to R295) -/

/-- The elements of the strip that a transfer performs next. -/
def Xfer.stripElts (x : Xfer) : List Nat := (span (x.strip * x.vl) ((x.strip + 1) * x.vl)).filter x.act
/-- The held translation that serves an address. -/
def Xfer.serving (x : Xfer) (va : Nat) : Option Trans := x.held.find? fun t => t.serves (bits x.root.toNat 40 16) va
/-- Whether a ring's fill may start: the slot's empty phase is the lap's (07 R223). -/
def Core.fillReady (c : Core) (ch : Channel) (strip : Nat) : Bool :=
  match ch.ring with
  | none => true
  | some r =>
    let k := c.rings.get r {}
    strip != 0 || (k.slots.get (k.fills % (k.ns + 1)) {}).eph == (k.fills / (k.ns + 1) % 2 == 1)
/-- Whether a tile range of the core that a transfer accesses is still to be moved by an inward transfer of another channel of the
owner's group (07 R218). Of two inward transfers only the one issued later waits, so that they do not wait for each other
(assumption 33). -/
def State.engineStalled (s : State) (core c group : Nat) (x : Xfer) (lo hi : Nat) : Bool :=
  (s.getCore core).channels.any fun k =>
    k.1 != c && k.2.ring.isNone && !k.2.outward
      && (match k.2.owner with
          | some h => (s.getTh h).group == group
          | none => false)
      && (((k.2.xfers.filter fun y => !x.inward || decide (y.seq < x.seq)).map Xfer.pending) ++ k.2.lost).any fun y =>
        decide (y.1 < hi) && decide (lo < y.2)
/-- The locations of a strip's elements, if each is translated and none waits. -/
def State.stripLocs (s : State) (x : Xfer) : Option (List (Nat × Loc)) :=
  x.stripElts.mapM fun e =>
    match x.serving (x.ext e) with
    | none => none
    | some t =>
      match s.transLoc t (x.ext e) x.bytes x.akind with
      | .ok l => some (e, l)
      | .error _ => none

/-- The floating format of an SSCATA, none for an integer one (07 R216). -/
def Xfer.fmt (x : Xfer) : Option Fmt :=
  if x.kind = .sscataFloat then addFmt 1 x.ew else none

/-- A copy of one element with its poison (07 R217). -/
def State.copyElt (s : State) (src dst : Loc) (n : Nat) : State :=
  let s1 := s.noteReads [src]
  if s.poisonedLoc src n then s1.writePoisoned dst n (s.readLoc src n) else s1.writeLoc dst n (s.readLoc src n)

/-- Whether a transfer adds at the banks (07 R216). -/
def Xfer.adds (x : Xfer) : Bool := x.kind == .sscataInt || x.kind == .sscataFloat
/-- The moves of a strip, from the places of its active elements: each element with its place in space 0. A masked-off element of SGATH
has none. -/
def Xfer.moves (x : Xfer) (locs : List (Nat × Loc)) : List (Nat × Option Loc) :=
  if x.kind = .sgath then (List.range x.vl).map fun e => (e, (locs.find? fun p => p.1 == e).map (·.2))
  else locs.map fun p => (p.1, some p.2)
/-- One element moved; a masked-off one of SGATH writes zero (07 R216). -/
def State.moveElt (x : Xfer) (s : State) (m : Nat × Option Loc) : State :=
  let tile := s.tileLoc s.core (x.tileAt m.1)
  match m.2 with
  | none => s.writeLoc tile x.bytes 0
  | some l => if x.inward then s.copyElt l tile x.bytes else s.copyElt tile l x.bytes
/-- The adds of an SSCATA: as VSTXA's, poison of the source carried on (07 R216, R217). -/
def State.moveAdds (s : State) (x : Xfer) (locs : List (Nat × Loc)) : State :=
  let tile (e : Nat) : Loc := s.tileLoc s.core (x.tileAt e)
  let m := mergeAdds x.fmt x.bytes (fun e => s.readLoc (tile e) x.bytes) x.ext locs
  let s1 := (applyAdds x.fmt x.bytes s m.1).mark (if x.kind = .sscataFloat then m.2 else 0) 0
  (locs.filter fun p => s.poisonedLoc (tile p.1) x.bytes).foldl (fun t p => t.poisonLoc p.2) s1
/-- The pieces of tile memory that a strip of an inward transfer writes noted with what they hold, those noted already as they were; a poisoned
one is not noted. -/
def State.noteFills (s : State) (x : Xfer) : State :=
  if x.inward = false ∨ x.vl = 0 then s
  else
    let lo := x.tileAt (x.strip * x.vl)
    let ps := (span (lo / 8) ((lo + x.vl * x.bytes + 7) / 8)).map fun p => s.tileLoc s.core (8 * p)
    s.upd fun t => { t with fills := t.fills ++ ps.filterMap fun l =>
      if (t.fills.any fun y => y.1 == l) || s.poisonedLoc l 8 then none else some (l, s.readLoc l 8) }
/-- Moves of a strip, on the owner's behalf, element by element in ascending order. -/
def State.moveStrip (s0 : State) (x : Xfer) (ms : List (Nat × Option Loc)) : State :=
  let s := s0.noteFills x
  if x.adds then s.moveAdds x (ms.filterMap fun m => m.2.map fun l => (m.1, l)) else ms.foldl (State.moveElt x) s

/-- The threads of a core that wait on a stalled byte, an idle channel or a channel slot issue again, and make their checks anew
(07 R213, R217, R218). -/
def State.releaseChannelWaits (s : State) (core : Nat) : State :=
  (List.range 4).foldl (fun t i =>
    let h := 4 * core + i
    let th := t.getTh h
    match th.status with
    | .parked (.stall _) => t.setTh h { th with status := .issuing }
    | .parked (.channelIdle _) => t.setTh h { th with status := .issuing }
    | _ => t) s

/-- A ring whose fill is over: complete, so that the slot's full phase flips, or abandoned, so that it never does (07 R223, 13 R295). -/
def Ring.filled (k : Ring) (complete : Bool) : Ring :=
  let slot := k.fills % (k.ns + 1)
  let q := k.slots.get slot {}
  { k with slots := if complete then k.slots.set slot { q with fph := !q.fph } else k.slots
           nxt := (slot + 1) % (k.ns + 1), fills := k.fills + 1 }
/-- The watermark of a channel once a transfer has performed its elements below `e`: it moves while what is performed is contiguous (07 R218,
R222). -/
def Channel.wmAt (ch : Channel) (x : Xfer) (e : Nat) : Nat :=
  if ch.ring.isSome ∨ x.pending.1 = ch.wm then x.tileAt e else ch.wm
/-- The channel after a strip: its watermark, and the transfer gone when that was its last strip (07 R218, R222, R223). -/
def State.afterStrip (s : State) (core c : Nat) (x : Xfer) : State :=
  let ch := (s.getCore core).channels.get c {}
  let last := x.strip + 1 == x.strips
  let ch' := { ch with
    wm := ch.wmAt x ((x.strip + 1) * x.vl)
    xfers := if last then ch.xfers.tail else { x with strip := x.strip + 1, begun := none } :: ch.xfers.tail }
  let s1 := s.setChan core c ch'
  match ch.ring with
  | some r => if last then s1.setRing core r (((s1.getCore core).rings.get r {}).filled true) else s1
  | none => s1

/-- The next strip of a channel, when nothing holds it: the owner, the transfer and its moves; of one under way, those that are left, unless
the link that they cross retrains (20 R418). -/
def State.stripReady (s : State) (core c : Nat) : Option (Nat × Xfer × List (Nat × Option Loc)) :=
  let k := s.getCore core
  match k.channels.look c with
  | none => none
  | some ch =>
    match ch.owner, ch.xfers with
    | some h, x :: _ =>
      match x.begun with
      | some ms =>
        if s.ksl.phase = .retraining ∧ (ms.any fun m => m.2.any Loc.isHost) = true then none else some (h, x, ms)
      | none =>
        let lo := x.tileAt (x.strip * x.vl)
        if x.stopped ∨ k.fillReady ch x.strip = false
            ∨ s.engineStalled core c (s.getTh h).group x lo (lo + x.vl * x.bytes) = true then none
        else ((s.switchTo h).stripLocs x).map fun l => (h, x, x.moves l)
    | _, _ => none

/-- The engine's request for the first page of the next strip that migrates on touch (13 R312), or its reads of host memory (20 R420). -/
def State.stripAsks (s : State) (core c : Nat) : State :=
  let ch := (s.getCore core).channels.get c {}
  match ch.owner, ch.xfers with
  | some h, x :: _ =>
    match firstSome (fun e => (x.serving (x.ext e)).bind fun t => if t.host && t.mig then some (t.leaf, x.ext e) else none) x.stripElts with
    | some p => s.onThread h fun t => t.askMigration p.1 p.2
    | none => s.onThread h fun t => x.stripElts.foldl (fun u e =>
      match (x.serving (x.ext e)).map fun k => u.transLoc k (x.ext e) x.bytes x.akind with
      | some (.error (.wait w)) => u.asks w
      | _ => u) t
  | _, _ => s

/-- The moves of a strip that are left for later, where the schedule has chosen that some elements move ahead (12 R292, assumption 14): none
of these before a lower element of its address (11 R281, 13 R293). -/
def Xfer.later (x : Xfer) (ahead : Option Nat) (ms : List (Nat × Option Loc)) : List (Nat × Option Loc) :=
  match ahead with
  | none => []
  | some m =>
    let left (e : Nat) : Bool := !m.testBit (e - x.strip * x.vl)
    if x.adds then []
    else ms.filter fun p => left p.1 || (p.2.isSome && ms.any fun q => decide (q.1 < p.1) && left q.1 && q.2.isSome && x.ext q.1 == x.ext p.1)
/-- A strip goes on: all its moves, and it is complete (13 R293); or some, and it is under way. -/
def State.runStrip (s : State) (core ch h : Nat) (x : Xfer) (ms : List (Nat × Option Loc)) (ahead : Option Nat) : State :=
  let later := x.later ahead ms
  if later.isEmpty then s.onThread h fun t => (t.moveStrip x ms).afterStrip core ch x
  else
    s.onThread h fun t =>
      let t1 := t.moveStrip x (ms.filter fun m => !later.contains m)
      let c := (t1.getCore core).channels.get ch {}
      let y := { x with begun := some later }
      t1.setChan core ch { c with wm := c.wmAt x y.front, xfers := y :: c.xfers.tail }
/-- STRIP_COMPLETE: the next strip of a channel is performed (13 R293); a page that migrates on touch is asked for. -/
def execStripComplete (core ch : Nat) (s : State) : Host.Outcome State Fault Refusal :=
  match s.stripReady core ch with
  | none => .next (s.stripAsks core ch)
  | some (h, x, ms) => .next ((({ s with ahead := none } : State).runStrip core ch h x ms s.ahead).releaseChannelWaits core)
/-- A strip under way completed, before a drain (13 R297) or the end of its thread (07 R214). -/
def State.endStrip (s : State) (core ch : Nat) : State :=
  let c := (s.getCore core).channels.get ch {}
  match c.owner, c.xfers with
  | some h, x :: _ =>
    match x.begun with
    | some ms => s.runStrip core ch h x ms none
    | none => s
  | _, _ => s
/-- The strips under way of a thread's channels completed. -/
def State.endStrips (s : State) (h : Nat) : State := (List.range 16).foldl (fun t c =>
  if ((t.getCore (h / 4)).channels.get c {}).owner = some h then t.endStrip (h / 4) c else t) s
/-- Whether any strip is under way, which goes on under the translations that it began with (13 R309, R314). -/
def State.stripUnderWay (s : State) : Bool := s.cores.any fun c => c.2.channels.any fun k => k.2.xfers.any fun x => x.begun.isSome

/-- A transfer abandoned as its PROT is taken (13 R295): its bytes are never moved, and a ring fill that it was to complete never is. -/
def State.abandon (s : State) (f : StreamFault) : State :=
  let c := s.chan f.ch
  match c.xfers with
  | [] => s
  | x :: r =>
    if x.seq ≠ f.seq ∨ c.owner ≠ some s.cur then s
    else
      let s1 := s.setChan s.core f.ch { c with xfers := r, lost := x.pending :: c.lost }
      match c.ring with
      | some k => s1.setRing s.core k (((s1.getCore s.core).rings.get k {}).filled false)
      | none => s1
/-- STREAM_RETRANSLATION: the next strip of a channel lacks a translation that was removed: the engine walks again; a failed walk
stops the transfer with PAGEBATCH, or with PROT, which abandons it as it is taken (13 R295). PROT is taken where the strip meets both a page that
forbids the access and one that is not mapped or not present (DESIGN CHOICE, assumption 58). -/
def execStreamRetranslation (core ch : Nat) (s : State) : Host.Outcome State Fault Refusal :=
  let c := (s.getCore core).channels.get ch {}
  match c.owner, c.xfers with
  | some h, x :: _ =>
    if x.stopped ∨ x.begun.isSome ∨ (x.stripElts.all fun e => (x.serving (x.ext e)).isSome) = true then .next s
    else
      .next (s.onThread h fun t =>
        let r := t.xlateAll x x.stripElts x.held
        let stop (f : StreamFault) : State :=
          let t1 := t.setChan core ch { c with xfers := { x with stopped := true } :: c.xfers.tail }
          { t1 with th := { t1.th with streamFaults := t1.th.streamFaults ++ [f] } }
        match firstErr AErr.isProt r.2 with
        | some e => stop { ch := ch, seq := x.seq, prot := true, addr := e.2.1, elem := e.1 }
        | none =>
          match pageErrs [] r.2 with
          | [] => t.setChan core ch { c with xfers := { x with held := r.1 } :: c.xfers.tail }
          | _ =>
            let ps := pageErrs [] (t.xlateAll x (x.elts (x.strip * x.vl)) x.held).2
            let b := batchTrap t 3 ch x.akind x.root ps
            stop { ch := ch, seq := x.seq, elem := b.elem, records := b.records })
  | _, _ => .next s

/-- TLBINV_COMPLETE: with no strip under way, every engine has stopped before the next strip that would use a removed translation, and a
TLBINV of the thread completes (13 R309). -/
def execTlbinvComplete (h : Nat) (s : State) : Host.Outcome State Fault Refusal :=
  .next (if s.stripUnderWay then s else s.setTh h { s.getTh h with tlbinvs := (s.getTh h).tlbinvs - 1 })

/-! ## Wakes (09 R260) -/

/-- A parked thread re-evaluates its instruction; it parks again where the instruction still waits. -/
def wake (h : Nat) (body : Wait → Option (State → M State)) (s : State) : Host.Outcome State Fault Refusal :=
  let s1 := s.switchTo h
  match s1.th.status with
  | .parked w =>
    match body w with
    | some f =>
      match finish (f { s1 with th := { s1.th with status := .issuing } }) with
      | .next t => .next (t.switchTo s.cur)
      | .fault e => .fault e
      | .refused e => .refused e
    | none => .next s
  | _ => .next s

/-- Nothing stored before is read late any more by the current thread (assumption 94). -/
def State.caught (s : State) : State := s.upd fun t => { t with unseen := [] }
/-- VWAIT_WAKE: a write to a line that is waited for (06 R190). -/
def execVwaitWake (h : Nat) (s : State) : Host.Outcome State Fault Refusal :=
  wake h (fun w => match w with
    | .vwait d a x k z q done seen => if s.stirred seen then some fun t => vwaitEval d a x k z q done t.caught else none
    | _ => none) s
/-- SETVLW_WAKE: a write to the status word's line (05 R140). -/
def execSetvlwWake (h : Nat) (s : State) : Host.Outcome State Fault Refusal :=
  wake h (fun w => match w with
    | .setvlw d a b e seen => if s.stirred seen then (s.getTh h).old.map fun o t => setvlwRead d a b e o t.caught else none
    | _ => none) s
/-- RWAIT_WAKE: the awaited phase (07 R224). -/
def execRwaitWake (h : Nat) (s : State) : Host.Outcome State Fault Refusal :=
  wake h (fun w => match w with
    | .rwait d a b r => some fun t => rwait d a b r t.caught
    | _ => none) s
/-- SWM_WAKE: the watermark (07 R219). -/
def execSwmWake (h : Nat) (s : State) : Host.Outcome State Fault Refusal :=
  wake h (fun w => match w with
    | .swm d a b => some fun t => swm d a b t.caught
    | _ => none) s
/-- SDRAIN_WAKE: every transfer complete (07 R219). -/
def execSdrainWake (h : Nat) (s : State) : Host.Outcome State Fault Refusal :=
  wake h (fun w => match w with
    | .sdrain c => some fun t => sdrain c t.caught
    | _ => none) s
/-- TLBSYNC_WAKE: every older TLBINV of the thread complete (04 R129). -/
def execTlbsyncWake (h : Nat) (s : State) : Host.Outcome State Fault Refusal :=
  wake h (fun w => match w with
    | .tlbsync => some fun t => if t.th.tlbinvs = 0 then .ok t.advance else .error (.park .tlbsync t)
    | _ => none) s
/-- TRANSFER_SLOT_WAKE: a place in the channel is free; the instruction issues and makes its checks (07 R217). -/
def execTransferSlotWake (h : Nat) (s : State) : Host.Outcome State Fault Refusal :=
  wake h (fun w => match w with
    | .transferSlot c => some fun t => if (t.chan c).xfers.length < 8 then .ok t else .error (.park (.transferSlot c) t)
    | _ => none) s

end Sys2Proof.Machine
end

