-- ==== Sys2Proof/Machine/Frames.lean ====
section
/-! DEFINITION. Chain frames: their fields, the instructions of a stage, the checks of CHCFG, the claimant queues of the bank tokens,
and a chain's beginning and end (02 R58 to R72, 07 R225, R228, 09 R250, 17 R359). -/
namespace Sys2Proof.Machine

/-! ## Instructions in frames -/

/-- The instruction that a word of a frame holds, if it is a valid one (02 R50). -/
def insOf (w : Nat) : Option Instr := decodeStage (BitVec.ofNat 32 w)

/-- The element-wise instructions of 05 R134 but VQNT and VDQNT, by their operation (02 R65). -/
def elemOf : Instr → Option (ECtx → Option ElemOp)
  | .vadd d a b k _ => some (elemVadd d a b k)
  | .vsub d a b k _ => some (elemVsub d a b k)
  | .vand d a b k _ => some (elemVand d a b k)
  | .vor d a b k _ => some (elemVor d a b k)
  | .vxor d a b k _ => some (elemVxor d a b k)
  | .vsll d a b k _ => some (elemVsll d a b k)
  | .vsrl d a b k _ => some (elemVsrl d a b k)
  | .vsra d a b k _ => some (elemVsra d a b k)
  | .vmul d a b k _ => some (elemVmul d a b k)
  | .vmulh d a b k _ => some (elemVmulh d a b k)
  | .vmulhn d a b k _ => some (elemVmulhn d a b k)
  | .vdiv d a b k _ => some (elemVdiv d a b k)
  | .vdivn d a b k _ => some (elemVdivn d a b k)
  | .vrem d a b k _ => some (elemVrem d a b k)
  | .vremn d a b k _ => some (elemVremn d a b k)
  | .vmin d a b k _ => some (elemVmin d a b k)
  | .vmax d a b k _ => some (elemVmax d a b k)
  | .vminn d a b k _ => some (elemVminn d a b k)
  | .vmaxn d a b k _ => some (elemVmaxn d a b k)
  | .vclmul d a b k _ => some (elemVclmul d a b k)
  | .vclmulh d a b k _ => some (elemVclmulh d a b k)
  | .vwid d a k _ => some (elemVwid d a k)
  | .vwidn d a k _ => some (elemVwidn d a k)
  | .vaddScalar d a b k _ => some (elemVaddScalar d a b k)
  | .vsubScalar d a b k _ => some (elemVsubScalar d a b k)
  | .vandScalar d a b k _ => some (elemVandScalar d a b k)
  | .vorScalar d a b k _ => some (elemVorScalar d a b k)
  | .vxorScalar d a b k _ => some (elemVxorScalar d a b k)
  | .vsllScalar d a b k _ => some (elemVsllScalar d a b k)
  | .vsrlScalar d a b k _ => some (elemVsrlScalar d a b k)
  | .vsraScalar d a b k _ => some (elemVsraScalar d a b k)
  | .vmulScalar d a b k _ => some (elemVmulScalar d a b k)
  | .vmulhScalar d a b k _ => some (elemVmulhScalar d a b k)
  | .vmulhnScalar d a b k _ => some (elemVmulhnScalar d a b k)
  | .vdivScalar d a b k _ => some (elemVdivScalar d a b k)
  | .vdivnScalar d a b k _ => some (elemVdivnScalar d a b k)
  | .vremScalar d a b k _ => some (elemVremScalar d a b k)
  | .vremnScalar d a b k _ => some (elemVremnScalar d a b k)
  | .vminScalar d a b k _ => some (elemVminScalar d a b k)
  | .vmaxScalar d a b k _ => some (elemVmaxScalar d a b k)
  | .vminnScalar d a b k _ => some (elemVminnScalar d a b k)
  | .vmaxnScalar d a b k _ => some (elemVmaxnScalar d a b k)
  | .vclmulScalar d a b k _ => some (elemVclmulScalar d a b k)
  | .vclmulhScalar d a b k _ => some (elemVclmulhScalar d a b k)
  | .vsadd d a b k _ => some (elemVsadd d a b k)
  | .vssub d a b k _ => some (elemVssub d a b k)
  | .vsaddn d a b k _ => some (elemVsaddn d a b k)
  | .vssubn d a b k _ => some (elemVssubn d a b k)
  | .vsaddScalar d a b k _ => some (elemVsaddScalar d a b k)
  | .vssubScalar d a b k _ => some (elemVssubScalar d a b k)
  | .vsaddnScalar d a b k _ => some (elemVsaddnScalar d a b k)
  | .vssubnScalar d a b k _ => some (elemVssubnScalar d a b k)
  | .vnrw d a k _ => some (elemVnrw d a k)
  | .vnrwn d a k _ => some (elemVnrwn d a k)
  | .vnrwsn d a k _ => some (elemVnrwsn d a k)
  | .vfadd d a b k f _ => some (elemVfadd d a b k f)
  | .vfsub d a b k f _ => some (elemVfsub d a b k f)
  | .vfmul d a b k f _ => some (elemVfmul d a b k f)
  | .vfma d a b k f _ => some (elemVfma d a b k f)
  | .vfms d a b k f _ => some (elemVfms d a b k f)
  | .vfnma d a b k f _ => some (elemVfnma d a b k f)
  | .vfdiv d a b k f _ => some (elemVfdiv d a b k f)
  | .vfsqrt d a k f _ => some (elemVfsqrt d a k f)
  | .vfmin d a b k f _ => some (elemVfmin d a b k f)
  | .vfmax d a b k f _ => some (elemVfmax d a b k f)
  | .vfrcp d a k f _ => some (elemVfrcp d a k f)
  | .vfaddScalar d a b k f _ => some (elemVfaddScalar d a b k f)
  | .vfsubScalar d a b k f _ => some (elemVfsubScalar d a b k f)
  | .vfmulScalar d a b k f _ => some (elemVfmulScalar d a b k f)
  | .vfmaScalar d a b k f _ => some (elemVfmaScalar d a b k f)
  | .vfmsScalar d a b k f _ => some (elemVfmsScalar d a b k f)
  | .vfnmaScalar d a b k f _ => some (elemVfnmaScalar d a b k f)
  | .vfdivScalar d a b k f _ => some (elemVfdivScalar d a b k f)
  | .vfsqrtScalar d a k f _ => some (elemVfsqrtScalar d a k f)
  | .vfminScalar d a b k f _ => some (elemVfminScalar d a b k f)
  | .vfmaxScalar d a b k f _ => some (elemVfmaxScalar d a b k f)
  | .vfrcpScalar d a k f _ => some (elemVfrcpScalar d a k f)
  | .vcmp d a b k q _ => some (elemVcmp d a b k q)
  | .vcmps d a b k q _ => some (elemVcmps d a b k q)
  | .vfcmp d a b k q f _ => some (elemVfcmp d a b k q f)
  | .vfcmps d a b k q f _ => some (elemVfcmps d a b k q f)
  | .vmerge d a b k _ => some (elemVmerge d a b k)
  | .vmv d a k _ => some (elemVmv d a k)
  | .vbcast d a k _ => some (elemVbcast d a k)
  | .vcvt d a t s k r g _ => some (elemVcvt d a t s k r g)
  | _ => none

/-- The instruction of a memory port (02 R66): whether it loads; 0 unit, 1 strided, 2 indexed; and its fields. -/
structure PortIns where
  load : Bool
  form : Nat
  d : BitVec 5
  b : BitVec 5
  x : BitVec 5 := 0
  k : BitVec 3
  size : Nat
  deriving DecidableEq, Repr

/-- The port instruction of a word: space 1, no ordering (02 R66). -/
def portOf : Instr → Option PortIns
  | .vld d b k t s o _ => if t = 1 ∧ o = 0 then some { load := true, form := 0, d := d, b := b, k := k, size := s.toNat } else none
  | .vlds d b x k t s o _ =>
    if t = 1 ∧ o = 0 then some { load := true, form := 1, d := d, b := b, x := x, k := k, size := s.toNat } else none
  | .vldx d b x k t s o _ =>
    if t = 1 ∧ o = 0 then some { load := true, form := 2, d := d, b := b, x := x, k := k, size := s.toNat } else none
  | .vst d b k t s o _ => if t = 1 ∧ o = 0 then some { load := false, form := 0, d := d, b := b, k := k, size := s.toNat } else none
  | .vsts d b x k t s o _ =>
    if t = 1 ∧ o = 0 then some { load := false, form := 1, d := d, b := b, x := x, k := k, size := s.toNat } else none
  | .vstx d b x k t s o _ =>
    if t = 1 ∧ o = 0 then some { load := false, form := 2, d := d, b := b, x := x, k := k, size := s.toNat } else none
  | _ => none

/-- The instruction of a matrix stage (17 R358): a step instruction with its registers, or a tile transfer. -/
inductive MatIns where
  | step (o : MatOp) (a b : BitVec 5)
  | mrd (d a : BitVec 5) (t : Nat)
  | mwr (d a : BitVec 5) (t : Nat)
  deriving DecidableEq, Repr

/-- The matrix instruction of a word. -/
def matOf : Instr → Option MatIns
  | .mopa d a b n q p => some (.step { kind := .mopa, tile := d.toNat, p := 1, fa := p.toNat, fb := q.toNat, neg := n == 1 } a b)
  | .mopa2 d a b n q p => some (.step { kind := .mopa, tile := d.toNat, p := 2, fa := p.toNat, fb := q.toNat, neg := n == 1 } a b)
  | .mopa4 d a b n q p => some (.step { kind := .mopa, tile := d.toNat, p := 4, fa := p.toNat, fb := q.toNat, neg := n == 1 } a b)
  | .mops d a n p => some (.step { kind := .mops, tile := d.toNat, p := 1, fa := p.toNat, fb := 0, neg := n == 1 } a 0)
  | .mopg d a b n q p => some (.step { kind := .mopg, tile := d.toNat, p := 1, fa := p.toNat, fb := q.toNat, neg := n == 1 } a b)
  | .mopq d a b q => some (.step { kind := .mopq, tile := d.toNat, p := 4, fa := 0, fb := q.toNat } a b)
  | .mrd d a t => some (.mrd d a t.toNat)
  | .mwr d a t => some (.mwr d a t.toNat)
  | _ => none

/-! ## Fields (02 R59 to R71) -/

/-- `EW` of a stage. -/
def Frame.ew (f : Frame) : Nat := bits f.word 235 2
/-- `NINS`. -/
def Frame.nins (f : Frame) : Nat := bits f.word 233 2
/-- Instruction word `k` of a frame. -/
def Frame.ins (f : Frame) (k : Nat) : Nat := bits f.word (32 * k) 32
/-- The binding whose field starts at bit `lo`: queue and register, if it is valid (02 R63). -/
def Frame.binding (f : Frame) (lo : Nat) : Option (Nat × Nat) :=
  if bitOf f.word (lo + 9) then some (bits f.word (lo + 5) 4, bits f.word lo 5) else none
/-- The input bindings of a stage. -/
def Frame.ins3 (f : Frame) : List (Option (Nat × Nat)) := [f.binding 214, f.binding 204, f.binding 194]
/-- The output bindings of a stage. -/
def Frame.outs2 (f : Frame) : List (Option (Nat × Nat)) := [f.binding 184, f.binding 174]
/-- The instruction of a port. -/
def Frame.port (f : Frame) : Option PortIns := (insOf (f.ins 0)).bind portOf
/-- The instruction of a matrix stage. -/
def Frame.mat (f : Frame) : Option MatIns := (insOf (f.ins 0)).bind matOf
/-- `TOKB`. -/
def Frame.tokb (f : Frame) : Nat := bits f.word 128 64
/-- The valid ordering arcs of a port: source frame and `BULK` (02 R67). -/
def Frame.arcs (f : Frame) : List (Nat × Bool) :=
  [bits f.word 202 8, bits f.word 194 8].filterMap fun x => if bitOf x 7 then some (bits x 0 6, bitOf x 6) else none
/-- `INQ` of a switch. -/
def Frame.inq (f : Frame) : Nat := bits f.word 231 4
/-- `OUTQ` of a switch. -/
def Frame.outq (f : Frame) : Nat := bits f.word 226 4
/-- `CPQ` of a switch, if it copies. -/
def Frame.cpq (f : Frame) : Option Nat := if bitOf f.word 225 then some (bits f.word 221 4) else none
/-- Whether a frame is a lattice frame (02 R59, R71). -/
def Frame.lattice (f : Frame) : Bool := bits f.word 240 4 != 0 || (f.isSwitch && bits f.word 236 4 != 0)

/-- The queues that a frame binds: core, queue, and whether the frame produces into it (02 R63). -/
def Frame.binds (f : Frame) : List (Nat × Nat × Bool) :=
  if f.kind = 1 then
    (f.ins3.filterMap id).map (fun b => (f.core, b.1, false)) ++ (f.outs2.filterMap id).map (fun b => (f.core, b.1, true))
  else if f.kind = 2 then
    (match f.binding 220 with | some b => [(f.core, b.1, decide (f.op0 < 0x44))] | none => [])
      ++ (match f.binding 210 with | some b => [(f.core, b.1, false)] | none => [])
  else if f.kind = 3 then
    [(f.core, f.inq, false), (f.outCore, f.outq, true)] ++ (match f.cpq with | some q => [(f.core, q, true)] | none => [])
  else (match f.binding 222 with | some b => [(f.core, b.1, true)] | none => [])

/-! ## Checks of one frame (02 R72) -/

/-- Whether a field whose validity is its bit `top` is zero where it is not valid. -/
def tidy (x top : Nat) : Bool := bitOf x top || x == 0
/-- The words of a vector compute stage (02 R65). -/
def Frame.vecWordsOk (f : Frame) : Bool :=
  (List.range 4).all fun k =>
    let w := f.ins k
    if f.nins < k then w == 0
    else bitOf w 7 == decide (k < f.nins) && (match insOf w with | some i => (elemOf i).isSome | none => false)
/-- The word and the bindings of a matrix stage (02 R65, 17 R358). -/
def Frame.matWordsOk (f : Frame) : Bool :=
  let zero (b : Option (Nat × Nat)) : Bool := match b with | some x => x.2 == 0 | none => true
  let reg (d : BitVec 5) (b : Option (Nat × Nat)) : Bool := match b with | some x => x.2 == d.toNat | none => true
  let i0 := f.binding 214
  let i1 := f.binding 204
  let i2 := f.binding 194
  let o0 := f.binding 184
  let o1 := f.binding 174
  f.nins == 0 && bits f.word 237 3 == 0 && bits f.word 32 96 == 0 && !bitOf f.word 7 && o1 == none &&
    (match f.mat with
     | some (.step o _ _) =>
       o0 == none && zero i0 &&
         (match o.kind with
          | .mopa => zero i1 && i2 == none
          | .mopq => zero i1 && zero i2
          | _ => i1 == none && i2 == none)
     | some (.mrd d _ _) => i0 == none && i1 == none && i2 == none && reg d o0
     | some (.mwr d _ _) => reg d i0 && i1 == none && i2 == none && o0 == none
     | none => false)
/-- The word of a port against its bindings (02 R66). -/
def Frame.portOk (f : Frame) : Bool :=
  match f.port with
  | none => false
  | some p =>
    !bitOf f.word 7
      && (match f.binding 220 with | some b => b.2 == p.d.toNat | none => true)
      && (match f.binding 210 with | some b => p.form == 2 && b.2 == p.x.toNat | none => true)

/-- Reason 1 (02 R72). An `AGEN` that is nonzero with `ASRC` = 0 counts as a reserved field here, and a valid `IDX` of a form that is
not indexed as a binding that disagrees with `INS`, which is reason 7 (DEDUCED: assumption 85). -/
def Frame.reason1 (f : Frame) : Bool :=
  let w := f.word
  if f.kind = 1 then
    bits w 224 9 != 0 || bits w 128 46 != 0 || !([214, 204, 194, 184, 174].all fun lo => tidy (bits w lo 10) 9)
  else if f.kind = 2 then
    bits w 192 2 != 0 || bits w 32 96 != 0 || (!bitOf w 236 && bits w 230 6 != 0)
      || !(tidy (bits w 220 10) 9 && tidy (bits w 210 10) 9 && tidy (bits w 202 8) 7 && tidy (bits w 194 8) 7)
  else if f.kind = 3 then
    !bitOf w 235 || !bitOf w 230 || (!bitOf w 225 && bits w 221 4 != 0) || bits w 0 221 != 0
  else if f.kind = 4 then
    !bitOf w 234 || bits w 128 94 != 0 || bits w 0 8 != 0 || !tidy (bits w 222 10) 9 || (bitOf w 231 && bits w 222 5 != 0)
  else false
/-- Reason 2. -/
def Frame.reason2 (f : Frame) : Bool :=
  let dir := bits f.word 240 4
  f.kind == 0 || decide (4 < f.kind) || decide (4 < dir) || (dir == 0) != (bits f.word 244 8 == 0)
    || (f.kind == 3 && decide (4 < bits f.word 236 4))
/-- Reason 6, against the frames of lower index. -/
def Frame.reason6 (f : Frame) (earlier : List Frame) : Bool :=
  f.kind == 2 &&
    ((bitOf f.word 236 && !(match earlier[bits f.word 230 6]? with | some g => g.isGen | none => false))
      || f.arcs.any fun a => !(match earlier[a.1]? with | some g => g.isPort | none => false))
/-- Reason 7. -/
def Frame.reason7 (f : Frame) : Bool :=
  if f.kind = 1 then (if decide (0x51 ≤ f.op0) && decide (f.op0 ≤ 0x57) then !f.matWordsOk else !f.vecWordsOk)
  else if f.kind = 2 then !f.portOk
  else false

/-- The frame with its target core and, for a switch, its output core (02 R60, R61), none where one does not resolve. -/
def State.resolveCores (s : State) (word : Nat) : Option Frame :=
  let f : Frame := { word := word }
  match (if 4 < bits word 240 4 then none else s.walkHops s.core (bits word 240 4) (bits word 244 8)) with
  | none => none
  | some c =>
    if f.isSwitch then
      (if bits word 236 4 = 0 then some c else s.walkHops c (bits word 236 4) 1).map fun o => { f with core := c, outCore := o }
    else some { f with core := c }
/-- The frame with its targets (02 R60, R61), none where one does not resolve: reason 3. The `LG` of every compute frame is one of them,
and so is the output core of a switch, which 02 R71 sends to reason 4 only where it resolves to a core without a thread (DEDUCED:
assumption 85). -/
def State.resolveFrame (s : State) (word : Nat) : Option Frame :=
  (s.resolveCores word).bind fun f =>
    if f.kind = 1 ∨ f.isPort then (s.lgAt f.core (bits word 237 3)).map fun p => { f with lg := p } else some f

/-- Whether the launch of the current thread holds a thread on a core (02 R59). -/
def State.launchOn (s : State) (core : Nat) : Bool :=
  let g := (s.getCore core).gangFirst
  (List.range 4).any fun t =>
    let th := s.getTh (4 * g + t)
    th.resident && (s.groups.get th.group {}).launch == s.group.launch

/-- A queue of a core. -/
def State.queue (s : State) (core q : Nat) : Queue := (s.getCore core).queues.get q {}
/-- A queue of a core replaced. -/
def State.setQueue (s : State) (core q : Nat) (x : Queue) : State :=
  s.updCore core fun c => { c with queues := c.queues.set q x }
/-- Whether a queue cannot be bound by the chain that is to stand in a slot (02 R63, 07 R225): it is bound to another chain, or it is
not empty and not one of the slot's own; a reconfiguration does not count entries (19 R405). -/
def State.queueBusy (s : State) (ch : Nat × Nat) (keep : Bool) (core q : Nat) : Bool :=
  let x := s.queue core q
  x.prod != some ch && x.cons != some ch && (x.prod.isSome || x.cons.isSome || (!keep && !x.entries.isEmpty))
/-- Whether a list of bindings names one direction of one queue twice. -/
def bindsTwice : List (Nat × Nat × Bool) → Bool
  | [] => false
  | b :: r => r.contains b || bindsTwice r

/-- The lowest reason for which a frame fails, of reasons 1 to 7 (02 R72), and the resolved frame. -/
def State.frameCheck (s : State) (ch : Nat × Nat) (keep : Bool) (earlier : List Frame) (word : Nat) : Except Nat Frame :=
  let f0 : Frame := { word := word }
  if f0.reason1 then .error 1
  else if f0.reason2 then .error 2
  else
    match s.resolveFrame word with
    | none => .error 3
    | some f =>
      if f.lattice && !(s.hasFeat 3 && s.launchOn f.core && (!f.isSwitch || s.launchOn f.outCore)) then .error 4
      else if f.binds.any (fun b => s.queueBusy ch keep b.1 b.2.1)
          || f.binds.any (fun b => (earlier.flatMap Frame.binds).contains b) || bindsTwice f.binds then .error 5
      else if f.reason6 earlier then .error 6
      else if f.reason7 then .error 7
      else .ok f

/-- The frames of an image, or the failing frame and its reason. -/
def State.checkFrames (s : State) (ch : Nat × Nat) (keep : Bool) : List Nat → List Frame → Except (Nat × Nat) (List Frame)
  | [], acc => .ok acc
  | w :: r, acc =>
    match s.frameCheck ch keep acc w with
    | .error k => .error (acc.length, k)
    | .ok f => s.checkFrames ch keep r (acc ++ [f])

/-! ## Lane groups and attachments (09 R250, 17 R359) -/

/-- The configured chains with a vector stage on a lane group. -/
def State.chainsOn (s : State) (core lg : Nat) : List (Nat × Nat) :=
  s.threadIds.flatMap fun h => (s.getTh h).slots.filterMap fun x =>
    if !x.2.recorded && x.2.frames.any (fun f => f.isVecStage && f.core == core && f.lg == lg) then some (h, x.1) else none
/-- The owner of a lane group. -/
def State.laneOwner (s : State) (core lg : Nat) : LaneOwner := (s.getCore core).lanes.getD lg .dead
/-- Whether a lane group is held only by the chain that ends: it counts as free (07 R225). -/
def State.ownOnly (s : State) (ch : Nat × Nat) (core lg : Nat) : Bool :=
  s.laneOwner core lg == .bake && s.chainsOn core lg == [ch]
/-- The lane groups of a core or gang that only the ending chain holds, without those that the map has withdrawn, which its end makes dead. -/
def State.ownLanes (s : State) (ch : Nat × Nat) (core : Nat) : Nat :=
  ((s.laneList core).filter fun l => l.2.2.2 && s.ownOnly ch l.1 l.2.1).length
/-- Whether the current thread holds a lane group. -/
def State.holdsLane (s : State) (core lg : Nat) : Bool :=
  (s.getCore core).gangFirst == s.core && s.laneOwner core lg == .thread s.thr

/-- The attachment that a matrix stage on a core acts through: one of a thread of the launch (17 R359). -/
def State.stageAtt (s : State) (core : Nat) : Option Attachment :=
  match s.attOf core with
  | some a => if (s.groups.get (s.getTh a.h).group {}).launch = s.group.launch then some a else none
  | none => none

/-- The pass of 07 R225 step 3 over the frames: the first failing frame's trap; `taken` are the lane groups taken so far. -/
def State.unitPass (s : State) (ch : Nat × Nat) (addr : Word) : List Frame → Nat → List (Nat × Nat) → Option Trap
  | [], _, _ => none
  | f :: r, i, taken =>
    if f.isMatStage then
      (if (s.stageAtt f.core).isNone then some { cause := Cause.mnogrant } else s.unitPass ch addr r (i + 1) taken)
    else if f.isVecStage then
      if s.holdsLane f.core f.lg ∨ taken.contains (f.core, f.lg) = true then s.unitPass ch addr r (i + 1) taken
      else
        let gang := (s.getCore f.core).gangFirst
        let inGang := (taken.filter fun l => (s.getCore l.1).gangFirst == gang).length
        if (s.laneOwner f.core f.lg = .free ∨ s.ownOnly ch f.core f.lg = true)
            ∧ (s.owed gang).length + inGang + 1 ≤ (s.freeLanes gang).length + s.ownLanes ch gang then
          s.unitPass ch addr r (i + 1) ((f.core, f.lg) :: taken)
        else some { cause := Cause.badframe, tval := addr, det := 9, frame := i }
    else s.unitPass ch addr r (i + 1) taken

/-- Steps 2 and 3 of 07 R225 on an image of `n` frames: the frames, or the trap. -/
def State.checkImage (s : State) (ch : Nat × Nat) (keep : Bool) (addr : Word) (img n : Nat) : Except Trap (List Frame) :=
  match s.checkFrames ch keep ((List.range n).map fun k => bits img (256 * k) 256) [] with
  | .error (i, k) => .error { cause := Cause.badframe, tval := addr, det := k, frame := i }
  | .ok fs =>
    match s.unitPass ch addr fs 0 [] with
    | some t => .error t
    | none => .ok fs

/-! ## Bank tokens (02 R68) -/

/-- The claimant queue of a bank, head first: the head holds the token. -/
def State.claimants (s : State) (core group bank : Nat) : List (Nat × Nat) := (s.alloc core group).claims.get bank []
/-- It replaced. -/
def State.setClaimants (s : State) (core group bank : Nat) (l : List (Nat × Nat)) : State :=
  let a := s.alloc core group
  s.setAlloc core group { a with claims := if l.isEmpty then a.claims.erase bank else a.claims.set bank l }
/-- The bakes that wait for a place in a bank's claimant queue, in CHCFG order. -/
def State.waiters (s : State) (core group bank : Nat) : List (Nat × Nat) := (s.alloc core group).waiting.get bank []
/-- They replaced. -/
def State.setWaiters (s : State) (core group bank : Nat) (l : List (Nat × Nat)) : State :=
  let a := s.alloc core group
  s.setAlloc core group { a with waiting := if l.isEmpty then a.waiting.erase bank else a.waiting.set bank l }
/-- The banks whose claimant queue a bake is in or waits for, as core and bank. -/
def State.banksOf (s : State) (ch : Nat × Nat) (group : Nat) : List (Nat × Nat) :=
  (s.cores.flatMap fun c =>
    match c.2.allocs.look group with
    | some a => (a.claims ++ a.waiting).filterMap fun q => if q.2.contains ch then some (c.1, q.1) else none
    | none => []).eraseDups
/-- Whether a bake waits for a place. -/
def State.joinWaits (s : State) (ch : Nat × Nat) (group : Nat) : Bool :=
  (s.banksOf ch group).any fun b => (s.waiters b.1 group b.2).contains ch
/-- The banks that a chain's ports name on a core's allocation, below its end (11 R275), as core and bank. -/
def State.namedBanks (s : State) (group : Nat) (frames : List Frame) : List (Nat × Nat) :=
  (frames.flatMap fun f =>
    if f.isPort then
      (List.range 64).filterMap fun b => if bitOf f.tokb b && decide (b * 65536 < (s.alloc f.core group).size) then some (f.core, b) else none
    else []).eraseDups
/-- The key of a core's bank in `Slot.handed`. -/
def bankKey (core bank : Nat) : Nat := 256 * core + bank

/-- A slot of a thread replaced. -/
def State.updSlot (s : State) (ch : Nat × Nat) (f : Slot → Slot) : State :=
  let t := s.getTh ch.1
  match t.slots.look ch.2 with
  | some x => s.setTh ch.1 { t with slots := t.slots.set ch.2 (f x) }
  | none => s
/-- A slot of a thread. -/
def State.slotAt (s : State) (ch : Nat × Nat) : Option Slot := (s.getTh ch.1).slots.look ch.2

/-- A token arrives at the head of its queue: a chain that owes it for a RUN that never reached the bank hands it on at once, or keeps it
where it is the only claimant, and owes it no longer; at most `fuel` times. -/
def State.arrive (core group bank : Nat) : Nat → State → State
  | 0, s => s
  | fuel + 1, s =>
    match s.claimants core group bank with
    | [] => s
    | c :: r =>
      let owes := match s.slotAt c with
        | some x => x.handed.contains (bankKey core bank)
        | none => false
      if owes = false then s
      else if r.isEmpty then s.updSlot c fun y => { y with handed := y.handed.filter (· != bankKey core bank) }
      else
        State.arrive core group bank fuel
          ((s.updSlot c fun y => { y with handed := y.handed.erase (bankKey core bank) }).setClaimants core group bank (r ++ [c]))
/-- The holder hands a token on: it moves to the tail; with no other claimant it keeps the token. -/
def State.handOn (s : State) (ch : Nat × Nat) (group : Nat) (b : Nat × Nat) : State :=
  match s.claimants b.1 group b.2 with
  | c :: d :: r => if c = ch then State.arrive b.1 group b.2 4 (s.setClaimants b.1 group b.2 (d :: r ++ [c])) else s
  | _ => s
/-- A chain's last access of its RUN to a bank is over, or never comes: it hands the token on, or does so as soon as the token arrives. -/
def State.passOn (s : State) (ch : Nat × Nat) (b : Nat × Nat) : State :=
  let group := s.th.group
  let l := s.claimants b.1 group b.2
  if l.head? = some ch then s.handOn ch group b
  else if l.contains ch then s.updSlot ch fun y => { y with handed := bankKey b.1 b.2 :: y.handed }
  else s
/-- A chain leaves a bank's claimant queue: the one that has waited longest takes a place that is free now, and a token that it held passes
on. -/
def State.leaveBank (ch : Nat × Nat) (group : Nat) (s : State) (b : Nat × Nat) : State :=
  let l := s.claimants b.1 group b.2
  let w := (s.waiters b.1 group b.2).erase ch
  let free := 4 - (l.erase ch).length
  let s1 := (s.setClaimants b.1 group b.2 (l.erase ch ++ w.take free)).setWaiters b.1 group b.2 (w.drop free)
  if l.head? = some ch then State.arrive b.1 group b.2 4 s1 else s1
/-- A chain, or a CHCFG that waits for a place, leaves every claimant queue (07 R225, 19 R389). -/
def State.leaveClaims (s : State) (ch : Nat × Nat) : State :=
  let group := (s.getTh ch.1).group
  (s.banksOf ch group).foldl (State.leaveBank ch group) s
/-- A chain joins a bank's claimant queue at its tail, or waits for a place behind those that wait already. -/
def State.joinBank (ch : Nat × Nat) (group : Nat) (s : State) (b : Nat × Nat) : State :=
  if (s.claimants b.1 group b.2).length < 4 then s.setClaimants b.1 group b.2 (s.claimants b.1 group b.2 ++ [ch])
  else s.setWaiters b.1 group b.2 (s.waiters b.1 group b.2 ++ [ch])
/-- A chain joins the claimant queues of the banks that it names. -/
def State.joinClaims (s : State) (ch : Nat × Nat) (group : Nat) (frames : List Frame) : State :=
  (s.namedBanks group frames).foldl (State.joinBank ch group) s

/-! ## The beginning and the end of a chain (07 R225) -/

/-- The queues of every core unbound from a chain; their entries stay. -/
def State.unbind (s : State) (ch : Nat × Nat) : State :=
  let clear (o : Option (Nat × Nat)) : Option (Nat × Nat) := if o = some ch then none else o
  { s with cores := s.cores.map fun k =>
      (k.1, { k.2 with queues := k.2.queues.map fun q => (q.1, { q.2 with prod := clear q.2.prod, cons := clear q.2.cons }) }) }

/-- A lane group that a chain held is freed and shares() runs, unless another chain names it (09 R250); a withdrawn one is dead. -/
def State.freeBakeLane (s : State) (l : Nat × Nat) : State :=
  if s.laneOwner l.1 l.2 = .bake ∧ s.laneNamed l.1 l.2 = false then
    (s.setLane l.1 l.2 (if bitOf (s.liveLg l.1) l.2 then .free else .dead)).shares (s.getCore l.1).gangFirst
  else s

/-- The end of the chain in a slot (07 R225 step 4): tokens pass, queues are unbound with their entries kept, and the lane groups that
only its stages held become free. -/
def State.endChain (s : State) (ch : Nat × Nat) : State :=
  match s.slotAt ch with
  | none => s
  | some x =>
    if x.recorded then
      let s1 := s.leaveClaims ch
      s1.setTh ch.1 { s1.getTh ch.1 with slots := (s1.getTh ch.1).slots.erase ch.2 }
    else
      let s1 := (s.leaveClaims ch).unbind ch
      let s2 := s1.setTh ch.1 { s1.getTh ch.1 with slots := (s1.getTh ch.1).slots.erase ch.2 }
      (x.frames.filterMap fun f => if f.isVecStage then some (f.core, f.lg) else none).foldl State.freeBakeLane s2

/-- The links that a chain's lattice frames and switch outputs cross start waking (17 R355). -/
def State.wakeChain (s : State) (frames : List Frame) : State :=
  frames.foldl (fun t f =>
    let t1 := if bits f.word 240 4 ≠ 0 then t.wakePath t.core (bits f.word 240 4) (bits f.word 244 8) else t
    if f.isSwitch ∧ bits f.word 236 4 ≠ 0 then t1.wakePath f.core (bits f.word 236 4) 1 else t1) s

/-- A chain that has its place in every claimant queue is configured in a slot of the current thread (07 R225 step 6, 09 R250, 17 R355). -/
def State.beginChain (s : State) (n : Nat) (x : Slot) : State :=
  let ch := (s.cur, n)
  let s2 := (x.frames.flatMap Frame.binds).foldl (fun t b =>
    let q := t.queue b.1 b.2.1
    t.setQueue b.1 b.2.1 (if b.2.2 then { q with prod := some ch } else { q with cons := some ch })) s
  let s3 := (x.frames.filterMap fun f => if f.isVecStage then some (f.core, f.lg) else none).foldl (fun t l =>
    if t.laneOwner l.1 l.2 = .free then t.setLane l.1 l.2 .bake else t) s2
  let s4 := { s3 with th := { s3.th with slots := s3.th.slots.set n { x with recorded := false } } }
  s4.wakeChain x.frames

/-- The next CHCFG sequence number of a thread. -/
def Thread.nextSeq (t : Thread) : Nat := 1 + (t.slots.map (·.2.seq)).foldl Nat.max 0

/-- Step 6 of CHCFG, and its completion, once the chain has a place in every claimant queue (07 R225). -/
def chcfgBind (k : BitVec 2) (addr : Word) (img n : Nat) (frames : List Frame) (s : State) : M State :=
  if s.joinWaits (s.cur, k.toNat) s.th.group then .error (.park (.chcfgClaim k addr img n) s)
  else .ok (s.beginChain k.toNat { image := addr, nframes := n, frames := frames, seq := s.th.nextSeq }).advance
/-- Steps 5 and 6 of CHCFG (07 R225): the chain joins every claimant queue, or waits for its place in it, in CHCFG order (02 R68). -/
def chcfgJoin (k : BitVec 2) (addr : Word) (img n : Nat) (frames : List Frame) (s : State) : M State :=
  chcfgBind k addr img n frames (s.joinClaims (s.cur, k.toNat) s.th.group frames)
/-- The bytes that step 1 of CHCFG reads: the 8-byte pieces of the image, of at most 64 frames (02 R58). -/
def imageBytes (addr n : Nat) : Nat := if n = 0 then 0 else addr % 8 + 32 * Nat.min n 64
/-- CHCFG (07 R225). -/
def chcfg (a b : BitVec 5) (k : BitVec 2) (s : State) : M State := do
  let addr := s.rd a
  let n := s.rdN b
  let ch := (s.cur, k.toNat)
  let (img, s1) ← s.fetchArea .v false (addr.toNat / 8 * 8) (imageBytes addr.toNat n) 5
  if n = 0 ∨ 64 < n ∨ addr.toNat % 32 ≠ 0 then raise s1 { cause := Cause.badframe, tval := addr, det := 8 }
  else
    match s1.checkImage ch false addr img n with
    | .error t => raise s1 t
    | .ok frames => chcfgJoin k addr img n frames (s1.endChain ch)
/-- CHCFG (07 R225). -/
def execChcfg (a b : BitVec 5) (k : BitVec 2) (s : State) : Host.Outcome State Fault Refusal := finish (chcfg a b k s)
/-- A CHCFG that waited goes on with step 6 once it has its places. What others have bound or taken since its checks refuses it as they would
have; the entries in queues do not count again (assumption 63). -/
def chcfgResume (k : BitVec 2) (addr : Word) (img n : Nat) (s : State) : M State :=
  if s.joinWaits (s.cur, k.toNat) s.th.group then .error (.park (.chcfgClaim k addr img n) s)
  else
    match s.checkImage (s.cur, k.toNat) true addr img n with
    | .error t => raise (s.leaveClaims (s.cur, k.toNat)) t
    | .ok frames => chcfgBind k addr img n frames s
/-- CHCFG_CLAIM_WAKE: a place among a bank's claimants is free, and the CHCFG goes on (02 R68). -/
def execChcfgClaimWake (h : Nat) (s : State) : Host.Outcome State Fault Refusal :=
  wake h (fun w => match w with
    | .chcfgClaim k addr img n => some (chcfgResume k addr img n)
    | _ => none) s

end Sys2Proof.Machine
end

