-- ==== Sys2Proof/Machine/Chain.lean ====
section
/-! DEFINITION. RUN and its nodes: vector and matrix stages, ports, generators and switches, the completion of a RUN, its break, and
the finish of a broken chain (07 R226 to R229, 17 R353 to R360, 19 R398 to R405). -/
namespace Sys2Proof.Machine

/-! ## Progress and queues (17 R353, R354) -/

/-- The progress of frame `f`. -/
def Run.at_ (r : Run) (f : Nat) : Progress := (r.progress[f]?).getD {}
/-- It replaced. -/
def Run.put (r : Run) (f : Nat) (p : Progress) : Run := { r with progress := r.progress.set f p }
/-- g[r] as read at RUN; g0 is zero. -/
def Run.reg (r : Run) (d : BitVec 5) : Word := if d = 0 then 0 else r.g[d.toNat]
/-- g[r] as read at RUN, as a natural number. -/
def Run.regN (r : Run) (d : BitVec 5) : Nat := (r.reg d).toNat

/-- Entries per element of a width. -/
def entriesOf (w : Nat) : Nat := if w = 64 then 2 else 1
/-- The entries of an element: two for a 64-bit one, low bits first. -/
def toEntries (w x : Nat) : List W32 :=
  if w = 64 then [BitVec.ofNat 32 x, BitVec.ofNat 32 (x / 2 ^ 32)] else [BitVec.ofNat 32 (x % 2 ^ w)]
/-- The element that entries hold; upper bits are ignored. -/
def ofEntries (w : Nat) (l : List W32) : Nat := (l.foldr (fun e n => e.toNat + 2 ^ 32 * n) 0) % 2 ^ w

/-- Whether a queue holds `n` entries. -/
def State.qHas (s : State) (core q n : Nat) : Bool := decide (n ≤ (s.queue core q).entries.length)
/-- Whether a queue has room for `n` entries: 64 in all, and no limit in a finish (01 R13, 19 R401). -/
def State.qRoom (s : State) (cap : Option Nat) (core q n : Nat) : Bool :=
  match cap with
  | some c => decide ((s.queue core q).entries.length + n ≤ c)
  | none => true
/-- `n` entries popped. -/
def State.qPop (s : State) (core q n : Nat) : List W32 × State :=
  let x := s.queue core q
  (x.entries.take n, s.setQueue core q { x with entries := x.entries.drop n })
/-- Entries pushed. -/
def State.qPush (s : State) (core q : Nat) (l : List W32) : State :=
  let x := s.queue core q
  s.setQueue core q { x with entries := x.entries ++ l }

/-- The register element that stream element `i` reads: `i` mod vlmax (07 R227). -/
def State.lap (s : State) (i : Nat) : Nat := if s.th.vlmax = 0 then 0 else i % s.th.vlmax

/-! ## Vector compute stages (02 R65, 05 R136, 07 R227) -/

/-- What a stage's words see for one element: registers popped, registers written, and masks written. -/
structure StageEnv where
  ins : SMap Nat := []
  regs : SMap Nat := []
  masks : SMap Nat := []
  deriving DecidableEq, Repr

/-- A vector register's element for a stage from the first of two lists that has it, else the thread's register. -/
def stageReg (a b : SMap Nat) (s : State) (r w j : Nat) : Nat :=
  match a.look r with
  | some x => x % 2 ^ w
  | none => match b.look r with
    | some x => x % 2 ^ w
    | none => elt (s.vreg (BitVec.ofNat 5 r)) w j
/-- A read of a register by a stage's word: the entries popped for it, whatever a word has written, else what a word wrote (02 R63, 07
R227, 17 R354). -/
def StageEnv.reg (e : StageEnv) (s : State) (r w j : Nat) : Nat := stageReg e.ins e.regs s r w j
/-- The value that an output binding pushes: what a word wrote, else the entries popped (17 R354). -/
def StageEnv.out (e : StageEnv) (s : State) (r w j : Nat) : Nat := stageReg e.regs e.ins s r w j
/-- A mask bit for a stage. -/
def StageEnv.mask (e : StageEnv) (s : State) (r j : Nat) : Bool :=
  match e.masks.look r with
  | some x => x == 1
  | none => (s.mreg r).testBit j
/-- A source for a stage. -/
def StageEnv.src (e : StageEnv) (s : State) (run : Run) (j : Nat) (x : Src) : Nat :=
  match x with
  | .vec r w => e.reg s r.toNat w j
  | .scalar r => run.regN r
  | .none => 0

/-- One word of a stage on element `i` (02 R65, 17 R354). Flags and marks go to the thread, draws come from its generator `i` mod 128 (19
R402). A scaled VCVT takes the byte of `vsc` of the register element that `i` reads, (`i` mod vlmax) div 32 (03 R79, 07 R227, DEDUCED:
assumption 85). -/
def State.stageWord (s : State) (run : Run) (i : Nat) (e : StageEnv) (o : ElemOp) : State × StageEnv :=
  let j := s.lap i
  if o.k ≠ 0 ∧ e.mask s o.k.toNat j = false then (s, e)
  else
    let dr := if o.draws then srDraw s.th.gens i else (0, s.th.gens)
    let old := match o.dst with
      | .vec r w => e.reg s r.toNat w j
      | .mask r => (e.mask s r j).toNat
    let r := o.f { i := j, a := e.src s run j o.a, b := e.src s run j o.b, d := old, sel := e.mask s o.selMask.toNat j, word := dr.1 }
    let s1 := { s with th := { s.th with gens := dr.2 } }.mark r.flags (if r.mark ∧ s.th.vlmax ≠ 0 then 2 ^ j else 0)
    match o.dst with
    | .vec d w => (s1, { e with regs := e.regs.set d.toNat (r.val % 2 ^ w) })
    | .mask d => (s1, { e with masks := e.masks.set d (r.val % 2) })

/-- The operations of a vector stage, none where a word's execution-time conditions fail (05 R137). -/
def State.stageOps (s : State) (f : Frame) : Option (List ElemOp) :=
  (List.range (f.nins + 1)).mapM fun k =>
    match insOf (f.ins k) with
    | some i =>
      match elemOf i with
      | some op => op { s.ectx with ew := f.ew }
      | none => none
    | none => none
/-- Whether a stage draws stochastic words. -/
def State.stageDraws (s : State) (f : Frame) : Bool :=
  f.isVecStage && (match s.stageOps f with | some l => l.any (·.draws) | none => false)
/-- The order of draws: ascending element, then frame (19 R402). -/
def State.drawTurn (s : State) (frames : List Frame) (run : Run) (n i : Nat) : Bool :=
  frames.zipIdx.all fun g =>
    g.2 == n || !s.stageDraws g.1 || (if g.2 < n then decide (i < (run.at_ g.2).done) else decide (i ≤ (run.at_ g.2).done))

/-- ILLEGAL at a stage, with its first word. -/
def stageIllegal {α : Type} (s : State) (f : Frame) : M α :=
  raise s { cause := Cause.illegal, tval := BitVec.ofNat 64 (f.ins 0) }

/-- Element `i` of a vector stage; none while it is not ready. Where two input bindings name one register, a read sees the entries of the later one:
IN2's before IN1's before IN0's (DESIGN CHOICE, assumption 98: 02 R63 and 17 R354 do not say whose). -/
def State.vecElement (s : State) (cap : Option Nat) (frames : List Frame) (run : Run) (n : Nat) (f : Frame) (i : Nat) :
    M (Option State) :=
  let w := ewBits f.ew
  let k := entriesOf w
  let ins := f.ins3.filterMap id
  let outs := f.outs2.filterMap id
  if (ins.all fun b => s.qHas f.core b.1 k) = false ∨ (outs.all fun b => s.qRoom cap f.core b.1 k) = false then .ok none
  else
    match s.stageOps f with
    | none => stageIllegal s f
    | some ops =>
      if ops.any (·.draws) ∧ s.drawTurn frames run n i = false then .ok none
      else
        let (s1, env) := ins.foldl (fun p b =>
          let q := p.1.qPop f.core b.1 k
          (q.2, { p.2 with ins := p.2.ins.set b.2 (ofEntries w q.1) })) (s, ({} : StageEnv))
        let (s2, env2) := ops.foldl (fun p o => p.1.stageWord run i p.2 o) (s1, env)
        .ok (some (outs.foldl (fun t b => t.qPush f.core b.1 (toEntries w (env2.out s2 b.2 w (s2.lap i)))) s2))

/-! ## Memory ports and generators (02 R66 to R70) -/

/-- A signed 24-bit field. -/
def Frame.stride (f : Frame) (lo : Nat) : Int := toS 24 (bits f.word lo 24)
/-- The address that a generator computes for element `e` (02 R70). -/
def Frame.genAddr (f : Frame) (run : Run) (e : Nat) : Nat :=
  let n0 := bits f.word 8 16 + 1
  let n1 := bits f.word 24 16 + 1
  let n2 := bits f.word 40 16 + 1
  let base : Int := run.regN (BitVec.ofNat 5 (bits f.word 235 5))
  let i0 : Int := (e % n0 : Nat)
  let i1 : Int := (e / n0 % n1 : Nat)
  let i2 : Int := (e / (n0 * n1) % n2 : Nat)
  ofS 64 (base + i0 * f.stride 56 + i1 * f.stride 80 + i2 * f.stride 104)

/-- The address of element `i` of a port (06 R167, 02 R70); `x` is its index. -/
def Frame.portAddr (f : Frame) (frames : List Frame) (run : Run) (p : PortIns) (i x : Nat) : Nat :=
  if bitOf f.word 236 then
    match frames[bits f.word 230 6]? with
    | some g => g.genAddr run i
    | none => 0
  else
    match p.form with
    | 0 => unitAddr (run.regN p.b) (2 ^ p.size) i
    | 1 => strideAddr (run.regN p.b) (run.reg p.x) i
    | _ => (run.regN p.b + x * 2 ^ p.size) % 2 ^ 64

/-- The size by which a port's addresses are checked: its own, and that of the generator that feeds it where that is larger, so that no element
is misaligned (02 R70, 11 R278). -/
def Frame.checkSize (f : Frame) (frames : List Frame) (p : PortIns) : Nat :=
  if bitOf f.word 236 then
    match frames[bits f.word 230 6]? with
    | some g => Nat.max (2 ^ bits g.word 232 2) (2 ^ p.size)
    | none => 2 ^ p.size
  else 2 ^ p.size

/-- Whether the governing mask of a port has element `i` (07 R227). -/
def State.portActive (s : State) (p : PortIns) (i : Nat) : Bool := p.k == 0 || (s.mreg p.k.toNat).testBit (s.lap i)

/-- The offset in the gang's tile space of a local offset on a core, and the core whose channels serve it (11 R274). -/
def State.gangOff (s : State) (core off : Nat) : Nat × Nat :=
  let first := (s.getCore core).gangFirst
  (first, (core - first) * s.group.tile + off)

/-- A local tile access of a chain node on its target core (02 R69, R70, 07 R218, 11 R274). -/
def State.nodeTile (s : State) (core a n : Nat) (k : AKind) : Except AErr Loc :=
  let off := a % 2 ^ 22
  if bits a 22 41 ≠ 0 ∨ (s.alloc core s.th.group).size < off + n then .error .tilebnd
  else
    let g := s.gangOff core off
    match s.stalledOn g.1 g.2 n k with
    | some c => .error (.wait (.stall c))
    | none => .ok (.tile core s.th.group off)

/-- Whether element `i` of a port reaches a bank that it names: for an indexed port its final element does (02 R68). A port that an address
generator feeds has an address sequence, whatever the form of its word, and goes by that (DEDUCED: assumption 85). -/
def State.touches (s : State) (frames : List Frame) (run : Run) (f : Frame) (p : PortIns) (bank i : Nat) : Bool :=
  bitOf f.tokb bank &&
    (if p.form = 2 ∧ bitOf f.word 236 = false then i + 1 == run.n
     else s.portActive p i && f.portAddr frames run p i 0 % 2 ^ 22 / 65536 == bank)
/-- Whether a port reaches a bank among elements `from_` to `N` − 1. -/
def State.reaches (s : State) (frames : List Frame) (run : Run) (f : Frame) (p : PortIns) (bank from_ : Nat) : Bool :=
  (span from_ run.n).any fun i => s.touches frames run f p bank i
/-- The ports of a chain on a core, with their frame numbers. -/
def portsOn (frames : List Frame) (core : Nat) : List (Nat × Frame × PortIns) :=
  frames.zipIdx.filterMap fun g =>
    if g.1.isPort && g.1.core == core then (match g.1.port with | some p => some (g.2, g.1, p) | none => none) else none
/-- The banks whose last access of the RUN element `i` of port `n` is: no port of the chain reaches them any more (02 R68). -/
def State.lastOf (s : State) (frames : List Frame) (run : Run) (n : Nat) (f : Frame) (p : PortIns) (i : Nat) : List Nat :=
  (List.range 64).filter fun b =>
    s.touches frames run f p b i && !s.reaches frames run f p b (i + 1)
      && (portsOn frames f.core).all fun g => g.1 == n || !s.reaches frames run g.2.1 g.2.2 b (run.at_ g.1).done

/-- A port's store noted with what the bytes held before it (11 R281). -/
def State.noteStore (s : State) (ch : Nat × Nat) (l : Loc) (n : Nat) : State :=
  let t := s.getTh ch.1
  s.setTh ch.1 { t with unseen := (ch.2, l, n, s.readLoc l n) :: t.unseen }
/-- The accesses of a slot's RUNs ordered before the thread's younger ones, as CHWAIT and CHBRK order them (07 R228). A RUN of the slot may have
read what another slot's port stored, or stored after it, so that nothing is read late after this (11 R281, R285). -/
def State.acquire (s : State) : State := s.caught
/-- Element `i` of a memory port; none while it is not ready. A masked-off load pushes what its register holds: the popped index where that
is also its destination, else the thread's element (17 R354). Where `VD` and `IX` of a VSTX port are one register and only one of `DATA` and `IDX` is
valid, the other operand is the thread's element, as 02 R66 has it for an invalid binding (DEDUCED, assumption 98). -/
def State.portElement (s : State) (ch : Nat × Nat) (cap : Option Nat) (frames : List Frame) (run : Run) (n : Nat)
    (f : Frame) (i : Nat) : M (Option State) :=
  match f.port with
  | none => stageIllegal s f
  | some p =>
    let sz := 2 ^ p.size
    let w := 8 * sz
    let k := entriesOf w
    let data := f.binding 220
    let idx := f.binding 210
    let dataOk := match data with
      | some b => if p.load then s.qRoom cap f.core b.1 k else s.qHas f.core b.1 k
      | none => true
    let idxOk := match idx with
      | some b => s.qHas f.core b.1 k
      | none => true
    let arcsOk := f.arcs.all fun a => decide (if a.2 then run.n ≤ (run.at_ a.1).done else i < (run.at_ a.1).done)
    if (dataOk && idxOk && arcsOk) = false then .ok none
    else
      let j := s.lap i
      let x := match idx with
        | some b => ofEntries w (s.qPop f.core b.1 k).1
        | none => elt (s.vreg p.x) w j
      let v := match data with
        | some b => if p.load then (if idx.isSome ∧ p.d = p.x then x else elt (s.vreg p.d) w j) else ofEntries w (s.qPop f.core b.1 k).1
        | none => elt (s.vreg p.d) w j
      let pops (t : State) : State :=
        let t1 := match idx with | some b => (t.qPop f.core b.1 k).2 | none => t
        match data with
        | some b => if p.load then t1 else (t1.qPop f.core b.1 k).2
        | none => t1
      let push (t : State) (y : Nat) : State :=
        match data with
        | some b => if p.load then t.qPush f.core b.1 (toEntries w y) else t
        | none => t
      let gone (t : State) : State := (s.lastOf frames run n f p i).foldl (fun u b => u.passOn ch (f.core, b)) t
      if s.portActive p i = false then .ok (some (gone (push (pops s) v)))
      else
        let a := f.portAddr frames run p i x
        let off := a % 2 ^ 22
        let kind : AKind := if p.load then .read else .write
        let bank := off / 65536
        let cs := f.checkSize frames p
        if off % cs ≠ 0 then .error (accTrap s .misalign a i 1 kind)
        else
          match s.nodeTile f.core a cs kind with
          | .error e => .error (accTrap s e a i 1 kind)
          | .ok l =>
            if off / 2 ^ 19 ≠ bits f.word 237 3 ∨ bitOf f.tokb bank = false ∨ (off + sz - 1) / 65536 ≠ bank then
              .error (accTrap s .tilebnd a i 1 kind)
            else if (s.claimants f.core s.th.group bank).head? ≠ some ch then .ok none
            else if p.load = true ∧ s.poisonedLoc l sz = true then .error (accTrap s .poison a i 1 kind)
            else
              .ok (some (gone (if p.load then push (pops s) (s.readLoc l sz) else ((pops s).noteStore ch l sz).writeLoc l sz v)))

/-- Element `i` of a generator: its `OUT` takes the tile offset (17 R353), once the address passes the checks of 02 R70. A generator
without `OUT` computes nothing by itself: the ports that it feeds make the checks. -/
def State.genElement (s : State) (cap : Option Nat) (run : Run) (f : Frame) (i : Nat) : M (Option State) :=
  match f.binding 222 with
  | none => .ok (some s)
  | some b =>
    if s.qRoom cap f.core b.1 1 = false then .ok none
    else
      let a := f.genAddr run i
      let off := a % 2 ^ 22
      let n := 2 ^ bits f.word 232 2
      if off % n ≠ 0 then .error (accTrap s .misalign a i 1 .read)
      else if bits a 22 41 ≠ 0 ∨ (s.alloc f.core s.th.group).size < off + n then .error (accTrap s .tilebnd a i 1 .read)
      else .ok (some (s.qPush f.core b.1 [BitVec.ofNat 32 off]))

/-! ## Switches (02 R71, 17 R355) -/

/-- Traffic raises a link (20 R426). -/
def State.touchLink (s : State) (r : LinkRef) : State :=
  let x := s.linkSt r
  if x.power = .full ∨ x.waking ∨ (x.capped ∧ x.power = .narrow) then s else s.setLinkSt r { x with waking := true }
/-- Whether a link still holds traffic back: its wake is not complete. -/
def State.linkHolds (s : State) (r : LinkRef) : Bool := (s.linkSt r).waking || (s.linkSt r).power == .sleep

/-- One entry moved, where there is one and each output has room; entries wait for a link's wake. The number of entries moved comes with
the state. -/
def State.moveEntry (s : State) (cap : Option Nat) (f : Frame) : Option (State × Nat) :=
  let path := if bits f.word 236 4 = 0 then [] else s.pathLinks f.core (bits f.word 236 4) 1
  match (s.queue f.core f.inq).entries with
  | [] => none
  | e :: _ =>
    if s.qRoom cap f.outCore f.outq 1 = false ∨ (match f.cpq with | some q => !s.qRoom cap f.core q 1 | none => false) = true then none
    else
      let s1 := path.foldl State.touchLink s
      if path.any s1.linkHolds then (if s1.links = s.links then none else some (s1, 0))
      else
        let s2 := ((s1.qPop f.core f.inq 1).2).qPush f.outCore f.outq [e]
        some (match f.cpq with | some q => s2.qPush f.core q [e] | none => s2, 1)

/-! ## Matrix stages (17 R358 to R360) -/

/-- A size in bytes rounded up to a multiple of 64. -/
def panelBytes (elts w : Nat) : Nat := (elts * w / 8 + 63) / 64 * 64
/-- The bytes of the A side of one element: a panel, or a tile record. -/
def MatOp.bytesA (o : MatOp) (mvl : Nat) : Nat := if o.kind = .mopq then 2176 else panelBytes (64 * o.k mvl) (panelWidth o.fa)
/-- The bytes of the B panel of one element. -/
def MatOp.bytesB (o : MatOp) (mvl : Nat) : Nat := panelBytes (64 * o.k mvl) (panelWidth o.fb)

/-- The entries that an input binding still has to take for an element. -/
def missing (b : Option (Nat × Nat)) (need : Nat) (got : List W32) : Nat :=
  match b with
  | some _ => need / 4 - got.length
  | none => 0
/-- Entries moved from a queue into a stage's buffer. -/
def State.collect (s : State) (core : Nat) (b : Option (Nat × Nat)) (n : Nat) (got : List W32) : List W32 × State :=
  match b with
  | some q => let r := s.qPop core q.1 n; (got ++ r.1, r.2)
  | none => (got, s)

/-- A location of a matrix fetch of a stage: local tile memory of its core, or space 0 through its unit's MTLB at the RUN's level. -/
def State.nodeLoc (s : State) (core : Nat) (level : Level) (a : Nat) : Except AErr (Loc × State) :=
  if bitOf a 63 then (s.nodeTile core a 8 .read).map fun l => (l, s)
  else s.locate0 (.unit (core / 2)) level a 8 .read
/-- The locations of a list of pieces. -/
def State.nodeLocs (s : State) (core : Nat) (level : Level) : Pieces → State × List (Nat × Nat × Except AErr Loc)
  | [] => (s, [])
  | p :: r =>
    match s.nodeLoc core level p.2.1 with
    | .ok (l, s1) => let t := s1.nodeLocs core level r; (t.1, (p.2.2, p.2.1, .ok l) :: t.2)
    | .error e => let t := s.nodeLocs core level r; (t.1, (p.2.2, p.2.1, .error e) :: t.2)

/-- The image of a buffer of entries. -/
def entryImage (l : List W32) : Nat := packElts 32 (l.map (·.toNat))

/-- The state as a matrix stage's step sees it, with the pieces that the schedule has chosen as they stood before the strips that have written
them (18 R374). -/
def State.behind (s : State) : State :=
  (s.th.fills.zipIdx.filter fun x => (s.older.headD 0).testBit x.2).foldl (fun t x => t.put x.1.1 8 x.1.2) s
/-- That choice used up. -/
def State.pastFetch (s : State) : State := if s.th.fills.isEmpty then s else { s with older := s.older.tail }
/-- The state and the operands of the steps of element `i` from step `k`, and the address of a B piece. -/
def State.stageFetch (s : State) (run : Run) (f : Frame) (o : MatOp) (a b : BitVec 5) (t : Attachment) (i k : Nat) (pr : Progress) :
    M (State × MatIn × (Nat → Nat)) :=
  let mvl := s.th.mvl
  let n := o.count mvl
  let qa := (f.binding 214).isSome
  let qb := (f.binding 204).isSome
  let addrA := (run.regN a + i * o.bytesA mvl) % 2 ^ 64
  let addrB := (run.regN b + i * o.bytesB mvl) % 2 ^ 64
  let rb := 8 * panelWidth o.fb
  let tb := run.regN (a + 1) % 2 ^ 63
  let row (q : Nat) : Nat := elt (s.vreg b) (ewBits s.th.ew) q
  let fA := o.piecesA t.mode t.rows mvl
  let la := if qa then [] else panelList addrA (piecesOver fA k n) (if o.kind = .mopg then lowestStep fA k n else fun _ => 0)
  let lb :=
    match o.kind with
    | .mopg => (gatherList tb rb row k n).map fun p => (p.1, p.2.1 + 2 ^ 63, p.2.2)
    | .mops => []
    | _ => if qb then [] else panelList addrB (piecesOver (o.piecesB t.mode mvl) k n) fun _ => 0
  let (s1, ra) := s.nodeLocs f.core run.level la
  let (s2, rbs) := s1.nodeLocs f.core run.level lb
  match areaErr s2 2 .read (leadElems (mergeByAddr (ra.length + rbs.length) ra rbs)) with
  | some e => .error e
  | none =>
    let locs := (ra ++ rbs).filterMap fun x => match x.2.2 with
      | .ok l => some l
      | .error _ => none
    let ia := s2.behind.pieceImage la ra
    let ib := s2.behind.pieceImage lb rbs
    .ok ((s2.noteReads locs).pastFetch,
      { ia := if qa then entryImage pr.in0 else ia.1, ib := if qb then entryImage pr.in1 else ib.1
        pa := ia.2, pb := ib.2, vsc := s2.vreg 30, mode := t.mode, core := f.core, rows := t.rows, mvl := mvl
        header := t.codebook.getD 0
        list := if (f.binding 194).isSome then entryImage pr.in2 else t.raisins.getD 0
        record := if qa then 0 else BitVec.ofNat 64 addrA },
      fun p => if o.kind = .mopg then tb + row (p / (rb / 8)) * rb + 8 * (p % (rb / 8)) else addrB + 8 * p)

/-- The `DET` of an element's raisin list in the rows that the stage holds: entries of other rows are not checked (17 R364, 03 R85). -/
def raisinDetBelow (rows area : Nat) : Option Nat :=
  if 64 < bits area 0 7 ∨ bits area 7 505 ≠ 0 then some 3
  else if entriesBad area ((List.range (bits area 0 7)).filter fun k => decide (bits area (512 + 64 * k) 12 / 64 < rows)) none then some 4
  else none
/-- The checks of a step stage at an element, beyond those of RUN (07 R208, 03 R85). -/
def State.stagePre (s : State) (f : Frame) (o : MatOp) (t : Attachment) (pr : Progress) : M Unit :=
  if o.kind ≠ .mopq then .ok ()
  else if s.hasFeat 1 = false then stageIllegal s f
  else if t.codebook.isNone then raise s { cause := Cause.cbook, det := 6 }
  else
    match (if (f.binding 194).isSome then raisinDetBelow t.rows (entryImage pr.in2) else none) with
    | some d => raise s { cause := Cause.cbook, det := d }
    | none => .ok ()

/-- One move of a step stage on element `i`: it takes the entries that stand in its queues; with every input complete it performs one
step. The progress after it comes with the state. In a finish (no capacity) it waits for all of its entries. -/
def State.stepElement (s : State) (cap : Option Nat) (run : Run) (f : Frame) (o : MatOp) (a b : BitVec 5) (i : Nat) (pr : Progress) :
    M (Option (State × Progress)) :=
  let mvl := s.th.mvl
  let b0 := f.binding 214
  let b1 := f.binding 204
  let b2 := f.binding 194
  let m0 := missing b0 (o.bytesA mvl) pr.in0
  let m1 := missing b1 (o.bytesB mvl) pr.in1
  let m2 := missing b2 576 pr.in2
  let have_ (x : Option (Nat × Nat)) : Nat := match x with
    | some q => (s.queue f.core q.1).entries.length
    | none => 0
  let full := m0 ≤ have_ b0 ∧ m1 ≤ have_ b1 ∧ m2 ≤ have_ b2
  let idle := Nat.min m0 (have_ b0) + Nat.min m1 (have_ b1) + Nat.min m2 (have_ b2) = 0
  if (m0 + m1 + m2 ≠ 0 ∧ idle) ∨ (cap = none ∧ ¬full) then .ok none
  else
    let r0 := s.collect f.core b0 m0 pr.in0
    let r1 := r0.2.collect f.core b1 m1 pr.in1
    let r2 := r1.2.collect f.core b2 m2 pr.in2
    let pr1 := { pr with in0 := r0.1, in1 := r1.1, in2 := r2.1 }
    let s1 := r2.2
    if ¬full then .ok (some (s1, pr1))
    else do
      let t ← (match s1.stageAtt f.core with
        | some t => .ok t
        | none => raise s { cause := Cause.mnogrant })
      let _ ← s.stagePre f o t pr1
      let (s2, x, addr) ← s1.stageFetch run f o a b t i pr.steps pr1
      match stepCheck o x pr.steps with
      | some e => raise s2 (stepTrap x addr pr.steps e)
      | none =>
        let s3 := matStep o x pr.steps s2
        if pr.steps + 1 < o.count mvl then .ok (some (s3, { pr1 with steps := pr.steps + 1 }))
        else .ok (some (s3, { done := pr.done + 1 }))

/-- Element `i` of an MRD or MWR stage (17 R358). -/
def State.mxfElement (s : State) (cap : Option Nat) (run : Run) (f : Frame) (rd : Bool) (d a : BitVec 5) (t i : Nat) : M (Option State) :=
  match s.stageAtt f.core with
  | none => raise s { cause := Cause.mnogrant }
  | some at_ =>
    let row := run.regN a + i / 64
    if at_.rows ≤ row then raise s { cause := Cause.mnogrant }
    else
      let img := s.accRow f.core at_.rows t row
      if rd then
        match f.binding 184 with
        | none => .ok (some s)
        | some b => if s.qRoom cap f.core b.1 1 then .ok (some (s.qPush f.core b.1 (toEntries 32 (elt img 32 (i % 64))))) else .ok none
      else
        match f.binding 214 with
        | none => .ok (some (s.setAccRow f.core at_.rows t row (setElt img 32 (i % 64) (elt (s.vreg d) 32 (s.lap i)))))
        | some b =>
          if s.qHas f.core b.1 1 then
            let q := s.qPop f.core b.1 1
            .ok (some (q.2.setAccRow f.core at_.rows t row (setElt img 32 (i % 64) (ofEntries 32 q.1))))
          else .ok none

/-! ## Nodes -/

/-- One move of frame `n` of a RUN of the current thread, with its new progress: an element, or a step of a matrix stage. None where it
is not ready; an access that waits is not ready either. -/
def State.nodeMove (s : State) (slot : Nat) (cap : Option Nat) (x : Slot) (run : Run) (n : Nat) (f : Frame) :
    M (Option (State × Progress)) :=
  let pr := run.at_ n
  let i := pr.done
  let next (r : M (Option State)) : M (Option (State × Progress)) :=
    r.map fun o => o.map fun t => (t, { done := i + 1 })
  let r :=
    if f.isSwitch then .ok ((s.moveEntry cap f).map fun t => (t.1, { pr with moved := pr.moved + t.2 }))
    else if run.n ≤ i then .ok none
    else if f.isGen then next (s.genElement cap run f i)
    else if f.isPort then next (s.portElement (s.cur, slot) cap x.frames run n f i)
    else if f.isMatStage then
      match f.mat with
      | some (.step o a b) => s.stepElement cap run f o a b i pr
      | some (.mrd d a t) => next (s.mxfElement cap run f true d a t i)
      | some (.mwr d a t) => next (s.mxfElement cap run f false d a t i)
      | none => stageIllegal s f
    else next (s.vecElement cap x.frames run n f i)
  match r with
  | .error (.park _ t) => .ok (if s.asked t = s then none else some (s.asked t, pr))
  | r => r

/-- The entries that a frame has pushed in a RUN into each queue that it produces (17 R353). -/
def Run.pushed (r : Run) (f : Frame) (n : Nat) : Nat :=
  let p := r.at_ n
  if f.isSwitch then p.moved
  else if f.isMatStage then p.done
  else if f.isPort then
    match f.port with
    | some q => p.done * entriesOf (8 * 2 ^ q.size)
    | none => 0
  else if f.isGen then p.done
  else p.done * entriesOf (ewBits f.ew)
/-- The entries that the nodes of a RUN have pushed into a queue. -/
def Run.pushedInto (r : Run) (frames : List Frame) (core q : Nat) : Nat :=
  ((frames.zipIdx.filter fun g => g.1.binds.contains (core, q, true)).map fun g => r.pushed g.1 g.2).sum
/-- Whether a generator holds no RUN open: it has no queue of its own, or that queue has no room for another address
(assumption 65). -/
def State.genDone (s : State) (f : Frame) : Bool :=
  f.isGen && (match f.binding 222 with
    | none => true
    | some b => !s.qRoom (some 64) f.core b.1 1)
/-- Whether a RUN is complete (17 R356): every stage and port has processed its last element, and every switch has moved all that the
RUN's nodes pushed into its queue. A generator is neither: it gives its addresses while its queue has room (02 R70, assumption 65). -/
def State.runDone (s : State) (x : Slot) (run : Run) : Bool :=
  x.frames.zipIdx.all fun g =>
    if g.1.isSwitch then
      (s.queue g.1.core g.1.inq).entries.isEmpty || run.pushedInto x.frames g.1.core g.1.inq == 0
    else s.genDone g.1 || decide (run.n ≤ (run.at_ g.2).done)
/-- Whether a finish is over (19 R401): every node has processed its last element, and no switch holds entries. -/
def State.finishOver (s : State) (x : Slot) (run : Run) : Bool :=
  x.frames.zipIdx.all fun g =>
    if g.1.isSwitch then (s.queue g.1.core g.1.inq).entries.isEmpty
    else (g.1.isGen && (g.1.binding 222).isNone) || decide (run.n ≤ (run.at_ g.2).done)

/-- The banks that a RUN's accesses never reach: their tokens are handed on at its completion, or on arrival (02 R68). -/
def State.neverReached (s : State) (x : Slot) (run : Run) : List (Nat × Nat) :=
  (s.namedBanks s.th.group x.frames).filter fun b =>
    (portsOn x.frames b.1).all fun g => !s.reaches x.frames run g.2.1 g.2.2 b.2 0

/-- A RUN of the current thread completes (17 R356). -/
def State.completeRun (s : State) (slot : Nat) (x : Slot) (run : Run) : State :=
  let ch := (s.cur, slot)
  let s1 := s.updSlot ch fun y => { y with run := none, lastN := run.n }
  (s.neverReached x run).foldl (fun t b => t.passOn ch b) s1

/-! ## RUN (07 R226, 17 R359) -/

/-- The checks of RUN: ILLEGAL, then MNOGRANT, then MISALIGN. -/
def State.runCheck (s : State) (frames : List Frame) (n : Nat) : Option Trap :=
  let mats := frames.filterMap fun f => if f.isMatStage then f.mat.map fun m => (f, m) else none
  let illegal := mats.any fun m =>
    match m.2 with
    | .step o _ _ => (o.kind != .mopq && o.scaled && decide (s.th.vrlen < 1024)) || (o.kind == .mopg && decide (s.th.vl < s.th.mvl))
    | _ => false
  let rows (core : Nat) : Nat := match s.stageAtt core with
    | some a => a.rows
    | none => 0
  let short (core : Nat) (a : BitVec 5) : Bool := decide (64 * rows core < n + 64 * s.rdN a)
  let nogrant := mats.any fun m =>
    match m.2 with
    | .mrd _ a _ => short m.1.core a
    | .mwr _ a _ => short m.1.core a
    | _ => false
  let addrs := mats.flatMap fun m =>
    match m.2 with
    | .step o a b =>
      (if (m.1.binding 214).isNone then [s.rd a] else [])
        ++ (if o.kind = .mopg then [s.rd (a + 1)] else if o.kind ≠ .mops ∧ (m.1.binding 204).isNone then [s.rd b] else [])
    | _ => []
  if illegal then some { cause := Cause.illegal, tval := s.word.setWidth 64 }
  else if nogrant then some { cause := Cause.mnogrant }
  else
    match addrs.find? fun a => a.toNat % 64 != 0 with
    | some a => some { cause := Cause.misalign, tval := a }
    | none => none

/-- RUN (07 R226). -/
def execRun (a : BitVec 5) (k : BitVec 2) (s : State) : Host.Outcome State Fault Refusal :=
  finish (
    match s.slotAt (s.cur, k.toNat) with
    | none => illegal s
    | some x =>
      if x.recorded ∨ s.rdN a / 2 ^ 32 ≠ 0 then illegal s
      else
        match s.runCheck x.frames (s.rdN a) with
        | some t => raise s t
        | none =>
          let run : Run := { n := s.rdN a, g := s.th.g, level := s.th.level, progress := x.frames.map fun _ => {} }
          let s1 := s.updSlot (s.cur, k.toNat) fun y => { y with run := some run, lastN := run.n }
          .ok (if run.n = 0 then s1.completeRun k.toNat x run else s1).advance)

/-! ## Streaming -/

/-- A break of the RUN in a slot: no node starts a further element (19 R398). -/
def State.breakChain (s : State) (ch : Nat × Nat) : State :=
  s.updSlot ch fun x =>
    match x.run with
    | some r => { x with run := some { r with phase := if r.phase = .streaming then .draining else r.phase } }
    | none => x
/-- Every running chain of a thread breaks. -/
def State.breakAll (s : State) (h : Nat) : State := (s.getTh h).slots.foldl (fun t x => t.breakChain (h, x.1)) s

/-- A streaming RUN, on its thread. -/
def State.streamOf (s : State) (h slot : Nat) : Option (Slot × Run) :=
  match s.slotAt (h, slot) with
  | some x =>
    match x.run with
    | some r => if r.phase = .streaming then some (x, r) else none
    | none => none
  | none => none

/-- A node moves on behalf of its thread; a fault breaks the chain (19 R398). -/
def streamNode (want : Frame → Bool) (h slot n : Nat) (s : State) : Host.Outcome State Fault Refusal :=
  match s.streamOf h slot with
  | none => .next s
  | some (x, r) =>
    match x.frames[n]? with
    | none => .next s
    | some f =>
      if want f = false then .next s
      else
        match (s.switchTo h).nodeMove slot (some 64) x r n f with
        | .ok none => .next s
        | .ok (some (t, p)) => .next ((t.updSlot (h, slot) fun y => { y with run := y.run.map fun q => q.put n p }).switchTo s.cur)
        | .error (.trap _ _) => .next (s.breakChain (h, slot))
        | .error (.park _ _) => .next s
        | .error (.fault e) => .fault e

/-- CHAIN_NODE_ELEMENT: a stage, port or generator that is ready processes its next element; a matrix stage takes entries or performs
one step of it (17 R354, R358). -/
def execChainNodeElement (h slot frame : Nat) (s : State) : Host.Outcome State Fault Refusal :=
  streamNode (fun f => !f.isSwitch) h slot frame s
/-- SWITCH_ENTRY_MOVE: a switch moves its oldest entry (17 R355). -/
def execSwitchEntryMove (h slot frame : Nat) (s : State) : Host.Outcome State Fault Refusal :=
  streamNode Frame.isSwitch h slot frame s
/-- RUN_COMPLETE: every node of a streaming RUN is done (17 R356). -/
def execRunComplete (h slot : Nat) (s : State) : Host.Outcome State Fault Refusal :=
  match s.streamOf h slot with
  | none => .next s
  | some (x, r) => if s.runDone x r then .next ((s.switchTo h).completeRun slot x r |>.switchTo s.cur) else .next s

/-! ## Draining (19 R399) -/

/-- Entries put back at the front of a queue. -/
def State.unpop (s : State) (core : Nat) (b : Option (Nat × Nat)) (l : List W32) : State :=
  match b with
  | some q => let x := s.queue core q.1; s.setQueue core q.1 { x with entries := l ++ x.entries }
  | none => s
/-- The entries of elements in progress return to their queues, to be taken again by the finish. -/
def State.returnEntries (s : State) (x : Slot) (r : Run) : State :=
  x.frames.zipIdx.foldl (fun t g =>
    if g.1.isMatStage then
      let p := r.at_ g.2
      ((t.unpop g.1.core (g.1.binding 214) p.in0).unpop g.1.core (g.1.binding 204) p.in1).unpop g.1.core (g.1.binding 194) p.in2
    else t) s
/-- The least number of elements that a compute stage or memory port has completed spatially: as its RUN's progress stands, until it is drained
(07 R228). -/
def leastDone (frames : List Frame) (r : Run) : Nat :=
  r.spatial.getD (((frames.zipIdx.filter fun g => g.1.kind == 1 || g.1.isPort).map fun g => (r.at_ g.2).done).min?.getD 0)
/-- A broken chain is drained, or its finish stopped: progress stands at element and step boundaries, and the entries of elements in
progress are back in their queues. -/
def State.drain (s : State) (ch : Nat × Nat) : State :=
  match s.slotAt ch with
  | some x =>
    match x.run with
    | some r =>
      if r.phase = .streaming then s
      else
        (s.returnEntries x r).updSlot ch fun y =>
          { y with run := some { r with phase := .drained, spatial := some (leastDone x.frames r)
                                        progress := r.progress.map fun p => { done := p.done, steps := p.steps } } }
    | none => s
  | none => s
/-- CHAIN_DRAIN_COMPLETE (19 R399). -/
def execChainDrainComplete (h slot : Nat) (s : State) : Host.Outcome State Fault Refusal := .next (s.drain (h, slot))

/-! ## CHWAIT and CHBRK (07 R228) -/

/-- CHWAIT on a slot. -/
def chwait (d : BitVec 5) (slot : Nat) (s : State) : M State :=
  match s.slotAt (s.cur, slot) with
  | none => .ok (s.wrAdvance d 0)
  | some x =>
    match x.run with
    | some _ => .error (.park (.chwait d slot) s)
    | none => .ok (s.acquire.wrAdvance d (BitVec.ofNat 64 x.lastN))
/-- CHWAIT (07 R228). -/
def execChwait (d : BitVec 5) (k : BitVec 2) (s : State) : Host.Outcome State Fault Refusal := finish (chwait d k.toNat s)
/-- A slot's image as it stands, or the trap of its read; where the read waits, the state with what it asks of the migration unit (13
R312) or the host (20 R420). -/
def State.readImage (s : State) (x : Slot) : Except State (Except Trap (Nat × State)) :=
  match s.fetchArea .v false x.image.toNat (32 * x.nframes) 5 with
  | .error (.trap t _) => .ok (.error t)
  | .error (.park _ u) => .error (s.asked u)
  | .error (.fault _) => .error s
  | .ok r => .ok (.ok r)
/-- The frames of a slot; of a record that is not prepared yet those of its image, as far as that can be read, and else as many ports, so that
every frame counts (assumption 86). -/
def State.framesOf (s : State) (x : Slot) : List Frame :=
  if x.recorded && x.frames.isEmpty then
    (match s.readImage x with
     | .ok (.ok (img, _)) => (List.range x.nframes).map fun k => { word := bits img (256 * k) 256 }
     | _ => List.replicate x.nframes { word := 2 * 2 ^ 252 })
  else x.frames
/-- Whether a finish or a configuration at a level may run now: not above the level that issued the RUN (19 R401), and after CTXLD only
once the context is resumed (19 R397). -/
def Thread.mayFinish (t : Thread) (r : Run) : Bool := decide (t.level.num ≤ r.level.num) && t.restored.isNone
/-- CHBRK (07 R228): a RUN in progress breaks; the CHBRK completes once the RUN is finished and the chain ended (assumption 86). One
issued where the finish does not run, above the RUN's level (19 R401) or between CTXLD and the return (R397), completes at once. -/
def execChbrk (d : BitVec 5) (k : BitVec 2) (s : State) : Host.Outcome State Fault Refusal :=
  let ch := (s.cur, k.toNat)
  .next (
    match s.slotAt ch with
    | none => s.wrAdvance d 0
    | some x =>
      match x.run with
      | none => (s.endChain ch).acquire.wrAdvance d 0
      | some r =>
        let least := leastDone (s.framesOf x) r
        let now := !s.th.mayFinish r
        let s1 := (s.breakChain ch).updSlot ch fun y =>
          { y with run := y.run.map fun q => { q with endAfter := true, chbrk := if now then none else some (d, least, s.th.pc) } }
        if now then s1.wrAdvance d (BitVec.ofNat 64 least) else s1)

/-- CHWAIT_WAKE: the slot's RUN is complete (07 R228). -/
def execChwaitWake (h : Nat) (s : State) : Host.Outcome State Fault Refusal :=
  wake h (fun w => match w with
    | .chwait d k => some (chwait d k)
    | _ => none) s

/-- Whether a thread has a RUN in progress (07 R227). -/
def Thread.running (t : Thread) : Bool := t.slots.any fun x => x.2.run.isSome
/-- Whether an instruction of the current thread waits for a RUN: of its own, or of a chain whose matrix stage uses its attachment
(07 R227, 17 R360). -/
def State.stageRunsOn (s : State) (h : Nat) : Bool :=
  s.threadIds.any fun i => (s.getTh i).slots.any fun x =>
    x.2.run.isSome && x.2.frames.any fun f =>
      f.isMatStage && s.launchOf i == s.launchOf h && (match s.attOf f.core with | some a => a.h == h | none => false)
/-- Whether the word at the program counter waits behind a RUN of its thread: opcodes 0x20 to 0x5A, CHCFG, RUN, and the writes of
fflags, frm, srseed, qthr and mvl (07 R227, 19 R396). -/
def behindRun (w : Nat) : Bool :=
  let op := bits w 0 7
  (decide (0x20 ≤ op) && decide (op ≤ 0x5A)) || op == 0x68 || op == 0x69
    || (decide (0x75 ≤ op) && decide (op ≤ 0x77) && [6, 7, 8, 9, 0xA].contains (bits w 18 12))
/-- Whether a word is a matrix instruction other than MDET. -/
def matrixWord (w : Nat) : Bool :=
  decide (0x50 ≤ bits w 0 7) && decide (bits w 0 7 ≤ 0x5A) && !(bits w 0 7 == 0x50 && bits w 26 6 == 1)
/-- Whether the current thread's instruction waits without issuing (07 R227, 17 R360). -/
def State.runHolds (s : State) : Bool :=
  let w := s.word.toNat
  (s.th.running && behindRun w) || (matrixWord w && s.stageRunsOn s.cur)
/-- RUN_WAIT_WAKE: no RUN holds the thread back; its instruction issues (07 R227). -/
def execRunWaitWake (h : Nat) (s : State) : Host.Outcome State Fault Refusal :=
  wake h (fun w => match w with
    | .runWait => some fun t => if t.runHolds then .error (.park .runWait t) else .ok t
    | _ => none) s

/-! ## Reconfiguration (19 R405) -/

/-- CHBREAK is posted with its cause and reason. -/
def State.postChbreak (s : State) (slot : Nat) (t : Trap) : State :=
  let r := if t.cause = Cause.badframe then t.det else 0
  { s with th := { s.th with spend := setBit s.th.spend 0 true, chbreaks := s.th.chbreaks ++ [(slot, t.cause + 256 * r)] } }

/-- One slot of the current thread configured again; an error is the state in which a claimant place or the image's access is waited
for. -/
def State.reconfigure (s : State) (slot : Nat) : Except State State :=
  let ch := (s.cur, slot)
  match s.slotAt ch with
  | none => .ok s
  | some x => do
    if s.joinWaits ch s.th.group then .error s
    match ← s.readImage x with
    | .error t => .ok ((s.endChain ch).postChbreak slot t)
    | .ok (img, s1) =>
      match s1.checkImage ch true x.image img x.nframes with
      | .error t => .ok ((s1.endChain ch).postChbreak slot t)
      | .ok l =>
        let y := { x with frames := l, handed := [] }
        let s2 :=
          if (s1.banksOf ch s1.th.group).isEmpty then
            let t := (s1.endChain ch).joinClaims ch s1.th.group l
            { t with th := { t.th with slots := t.th.slots.set slot y } }
          else s1
        if s2.joinWaits ch s2.th.group then .error s2
        else .ok (s2.beginChain slot { y with recorded := false })

/-- A chain ended, its slot kept to be configured again. -/
def State.shelve (s : State) (slot : Nat) : State :=
  match s.slotAt (s.cur, slot) with
  | none => s
  | some x =>
    let t := s.endChain (s.cur, slot)
    { t with th := { t.th with slots := t.th.slots.set slot { x with handed := [], recorded := true } } }

/-- The slots of a thread that pass a test, in sequence order. -/
def Thread.inOrder (t : Thread) (p : Slot → Bool) : List Nat :=
  let l := t.slots.filter fun x => p x.2
  ((List.range l.length).filterMap fun k =>
    l.find? fun x => (l.filter fun y => decide (y.2.seq < x.2.seq)).length == k).map (·.1)
/-- The slots of a thread that still are to be configured again, in sequence order. -/
def Thread.recordedSlots (t : Thread) : List Nat := t.inOrder (·.recorded)
/-- Slots configured again in an order, up to the first that has to wait. -/
def State.reconfigureAll : List Nat → State → State
  | [], s => s
  | k :: r, s =>
    match s.reconfigure k with
    | .ok t => State.reconfigureAll r t
    | .error t => t

/-! ## The finish (19 R401 to R404) -/

/-- The slots of a thread whose RUN is broken, in sequence order. -/
def Thread.broken (t : Thread) : List Nat :=
  t.inOrder fun x => match x.run with | some r => r.phase != .streaming | none => false
/-- Whether a slot's broken RUN stands in a record without frames. -/
def Slot.bare (x : Slot) : Bool := x.recorded && x.frames.isEmpty
/-- The broken slots that a restore left without their frames, whose finish may run (19 R400). -/
def Thread.unprepared (t : Thread) : List Nat :=
  t.inOrder fun x => x.bare && (match x.run with | some r => r.phase != .streaming && t.mayFinish r | none => false)
/-- The slot whose finish the thread performs now. -/
def Thread.finishing (t : Thread) : Option Nat :=
  t.broken.find? fun k => match t.slots.look k with
    | some x => !x.bare && (match x.run with | some r => t.mayFinish r | none => false)
    | none => false
/-- The slots that the thread configures again now: once no RUN of it is broken (19 R405). -/
def Thread.toConfigure (t : Thread) : List Nat := if t.broken.isEmpty && t.restored.isNone then t.recordedSlots else []
/-- Whether the thread has a chain's finish or a configuration to perform before its next instruction. -/
def Thread.finishPending (t : Thread) : Bool := !t.unprepared.isEmpty || t.finishing.isSome || !t.toConfigure.isEmpty
/-- Whether the thread's CHBRK goes on with the finish that it waits for, so that it completes before an asynchronous cause is taken. -/
def Thread.breaking (t : Thread) : Bool :=
  match t.finishing.bind t.slots.look with
  | some x => (x.run.bind Run.chbrk).isSome
  | none => false

/-- A restored chain prepared for its finish (19 R400): its frames are read and their cores resolved, and it joins the claimant queues; an
error is the state in which it has to wait for that. The finish runs on the thread's core and needs no lane group (19 R401). Frames whose
image cannot be read or whose cores do not resolve leave nothing that the finish could perform: the slot is emptied and CHBREAK posted, as
19 R405 has it for the configuration that would follow (assumption 86). -/
def State.prepareFinish (s : State) (slot : Nat) : Except State State :=
  let ch := (s.cur, slot)
  match s.slotAt ch with
  | none => .ok s
  | some x => do
    if s.joinWaits ch s.th.group then .error s
    match ← s.readImage x with
    | .error t => .ok ((s.endChain ch).postChbreak slot t)
    | .ok (img, s1) =>
      match (List.range x.nframes).mapM fun k => s1.resolveCores (bits img (256 * k) 256) with
      | none => .ok ((s1.endChain ch).postChbreak slot { cause := Cause.badframe, det := 3 })
      | some l =>
        let s2 := if (s1.banksOf ch s1.th.group).isEmpty then s1.joinClaims ch s1.th.group l else s1
        if s2.joinWaits ch s2.th.group then .error s2
        else .ok (s2.updSlot ch fun y => { y with frames := l, run := y.run.map fun r => { r with spatial := some (leastDone l r) } })

/-- The first frame of a broken RUN that is ready, with its move: none where no frame is. -/
def State.firstReady (s : State) (slot : Nat) (x : Slot) (run : Run) : List (Frame × Nat) → Option (Nat × M (State × Progress))
  | [] => none
  | (f, n) :: r =>
    match s.nodeMove slot none x run n f with
    | .ok none => s.firstReady slot x run r
    | .ok (some p) => some (n, .ok p)
    | .error e => some (n, .error e)

/-- A trap of an element in the finish: it carries `FIN`, the slot, the frame and the element, and one record (19 R404). -/
def Trap.inFinish (t : Trap) (slot frame elem : Nat) : Trap :=
  { t with fin := true, slot := slot, frame := frame, elem := elem, records := t.records.take 1
           det := if t.cause = Cause.pagebatch then 1 else t.det, epc := none }

/-- A chain that CHBRK ends after its finish: it goes, and the CHBRK that waited completes, if the thread still stands at it. -/
def State.endBroken (s : State) (slot : Nat) (run : Run) : State :=
  if run.endAfter then
    let s1 := (s.endChain (s.cur, slot)).acquire
    match run.chbrk with
    | some (d, n, pc) => if s1.th.pc = pc then s1.wrAdvance d (BitVec.ofNat 64 n) else s1
    | none => s1
  else s
/-- The finish of a slot is over: the RUN completes, and where CHBRK broke it the chain ends. Once no RUN of the thread is broken every
slot is configured again, in sequence order (19 R405). -/
def State.endFinish (s : State) (slot : Nat) (x : Slot) (run : Run) : State :=
  let s1 := (s.completeRun slot x run).endBroken slot run
  if s1.th.broken.isEmpty then
    let s2 := (s1.th.inOrder fun y => !y.bare && y.run.isNone).foldl State.shelve s1
    s2.reconfigureAll s2.th.toConfigure
  else s1

/-- The state with mprog at a matrix stage's recorded steps (17 R360). -/
def State.stageProg (s : State) (f : Option Frame) (p : Progress) : State :=
  if (f.map Frame.isMatStage).getD false then { s with th := { s.th with mprog := p.steps } } else s

/-- One iteration of the finish of the current thread's slot. With no ready frame the thread parks (19 R401). -/
def finishStep (slot : Nat) (x : Slot) (run : Run) (s : State) : Host.Outcome State Fault Refusal :=
  if s.finishOver x run then .next (s.endFinish slot x run)
  else
    match s.firstReady slot x run x.frames.zipIdx with
    | none => .next (if s.th.status = .issuing then { s with th := { s.th with status := .parked .finish } } else s)
    | some (n, .ok (t, p)) =>
      let t1 := (t.stageProg x.frames[n]? p).updSlot (s.cur, slot) fun y => { y with run := y.run.map fun q => q.put n p }
      .next (if t1.th.status = .parked .finish then { t1 with th := { t1.th with status := .issuing } } else t1)
    | some (n, .error (.trap t _)) =>
      .next ((s.stageProg x.frames[n]? (run.at_ n)).takeTrap (t.inFinish slot n (run.at_ n).done))
    | some (_, .error (.park _ _)) => .next s
    | some (_, .error (.fault e)) => .fault e

/-- The thread parks where something that precedes its next instruction has to wait, and else issues again (02 R68). -/
def State.parkFinish (s : State) (waits : Bool) : State :=
  if waits ∧ s.th.status = .issuing then { s with th := { s.th with status := .parked .finish } }
  else if waits = false ∧ s.th.status = .parked .finish then { s with th := { s.th with status := .issuing } }
  else s
/-- The next step that the current thread has to perform before its next instruction: a restored chain is prepared, a finish goes on, or
the slots are configured again. -/
def State.finishNext (s : State) : Host.Outcome State Fault Refusal :=
  match s.th.unprepared with
  | k :: _ =>
    match s.prepareFinish k with
    | .ok t => .next (t.parkFinish false)
    | .error t => .next (t.parkFinish true)
  | [] =>
    match s.th.finishing with
    | some k =>
      match s.th.slots.look k with
      | some x =>
        match x.run with
        | some r => if r.phase = .draining then .next (s.drain (s.cur, k)) else finishStep k x r s
        | none => .next s
      | none => .next s
    | none =>
      if s.th.finishPending then
        let t := s.reconfigureAll s.th.toConfigure
        .next (t.parkFinish (!t.th.toConfigure.isEmpty))
      else .next s

/-- CHAIN_FINISH: the current step of a thread's pending finish: a restored chain's preparation, the drain, an element, or the
configurations that follow the finish (19 R400, R401, R405). -/
def execChainFinish (h : Nat) (s : State) : Host.Outcome State Fault Refusal :=
  if (s.getTh h).finishPending = false then .next s
  else
    match (s.switchTo h).finishNext with
    | .next t => .next (t.switchTo s.cur)
    | .fault e => .fault e
    | .refused e => .refused e

end Sys2Proof.Machine
end

