-- ==== Sys2Proof/Machine/Context.lean ====
section
/-! DEFINITION. The context save area: CTXSV and CTXLD (04 R127, 13 R297, 19 R390 to R397). -/
namespace Sys2Proof.Machine

/-! ## The area and its faults (04 R127, 19 R386) -/

/-- A fault on the save area: DOUBLE to firmware with the fault's code and address; no record is written. -/
def doubleOn {α : Type} (s : State) (code a : Nat) : M α :=
  raise s { cause := Cause.double, tval := BitVec.ofNat 64 a, det := code }
/-- The locations of the pieces of [a, a+n), every one checked before any is accessed. Where several parts fault the manual does not say
which one DOUBLE reports: PROT comes first, then PAGEBATCH, then POISON, each at its lowest address (DESIGN CHOICE, assumption 90). -/
def State.saveLocs (s : State) (a n : Nat) (k : AKind) : M (List (Nat × Loc) × State) :=
  let (s1, l) := s.locateAll .v s.th.level false 8 k ((List.range ((n + 7) / 8)).map fun i => (0, (a + 8 * i) % 2 ^ 64))
  match firstErr AErr.isProt l with
  | some x => doubleOn s1 Cause.prot x.2.1
  | none =>
    match firstErr AErr.isPage l with
    | some x => doubleOn s1 Cause.pagebatch x.2.1
    | none =>
      match firstErr AErr.isPoison l with
      | some x => doubleOn s1 Cause.poison x.2.1
      | none =>
        match firstErr (fun _ => true) l with
        | some x => .error (accTrap s1 x.2.2 x.2.1 0 0 k)
        | none => .ok (l.filterMap fun x => match x.2.2 with
            | .ok loc => some (x.2.1, loc)
            | .error _ => none, s1)
/-- The value of an area. -/
def State.loadArea (s : State) (a n : Nat) : M (Nat × State) := do
  let (l, s1) ← s.saveLocs a n .read
  match l.find? fun p => s1.poisonedLoc p.2 8 with
  | some p => doubleOn s1 Cause.poison p.1
  | none => .ok (l.foldr (fun p x => s1.readLoc p.2 8 + 2 ^ 64 * x) 0, s1.noteReads (l.map (·.2)))

/-! ## Images -/

/-- Byte-addressed fields: offset, bytes, value. -/
abbrev Fields := List (Nat × Nat × Nat)
/-- The image of some fields; a field keeps its low bytes. -/
def image (l : Fields) : Nat := l.foldl (fun x f => x + f.2.2 % 2 ^ (8 * f.2.1) * 2 ^ (8 * f.1)) 0
/-- The 8 bytes at an offset of an image. -/
def dword (x off : Nat) : Nat := bits x (8 * off) 64
/-- Records one after another, each padded to a multiple of 64 bytes: the image and the length. -/
def joinRecords (l : List (Nat × Nat)) : Nat × Nat :=
  l.foldl (fun acc r => (acc.1 + r.1 * 2 ^ (8 * acc.2), acc.2 + up64 r.2)) (0, 0)

/-! ## Channels, rings and transfers (19 R395, R396) -/

/-- The RCFG operand of a ring (07 R222). -/
def Ring.operand (r : Ring) : Nat := r.rb + r.ch * 2 ^ 24 + r.ns * 2 ^ 32 + r.ecnt * 2 ^ 40
/-- A channel record; cdim1 to cdim3 are the thread's registers. -/
def State.channelRecord (s : State) (c : Nat) : Fields :=
  let base := 0x400 + 64 * c
  let dims := (List.range 3).map fun k => (base + 0x20 + 8 * k, 8, (s.th.cdim.get (4 * c + k + 1) 0).toNat)
  if s.holds c then
    let x := s.chan c
    [(base, 8, 1 + x.outward.toNat * 2 + x.xfers.length * 2 ^ 8), (base + 8, 8, x.tb), (base + 0x10, 8, x.tl),
     (base + 0x18, 8, x.cursor), (base + 0x38, 8, s.cwm c)] ++ dims
  else dims
/-- A ring record. -/
def State.ringRecord (s : State) (n : Nat) : Fields :=
  let base := 0x800 + 256 * n
  match s.ring n with
  | some r =>
    if r.owner = s.cur then
      [(base, 8, 1), (base + 8, 8, r.operand), (base + 0x10, 8, r.sb)]
        ++ (List.range (r.ns + 1)).map fun k => (base + 0x40 + 8 * k, 8, r.status k)
    else []
  | none => []

/-- The opcode and `FN6` of a transfer. -/
def XferKind.code : XferKind → Nat × Nat
  | .sld => (0x61, 0) | .sst => (0x62, 0) | .sgath => (0x63, 0) | .sscat => (0x64, 0) | .sscataInt => (0x64, 1)
  | .sscataFloat => (0x64, 2)
/-- The kind that an opcode and an `FN6` name. -/
def XferKind.ofCode (op fn : Nat) : Option XferKind :=
  [XferKind.sld, .sst, .sgath, .sscat, .sscataInt, .sscataFloat].find? fun k => k.code == (op, fn)
/-- The body of an indexed transfer: index elements, then mask bits. -/
def Xfer.idxBytes (x : Xfer) : Nat := if x.indexed then x.vl * x.bytes else 0
def Xfer.bodyBytes (x : Xfer) : Nat := x.idxBytes + (if x.mask.isSome then (x.vl + 7) / 8 else 0)
/-- A transfer record and its length. -/
def xferRecord (c : Nat) (x : Xfer) : Nat × Nat :=
  let k := x.kind.code
  let idx := packElts (8 * x.bytes) ((List.range x.vl).map fun i => x.idx.getD i 0)
  (image [(0, 8, c + k.1 * 2 ^ 8 + k.2 * 2 ^ 16 + x.ew * 2 ^ 24 + x.mask.isSome.toNat * 2 ^ 32), (8, 8, x.base.toNat), (0x10, 8, x.vl),
      (0x18, 8, x.strip), (0x20, 8, x.cursor), (0x28, 8, x.dim1.toNat), (0x30, 8, x.dim2.toNat), (0x38, 8, x.dim3.toNat),
      (0x40, 8, x.bodyBytes), (0x80, x.idxBytes, idx),
      (0x80 + x.idxBytes, (x.vl + 7) / 8, (x.mask.getD 0) % 2 ^ x.vl)],
   0x80 + x.bodyBytes)
/-- The unfinished transfers of the thread's channels, in channel and issue order. -/
def State.xferRecords (s : State) : List (Nat × Nat) :=
  (List.range 16).flatMap fun c => if s.holds c then (s.chan c).xfers.map (xferRecord c) else []

/-! ## Queues and chains (19 R396) -/

/-- The configured or recorded slots in CHCFG order. -/
def State.slotList (s : State) : List (Nat × Slot) :=
  (s.th.inOrder fun _ => true).filterMap fun k => (s.th.slots.look k).map fun x => (k, x)
/-- The queues that a slot's frames bind: core, queue, and the lowest frame that binds it; of a record without frames those that came with it. -/
def Slot.queues (x : Slot) : List (Nat × Nat × Nat) :=
  if x.frames.isEmpty then x.kept
  else (x.frames.zipIdx.flatMap fun g => g.1.binds.map fun b => (b.1, b.2.1, g.2)).foldl
    (fun l q => if l.any fun p => p.1 == q.1 && p.2.1 == q.2.1 then l else l ++ [q]) []
/-- A queue record has room for 64 entries, and for as many more as the queue holds. -/
def queueBytes (n : Nat) : Nat := 64 + Nat.max 256 (up64 (4 * n))
/-- A queue record; a count beyond 127 goes on in bits [63:32] (the model's own choice). -/
def State.queueRecord (s : State) (slot : Nat) (q : Nat × Nat × Nat) : Nat × Nat :=
  let e := (s.queue q.1 q.2.1).entries
  (image [(0, 4, q.2.1 + q.2.2 * 2 ^ 8 + slot * 2 ^ 16 + e.length % 128 * 2 ^ 24), (4, 4, e.length / 128), (0x40, 4 * e.length, entryImage e)],
   queueBytes e.length)
/-- A chain record; `rank` is the slot's place in CHCFG order. Bit [17] of its first dword says that a CHBRK has ended the chain, which is then
not configured again after its finish (07 R228, 19 R405; the model's own choice of the place, assumption 86). -/
def chainRecord (slot rank : Nat) (x : Slot) : Nat × Nat :=
  let prog (r : Option Run) (off : Nat) : Fields :=
    (List.range x.nframes).map fun f =>
      let p : Progress := match r with
        | some q => q.at_ f
        | none => { done := x.lastN }
      (off + 8 * f, 8, p.done + p.steps * 2 ^ 32)
  match x.run with
  | some r =>
    (image ([(0, 8, slot + x.nframes * 2 ^ 8 + 2 ^ 16 + r.endAfter.toNat * 2 ^ 17 + rank % 256 * 2 ^ 24), (8, 8, x.image.toNat), (0x10, 8, r.n)]
        ++ ((List.range 32).map fun k => (0x40 + 8 * k, 8, (r.reg (BitVec.ofNat 5 k)).toNat)) ++ prog (some r) 0x140),
     0x140 + 8 * x.nframes)
  | none =>
    (image ([(0, 8, slot + x.nframes * 2 ^ 8 + rank % 256 * 2 ^ 24), (8, 8, x.image.toNat), (0x10, 8, x.lastN)] ++ prog none 0x40),
     0x40 + 8 * x.nframes)

/-! ## CTXSV (19 R390 to R396) -/

/-- The seven sections: image and length. -/
def State.sections (s : State) : List (Nat × Nat) :=
  let sl := s.slotList
  [ (s.spillImage 0xFFFFFFFF 0xFF, frameSize s.th.vl (ewBits s.th.ew) 0xFFFFFFFF 0xFF),
    (s.th.fmask % 2 ^ s.th.vl, mbody s.th.vl),
    (packElts 32 ((List.range 128).map fun j => (s.th.gens.getD j 0).toNat), 512),
    (match s.att with | some t => (s.saveImage s.core t, saveSize t.rows) | none => (0, 0)),
    joinRecords (sl.flatMap fun k => k.2.queues.map (s.queueRecord k.1)),
    joinRecords s.xferRecords,
    joinRecords (sl.zipIdx.map fun k => chainRecord k.1.1 k.2 k.1.2) ]
/-- Where sections of some lengths stand: offsets from 0x1000 on, and the end. -/
def sectionOffsets : List Nat → Nat → List Nat × Nat
  | [], off => ([], off)
  | n :: r, off => let t := sectionOffsets r (off + n); (off :: t.1, t.2)

/-- The control register block and the other fixed parts (19 R391 to R394). -/
def State.fixedPart (s : State) (lens : List Nat) : Fields :=
  let t := s.th
  let offs := sectionOffsets lens 0x1000
  let x := s.lat s.core s.thr
  [ (0, 8, 1 + s.att.isSome.toNat * 2 ^ 8), (8, 8, offs.2),
    (0x40, 8, t.sup.cause.toNat), (0x48, 8, t.sup.epc.toNat), (0x50, 8, t.sup.fpc.toNat), (0x58, 8, t.sup.tval.toNat),
    (0x60, 8, t.sup.info.toNat), (0x68, 8, t.ptroot.toNat),
    (0x180, 8, t.estart), (0x188, 8, t.fflags), (0x190, 8, t.frm), (0x198, 8, t.srseed), (0x1A0, 8, t.qthr), (0x1A8, 8, t.mvl),
    (0x1B0, 8, t.mprog), (0x1B8, 8, t.hwfail), (0x1C0, 8, t.emvec.toNat), (0x1C8, 8, t.empc.toNat),
    (0x1D0, 8, t.eminst.toNat + t.em.toNat * 2 ^ 32), (0x1D8, 8, t.tkcur.toNat),
    (0x1E0, 8, x.req + s.held s.core s.thr * 2 ^ 16 + x.lim * 2 ^ 24),
    (0x1E8, 8, t.rmvAck * 2 ^ 32 + t.rmvCur), (0x1F0, 8, t.rmLeft * 2 ^ 32 + t.rmAllow) ]
  ++ ((List.range 31).map fun k => (0x80 + 8 * k, 8, s.rdN (BitVec.ofNat 5 (k + 1))))
  ++ ((lens.zip offs.1).zipIdx.flatMap fun p => [(0x200 + 16 * p.2, 8, p.1.2), (0x208 + 16 * p.2, 8, p.1.1)])
  ++ (List.range 16).flatMap s.channelRecord ++ (List.range 8).flatMap s.ringRecord

/-- The whole save area: image and `SIZE`. -/
def State.areaImage (s : State) : Nat × Nat :=
  let secs := s.sections
  let offs := sectionOffsets (secs.map (·.2)) 0x1000
  ((secs.zip offs.1).foldl (fun x p => x + p.1.1 * 2 ^ (8 * p.2)) (image (s.fixedPart (secs.map (·.2)))), offs.2)

/-- The running chains break and drain, and the engines drop the translations that they hold for the context (13 R297, 19 R399). -/
def State.drainContext (s : State) : State :=
  let s1 := (s.endStrips s.cur).breakAll s.cur
  let s2 := s1.th.slots.foldl (fun t k => t.drain (s.cur, k.1)) s1
  s2.updCore s2.core fun c =>
    { c with channels := c.channels.map fun k =>
        if k.2.owner = some s.cur then (k.1, { k.2 with xfers := k.2.xfers.map fun x => { x with held := [], stopped := false } }) else k }

/-- The chains of thread `h` end, their queues are emptied (07 R214, 19 R390). -/
def State.releaseChains (s : State) (h : Nat) : State :=
  let s1 := (s.getTh h).slots.foldl (fun t k =>
    let t1 := t.endChain (h, k.1)
    k.2.queues.foldl (fun u q => let y := u.queue q.1 q.2.1; u.setQueue q.1 q.2.1 { y with entries := [] }) t1) s
  (List.range 4).foldl (fun t k => t.leaveClaims (h, k)) s1
/-- The channels and rings of thread `h` are freed. -/
def State.releaseStreams (s : State) (h : Nat) : State :=
  s.updCore (h / 4) fun c =>
    { c with channels := c.channels.map fun k => if k.2.owner = some h then (k.1, {}) else k
             rings := c.rings.filter fun k => k.2.owner != h }

/-- The resources of the saved context are released (19 R390). -/
def State.releaseContext (s : State) : State :=
  let h := s.cur
  let s1 := (((s.releaseChains h).releaseStreams h).detach h).releaseLanes h
  { s1 with th := { s1.th with
      vl := 0, vlmax := 0, vrlen := 0, v := Vector.replicate 32 0, m := Vector.replicate 8 0, streamFaults := [], unseen := [], fills := [],
      saved := true } }

/-- CTXSV (04 R127, 19 R390). -/
def execCtxsv (a : BitVec 5) (s : State) : Host.Outcome State Fault Refusal :=
  privileged (fun s =>
    if s.rdN a % 4096 ≠ 0 then raise s { cause := Cause.misalign, tval := s.rd a }
    else do
      let s1 := s.drainContext
      let img := s1.areaImage
      let (l, s2) ← s1.saveLocs (s1.rdN a) img.2 .write
      .ok ((s2.writeArea l img.1).releaseContext.releaseChannelWaits s.core).advance) s

/-! ## Step 1 of CTXLD (19 R397) -/

/-- The reserved places of the fixed part as offset, and the bits of the 8 bytes there that must be zero. -/
def reservedPlaces : List (Nat × Nat) :=
  let ones := 2 ^ 64 - 1
  [ (0x40, ones - 0xF8FF03FFFF00003F), (0x60, ones - 0xFFFFFFFF003F0003), (0x70, ones), (0x78, ones), (0x178, ones),
    (0x180, ones - 0xFFFF), (0x188, ones - 0x1F), (0x190, ones - 0x7), (0x198, ones - 0xFFFFFFFF), (0x1A0, ones - 0xFFFFFFFF),
    (0x1A8, ones - 0x7F), (0x1B0, ones - 0xFFFF), (0x1B8, ones - 1), (0x1C0, 3), (0x1D0, ones - 0x1FFFFFFFF),
    (0x1E0, ones - 0x7F7F007F), (0x1F0, ones - 0x001FFFFF001FFFFF), (0x1F8, ones), (0x270, ones), (0x278, ones) ]
  ++ ((List.range 48).map fun k => (0x280 + 8 * k, ones))
  ++ ((List.range 16).flatMap fun c => [(0x400 + 64 * c, ones - 0xF03)])
  ++ ((List.range 8).flatMap fun r =>
    [(0x800 + 256 * r, ones - 1)] ++ ((List.range 5).map fun k => (0x818 + 256 * r + 8 * k, ones))
      ++ ((List.range 8).map fun k => (0x8C0 + 256 * r + 8 * k, ones)))

/-- The directory: each section's offset and length, where they stand contiguously from 0x1000 and end at `SIZE`. -/
def directory (x : Nat) : Option (List (Nat × Nat)) :=
  let d := (List.range 7).map fun k => (dword x (0x200 + 16 * k), dword x (0x208 + 16 * k))
  let offs := sectionOffsets (d.map (·.2)) 0x1000
  if d.map (·.1) = offs.1 ∧ offs.2 = dword x 8 ∧ (d.all fun p => p.2 % 64 == 0) = true then some d else none

/-- A section cut into records whose lengths their own fields give; none where they do not fill it. -/
def cutRecords (len : Nat → Nat) : Nat → Nat → Nat → Option (List Nat)
  | 0, _, n => if n = 0 then some [] else none
  | fuel + 1, x, n =>
    if n = 0 then some []
    else
      let k := up64 (len x)
      if n < k then none else (cutRecords len fuel (x / 2 ^ (8 * k)) (n - k)).map fun r => x % 2 ^ (8 * k) :: r

/-- The entry count of a queue record. -/
def queueCount (x : Nat) : Nat := bits x 24 7 + 128 * bits x 32 32
/-- The length of a queue, transfer or chain record. -/
def queueLen (x : Nat) : Nat := queueBytes (queueCount x)
def xferLen (x : Nat) : Nat := 0x80 + dword x 0x40
def chainLen (x : Nat) : Nat := 0x40 + (if bitOf x 16 then 256 else 0) + 8 * bits x 8 7

/-- A save area taken apart: its fixed part and its sections. -/
structure Saved where
  fixed : Nat
  vreg : Nat
  fmask : Nat
  srgen : Nat
  matrix : Nat
  matrixLen : Nat
  queues : List Nat
  xfers : List Nat
  chains : List Nat

/-- Step 1: `FVER`, reserved fields, `SIZE` and the directory. -/
def Saved.parse (x : Nat) : Option Saved :=
  if bits x 0 8 ≠ 1 ∨ bits x 9 55 ≠ 0 ∨ bits x 128 384 ≠ 0
      ∨ (reservedPlaces.any fun p => dword x p.1 &&& p.2 != 0) = true then none
  else
    match directory x with
    | none => none
    | some d =>
      let at_ (k : Nat) : Nat × Nat := d.getD k (0, 0)
      let sec (k : Nat) : Nat := bits x (8 * (at_ k).1) (8 * (at_ k).2)
      let hd := bits (sec 0) 0 512
      let vl := bits hd 16 16
      if (at_ 0).2 ≠ frameSize vl (ewBits (bits hd 14 2)) (bits hd 32 32) (bits hd 64 8) ∨ (at_ 1).2 ≠ mbody vl ∨ (at_ 2).2 ≠ 512
          ∨ ((at_ 3).2 = 0) ≠ (bitOf x 8 = false) then none
      else
        match cutRecords queueLen ((at_ 4).2 / 64) (sec 4) (at_ 4).2, cutRecords xferLen ((at_ 5).2 / 64) (sec 5) (at_ 5).2,
            cutRecords chainLen ((at_ 6).2 / 64) (sec 6) (at_ 6).2 with
        | some q, some t, some c =>
          some { fixed := x % 2 ^ (8 * 4096), vreg := sec 0, fmask := sec 1, srgen := sec 2, matrix := sec 3, matrixLen := (at_ 3).2,
                 queues := q, xfers := t, chains := c }
        | _, _, _ => none

/-! ## Steps 2 to 7 (19 R397) -/

/-- Step 2: the limit, and the saved request granted, or nothing requested. -/
def State.restoreLanes (s : State) (f : Nat) : Option State :=
  let w := dword f 0x1E0
  let t := s.thr
  let held := bits w 16 7
  let s1 := s.setLat s.core t { s.lat s.core t with lim := bits w 24 7 }
  if held = 0 then
    let s2 := s1.releaseLanes s.cur
    if s2.covered s.core then some s2 else none
  else
    let g := s1.grant (bits w 0 7)
    if g.2 < held then none else some g.1

/-- The trap-entry registers and the control register block. -/
def State.restoreRegs (s : State) (f : Nat) : State :=
  let w (o : Nat) : Word := BitVec.ofNat 64 (dword f o)
  let t := s.th
  { s with th := { t with
      g := Vector.ofFn fun k => if k.val = 0 then 0 else w (0x78 + 8 * k.val)
      sup := { t.sup with cause := w 0x40, epc := w 0x48, fpc := w 0x50, tval := w 0x58, info := w 0x60 }
      ptroot := w 0x68
      estart := dword f 0x180, fflags := dword f 0x188, frm := dword f 0x190, srseed := dword f 0x198, qthr := dword f 0x1A0
      mvl := dword f 0x1A8, mprog := dword f 0x1B0, hwfail := dword f 0x1B8, emvec := w 0x1C0, empc := w 0x1C8
      eminst := BitVec.ofNat 32 (dword f 0x1D0), em := bitOf (dword f 0x1D0) 32, tkcur := w 0x1D8
      rmvAck := bits (dword f 0x1E8) 32 32, rmvCur := bits (dword f 0x1E8) 0 32
      rmLeft := bits (dword f 0x1F0) 32 21, rmAllow := bits (dword f 0x1F0) 0 21
      cdim := (List.range 48).foldl (fun (m : SMap Word) k => m.set (4 * (k / 3) + k % 3 + 1) (w (0x400 + 64 * (k / 3) + 0x20 + 8 * (k % 3)))) [] } }
/-- Step 3: registers, masks, generators and control registers; none where a check fails. -/
def State.restoreState (s : State) (x : Saved) : Option State :=
  let hd := bits x.vreg 0 512
  let ew := bits hd 14 2
  let s1 := { s with th := { s.th with
      ew := ew, vrlen := s.held s.core s.thr * 512, vlmax := s.held s.core s.thr * 512 * 8 / ewBits ew, vl := bits hd 16 16
      v := Vector.replicate 32 0, m := Vector.replicate 8 0 } }
  if frameBad hd ew s1.th.vlmax ∨ 5 < dword x.fixed 0x190 ∨ dword x.fixed 0x1A8 = 0 ∨ 64 < dword x.fixed 0x1A8
      ∨ dword x.fixed 0x68 / 2 ^ 56 ≠ 0 then none
  else
    let s2 := (s1.fillRegs x.vreg).restoreRegs x.fixed
    some { s2 with th := { s2.th with
      fmask := x.fmask % 2 ^ s2.th.vl
      gens := (List.range 128).map fun j => BitVec.ofNat 32 (elt x.srgen 32 j) } }

/-- Step 4: the attachment and MREST. -/
def State.restoreMatrix (s : State) (x : Saved) : Option State :=
  if bitOf x.fixed 8 then
    let g := bits x.matrix 8 7
    let r := s.attach g
    if g = 0 ∨ r.2 ≠ g ∨ x.matrixLen ≠ up64 (saveSize g) ∨ imageIllegal x.matrix g = true ∨ (imageDet x.matrix).isSome then none
    else (r.1.att).map fun t => r.1.loadImage s.core t x.matrix
  else some s

/-- A saved transfer with its channel; the level is that of the restored context. -/
def State.savedXfer (s : State) (r : Nat) : Option (Nat × Xfer) :=
  (XferKind.ofCode (bits r 8 7) (bits r 16 6)).map fun k =>
    let ew := bits r 24 2
    let vl := dword r 0x10
    let x : Xfer :=
      { kind := k, ew := ew, base := BitVec.ofNat 64 (dword r 8), vl := vl, cursor := dword r 0x20, dim1 := BitVec.ofNat 64 (dword r 0x28)
        dim2 := BitVec.ofNat 64 (dword r 0x30), dim3 := BitVec.ofNat 64 (dword r 0x38), strip := dword r 0x18, root := s.th.ptroot
        level := (levelOf (bits s.th.sup.cause.toNat 60 2)).getD .user }
    let idx := if x.indexed then (List.range vl).map fun i => elt (r / 2 ^ (8 * 0x80)) (ewBits ew) i else []
    (bits r 0 4, { x with
      idx := idx
      mask := if bitOf r 32 then some (bits r (8 * (0x80 + x.idxBytes)) vl) else none })

/-- One channel of step 5: an error without an exception on a condition of 07 R221. The thread's own channel is claimed again, which waits until
it is idle (07 R213). -/
def State.restoreChannel (s : State) (f : Nat) (xs : List (Nat × Xfer)) (c : Nat) : Except (Option Exn) State :=
  let base := 0x400 + 64 * c
  let w := dword f base
  if bitOf w 0 then
    let tb := dword f (base + 8)
    let tl := dword f (base + 0x10)
    let mine := (xs.filter fun p => p.1 == c).map (·.2)
    let out := bitOf w 1
    if ((s.chan c).owner.isSome && !s.holds c) = true ∨ tb % 64 ≠ 0 ∨ tl % 64 ≠ 0 ∨ tl = 0 ∨ s.group.tileSpace < tb + tl ∨ mine.length ≠ bits w 8 4
        ∨ 8 < mine.length ∨ (mine.any fun x => x.inward == out) = true then .error none
    else if (s.chan c).xfers.isEmpty = false then .error (some (.park (.channelIdle c) s))
    else
      let n := (s.getCore s.core).xferSeq
      .ok ((s.updCore s.core fun k => { k with xferSeq := n + mine.length }).setChan s.core c
        { owner := some s.cur, outward := out, tb := tb, tl := tl, cursor := dword f (base + 0x18), wm := bits (dword f (base + 0x38)) 0 22
          xfers := mine.zipIdx.map fun p => { p.1 with seq := n + p.2, stopped := true } })
  else .ok s
/-- One ring of step 5; one of the thread's own is bound again, as RCFG does. -/
def State.restoreRing (s : State) (f n : Nat) : Except (Option Exn) State :=
  let base := 0x800 + 256 * n
  if bitOf (dword f base) 0 then
    let x := dword f (base + 8)
    let sb := dword f (base + 0x10)
    let c := bits x 24 4
    let ch := s.chan c
    let ns := bits x 32 4
    let st (k : Nat) : Nat := dword f (base + 0x40 + 8 * k)
    if s.holds c = false ∨ ch.outward ∨ bits x 0 22 % 64 ≠ 0 ∨ sb % 64 ≠ 0 ∨ sb = 0 ∨ bits x 45 19 ≠ 0 ∨ bits x 36 4 ≠ 0
        ∨ bits x 28 4 ≠ 0 ∨ bits x 22 2 ≠ 0 ∨ sb / 2 ^ 22 ≠ 0 ∨ bits x 0 22 < ch.tb ∨ ch.tb + ch.tl < bits x 0 22 + (ns + 1) * sb
        ∨ (match s.ring n with | some k => k.owner != s.cur | none => false) = true then .error none
    else
      let nxt := bits (st 0) 16 4
      let s0 := s.updCore s.core fun k =>
        { k with channels := k.channels.map fun y => if y.2.ring = some n then (y.1, { y.2 with ring := none }) else y }
      let s1 := s0.setRing s.core n
        { owner := s.cur, group := s.th.group, ecnt := bits x 40 5, ns := ns, ch := c, rb := bits x 0 22, sb := sb, nxt := nxt
          slots := (List.range (ns + 1)).foldl (fun (m : SMap RingSlot) k =>
            m.set k { fph := bitOf (st k) 0, eph := bitOf (st k) 1, ect := bits (st k) 2 5 }) []
          fills := nxt + (ns + 1) * (bitOf (st nxt) 0).toNat }
      .ok (s1.setChan s.core c { ch with ring := some n })
  else .ok s
/-- Whether a restored transfer meets a condition of 07 R221: its channel is not claimed, or it moves bytes beyond the channel's range, or
on a ring other than a slot. -/
def State.savedBad (s : State) (p : Nat × Xfer) : Bool :=
  let ch := s.chan p.1
  let bytes := p.2.count * p.2.bytes
  !s.holds p.1 || (match ch.ring with
    | some r => bytes != ((s.getCore s.core).rings.get r {}).sb
    | none => decide (ch.tb + ch.tl < p.2.cursor + bytes))
/-- Step 5: channels and rings. -/
def State.restoreStreams (s : State) (x : Saved) : Except (Option Exn) State := do
  let xs ← (match x.xfers.mapM s.savedXfer with
    | some l => .ok l
    | none => .error none)
  let s1 ← (List.range 16).foldlM (fun t c => t.restoreChannel x.fixed xs c) s
  let s2 ← (List.range 8).foldlM (fun t r => t.restoreRing x.fixed r) s1
  if xs.any s2.savedBad then .error none else .ok s2

/-- The slot that a chain record describes; it is still to be configured again (step 7). -/
def State.savedSlot (s : State) (r : Nat) : Nat × Slot :=
  let n := bits r 8 7
  let brk := bitOf r 16
  let off := if brk then 0x140 else 0x40
  let count := bits (dword r 0x10) 0 32
  let progress := (List.range n).map fun f =>
    let w := dword r (off + 8 * f)
    ({ done := bits w 0 32, steps := bits w 32 16 } : Progress)
  (bits r 0 2,
    { image := BitVec.ofNat 64 (dword r 8), nframes := n, seq := bits r 24 8, lastN := count, recorded := true
      run :=
        if brk then
          some { n := count, g := Vector.ofFn fun k => BitVec.ofNat 64 (dword r (0x40 + 8 * k.val))
                 level := (levelOf (bits s.th.sup.cause.toNat 60 2)).getD .user, phase := .drained, progress := progress, endAfter := bitOf r 17 }
        else none })
/-- The core of a recorded queue: the target of the frame that binds it, read from its slot's image. An error without an exception is the
failure of step 6: the image cannot be read, or names no such queue on a core that is there (DEDUCED: assumption 86). -/
def State.savedQueueCore (s : State) (slots : List (Nat × Slot)) (r : Nat) : Except (Option Exn) Nat :=
  match slots.find? fun p => p.1 == bits r 16 2 with
  | none => .error none
  | some p =>
    match s.fetchArea .v false p.2.image.toNat (32 * p.2.nframes) 5 with
    | .error (.trap _ _) => .error none
    | .error e => .error (some e)
    | .ok (img, s1) =>
      match (s1.resolveCores (bits img (256 * bits r 8 6) 256)).bind fun f => f.binds.find? fun b => b.2.1 == bits r 0 4 with
      | none => .error none
      | some b => .ok b.1
/-- Step 6 for one record with the core of its queue, which must be empty and unbound. -/
def State.refill (s : State) (x : Nat × Nat) : Except (Option Exn) State :=
  let core := x.1
  let r := x.2
  let q := s.queue core (bits r 0 4)
  if q.entries.isEmpty = false ∨ q.prod.isSome ∨ q.cons.isSome then .error none
  else
    .ok (s.setQueue core (bits r 0 4)
      { q with entries := (List.range (queueCount r)).map fun k => BitVec.ofNat 32 (elt (r / 2 ^ (8 * 0x40)) 32 k) })
/-- Steps 6 and 7. Each slot keeps which queues came with it, until it is configured again. -/
def State.restoreChains (s : State) (x : Saved) : Except (Option Exn) State := do
  let slots := x.chains.map s.savedSlot
  let cores ← x.queues.mapM (s.savedQueueCore slots)
  let qs := cores.zip x.queues
  let s1 ← qs.foldlM State.refill s
  let kept (k : Nat) : List (Nat × Nat × Nat) :=
    qs.filterMap fun q => if bits q.2 16 2 = k then some (q.1, bits q.2 0 4, bits q.2 8 6) else none
  .ok { s1 with th := { s1.th with
    slots := slots.foldl (fun (m : SMap Slot) p => m.set p.1 { p.2 with kept := kept p.1 }) [] } }

/-- The current version reaches the context; where it differs from `ACK`, RMCHANGE is posted (19 R397, R415). -/
def State.restoreVersion (s : State) : State :=
  let fresh := s.th.rmvCur == s.th.rmvAck
  let t := { s.th with rmvCur := s.rmap.ver, saved := false, restored := some s.th.level }
  if s.rmap.ver = t.rmvAck then { s with th := t }
  else { s with th := { t with spend := setBit t.spend 2 true, rmLeft := if fresh then t.rmAllow else t.rmLeft } }

/-- CTXLD (04 R127, 19 R397): a failed step restores nothing and traps ILLEGAL with the reason. -/
def execCtxld (a : BitVec 5) (s : State) : Host.Outcome State Fault Refusal :=
  privileged (fun s =>
    if s.rdN a % 4096 ≠ 0 then raise s { cause := Cause.misalign, tval := s.rd a }
    else do
      let (f, s1) ← s.loadArea (s.rdN a) 4096
      if dword f 8 < 4096 ∨ dword f 8 % 64 ≠ 0 ∨ (directory f).isNone then illegal s1 1
      else
        let (img, s2) ← s1.loadArea (s.rdN a) (dword f 8)
        match Saved.parse img with
        | none => illegal s2 1
        | some x =>
          match (s2.releaseChains s2.cur).restoreLanes x.fixed with
          | none => illegal s2 3
          | some s3 =>
            match s3.restoreState x with
            | none => illegal s2 2
            | some s4 =>
              match s4.restoreMatrix x with
              | none => illegal s2 4
              | some s5 =>
                match s5.restoreStreams x with
                | .error none => illegal s2 5
                | .error (some (.park w _)) => .error (.park w s2)
                | .error (some e) => .error e
                | .ok s6 =>
                  match s6.restoreChains x with
                  | .error none => illegal s2 6
                  | .error (some (.park w _)) => .error (.park w (s2.asks w))
                  | .error (some e) => .error e
                  | .ok s7 => .ok s7.restoreVersion.advance) s

end Sys2Proof.Machine
end

