-- ==== Sys2Proof/Machine/Objects.lean ====
section
/-! DEFINITION. The hub die's own accesses, transactions towards the host, and code objects: their checks, the selection of an image
and the placing of its segments (01 R40 to R45, 11 R280, 15 R327, R331, R332, 20 R420). -/
namespace Sys2Proof.Machine

/-! ## The hub die's accesses -/

/-- The state with an answer queued towards the host under a virtual interface (20 R420). -/
def State.reply (s : State) (type opa stat vi tag addr : Nat) (data : List Byte) : State :=
  { s with ksl := { s.ksl with out := s.ksl.out ++ [mkTransaction type opa stat vi tag addr data] } }

/-- The number under which the hub die's own accesses for a partition stand at the migration unit and await the host, above those of all
threads. -/
def hubAgent (part : Nat) : Nat := 8192 + part
/-- The transaction of a hub access to host memory for a partition, held in order while the link retrains (20 R418, R420). -/
def State.hubNote (s : State) (part type opa : Nat) (l : Loc) (data : List Byte) : State :=
  match l with
  | .hostmem p => s.noteFor (hubAgent part) part type opa p data
  | _ => s

/-- What a hub access that waits asks of the migration unit (13 R312) or of the host (20 R420). -/
def State.hubAsk (s : State) (part : Nat) (e : AErr) : State :=
  match e with
  | .wait (.migrate leaf va) => s.askFrom (hubAgent part) leaf va
  | .wait (.reply pa n) => s.askHost (hubAgent part) part pa n
  | _ => s

/-- The location of a hub access of `n` bytes, at supervisor level under a launch environment's translation root (15 R327). A read of
host memory, alone or in an indivisible update, waits while the link retrains (20 R418), and a read for its completion (R420). The device's own access to a page with `HOST`
and `M` waits for the migration unit (13 R312); the host's does not. -/
def State.hubLocFor (s : State) (device : Bool) (part : Nat) (root : Word) (a n : Nat) (k : AKind) : Except AErr Loc :=
  if a / 2 ^ 57 ≠ 0 ∨ a % n ≠ 0 then .error .prot
  else
    match s.walkPart part root a with
    | .error e => .error e
    | .ok t =>
      let pa := t.pa + a % t.size
      if !t.permits .supervisor k then .error .prot
      else if t.host then
        (if device && t.mig then .error (.wait (.migrate t.leaf a))
         else
           match (if k = .write then none else s.hostWait (hubAgent part) pa n k) with
           | some w => .error (.wait w)
           | none => .ok (.hostmem pa))
      else if k != .read && s.inView pa then .error .prot
      else if deviceBytes < pa + n then .error (.absent pa)
      else .ok (.dev pa)

/-- The location of a device access of the hub die. -/
def State.hubLoc (s : State) (part : Nat) (root : Word) (a n : Nat) (k : AKind) : Except AErr Loc := s.hubLocFor true part root a n k

/-- A hub read of `n` bytes; poison stops it. -/
def State.hubRead (s : State) (part : Nat) (root : Word) (a n : Nat) : Except AErr (Nat × State) :=
  match s.hubLoc part root a n .read with
  | .error e => .error e
  | .ok l => if s.poisonedLoc l n then .error .poison else .ok (s.readLoc l n, s.hubNote part 4 0 l (List.replicate n 0))

/-- A hub write at a location. -/
def State.hubPut (s : State) (part : Nat) (l : Loc) (n x : Nat) : State :=
  ((s.storeLoc l n x).hubNote part 5 0 l (bytesOf n x)).keepOld l n (s.readLoc l n)

/-- Whether an access waits, for the link or for the migration unit. -/
def AErr.waits : AErr → Bool | .wait _ => true | _ => false

/-- `k` lines of 64 bytes from `a`. -/
def State.hubLines (s : State) (part : Nat) (root : Word) (a : Nat) : Nat → Except AErr (List Byte × State)
  | 0 => .ok ([], s)
  | k + 1 =>
    match s.hubRead part root a 64 with
    | .error e => .error e
    | .ok (x, s1) =>
      match s1.hubLines part root (a + 64) k with
      | .error e => .error e
      | .ok (r, s2) => .ok (bytesOf 64 x ++ r, s2)

/-- The `n` bytes from `a`, read in the 64-byte lines that hold them. -/
def State.hubBytes (s : State) (part : Nat) (root : Word) (a n : Nat) : Except AErr (List Byte × State) :=
  if n = 0 then .ok ([], s)
  else
    match s.hubLines part root (a / 64 * 64) ((a + n + 63) / 64 - a / 64) with
    | .error e => .error e
    | .ok (r, s1) => .ok ((r.drop (a % 64)).take n, s1)

/-- The device locations of the `k` 8-byte pieces from `a`, where every one can be written in device memory. -/
def State.devicePieces (s : State) (part : Nat) (root : Word) (a k : Nat) : Option (List Loc) :=
  (List.range k).mapM fun j =>
    match s.hubLocFor false part root (a + 8 * j) 8 .write with
    | .ok (.dev p) => some (.dev p)
    | _ => none
/-- The loader's writes of bytes, 8 at each location. -/
def State.fillPieces (s : State) : List Loc → List Byte → State
  | [], _ => s
  | l :: r, b => (s.storeLoc l 8 (natOf (b.take 8))).fillPieces r (b.drop 8)

/-! ## Code objects (01 R40 to R44) -/

/-- The little-endian number in `n` bytes of an image from `off`. -/
def field (b : List Byte) (off n : Nat) : Nat := natOf ((b.drop off).take n)
/-- A segment with its padding to 64 bytes (01 R42). -/
def pad64 (n : Nat) : Nat := (n + 63) / 64 * 64

/-- The offsets of an image's segments in its bytes (01 R42). -/
def Image.dataOff (i : Image) : Nat := 64 + pad64 i.codeLen
/-- The tile segment. -/
def Image.tileOff (i : Image) : Nat := i.dataOff + pad64 i.dataLen
/-- The chain segment. -/
def Image.chainOff (i : Image) : Nat := i.tileOff + pad64 i.tileLen
/-- The kernel table. -/
def Image.kernOff (i : Image) : Nat := i.chainOff + pad64 i.chainLen
/-- The relocation table. -/
def Image.relocOff (i : Image) : Nat := i.kernOff + 64 * i.nkern
/-- Kernel descriptor `k` (01 R43). -/
def Image.kernel (i : Image) (k : Nat) : Nat := field i.bytes (i.kernOff + 64 * k) 64
/-- The code segment. -/
def Image.code (i : Image) : List Byte := (i.bytes.drop 64).take i.codeLen
/-- The tile segment's bytes. -/
def Image.tile (i : Image) : List Byte := (i.bytes.drop i.tileOff).take i.tileLen

/-- An image from its bytes, by its header (01 R42). -/
def Image.ofBytes (off : Option Nat) (b : List Byte) : Image :=
  let h := field b 0 64
  { off := off, bytes := b, codeLen := bits h 0 32, dataLen := bits h 32 32, tileLen := bits h 64 32, chainLen := bits h 96 32,
    nkern := bits h 160 16 }
/-- `NRELOC` of an image. -/
def Image.nreloc (i : Image) : Nat := bits (field i.bytes 0 64) 128 32
/-- The relocation entries (01 R44). -/
def Image.relocs (i : Image) : List Nat := (List.range i.nreloc).map fun k => field i.bytes (i.relocOff + 16 * k) 16
/-- The kernel descriptors. -/
def Image.kernels (i : Image) : List Nat := (List.range i.nkern).map i.kernel
/-- The bytes of a segment: 1 data, 3 chain. -/
def Image.seg (i : Image) (n : Nat) : List Byte :=
  if n = 1 then (i.bytes.drop i.dataOff).take i.dataLen else (i.bytes.drop i.chainOff).take i.chainLen

/-- Whether a segment number is assigned (01 R44). -/
def segKnown (n : Nat) : Bool := n == 1 || n == 3

/-- Whether an image of `len` bytes has a header within its limits (01 R42). -/
def Image.headOk (i : Image) (len : Nat) : Bool :=
  i.nkern != 0 && i.codeLen % 4 == 0 && decide (i.codeLen ≤ 2 ^ 20) && i.chainLen % 32 == 0 && decide (i.tileLen ≤ 4 * 2 ^ 20)
    && decide (i.relocOff + 16 * i.nreloc ≤ len)
/-- A kernel descriptor within its limits (01 R43). The manual states no limit of `ENTRY` but its alignment, so one at or beyond
`CODELEN` is accepted: the code window check at issue meets it (DESIGN CHOICE, assumption 25). -/
def kernOk (k : Nat) : Bool :=
  bits k 256 32 % 4 == 0 && bits k 288 6 != 0 && decide (bits k 288 6 ≤ 32) && bits k 296 4 != 0 && decide (bits k 296 4 ≤ 8)
/-- A kernel descriptor without a nonzero reserved field. -/
def kernPlain (k : Nat) : Bool := bits k 352 160 == 0 && bits k 306 14 == 0 && bits k 300 4 == 0 && bits k 294 2 == 0
/-- A relocation entry within its limits (01 R44). A `POS` whose 8 bytes pass the end of its segment counts as a field beyond its limit,
which the manual does not say (DESIGN CHOICE, assumption 25). -/
def Image.relocOk (i : Image) (r : Nat) : Bool :=
  !segKnown (bits r 32 4) || (bits r 0 32 % 8 == 0 && decide (bits r 0 32 + 8 ≤ (i.seg (bits r 32 4)).length))

/-- The reason `d`, where a condition holds. -/
def detIf (d : Nat) (b : Bool) : List Nat := if b then [d] else []
/-- Which of reasons 3, 4 and 5 refuse an image of `len` bytes, all of it read but the code (15 R332). -/
def Image.dets (i : Image) (len : Nat) : List Nat :=
  detIf 3 (bits (field i.bytes 0 64) 176 336 != 0)
    ++ (if i.headOk len then
          detIf 3 (!(i.kernels.all kernPlain) || i.relocs.any fun r => bits r 40 24 != 0)
            ++ detIf 4 (i.relocs.any fun r => !segKnown (bits r 32 4) || !segKnown (bits r 36 4))
            ++ detIf 5 (!(i.kernels.all kernOk) || !(i.relocs.all i.relocOk))
        else [5])

/-! ## Image selection (15 R331) -/

/-- An entry of the image directory that a partition's features allow. -/
def eligible (feat e : Nat) : Bool :=
  bits e 8 8 == 1 && bits e 0 8 == 0 && (List.range 64).all fun k => !bitOf (bits e 32 64) k || bitOf feat k
/-- The chosen entry with its index: those of generation 2 if there are any, then the highest `FSVER`, then the lowest index. -/
def chooseImage (feat : Nat) (dir : List Nat) : Option Nat :=
  let el := dir.filter (eligible feat)
  let of2 := el.filter fun e => bits e 16 8 == 2
  let cs := if of2.isEmpty then el else of2
  match cs with
  | [] => none
  | e :: r => some (r.foldl (fun best x => if bits best 24 8 < bits x 24 8 then x else best) e)

/-- A relocated segment: the sums of the entries that patch it (01 R44). -/
def Image.relocated (i : Image) (n : Nat) : List Byte :=
  i.relocs.foldl (fun b r =>
    if bits r 32 4 = n then
      let pos := bits r 0 32
      let base := if bits r 36 4 = 1 then i.dataBase else i.chainBase
      b.take pos ++ bytesOf 8 ((base + bits r 64 64) % 2 ^ 64) ++ b.drop (pos + 8)
    else b) (i.seg n)

/-- The ranges of space 0 in which a partition's kept images stand: from, to. -/
def State.placedRanges (s : State) (part : Nat) : List (Nat × Nat) :=
  (s.parts.get part {}).images.flatMap fun x =>
    match x.2 with
    | .image i => [(i.dataBase, i.dataBase + i.dataLen), (i.chainBase, i.chainBase + i.chainLen)]
    | .refused _ _ => []
/-- The address of a segment of `len` bytes, with its pieces: the first of the loader's attempts that lies wholly in device memory, apart
from the segments already placed and from some locations (01 R45, assumption 24). -/
def State.segmentPlace (s : State) (part : Nat) (root obj : Word) (seg len : Nat) (avoid : List Loc) : Option (Nat × List Loc) :=
  firstSome (fun k =>
    let a := 65536 * (Config.loadUnit part obj seg k % 2 ^ 41)
    if (s.placedRanges part).any fun r => decide (a < r.2) && decide (r.1 < a + len) then none
    else
      match s.devicePieces part root a ((len + 7) / 8) with
      | some l => if l.any avoid.contains then none else some (a, l)
      | none => none) (List.range 64)

/-- An image's data and chain segments placed at the addresses that the loader chooses; none where it finds no place (01 R45,
assumption 24). -/
def State.placeSegments (s : State) (part : Nat) (root obj : Word) (i : Image) : Option (Image × State) :=
  match s.segmentPlace part root obj 1 i.dataLen [] with
  | none => none
  | some d =>
    match s.segmentPlace part root obj 3 i.chainLen d.2 with
    | none => none
    | some c =>
      let j := { i with dataBase := d.1, chainBase := c.1 }
      some (j, (s.fillPieces d.2 (j.relocated 1)).fillPieces c.2 (j.relocated 3))

/-- A refusal with BADOBJ. -/
def badObj (det : Nat) : Selection := .refused 6 det
/-- A refusal with the lowest of some reasons. -/
def lowestDet (ds : List Nat) : Selection := badObj (ds.foldl Nat.min 10)

/-- An image accepted, its segments placed; an object for which the loader finds no place is refused as one that cannot be read
(DESIGN CHOICE, assumption 24). -/
def State.takeImage (s : State) (part : Nat) (root obj : Word) (i : Image) : Selection × State :=
  match s.placeSegments part root obj i with
  | some p => (.image p.1, p.2)
  | none => (badObj 7, s)

/-- A read of the loader: its bytes, or `DET` 7; an access that waits is an error. -/
def State.loaderRead (s : State) (part : Nat) (root : Word) (a n : Nat) : Except AErr (Except Nat (List Byte) × State) :=
  match s.hubBytes part root a n with
  | .ok (b, s1) => .ok (.ok b, s1)
  | .error e => if e.waits then .error e else .ok (.error 7, s)

/-- The image of a directory entry as it is read, and the reasons that refuse it. Its code segment is read when a code store is filled,
and stands as zeros here (15 R332). -/
def State.readEntry (s : State) (part : Nat) (root obj : Word) (e : Nat) : Except AErr ((Image × List Nat) × State) :=
  let off := bits e 160 64
  let len := bits e 224 32
  if off % 64 ≠ 0 then .ok (({}, [5]), s)
  else
    match s.loaderRead part root (obj.toNat + off) 64 with
    | .error e => .error e
    | .ok (.error d, s1) => .ok (({}, [d]), s1)
    | .ok (.ok hb, s1) =>
      let i := Image.ofBytes (some off) hb
      if !i.headOk len then .ok ((i, i.dets len), s1)
      else
        match s1.loaderRead part root (obj.toNat + off + i.dataOff) (i.relocOff + 16 * i.nreloc - i.dataOff) with
        | .error e => .error e
        | .ok (.error d, s2) => .ok ((i, detIf 3 (bits (field hb 0 64) 176 336 != 0) ++ [d]), s2)
        | .ok (.ok b, s2) =>
          let j := { i with bytes := hb ++ List.replicate (pad64 i.codeLen) 0 ++ b }
          .ok ((j, j.dets len), s2)

/-- Every image of the directory, with the reasons found. -/
def State.readEntries (s : State) (part : Nat) (root obj : Word) : List Nat → Except AErr (List (Nat × Image) × List Nat × State)
  | [] => .ok ([], [], s)
  | e :: r =>
    match s.readEntry part root obj e with
    | .error x => .error x
    | .ok ((i, ds), s1) =>
      match s1.readEntries part root obj r with
      | .error x => .error x
      | .ok (l, ds', s2) => .ok ((e, i) :: l, detIf 3 (bits e 256 256 != 0) ++ ds ++ ds', s2)

/-- The image that the ZPF form translates to, where no native image is eligible (15 R331). -/
def State.selectZpf (s : State) (part : Nat) (root obj : Word) (h : Nat) : Except AErr (Selection × State) :=
  if bits h 128 64 = 0 then .ok (.refused 7 0, s)
  else
    match s.loaderRead part root (obj.toNat + bits h 64 64) (bits h 128 64) with
    | .error e => .error e
    | .ok (.error d, s1) => .ok (badObj d, s1)
    | .ok (.ok z, s1) =>
      match Config.translateZpf z with
      | none => .ok (badObj 9, s1)
      | some b =>
        let i := Image.ofBytes none b
        match i.dets b.length with
        | [] => .ok (s1.takeImage part root obj i)
        | ds => .ok (lowestDet ds, s1)

/-- Reason 6, beside others that refuse an object: the image that would be chosen has a tile segment above the group's space, as far as
`space` knows it. -/
def tileDet (feat : Nat) (l : List (Nat × Image)) (space : Image → Option Nat) : List Nat :=
  match chooseImage feat (l.map (·.1)) with
  | none => []
  | some e =>
    match l.find? fun x => x.1 == e with
    | none => []
    | some x =>
      match space x.2 with
      | some n => detIf 6 (decide (n < x.2.tileLen))
      | none => []
/-- The selection at the head of a queue (15 R331, R332): the object is read and checked as a whole, the lowest reason refuses it, and
an image is chosen. An access that waits leaves the selection to a later step. `space` gives the tile space of the launch's
groups. -/
def State.selectImage (s : State) (part : Nat) (root obj : Word) (space : Image → Option Nat) : Except AErr (Selection × State) :=
  match s.loaderRead part root obj.toNat 64 with
  | .error e => .error e
  | .ok (.error d, s1) => .ok (badObj d, s1)
  | .ok (.ok hb, s1) =>
    let h := natOf hb
    let nimg := bits h 48 16
    let ds := detIf 3 (bits h 256 256 != 0)
    if bits h 0 32 ≠ 0x4C484B4A then .ok (badObj 1, s1)
    else if bits h 32 16 ≠ 1 then .ok (badObj 2, s1)
    else if 255 < nimg then .ok (lowestDet (ds ++ [5]), s1)
    else
      match s1.loaderRead part root (obj.toNat + bits h 192 64) (64 * nimg) with
      | .error e => .error e
      | .ok (.error d, s2) => .ok (lowestDet (ds ++ [d]), s2)
      | .ok (.ok db, s2) =>
        match s2.readEntries part root obj ((List.range nimg).map fun k => field db (64 * k) 64) with
        | .error e => .error e
        | .ok (l, ds', s3) =>
          if ds ++ ds' ≠ [] then .ok (lowestDet (ds ++ ds' ++ tileDet (s3.parts.get part {}).feat l space), s3)
          else
            match chooseImage (s3.parts.get part {}).feat (l.map (·.1)) with
            | none => s3.selectZpf part root obj h
            | some e =>
              match l.find? fun x => x.1 == e with
              | some x => .ok (s3.takeImage part root obj x.2)
              | none => .ok (.refused 7 0, s3)

end Sys2Proof.Machine
end

