-- ==== Sys2Proof/Machine/Launch.lean ====
section
/-! DEFINITION. Launches: the record and its intake, fit and placement, the dispatcher, the start and the end of threads, groups and
launches (01 R32, 07 R214, R232, 15 R323 to R345). -/
namespace Sys2Proof.Machine

/-! ## The launch record (15 R323) -/

/-- `CODE`. -/
def Launch.code (l : Launch) : Nat := bits l.record 0 64
/-- `GROUPS`. -/
def Launch.groups (l : Launch) : Nat := bits l.record 80 16
/-- `CORES`. -/
def Launch.cores (l : Launch) : Bool := bitOf l.record 144
/-- `DEF`. -/
def Launch.def_ (l : Launch) : Bool := bitOf l.record 146
/-- `PRIO`. -/
def Launch.prio (l : Launch) : Nat := bits l.record 142 2
/-- Tag slots per group per core, 64 << `TAGS`. -/
def Launch.tagSlots (l : Launch) : Nat := 64 * 2 ^ bits l.record 148 4
/-- `COMPL`. -/
def Launch.compl (l : Launch) : Nat := bits l.record 384 64
/-- The image selected for a launch. -/
def Launch.image (l : Launch) : Option Image :=
  match l.sel with
  | some (.image i) => some i
  | _ => none
/-- The offset of that image in the object. -/
def Launch.imageOff (l : Launch) : Option Nat := l.image.bind Image.off
/-- The environment under which a launch runs (15 R327). -/
def State.envOf (s : State) (l : Launch) : Env := (s.vis.get l.vi {}).env

/-- The shape of a launch's groups: threads, lane request, log2 of the gang size, tile bytes. -/
structure Shape where
  threads : Nat
  lanes : Nat
  gang : Nat
  tile : Nat
  deriving DecidableEq, Repr

/-- The shape that a record gives. -/
def Launch.recShape (l : Launch) : Shape :=
  { threads := bits l.record 128 6, lanes := bits l.record 136 4, gang := bits l.record 140 2, tile := bits l.record 96 32 }
/-- The shape that a kernel descriptor gives (01 R43). -/
def kernShape (k : Nat) : Shape :=
  { threads := bits k 288 6, lanes := bits k 296 4, gang := bits k 304 2, tile := bits k 320 32 }
/-- The limits of 15 R324 `DET` 3. -/
def Shape.ok (h : Shape) : Bool :=
  decide (1 ≤ h.threads) && decide (h.threads ≤ 32) && decide (1 ≤ h.lanes) && decide (h.lanes ≤ 8)
    && decide (h.tile ≤ 4 * 2 ^ 20 * 2 ^ h.gang)
/-- Threads of a full unit, `k` (15 R334). -/
def Shape.perUnit (h : Shape) : Nat := Nat.min 4 (Nat.max 1 (8 * 2 ^ h.gang / h.lanes))
/-- Units, `u`. -/
def Shape.units (h : Shape) : Nat := (h.threads + h.perUnit - 1) / h.perUnit
/-- Cores of a group. -/
def Shape.cores (h : Shape) : Nat := h.units * 2 ^ h.gang
/-- Threads of unit `j`. -/
def Shape.unitThreads (h : Shape) (j : Nat) : Nat := Nat.min h.perUnit (h.threads - j * h.perUnit)
/-- The tile allocation on each core (11 R273, R274). -/
def Shape.alloc (h : Shape) : Nat := ((h.tile + 2 ^ h.gang - 1) / 2 ^ h.gang + 65535) / 65536 * 65536
/-- The tile space of a thread of the group. -/
def Shape.space (h : Shape) : Nat := Nat.min (2 ^ h.gang * h.alloc) (4 * 2 ^ 20)

/-- The first failing reason of 15 R324. -/
def Launch.det (l : Launch) : Option Nat :=
  let r := l.record
  let aft := bits r 256 64
  if bits r 448 64 ≠ 0 ∨ bits r 152 40 ≠ 0 ∨ bits r 134 2 ≠ 0 then some 1
  else if l.groups = 0 then some 2
  else if !l.def_ && !l.recShape.ok then some 3
  else if 6 < bits r 148 4 then some 4
  else if l.code % 64 ≠ 0 ∨ l.code / 2 ^ 57 ≠ 0 ∨ (bitOf r 145 ∧ (aft % 8 ≠ 0 ∨ aft / 2 ^ 57 ≠ 0)) then some 5
  else if !l.def_ && decide (8 < l.recShape.cores) then some 6
  else none

/-! ## Placement (15 R333 to R336) -/

/-- The groups that are placed on a core and have not started. -/
def State.waitingOn (s : State) (core : Nat) : List Group := (s.groups.map (·.2)).filter fun g => !g.started && g.firsts.contains core
/-- The threads of a group on the unit that starts at a core. -/
def Group.threadsAt (g : Group) (core : Nat) : Nat := Nat.min g.perUnit (g.threads - g.firsts.idxOf core * g.perUnit)
/-- The threads that a core holds, those of groups that have not started among them. -/
def State.occupied (s : State) (core : Nat) : Nat := (s.residents core).length + ((s.waitingOn core).map (·.threadsAt core)).sum
/-- The lane requests of those threads. -/
def State.lanesAsked (s : State) (core : Nat) : Nat :=
  ((s.residents core).map fun t => (s.getTh (4 * (s.getCore core).gangFirst + t)).lanes).sum
    + ((s.waitingOn core).map fun g => g.threadsAt core * g.lanes).sum
/-- The tile bytes allocated on a core. -/
def State.tileUsed (s : State) (core : Nat) : Nat := ((s.getCore core).allocs.map (·.2.size)).sum
/-- The tag slots in use on a core. -/
def State.tagsUsed (s : State) (core : Nat) : Nat := ((s.getCore core).allocs.map (·.2.tagSlots)).sum
/-- The live lane groups of one core. -/
def State.liveCount (s : State) (core : Nat) : Nat := ((List.range 9).filter fun p => bitOf (s.liveLg core) p).length

/-- A cause posted to thread `h`: bit `b` of its spend, if it is resident (19 R382). -/
def State.post (s : State) (h b : Nat) : State :=
  let t := s.getTh h
  if t.resident then s.setTh h { t with spend := setBit t.spend b true } else s
/-- The presented cores whose number or pair changes when a physical core is withdrawn: those of its pair and above, in its cluster
(17 R363). -/
def State.changedBy (s : State) (n : Nat) : List Nat :=
  match s.presOf n with
  | some k => (span (ordinalOf k / 2 * 2) 8).map fun o => coreAt (n / 9) o
  | none => []
/-- The resident threads of a list of cores; those of a gang's cores are the first core's (09 R238). -/
def State.residentsOf (s : State) (cores : List Nat) : List Nat :=
  ((cores.map fun c => (s.getCore c).gangFirst).eraseDups).flatMap fun c =>
    ((List.range 4).map (4 * c + ·)).filter fun h => (s.getTh h).resident
/-- Whether a withdrawal that is not yet published changes a core's number or pair, or a published one has left it without a number. -/
def State.changing (s : State) (core : Nat) : Bool :=
  decide (320 ≤ core) || s.rmap.waiting.any fun u =>
    match u with
    | .core n => (s.changedBy n).contains core
    | _ => false

/-- The live tile banks of a core, of 64 KiB each (11 R272, 19 R406); allocations are not placed on single banks, so that a withdrawn one
lowers what a core offers at once (assumption 74). -/
def State.liveBanks (s : State) (core : Nat) : Nat :=
  match s.physOf core with
  | some n => ((List.range 64).filter (bitOf (s.phys n).banks)).length
  | none => 64
/-- Whether a core waits to be withdrawn, so that nothing new is placed on it (19 R406). -/
def State.leaving (s : State) (core : Nat) : Bool :=
  match s.physOf core with
  | some n => s.rmap.waiting.contains (.core n)
  | none => false
/-- Whether a unit of `n` threads that starts at a core fits (15 R335). -/
def State.unitFits (s : State) (h : Shape) (tags first n : Nat) : Bool :=
  let cs := (List.range (2 ^ h.gang)).map (first + ·)
  cs.all (fun c => s.coreLive c && !s.leaving c && (s.getCore c).gang == 0 && decide (s.tileUsed c + h.alloc ≤ 65536 * s.liveBanks c)
      && decide (s.tagsUsed c + tags ≤ 4096) && (h.gang == 0 || s.occupied c == 0))
    && decide (s.occupied first + n ≤ 4)
    && decide (s.lanesAsked first + n * h.lanes ≤ (cs.map s.liveCount).sum)
    && decide ((s.owed first).length + ((s.waitingOn first).map (·.threadsAt first)).sum + n ≤ (cs.map fun c => (s.freeLanes c).length).sum)

/-- Whether a cluster holds no thread; the residents of a withdrawn core still fetch from its code store (09 R261, assumption 71). -/
def State.clusterEmpty (s : State) (c : Nat) : Bool :=
  (List.range 8).all (fun o => s.occupied (coreAt c o) == 0) && (List.range 9).all fun p => s.occupied (1000 + 9 * c + p) == 0
/-- Whether a cluster's code store holds the image selected for a launch (15 R335, 09 R261). -/
def State.holdsImage (s : State) (l : Launch) (c : Nat) : Bool :=
  (s.getCluster c).obj == BitVec.ofNat 64 l.code && (s.getCluster c).img == l.imageOff
/-- The lowest run of units of a cluster that fit a group (15 R335): the first core of each. -/
def State.lowestRun (s : State) (h : Shape) (tags : Nat) (l : Launch) (c : Nat) : Option (List Nat) :=
  if !s.clusterEmpty c && !s.holdsImage l c then none
  else
    ((List.range 8).filter (· % 2 ^ h.gang == 0)).map (fun p => (List.range h.units).map fun j => coreAt c (p + j * 2 ^ h.gang))
      |>.zipIdx |>.find? (fun r =>
        decide (r.2 * 2 ^ h.gang + h.cores ≤ 8) && r.1.zipIdx.all fun f => s.unitFits h tags f.1 (h.unitThreads f.2))
      |>.map (·.1)
/-- The load of a cluster (15 R335). -/
def State.clusterLoad (s : State) (c : Nat) : Nat :=
  ((List.range 8).map fun o =>
    let k := coreAt c o
    if (s.getCore k).gang ≠ 0 then 4 else s.occupied k).sum

/-- place(group) of 15 R335: the cluster and the first core of each unit. -/
def State.place (s : State) (part : Nat) (l : Launch) (h : Shape) (prev : Nat) : Option (Nat × List Nat) :=
  let f := (s.parts.get part {}).clusters.filterMap fun c =>
    (s.lowestRun h l.tagSlots l c).map fun r => (c, r)
  if bitOf l.record 147 then
    match f.find? fun x => decide (prev ≤ x.1) with
    | some x => some x
    | none => f.head?
  else
    match f with
    | [] => none
    | x :: r => some (r.foldl (fun b y => if s.clusterLoad y.1 < s.clusterLoad b.1 then y else b) x)

/-- A group placed: its allocations, its gangs and its record; its threads are not yet resident. -/
def State.reserve (s : State) (n : Nat) (l : Launch) (h : Shape) (entry : Nat) (at_ : Nat × List Nat) : State :=
  let gid := s.nextGroup
  let g : Group :=
    { launch := n, idx := l.placed, cluster := at_.1, firsts := at_.2, gang := h.gang, perUnit := h.perUnit, threads := h.threads,
      lanes := h.lanes, tile := h.alloc, tagSlots := l.tagSlots, entry := entry }
  let s1 := (at_.2.flatMap fun f => (List.range (2 ^ h.gang)).map fun j => (f, f + j)).foldl (fun t c =>
    t.updCore c.2 fun k => { k with gang := h.gang, gangFirst := c.1
                                    allocs := k.allocs.set gid { size := h.alloc, tagSlots := l.tagSlots } }) s
  { s1 with groups := s1.groups.set gid g, nextGroup := gid + 1 }

/-- The places of `k` groups one after another, or none where one has no place. -/
def State.plan (part : Nat) (l : Launch) (h : Shape) : Nat → State → Nat → Option (List (Nat × List Nat))
  | 0, _, _ => some []
  | k + 1, s, prev =>
    match s.place part l h prev with
    | none => none
    | some x =>
      let s1 := (s.reserve 0 l h 0 x).setCluster x.1 { s.getCluster x.1 with obj := BitVec.ofNat 64 l.code, img := l.imageOff }
      (State.plan part l h k s1 x.1).map (x :: ·)

/-- The partition with nothing placed on it, under the current resource map, whose units serve until a version withdraws them
(15 R333). -/
def State.emptied (s : State) (part : Nat) : State :=
  let cores := coresOf (s.parts.get part {}).clusters
  { s with th := {}, others := [], groups := [], clusters := []
           rmap := { s.rmap with waiting := [] }
           cores := cores.map fun c =>
             (c, { Core.init c with lanes := (List.range 9).map fun p => if bitOf (s.liveLg c) p then .free else .dead }) }

/-- Whether a launch fits its partition (15 R333). -/
def State.fits (s : State) (part : Nat) (l : Launch) (h : Shape) : Bool :=
  (State.plan part l h (if l.cores then l.groups else 1) (s.emptied part) 0).isSome

/-! ## Completion words (15 R330) -/

/-- A completion word. -/
def complWord (st det tleft gfail gdone : Nat) : Nat :=
  gdone % 2 ^ 16 + gfail % 2 ^ 16 * 2 ^ 16 + Nat.min tleft 0xFFFF * 2 ^ 32 + det % 256 * 2 ^ 48 + st * 2 ^ 60

/-- A completion word written; a write that is impossible is dropped and recorded for status requests, and one that a retraining link holds
is recorded where the link then goes down (20 R418). -/
def State.report (s : State) (n : Nat) (l : Launch) (w : Nat) : State :=
  let lost : State := { s with mgmt := { s.mgmt with undelivered := s.mgmt.undelivered ++ [(n, l.compl)] } }
  match s.hubLoc l.part (s.envOf l).root l.compl 8 .write with
  | .error _ => lost
  | .ok (.hostmem p) =>
    if s.ksl.phase = .down then lost
    else
      let s1 := if s.ksl.phase = .retraining then { s with ksl := { s.ksl with words := s.ksl.words ++ [(n, l.compl)] } } else s
      s1.hubPut l.part (.hostmem p) 8 w
  | .ok loc => s.hubPut l.part loc 8 w
/-- The wait of a completion word's write, where its page is one that migrates on touch (13 R312). -/
def State.wordWait (s : State) (l : Launch) : Option AErr :=
  match s.hubLoc l.part (s.envOf l).root l.compl 8 .write with
  | .error e => if e.waits then some e else none
  | .ok _ => none

/-! ## Intake (15 R326) -/

/-- How intake ended: the record was discarded, its queue is full, or intake is done with it. -/
inductive IntakeEnd where
  | discarded | busy | done
  deriving DecidableEq, Repr

/-- The queue that intake chooses: the lowest of an owner and a priority. -/
def Partition.queueFor (p : Partition) (owner prio : Nat) : Option Nat :=
  (List.range 8).find? fun q => (p.queues.get q {}).owner == owner && (p.queues.get q {}).prio == prio

/-- What intake does with a record that it has read: the status and `DET` with which it refuses the launch, or the queue that it chooses. -/
def State.judgeRecord (s : State) (owner : Nat) (l : Launch) : Except (Nat × Nat) Nat :=
  match l.det with
  | some d => .error (4, d)
  | none =>
    if !l.def_ && !s.fits l.part l l.recShape then .error (3, 0)
    else
      match (s.parts.get l.part {}).queueFor owner l.prio with
      | none => .error (5, 0)
      | some q => .ok q
/-- Intake of the record at an address, for a partition, a launch environment and a queue owner; an access that waits is an error. -/
def State.intake (s : State) (part vi owner a : Nat) : Except AErr (IntakeEnd × State) :=
  match s.hubRead part (s.vis.get vi {}).env.root a 64 with
  | .error e => if e.waits then .error e else .ok (.discarded, s)
  | .ok (r, s1) =>
    let l : Launch := { record := r, part := part, vi := vi }
    if l.compl % 8 ≠ 0 ∨ l.compl / 2 ^ 57 ≠ 0 then .ok (.discarded, s1)
    else
      let n := s1.nextLaunch
      let s2 := { s1 with nextLaunch := n + 1 }
      match s1.judgeRecord owner l with
      | .error st =>
        match s1.wordWait l with
        | some e => .error e
        | none => .ok (.done, s2.report n l (complWord st.1 st.2 0 0 0))
      | .ok q =>
        let p := s2.parts.get part {}
        let x := p.queues.get q {}
        if 64 ≤ x.items.length then .ok (.busy, s1)
        else
          .ok (.done, { s2 with
            launches := s2.launches.set n { l with qprio := x.prio, qwt := x.wt }
            parts := s2.parts.set part { p with queues := p.queues.set q { x with items := x.items ++ [n] } } })

/-- LAUNCH (07 R232): a discarded record is noted in lerr and nothing else changes (15 R326, R339); `D` takes 0 where a completion word
refuses the launch, which 15 R326 does not say (DESIGN CHOICE, assumption 23). An access that waits parks the thread. -/
def execLaunch (d a : BitVec 5) (s : State) : Host.Outcome State Fault Refusal :=
  finish (
    if s.rdN a % 64 ≠ 0 then raise s { cause := Cause.misalign, tval := s.rd a }
    else if s.rdN a / 2 ^ 57 ≠ 0 then raise s { cause := Cause.prot, tval := s.rd a }
    else
      match s.intake s.launch.part s.launch.vi 0xFE (s.rdN a) with
      | .error (.wait w) => .error (.park w (s.asks w))
      | .error _ => .error (.park (.link true) s)
      | .ok (.busy, s1) => .ok (s1.wrAdvance d 1)
      | .ok (.done, s1) => .ok (s1.wrAdvance d 0)
      | .ok (.discarded, s1) =>
        let c := clusterOf s1.core
        .ok (s1.setCluster c { s1.getCluster c with lerrV := true, lerrAddr := s1.rdN a }).advance)

/-- A transaction of the host that waits before it is performed, behind those that wait already. -/
def State.holdHost (s : State) (t : Transaction) : State := { s with ksl := { s.ksl with inbox := s.ksl.inbox ++ [t] } }
/-- Whether a transaction of an interface has to wait behind another of that interface (20 R421). -/
def State.hostBehind (s : State) (vi : Nat) : Bool := s.ksl.inbox.any fun t => bits t.header 32 6 == vi

/-- LMSG: a launch message of a virtual interface; a discarded record and a full queue are answered with LNAK (15 R326, 20 R420), and a
disabled interface with `STAT` 5 (20 R424). A message whose intake waits is kept until what it waits for is over (20 R418). -/
def execLmsg (vi : Nat) (tag : BitVec 16) (addr : Word) (s : State) : Host.Outcome State Fault Refusal :=
  match (s.vis.get vi {}).part with
  | none => .next (s.reply 3 0 5 vi tag.toNat addr.toNat [])
  | some part =>
    if addr.toNat % 64 ≠ 0 then .next (s.reply 0x11 0 2 vi tag.toNat addr.toNat [])
    else
      let wait : Transaction := mkTransaction 0x10 0 0 vi tag.toNat addr.toNat []
      if s.hostBehind vi then .next (s.holdHost wait)
      else
      match s.intake part vi vi addr.toNat with
      | .error e => .next ((s.hubAsk part e).holdHost wait)
      | .ok (.busy, s1) => .next (s1.reply 0x11 0 6 vi tag.toNat addr.toNat [])
      | .ok (.done, s1) => .next s1
      | .ok (.discarded, s1) => .next (s1.reply 0x11 0 2 vi tag.toNat addr.toNat [])

/-! ## The dispatcher (15 R328, R329) -/

/-- The shape of a launch whose image is selected. -/
def Launch.shape (l : Launch) (i : Image) : Shape := if l.def_ then kernShape (i.kernel (bits l.record 64 16)) else l.recShape
/-- The tile space of the launch's groups, as far as what has been read of an image tells it. -/
def Launch.spaceOf (l : Launch) (i : Image) : Option Nat :=
  if l.def_ ∧ i.bytes.length < i.kernOff + 64 * (bits l.record 64 16 + 1) then none else some (l.shape i).space
/-- The base of the runtime window (15 R327). -/
def runtimeBase (codeLen : Nat) : Nat := (codeLen + 4095) / 4096 * 4096

/-- IMAGE_SELECTION: the head of a queue gets its image, kept for the pair of object and partition, or its refusal (15 R331). -/
def execImageSelection (part queue : Nat) (s : State) : Host.Outcome State Fault Refusal :=
  let p := s.parts.get part {}
  match (p.queues.get queue {}).items with
  | [] => .next s
  | n :: _ =>
    let l := s.launches.get n {}
    let obj := BitVec.ofNat 64 l.code
    if l.sel.isSome then .next s
    else
      match p.images.find? fun x => x.1 == obj with
      | some x => .next { s with launches := s.launches.set n { l with sel := some x.2 } }
      | none =>
        match s.selectImage part (s.envOf l).root obj l.spaceOf with
        | .error e => .next (s.hubAsk part e)
        | .ok (x, s1) =>
          let q := s1.parts.get part {}
          let kept := match x with
            | .image _ => q.images ++ [(obj, x)]
            | .refused _ _ => q.images
          .next { s1 with launches := s1.launches.set n { l with sel := some x }
                          parts := s1.parts.set part { q with images := kept } }

/-- What the dispatcher finds at the head of a queue: nothing to serve; a co-resident launch that fits and has no place now; a refusal
with its status and `DET`; or places for its next group, or for all its groups. -/
inductive Verdict where
  | wait | held
  | refuse (st det : Nat)
  | place (at_ : List (Nat × List Nat))
  deriving DecidableEq, Repr

/-- Whether the after-word is met; an after-word that cannot be read refuses the launch (15 R324, R328). -/
def State.afterWord (s : State) (l : Launch) : Except Verdict Unit :=
  if !bitOf l.record 145 then .ok ()
  else
    match s.hubRead l.part (s.envOf l).root (bits l.record 256 64) 8 with
    | .error e => .error (if e.waits then .wait else .refuse 4 7)
    | .ok (x, _) => if bits l.record 320 64 ≤ x then .ok () else .error .wait

/-- Why a code store cannot be filled: an access waits, or the launch is refused with BADOBJ and `DET` 7 or 8. -/
inductive FillStop where
  | waits (e : AErr)
  | refuse (det : Nat)
  deriving DecidableEq, Repr
/-- That of an access which failed. -/
def fillStop (code : Bool) (e : AErr) : FillStop :=
  match e with
  | .wait w => .waits (.wait w)
  | .poison => .refuse 7
  | _ => .refuse (if code then 8 else 7)
/-- What a code store is filled with: the runtime is read first, since `DET` 7 comes before 8 (15 R332), then the code segment. -/
def State.fillBytes (s : State) (l : Launch) (i : Image) : Except FillStop (List Byte × List Byte × State) :=
  let e := s.envOf l
  match s.hubBytes l.part e.root e.rtAddr.toNat e.rtLen with
  | .error x => .error (fillStop false x)
  | .ok (rt, s1) =>
    match (match i.off with
      | some off => s1.hubBytes l.part e.root (l.code + off + 64) i.codeLen
      | none => .ok (i.code, s1)) with
    | .error x => .error (fillStop true x)
    | .ok (b, s2) => .ok (b, rt, s2)

/-- The head of a queue judged (15 R324, R327, R328, R332, R333). Reason 10 comes after those of the fill. Where several refusals apply, the
manual orders the reasons of one status only; here BADREC 2, 3 and 6 come first, then BADOBJ, then TOOLARGE, and reasons 7 and 8 of a fill
that placement starts last (DESIGN CHOICE, assumption 28). -/
def State.judge (s : State) (l : Launch) : Verdict :=
  match s.afterWord l with
  | .error v => v
  | .ok () =>
    match l.sel with
    | none => .wait
    | some (.refused st det) => .refuse st det
    | some (.image i) =>
      if i.nkern ≤ bits l.record 64 16 then .refuse 4 2
      else
        let h := l.shape i
        if !h.ok then .refuse 4 3
        else if 8 < h.cores then .refuse 4 6
        else if h.space < i.tileLen then .refuse 6 6
        else if 2 ^ 20 < runtimeBase i.codeLen + (s.envOf l).rtLen then
          match s.fillBytes l i with
          | .error (.waits _) => .wait
          | .error (.refuse d) => .refuse 6 d
          | .ok _ => .refuse 6 10
        else if !s.fits l.part l h then .refuse 3 0
        else
          match State.plan l.part l h (if l.cores then l.groups else 1) s l.prevCluster with
          | some x => .place x
          | none => if l.cores then .held else .wait

/-- The heads of a partition's queues, each with the configuration under which it was queued (15 R325) and with what the dispatcher
finds. -/
def State.heads (s : State) (part : Nat) : List (Nat × LQueue × Nat × Verdict) :=
  (s.parts.get part {}).queues.filterMap fun q =>
    match q.2.items with
    | [] => none
    | n :: _ =>
      let l := s.launches.get n {}
      some (q.1, { q.2 with prio := l.qprio, wt := l.qwt }, n, s.judge l)

/-- The queue that a dispatch step serves (15 R329). -/
def State.toServe (s : State) (part : Nat) : Option (Nat × LQueue × Nat × Verdict) :=
  let hs := s.heads part
  let floor := (hs.map fun x => if x.2.2.2 = .held then x.2.1.prio else 0).foldl Nat.max 0
  let ready := hs.filter fun x => decide (floor ≤ x.2.1.prio) &&
    match x.2.2.2 with
    | .refuse _ _ => true
    | .place _ => true
    | _ => false
  let p := (ready.map (·.2.1.prio)).foldl Nat.max 0
  let start := (s.parts.get part {}).ptr.get p 0
  firstSome (fun d => ready.find? fun x => x.2.1.prio == p && x.1 == (start + d) % 8) (List.range 8)

/-- The code store of a cluster without threads loaded with a launch's code segment and its environment's runtime (01 R45, 09 R261, 15
R327). -/
def State.loadStore (s : State) (l : Launch) (i : Image) (c : Nat) : Except FillStop State :=
  if !s.clusterEmpty c then .ok s
  else
    match s.fillBytes l i with
    | .error d => .error d
    | .ok (b, rt, s2) =>
      let rb := runtimeBase i.codeLen
      let mem := (rt.zipIdx rb).foldl (fun m x => Memory.write m x.2 x.1) ((b.zipIdx).foldl (fun m x => Memory.write m x.2 x.1) [])
      .ok (s2.setCluster c { s2.getCluster c with
        code := mem, codeLen := i.codeLen, rtBase := rb, rtLen := (s.envOf l).rtLen, obj := BitVec.ofNat 64 l.code, img := i.off })

/-- One group of a launch placed. -/
def State.placeOne (n : Nat) (i : Image) (s : State) (x : Nat × List Nat) : Except FillStop State :=
  let l := s.launches.get n {}
  match s.loadStore l i x.1 with
  | .error e => .error e
  | .ok s1 =>
    let h := l.shape i
    let s2 := s1.reserve n l h (bits (i.kernel (bits l.record 64 16)) 256 32) x
    .ok { s2 with launches := s2.launches.set n { l with placed := l.placed + 1, prevCluster := x.1 } }

/-- A queue without its head. -/
def State.dropHead (s : State) (part q : Nat) : State :=
  let p := s.parts.get part {}
  let x := p.queues.get q {}
  { s with parts := s.parts.set part { p with queues := p.queues.set q { x with items := x.items.drop 1 } } }

/-- A launch refused at the head: its completion word is written with counts of 0. Groups that it has placed already run on, and its
end writes nothing more. -/
def State.refuseHead (s : State) (part q n st det : Nat) : State :=
  let l := s.launches.get n {}
  let s1 := (s.report n l (complWord st det 0 0 0)).dropHead part q
  { s1 with launches := if l.placed = 0 then s1.launches.erase n else s1.launches.set n { l with reported := true } }

/-- A head refused, unless its completion word waits. -/
def State.tryRefuse (s : State) (part q n st det : Nat) : Except AErr State :=
  match s.wordWait (s.launches.get n {}) with
  | some e => .error e
  | none => .ok (s.refuseHead part q n st det)
/-- serve(q): the state after the head was refused or its groups placed; an access that waits is an error. -/
def State.serve (s : State) (part : Nat) (x : Nat × LQueue × Nat × Verdict) : Except AErr State :=
  let n := x.2.2.1
  match x.2.2.2 with
  | .refuse st det => s.tryRefuse part x.1 n st det
  | .place ps =>
    match (s.launches.get n {}).image with
    | none => .ok s
    | some i =>
      match ps.foldlM (State.placeOne n i) s with
      | .error (.waits e) => .error e
      | .error (.refuse det) => s.tryRefuse part x.1 n 6 det
      | .ok s1 =>
        let l := s1.launches.get n {}
        .ok (if l.placed = l.groups then s1.dropHead part x.1 else s1)
  | _ => .ok s

/-- The selections kept for the heads of a partition's queues, which every later launch of the same pair of object and partition uses
(15 R331). -/
def State.adopt (s : State) (part : Nat) : State :=
  let p := s.parts.get part {}
  p.queues.foldl (fun t q =>
    match q.2.items with
    | [] => t
    | n :: _ =>
      let l := t.launches.get n {}
      match l.sel, p.images.find? fun x => x.1 == BitVec.ofNat 64 l.code with
      | none, some x => { t with launches := t.launches.set n { l with sel := some x.2 } }
      | _, _ => t) s
/-- What the head of a queue waits for: a read of its after-word, of its code object, or of the fill that reason 10 comes after. -/
def State.headWaits (s : State) (part : Nat) (l : Launch) : List AErr :=
  let root := (s.envOf l).root
  let after :=
    if bitOf l.record 145 then
      match s.hubRead part root (bits l.record 256 64) 8 with
      | .error e => [e]
      | .ok _ => []
    else []
  let object :=
    match l.sel with
    | none =>
      match s.selectImage part root (BitVec.ofNat 64 l.code) l.spaceOf with
      | .error e => [e]
      | .ok _ => []
    | some (.image i) =>
      match s.fillBytes l i with
      | .error (.waits e) => [e]
      | _ => []
    | some (.refused _ _) => []
  (after ++ object).filter AErr.waits
/-- The launches at the heads of a partition's queues. -/
def State.headLaunches (s : State) (part : Nat) : List Launch :=
  (s.parts.get part {}).queues.filterMap fun q => q.2.items.head?.map fun n => s.launches.get n {}
/-- What the heads wait for, asked of the migration unit (13 R312). -/
def State.askHeads (s : State) (part : Nat) : State :=
  ((s.headLaunches part).flatMap (s.headWaits part)).foldl (fun t e => t.hubAsk part e) s
/-- DISPATCH_STEP (15 R329). The queue that is served has a ready head; whether it still has one is judged on the head that then stands
there. -/
def execDispatchStep (part : Nat) (s0 : State) : Host.Outcome State Fault Refusal :=
  let s := s0.adopt part
  match s.toServe part with
  | none => .next (s.askHeads part)
  | some x =>
    match s.serve part x with
    | .error e => .next (s.hubAsk part e)
    | .ok s2 =>
      let s1 := s2.adopt part
      let p := s1.parts.get part {}
      let q := p.queues.get x.1 {}
      let used := q.used + 1
      let still := (s1.heads part).any fun y => y.1 == x.1 &&
        match y.2.2.2 with
        | .refuse _ _ => true
        | .place _ => true
        | _ => false
      let turn := used == x.2.1.wt || !still
      .next { s1 with parts := s1.parts.set part { p with
        queues := p.queues.set x.1 { q with used := if turn then 0 else used }
        ptr := if turn then p.ptr.set x.2.1.prio ((x.1 + 1) % 8) else p.ptr } }

/-! ## The start of a group (01 R32, 15 R327, R334) -/

/-- The state of thread `h` at its start. -/
def State.startThread (s : State) (gid : Nat) (g : Group) (l : Launch) (tid h : Nat) : State :=
  let e := s.envOf l
  let rb := (s.getCluster g.cluster).rtBase
  let vec (off : Nat) : Word := if e.rtLen = 0 then 0 else BitVec.ofNat 64 (rb + off)
  let regs : Vector Word 32 := (((Vector.replicate 32 (0 : Word)).set 1 exitAddress).set 2
    (e.stk + BitVec.ofNat 64 (e.stkSz * (h + 1)))).set 3 (BitVec.ofNat 64 (bits l.record 192 64)) |>.set 4 (BitVec.ofNat 64 tid)
  s.setTh h { g := regs, gens := srSeedAll 1, pc := BitVec.ofNat 64 g.entry, status := .issuing, group := gid,
              lanes := g.lanes, ptroot := e.root &&& 0x00FFFFFFFFFFFFFF, fbarea := e.fb + BitVec.ofNat 64 (256 * h),
              sup := { vec := vec e.svOff }, fw := { vec := vec e.fvOff }, rmvAck := s.rmap.ver, rmvCur := s.rmap.ver }

/-- The tile segment copied to a unit's tile space from offset 0 (01 R45, 11 R274). -/
def State.copyTile (s : State) (gid : Nat) (g : Group) (first : Nat) (b : List Byte) : State :=
  b.zipIdx.foldl (fun t x =>
    let c := if g.gang = 0 ∨ g.tile = 0 then (first, x.2) else (first + x.2 / g.tile, x.2 % g.tile)
    let a := t.alloc c.1 gid
    t.setAlloc c.1 gid { a with mem := a.mem.write c.2 x.1 }) s

/-- The threads of a unit: the lowest free hardware threads of its first core, in tid order (15 R334). -/
def State.startUnit (s : State) (gid : Nat) (g : Group) (l : Launch) (j first : Nat) : State :=
  let free := (List.range 4).filter fun t => !(s.getTh (4 * first + t)).resident
  ((free.take (g.threadsAt first)).zipIdx (j * g.perUnit)).foldl (fun t x => t.startThread gid g l x.2 (4 * first + x.1)) s

/-- Whether every unit of a placed group still leaves 09 R244's bound: the free lane groups cover the resident threads that have not
asked and the group's own. -/
def State.startable (s : State) (g : Group) : Bool :=
  g.firsts.all fun f => decide ((s.owed f).length + g.threadsAt f ≤ (s.freeLanes f).length)
/-- GROUP_START: once 09 R244 holds after it, the tile segment is copied and all threads of a placed group become resident together
(15 R334). PREEMPT is posted to those on cores that a withdrawal changes (17 R363, 19 R406). -/
def execGroupStart (group : Nat) (s : State) : Host.Outcome State Fault Refusal :=
  match s.groups.look group with
  | none => .next s
  | some g =>
    let l := s.launches.get g.launch {}
    if g.started ∨ g.swapped ∨ s.startable g = false then .next s
    else
      let tile := (l.image.map Image.tile).getD []
      let s1 := g.firsts.foldl (fun t f => t.copyTile group g f tile) s
      let s2 := g.firsts.zipIdx.foldl (fun t x => t.startUnit group g l x.2 x.1) s1
      let s3 := { s2 with groups := s2.groups.set group { g with started := true } }
      .next ((s3.residentsOf (g.firsts.filter s3.changing)).foldl (fun t h => if (t.getTh h).group = group then t.post h 1 else t) s3)

/-! ## The end of threads, groups and launches -/

/-- The partition of a thread. -/
def State.partOf (s : State) (h : Nat) : Nat := (s.launches.get (s.groups.get (s.getTh h).group {}).launch {}).part
/-- The indivisible update that marks a task as failed (15 R345): `STATE` 0 becomes 2 and `HW` is kept. A task record or status word
that cannot be reached is left alone. -/
def State.markFailed (s : State) (part : Nat) (root : Word) (rec_ : Nat) : State :=
  match s.hubRead part root (rec_ + 8) 8 with
  | .error _ => s
  | .ok (stw, s1) =>
    match s1.hubLoc part root stw 8 .update with
    | .error _ => s1
    | .ok l =>
      let w := s1.readLoc l 8
      if s1.poisonedLoc l 8 ∨ bits w 62 2 ≠ 0 then s1
      else (s1.storeLoc l 8 (w + 2 ^ 63)).hubNote part 6 0x89 l (bytesOf 8 (w + 2 ^ 63))

/-- Why that update waits: for a retraining link, which holds the traffic and loses none (20 R418), or for the migration unit. -/
def State.markWait (s : State) (part : Nat) (root : Word) (rec_ : Nat) : Option AErr :=
  let keep (e : AErr) : Option AErr := if e.waits then some e else none
  match s.hubRead part root (rec_ + 8) 8 with
  | .error e => keep e
  | .ok (stw, s1) =>
    match s1.hubLoc part root stw 8 .update with
    | .error e => keep e
    | .ok _ => none

/-- The transfers of a thread stop at their strip boundary and are abandoned (07 R214). -/
def State.dropTransfers (s : State) (h : Nat) : State :=
  (s.endStrips h).updCore (h / 4) fun c =>
    { c with channels := c.channels.map fun k => if k.2.owner = some h then (k.1, { k.2 with xfers := [] }) else k }

/-- The settling of a thread that ended otherwise than at the exit address: its accesses are performed or abandoned, its task is marked
as failed (15 R345), and the launch unit ends the other threads of its group (15 R330), among them one that has ended at the exit address and still
waits for its RUNs or transfers: its end becomes a termination too (DESIGN CHOICE, assumption 99). -/
def State.settle (s : State) (h : Nat) : State :=
  let th := s.getTh h
  let part := s.partOf h
  let s1 := s.breakAll h
  let s2 := (th.slots.foldl (fun t k => t.drain (h, k.1)) s1).dropTransfers h
  let s3 := if th.tkcur = 0 then s2 else s2.markFailed part th.ptroot th.tkcur.toNat
  let mates := s3.threadIds.filter fun k =>
    let t := s3.getTh k
    k != h && t.resident && t.group == th.group && t.status != .settled && t.status != .stopped
  let s4 := mates.foldl (fun t k => t.setTh k { t.getTh k with status := .ending true, cv := none }) s3
  { s4.setTh h { s4.getTh h with status := .settled } with tags := s4.tags.filter fun x => x.h != h && !mates.contains x.h }
/-- Why the settling of a thread waits for its task's record. -/
def State.settleWait (s : State) (h : Nat) : Option AErr :=
  let th := s.getTh h
  if th.tkcur = 0 then none else s.markWait (s.partOf h) th.ptroot th.tkcur.toNat
/-- THREAD_TERMINATION: a thread that was terminated, or stopped under 19 R386, is settled (15 R345). -/
def execThreadTermination (h : Nat) (s : State) : Host.Outcome State Fault Refusal :=
  .next (
    if (s.getTh h).status = .ending true ∨ (s.getTh h).status = .stopped then
      match s.settleWait h with
      | some e => s.hubAsk (s.partOf h) e
      | none => s.settle h
    else s)

/-- Whether an ending thread still waits for a RUN (07 R214 step 1). -/
def State.runsLeft (s : State) (h : Nat) : Bool := (s.getTh h).slots.any fun x => x.2.run.isSome
/-- Whether it still waits for a RUN or a transfer (07 R214). -/
def State.endWaits (s : State) (h : Nat) : Bool :=
  s.runsLeft h || (s.getCore (h / 4)).channels.any fun c => c.2.owner == some h && !c.2.idle

/-- The cores of a group freed and its end counted (15 R330). -/
def State.endGroup (s : State) (gid : Nat) (g : Group) (failed : Bool) : State :=
  let cores := g.firsts.flatMap fun f => (List.range (2 ^ g.gang)).map (f + ·)
  let s1 := cores.foldl (fun t c => t.updCore c fun k => { k with gang := 0, gangFirst := c, allocs := k.allocs.erase gid }) s
  let l := s1.launches.get g.launch {}
  { s1 with
    groups := s1.groups.erase gid
    tags := s1.tags.filter fun t => match t.tile with | some x => x.2 != gid | none => true
    launches := s1.launches.set g.launch
      { l with gdone := l.gdone + (if failed then 0 else 1), gfail := l.gfail + (if failed then 1 else 0) } }

/-- The five steps of 07 R214 for a thread; the last thread of a group ends the group. -/
def State.retire (s : State) (h : Nat) (failed : Bool) : State :=
  let gid := (s.getTh h).group
  let s1 := ((s.releaseChains h).releaseStreams h).detach h
  let s2 := (s1.setTh h {}).releaseLanes h
  let g := s2.groups.get gid {}
  let g1 := { g with ended := g.ended + 1, failed := g.failed || failed }
  let s3 := { s2 with groups := s2.groups.set gid g1, tags := s2.tags.filter fun x => x.h != h }
  (if g1.ended = g1.threads then s3.endGroup gid g1 g1.failed else s3).releaseChannelWaits (h / 4)
/-- Whether a thread's resources can be released now. -/
def State.canRetire (s : State) (h : Nat) : Bool :=
  (s.getTh h).status == .settled || ((s.getTh h).status == .ending false && !s.endWaits h)
/-- THREAD_END (07 R214): at the exit address the chains end once their RUNs are over, while transfers may still be awaited. -/
def execThreadEnd (h : Nat) (s : State) : Host.Outcome State Fault Refusal :=
  .next (
    if s.canRetire h then s.retire h ((s.getTh h).status == .settled)
    else if (s.getTh h).status = .ending false ∧ s.runsLeft h = false then s.releaseChains h
    else s)

/-- The entries of a launch in every deque. -/
def State.dequeOf (s : State) (n : Nat) : List Word :=
  (s.cores.map (·.2)).flatMap fun (c : Core) => (c.deque.filter (·.2 == n)).map (·.1)

/-- Whether a launch has ended: it waits in no queue, and every group that it placed has ended. -/
def State.launchOver (s : State) (n : Nat) : Bool :=
  (s.launches.look n).isSome && !(s.parts.any fun p => p.2.queues.any fun q => q.2.items.contains n)
    && !(s.groups.any fun g => g.2.launch == n)

/-- The end of a launch (15 R330, R342): entries left in the deques are discarded and marked as failed, and the completion word is
written once. -/
def State.completeLaunch (s : State) (launch : Nat) : State :=
  let l := s.launches.get launch {}
  let left := s.dequeOf launch
  let s1 := { s with cores := s.cores.map fun (c : Nat × Core) => (c.1, { c.2 with deque := c.2.deque.filter (·.2 != launch) }) }
  let s2 := left.foldl (fun t r => t.markFailed l.part (s.envOf l).root r.toNat) s1
  let st := if l.aborted then 8 else if l.gfail = 0 ∧ left = [] then 1 else 2
  let s3 := if l.reported then s2 else s2.report launch l (complWord st 0 left.length l.gfail l.gdone)
  { s3 with launches := s3.launches.erase launch }
/-- Why the end of a launch waits: for the record of an entry left in a deque, or for its completion word's page. -/
def State.completeWait (s : State) (n : Nat) : Option AErr :=
  let l := s.launches.get n {}
  match firstSome (fun r => s.markWait l.part (s.envOf l).root r.toNat) (s.dequeOf n) with
  | some e => some e
  | none => if l.reported then none else s.wordWait l
/-- LAUNCH_COMPLETION: a launch whose groups have all been placed and have ended. -/
def execLaunchCompletion (launch : Nat) (s : State) : Host.Outcome State Fault Refusal :=
  .next (
    if s.launchOver launch then
      match s.completeWait launch with
      | some e => s.hubAsk (s.launches.get launch {}).part e
      | none => s.completeLaunch launch
    else s)

end Sys2Proof.Machine
end

