-- ==== Sys2Proof/Machine/Migrate.lean ====
section
/-! DEFINITION. Page migration (13 R312 to R317): requests, the copy and its forks, the switch, abandonment and the hold interval. -/
namespace Sys2Proof.Machine

/-! ## The page of a request -/

/-- The side and frame address of a leaf entry. -/
def leafHost (e : Nat) : Bool := bitOf e 60
/-- The frame that a leaf entry names. -/
def leafFrame (e : Nat) : Nat := bits e 12 40 * 4096
/-- A location in a frame of a side. -/
def frameLoc (host : Bool) (pa off : Nat) : Loc := if host then .hostmem (pa + off) else .dev (pa + off)

/-- The 512 pieces of a page copied from one frame to another, poison with them, in ascending order (13 R313). Writes made later are
forked, so the copy at acceptance and those forks leave the frames equal, as the copy in 64-byte lines does. -/
def State.copyPage (s : State) (fromHost : Bool) (fromPa : Nat) (toHost : Bool) (toPa : Nat) : State :=
  (List.range 512).foldl (fun t k =>
    let src := frameLoc fromHost fromPa (8 * k)
    let dst := frameLoc toHost toPa (8 * k)
    let t1 := t.put dst 8 (t.readLoc src 8)
    if t.poisonedLoc src 8 then t1.poisonAt dst else t1) s

/-- Migration breaks every link tag on the page (06 R183). -/
def State.breakPage (s : State) (host : Bool) (pa : Nat) : State :=
  { s with tags := s.tags.filter fun t => !(t.tile == none && t.host == host && t.line * 64 / 4096 == pa / 4096) }

/-- The step that a transaction of the host which waited makes due again. -/
def heldStep (t : Transaction) : List Instr :=
  let vi := bits t.header 32 6
  let tag : BitVec 16 := BitVec.ofNat 16 (bits t.header 48 16)
  let addr : Word := BitVec.ofNat 64 (bits t.header 64 64)
  match bits t.header 0 8 with
  | 0x01 => [.hwr vi tag addr t.data]
  | 0x02 => [.hrd vi tag addr (16 * bits t.header 40 8)]
  | 0x10 => [.lmsg vi tag addr]
  | 0x20 => [.migreq vi tag addr]
  | _ => []
/-- The transactions of the host that waited are performed next, in their order, before any that have arrived since (20 R421). -/
def State.releaseHost (s : State) : State :=
  { s with agenda := s.ksl.inbox.flatMap heldStep ++ s.agenda, ksl := { s.ksl with inbox := [] } }
/-- The threads that wait for a page issue again and walk anew (13 R314, R316), and so do the host's transactions that wait. -/
def State.releaseMigrate (s : State) (leaf : Nat) : State :=
  (s.threadIds.foldl (fun t h =>
    let th := t.getTh h
    match th.status with
    | .parked (.migrate l _) => if l = leaf then t.setTh h { th with status := .issuing } else t
    | _ => t) s).releaseHost

/-- The HBM channel that holds a frame: channel `c` of stack `k` is 32k + c (assumption 74). -/
def channelOf (frame : Nat) : Nat := Config.frameChannel frame % 512
/-- Whether an HBM channel is withdrawn, or waits to be (19 R406). -/
def State.channelGoing (s : State) (ch : Nat) : Bool :=
  !bitOf (s.rmap.hbm.get (ch / 32) 0xFFFFFFFF) (ch % 32) || s.rmap.waiting.contains (.hbmChannel (ch / 32) (ch % 32))
/-- The oldest frame of the pool that a migration may take: none in a channel that is going. -/
def State.freeFrame (s : State) : Option Nat := s.pool.find? fun f => !s.channelGoing (channelOf f)

/-- Whether a request for a page loses: the page is being migrated or in its hold interval, it is mapped by a block or span, or a
device frame is needed and the pool has none (13 R312). `e` is the leaf entry and `toHost` the side to which the page would move. While the
link is down no page moves to or from host memory, which a copy could not reach, since a migration adds no outcome (13 R317, DEDUCED:
assumption 30). -/
def State.migrationLoses (s : State) (leaf e : Nat) (toHost : Bool) : Bool :=
  (s.migrations.look leaf).isSome || bitOf e 7 || bitOf e 11 || (!toHost && s.freeFrame.isNone)
    || (s.ksl.phase == .down && (toHost || leafHost e))

/-- The page of a leaf entry enters splice: the entry is read, and the page is copied to the new frame (13 R312, R313). -/
def State.splice (s : State) (vi leaf e va : Nat) (toHost : Bool) (newPa : Nat) : State :=
  let m : Migration :=
    { phase := .splice, entry := e, va := va / 4096 * 4096, oldPa := leafFrame e, oldHost := leafHost e, newPa := newPa,
      newHost := toHost, vi := vi }
  let s1 := (s.copyPage m.oldHost m.oldPa toHost newPa).breakPage m.oldHost m.oldPa
  { s1 with migrations := s1.migrations.set leaf m }
/-- A request accepted: the new frame is taken and the page enters splice (13 R312, R313). A host frame comes from the host
(assumption 30). -/
def State.acceptMigration (s : State) (vi leaf e va : Nat) (toHost : Bool) : State :=
  if toHost then
    let s1 := s.splice vi leaf e va true (4096 * (Config.hostFrame s.free % 2 ^ 40))
    { s1 with free := s1.free + 1 }
  else
    let f := s.freeFrame.getD 0
    let s1 := s.splice vi leaf e va false (4096 * f)
    { s1 with pool := s1.pool.erase f }

/-! ## Device requests -/

/-- `M` cleared in every held translation of a leaf. -/
def State.clearMig (s : State) (leaf : Nat) : State :=
  let clr (t : Trans) : Trans := if t.leaf = leaf then { t with mig := false } else t
  { s with
    cores := s.cores.map fun (k : Nat × Core) =>
      (k.1, { k.2 with
        vtlb := k.2.vtlb.map clr
        channels := k.2.channels.map fun (c : Nat × Channel) =>
          (c.1, { c.2 with xfers := c.2.xfers.map fun x => { x with held := x.held.map clr } }) })
    units := s.units.map fun (k : Nat × MatUnit) => (k.1, { k.2 with mtlb := k.2.mtlb.map clr }) }

/-- Every held translation of a leaf dropped, so that a waiting access walks the entry as software left it (13 R314). -/
def State.forget (s : State) (leaf : Nat) : State := s.invalidate (s.cores.map (·.1)) fun t => t.leaf == leaf

/-- The decision on a device request (13 R312, R316): accepted; lost, which clears `M` in the leaf; or already settled by a migration
in progress or by software. -/
def State.decideRequest (s : State) (r : MigRequest) : State :=
  let e := s.dram.load r.leaf 8
  let part := if hubAgent 0 ≤ r.h then r.h - hubAgent 0 else s.partOf r.h
  if s.moving r.leaf then s
  else if !(bitOf e 0 && bitOf e 1 && bitOf e 60 && bitOf e 59) then (s.forget r.leaf).releaseMigrate r.leaf
  else if s.migrationLoses r.leaf e false then
    ((s.storeLoc (.dev r.leaf) 8 (setBit e 59 false)).clearMig r.leaf).releaseMigrate r.leaf
  else s.acceptMigration (s.lowestVi part) r.leaf e r.va false

/-- Requests taken from the unit and decided, in the order given. -/
def State.serveRequests (s : State) (l : List MigRequest) : State :=
  l.foldl (fun t r => ({ t with migRequests := t.migRequests.erase r }).decideRequest r) s
/-- MIGRATION_DEVICE_REQUEST: the unit takes the oldest request of a thread, its transfers and its chains, or of the hub die, after those
for the same page that arrived before it (13 R312). The page is in host memory, so that the request waits while the link retrains (20
R418). -/
def execMigrationDeviceRequest (h : Nat) (s : State) : Host.Outcome State Fault Refusal :=
  match s.migRequests.find? fun r => r.h == h with
  | none => .next s
  | some r => .next <| if s.ksl.phase = .retraining then s else (s.serveRequests ((s.migRequests.takeWhile fun q => q.h != h).filter (fun q => q.leaf == r.leaf) ++ [r]))

/-! ## Host requests -/

/-- The window offset at which the host reaches a page (20 R423). -/
def VI.windowOf (v : VI) (va : Nat) : Option Nat :=
  firstSome (fun w => if w.2.vbase ≤ va ∧ va < w.2.vbase + w.2.len then some (w.2.hostBase + (va - w.2.vbase)) else none) v.windows

/-- MIGREQ: a host request for the page at an address, served after the older requests for that page, moves it to the other side; a
request that loses receives a mapping through a window (13 R312, R316), with `STAT` 2 and offset 0 where none covers the page (DESIGN
CHOICE, assumption 30). A page that no walk finds ends the request with `STAT` 2 or 3, as a host access (20 R423). While the link retrains
the request waits (20 R418). -/
def execMigreq (vi : Nat) (tag : BitVec 16) (addr : Word) (s : State) : Host.Outcome State Fault Refusal :=
  let v := s.vis.get vi {}
  match v.part with
  | none => .next (s.reply 3 0 5 vi tag.toNat addr.toNat [])
  | some part =>
    let a := addr.toNat / 4096 * 4096
    let root := v.env.root.toNat
    if s.ksl.phase = .retraining ∨ s.hostBehind vi = true then .next (s.holdHost (mkTransaction 0x20 0 0 vi tag.toNat addr.toNat []))
    else if 2 ^ 57 ≤ a then .next (s.reply 3 0 2 vi tag.toNat addr.toNat [])
    else
      match s.walkFrom (bitOf (s.parts.get part {}).feat 5) (bits root 40 16) a (bits root 0 40) 4 with
      | .error (.page _ _) => .next (s.reply 3 0 2 vi tag.toNat addr.toNat [])
      | .error _ => .next (s.reply 3 0 3 vi tag.toNat addr.toNat [])
      | .ok t =>
        let s1 := s.serveRequests (s.migRequests.filter fun q => q.leaf == t.leaf)
        let e := s1.dram.load t.leaf 8
        if s1.migrationLoses t.leaf e (!t.host) then
          match v.windowOf a with
          | some off => .next (s1.reply 0x22 0 0 vi tag.toNat off [])
          | none => .next (s1.reply 0x22 0 2 vi tag.toNat 0 [])
        else .next (s1.acceptMigration vi t.leaf e a (!t.host))

/-! ## Switch, abandonment and hold -/

/-- A frame returned to the pool when it is device memory. -/
def State.poolBack (s : State) (host : Bool) (pa : Nat) : State :=
  if host then s else { s with pool := s.pool ++ [pa / 4096] }

/-- MIGRATION_SWITCH: the copy has ended. The leaf is swapped if it still holds the value read at acceptance, and the page is
invalidated on every core; else the migration is abandoned (13 R314). A move to host memory waits while the link retrains, and is abandoned
where it is down, since its copy has not reached the new frame (13 R317, 20 R418, DEDUCED: assumption 30). -/
def execMigrationSwitch (leaf : Nat) (s : State) : Host.Outcome State Fault Refusal :=
  match s.migrations.look leaf with
  | none => .next s
  | some m =>
    if m.phase ≠ .splice ∨ (m.newHost = true ∧ s.ksl.phase = .retraining) then .next s
    else if s.dram.load leaf 8 = m.entry ∧ ¬(m.newHost = true ∧ s.ksl.phase = .down) then
      let e := setBit (setBit (setBits m.entry 12 40 (m.newPa / 4096)) 60 m.newHost) 59 false
      let s1 := (s.storeLoc (.dev leaf) 8 e).invalidate (s.cores.map (·.1)) fun t => t.named 3 m.va 0 || t.leaf == leaf
      .next (({ s1 with migrations := s1.migrations.set leaf { m with phase := .switch } }).releaseMigrate leaf)
    else
      let s1 := (s.poolBack m.newHost m.newPa).reply 0x21 0 6 m.vi 0 m.va []
      .next (({ s1 with migrations := s1.migrations.set leaf { m with phase := .hold } }).forget leaf |>.releaseMigrate leaf)

/-- The location in the new frame of one in the old frame of a migration. -/
def Migration.moved (m : Migration) (l : Loc) : Loc := if m.forks l then m.newLoc l.pageOff else l
/-- A wait with the locations that it watches changed. -/
def Wait.mapLocs (f : Loc → Loc) : Wait → Wait
  | .vwait d a x k z q done seen => .vwait d a x k z q done (seen.map fun y => (f y.1, y.2))
  | .setvlw d a b e seen => .setvlw d a b e (seen.map fun y => (f y.1, y.2))
  | w => w
/-- A thread with the locations that it watches or that are noted for it changed. -/
def Thread.mapLocs (f : Loc → Loc) (t0 : Thread) : Thread :=
  let t := { t0 with
    unseen := t0.unseen.map fun (y : Nat × Loc × Nat × Nat) => (y.1, f y.2.1, y.2.2)
    fills := t0.fills.map fun (y : Loc × Nat) => (f y.1, y.2) }
  match t.status with
  | .parked w => { t with status := .parked (w.mapLocs f) }
  | _ => t
/-- MIGRATION_INVALIDATION_COMPLETE: no party uses the old frame any more, a parked thread watches the new one, the hold interval begins,
and the host is told (13 R314, R315, 20 R420) by a MIGDONE with `TAG` 0, for a request of the host too, and the page's virtual address (DESIGN
CHOICE, assumption 30). -/
def execMigrationInvalidationComplete (leaf : Nat) (s : State) : Host.Outcome State Fault Refusal :=
  match s.migrations.look leaf with
  | none => .next s
  | some m =>
    if m.phase ≠ .switch ∨ s.stripUnderWay then .next s
    else
      let s1 := ((s.poolBack m.oldHost m.oldPa).reply 0x21 0 0 m.vi 0 m.va [] |>.breakPage m.oldHost m.oldPa).breakPage m.newHost m.newPa
      .next { s1 with
        migrations := s1.migrations.set leaf { m with phase := .hold }
        th := s1.th.mapLocs m.moved
        others := s1.others.map fun (x : Nat × Thread) => (x.1, x.2.mapLocs m.moved) }

/-- MIGRATION_HOLD_EXPIRE: the hold interval is over (13 R315). -/
def execMigrationHoldExpire (leaf : Nat) (s : State) : Host.Outcome State Fault Refusal :=
  match s.migrations.look leaf with
  | none => .next s
  | some m => .next (if m.phase = .hold then { s with migrations := s.migrations.erase leaf } else s)

end Sys2Proof.Machine
end

