-- ==== Sys2Proof/Machine/Task.lean ====
section
/-! DEFINITION. Queues under program control, task status words and deques (07 R229 to R231, 15 R341 to R343). -/
namespace Sys2Proof.Machine

/-! ## QWR and QRD (07 R229) -/

/-- Whether a chain's binding is another thread's (01 R18). -/
def State.foreign (s : State) (o : Option (Nat × Nat)) : Bool :=
  match o with
  | some c => c.1 != s.cur
  | none => false
/-- QWR: pushes g[A][31:0]; waits while the queue holds 64 entries. -/
def qwr (d a : BitVec 5) (s : State) : M State :=
  let x := s.queue s.core d.toNat
  if s.foreign x.prod ∨ s.foreign x.cons ∨ x.prod.isSome then illegal s
  else if 64 ≤ x.entries.length then .error (.park (.qwr d a) s)
  else .ok (s.qPush s.core d.toNat [(s.rd a).setWidth 32]).advance
/-- QRD: pops the oldest entry; waits while the queue is empty. -/
def qrd (d a : BitVec 5) (s : State) : M State :=
  let x := s.queue s.core a.toNat
  if s.foreign x.prod ∨ s.foreign x.cons ∨ x.cons.isSome then illegal s
  else
    match x.entries with
    | [] => .error (.park (.qrd d a) s)
    | e :: _ => .ok ((s.qPop s.core a.toNat 1).2.wrAdvance d (e.setWidth 64))
/-- QWR (07 R229). -/
def execQwr (d a : BitVec 5) (s : State) : Host.Outcome State Fault Refusal := finish (qwr d a s)
/-- QRD (07 R229). -/
def execQrd (d a : BitVec 5) (s : State) : Host.Outcome State Fault Refusal := finish (qrd d a s)
/-- QWR_WAKE: the queue has room (07 R229). -/
def execQwrWake (h : Nat) (s : State) : Host.Outcome State Fault Refusal :=
  wake h (fun w => match w with
    | .qwr d a => some (qwr d a)
    | _ => none) s
/-- QRD_WAKE: the queue holds an entry (07 R229). -/
def execQrdWake (h : Nat) (s : State) : Host.Outcome State Fault Refusal :=
  wake h (fun w => match w with
    | .qrd d a => some (qrd d a)
    | _ => none) s

/-! ## HWPUB (07 R230) -/

/-- The status word after a publication of `hw` (05 R141): `HW` never falls, `DN` ends the stream. -/
def publish (w hw : Nat) (done : Bool) : Nat :=
  if bits w 62 2 = 0 then setBits (setBits w 0 32 (Nat.max hw (bits w 0 32))) 62 2 done.toNat else w
/-- HWPUB: one indivisible read-modify-write of a status word; a changed word is a write. -/
def execHwpub (d a b : BitVec 5) (n : BitVec 1) (s : State) : Host.Outcome State Fault Refusal :=
  finish (do
    let (l, s1) ← s.space0 (s.rd a) 8 .update
    let w := s1.readLoc l 8
    let x := publish w (s1.rdN b % 2 ^ 32) (n == 1)
    let s2 := if x = w then s1.noteReads [l] else (s1.storeLoc l 8 x).noteAtomic l 8 9 x
    .ok (s2.wrAdvance d (BitVec.ofNat 64 w)))

/-! ## Deques (07 R231, 15 R341, R343) -/

/-- The deque of a core. -/
def State.deque (s : State) (core : Nat) : List (Word × Nat) := (s.getCore core).deque
/-- A core's deque replaced. -/
def State.setDeque (s : State) (core : Nat) (l : List (Word × Nat)) : State := s.updCore core fun c => { c with deque := l }

/-- TKPUSH: at the young end of the deque of the core, or of the gang's first core. -/
def execTkpush (d a : BitVec 5) (s : State) : Host.Outcome State Fault Refusal :=
  finish (
    if s.rdN a % 64 ≠ 0 then raise s { cause := Cause.misalign, tval := s.rd a }
    else if 64 ≤ (s.deque s.core).length then .ok (s.wrAdvance d 0)
    else .ok ((s.setDeque s.core (s.deque s.core ++ [(s.rd a, s.group.launch)])).wrAdvance d 1))

/-- A deque without its entry `n`. -/
def dropAt {α : Type} (l : List α) (n : Nat) : List α := l.take n ++ l.drop (n + 1)
/-- The youngest entry of a launch, with the rest of the deque. -/
def takeYoungest (l : List (Word × Nat)) (launch : Nat) : Option (Word × List (Word × Nat)) :=
  match (l.zipIdx.filter fun x => x.1.2 == launch).getLast? with
  | some x => some (x.1.1, dropAt l x.2)
  | none => none

/-- One step of a steal generator. -/
def stealStep (g : Nat) : Nat := g / 2 ^^^ (if bitOf g 0 then 0xB400 else 0)

/-- The candidates of a probe level: 0 the cluster, 1 the die outside it, 2 the partition outside the die. -/
def State.candidates (s : State) (core level : Nat) : List Nat :=
  (List.range 320).filter fun c =>
    c != core && s.coreLive c &&
      (if level = 0 then clusterOf c == clusterOf core
       else if level = 1 then dieOf c == dieOf core && clusterOf c != clusterOf core
       else s.part.clusters.contains (clusterOf c) && dieOf c != dieOf core)

/-- One probe: the generator steps and names the victim, from which the thief takes the oldest half, at least one, of the launch's
entries; those beyond the first enter the old end of the thief's deque as far as it has room (15 R343). A victim that is a later core of a gang
shows its own deque, which is empty, and not its first core's (DESIGN CHOICE, assumption 100). -/
def State.probe (s : State) (core launch level : Nat) : Option (Word × State) × State :=
  let cs := s.candidates core level
  if cs.isEmpty then (none, s)
  else
    let g := stealStep (s.getCore core).stealGen
    let s1 := s.updCore core fun c => { c with stealGen := g }
    let v := cs.getD (g % cs.length) 0
    let mine := (s1.deque v).zipIdx.filter fun x => x.1.2 == launch
    match mine.take (Nat.max 1 (mine.length / 2)) with
    | [] => (none, s1)
    | x :: r =>
      let own := s1.deque core
      let moved := r.take (64 - own.length)
      let gone := (x :: moved).map (·.2)
      let left := ((s1.deque v).zipIdx.filter fun y => !gone.contains y.2).map (·.1)
      (some (x.1.1, (s1.setDeque v left).setDeque core (moved.map (·.1) ++ own)), s1)

/-- A probe round over the levels that `SCOPE` allows. -/
def State.probeRound (s : State) (core launch scope : Nat) : List Nat → Option Word × State
  | [] => (none, s)
  | k :: r =>
    if scope ≤ k then (none, s)
    else
      match s.probe core launch k with
      | (some (a, t), _) => (some a, t)
      | (none, t) => t.probeRound core launch scope r

/-- TKPOP: the youngest entry of the launch, else one probe round; tkcur takes the result. -/
def execTkpop (d : BitVec 5) (s : State) : Host.Outcome State Fault Refusal :=
  let launch := s.group.launch
  let r : Option Word × State :=
    match takeYoungest (s.deque s.core) launch with
    | some (a, l) => (some a, s.setDeque s.core l)
    | none => s.probeRound s.core launch (s.getCluster (clusterOf s.core)).stealctl [0, 1, 2]
  let a := r.1.getD 0
  .next ({ r.2 with th := { r.2.th with tkcur := a } }.wrAdvance d a)

end Sys2Proof.Machine
end

