-- ==== Sys2Proof/Machine/Reduce.lean ====
section
/-! DEFINITION. Reductions across modules (17 R365 to R368): the descriptor, tokens and their combination, and a node's steps. -/
namespace Sys2Proof.Machine

/-! ## Tokens (17 R366) -/

/-- The format that `FMT` names. -/
def tokenFmt (n : Nat) : Fmt :=
  if n = 0 then .f32 else if n = 1 then .bf16 else if n = 2 then .e4m3 else if n = 3 then .e5m2 else .mxi8
/-- The elements of a token. -/
def tokenElts (n : Nat) : Nat := if n = 0 then 16 else 32

/-- A token as a node passes it on: bytes 33 to 63 of an MX token are ignored as read and written zero (17 R366). -/
def tokenImage (n x : Nat) : Nat := if n ≤ 1 then x else x % 2 ^ 264
/-- combine(p, x) of 17 R367: the token and the elements saturated or forced. -/
def combine (n p x : Nat) : Nat × Nat :=
  let f := tokenFmt n
  let w := f.width
  let el (t i : Nat) : FVal := dec f (bits t (w * i) w)
  if n ≤ 1 then
    let rs := (List.range (tokenElts n)).map fun i => fpAdd f .rne 0 (el p i) (el x i)
    (packElts w (rs.map (·.val)), (rs.filter (·.mark)).length)
  else
    let ep := bits p 256 8
    let ex := bits x 256 8
    if ep = 0xFF ∨ ex = 0xFF then (0xFF * 2 ^ 256, 0)
    else
      let eo := Nat.max ep ex
      let rs := (List.range 32).map fun i =>
        fpAdd f .rne 0 ((el p i).scale ((ep : Int) - eo)) ((el x i).scale ((ex : Int) - eo))
      (packElts w (rs.map (·.val)) + eo * 2 ^ 256, (rs.filter (·.mark)).length)

/-! ## Arming (17 R365) -/

/-- Whether a descriptor is refused. -/
def descBad (d : Nat) : Bool :=
  let up := bits d 296 4
  let dn := bits d 300 4
  let port (p : Nat) : Bool := decide (12 ≤ p) && p != 15
  bits d 456 24 != 0 || bits d 304 144 != 0 || bits d 292 4 != 0 || decide (5 ≤ bits d 288 4) || port up || port dn
    || bits d 256 32 == 0 || (up == dn && up != 15)
    || bits d 192 64 % 8 != 0 || bits d 128 64 % 64 != 0 || bits d 64 64 % 8 != 0 || bits d 0 64 % 64 != 0

/-- The partition and translation root of a node: those of the virtual interface that armed it (assumption 31). -/
def State.nodeRoot (s : State) (n : Node) : Nat × Word :=
  let v := s.vis.get n.vi {}
  (v.part.getD 0, v.env.root)

/-- The location of an access of a node. -/
def State.redLoc (s : State) (n : Node) (a k : Nat) (kind : AKind) : Except AErr Loc :=
  let r := s.nodeRoot n
  s.hubLoc r.1 r.2 a k kind

/-- The accesses of a node's next round: address, bytes and kind. -/
def Node.accesses (n : Node) : List (Nat × Nat × AKind) :=
  [(n.instw, 8, .read), (n.outstw, 8, .update), (n.desc + 60, 4, .write), (n.desc + 56, 1, .write), (n.desc + 60, 4, .read)]
    ++ (if n.next < n.ntok then [(n.inbuf + 64 * n.next, 64, .read), (n.outbuf + 64 * n.next, 64, .write)] else [])
/-- Why a node waits: for a retraining link (20 R418), or for the migration unit (13 R312). -/
def State.nodeWait (s : State) (n : Node) : Option AErr :=
  firstSome (fun x => match s.redLoc n x.1 x.2.1 x.2.2 with
    | .error e => if e.waits then some e else none
    | .ok _ => none) n.accesses

/-- A write of a node; one that no translation allows is left out. -/
def State.redPut (s : State) (n : Node) (a k x : Nat) : State :=
  match s.redLoc n a k .write with
  | .ok l => s.hubPut (s.nodeRoot n).1 l k x
  | .error _ => s

/-- A read of a node: the value, or whether it only waits for the link; else it is poisoned or out of reach. -/
def State.redGet (s : State) (n : Node) (a k : Nat) : Except Bool Nat :=
  match s.redLoc n a k .read with
  | .ok l => if s.poisonedLoc l k then .error false else .ok (s.readLoc l k)
  | .error e => .error e.waits
/-- The DRD of a read of a node, where it lies in host memory (20 R420). -/
def State.redNote (s : State) (n : Node) (a k : Nat) : State :=
  match s.redLoc n a k .read with
  | .ok l => s.hubNote (s.nodeRoot n).1 4 0 l (List.replicate k 0)
  | .error _ => s
/-- A value that was read, or 0. -/
def gotten (r : Except Bool Nat) : Nat :=
  match r with
  | .ok x => x
  | .error _ => 0
/-- Whether a read was refused. -/
def refusedRead (r : Except Bool Nat) : Bool :=
  match r with
  | .error w => !w
  | .ok _ => false

/-- A node's state written to its descriptor, `NST` at byte 56 (17 R365). -/
def State.putNst (s : State) (n : Node) (x : Nat) : State := s.redPut n (n.desc + 56) 1 x

/-- A node armed at a descriptor; none where arming is refused and the node stays idle (17 R365), as where the descriptor cannot be read or is
poisoned (DESIGN CHOICE, assumption 101). -/
def State.arm (s : State) (k vi desc : Nat) : Option State :=
  let n0 : Node := { vi := vi, desc := desc }
  match s.redGet n0 desc 64 with
  | .error _ => none
  | .ok d =>
    let part := (s.nodeRoot n0).1
    if desc % 64 ≠ 0 ∨ bitOf (s.parts.get part {}).feat 4 = false ∨ descBad d = true then none
    else
      let n : Node :=
        { state := .armed, vi := vi, desc := desc, uport := bits d 296 4, dport := bits d 300 4, fmt := bits d 288 4,
          ntok := bits d 256 32, outstw := bits d 192 64, outbuf := bits d 128 64, instw := bits d 64 64, inbuf := bits d 0 64 }
      some ((({ (s.redNote n0 desc 64) with nodes := s.nodes.set k n }).putNst n 1).redPut n (desc + 60) 4 0)

/-! ## Tokens through an armed node (17 R367) -/

/-- A peer port's link. -/
def State.peer (s : State) (p : Nat) : Link := s.peers.get p {}
/-- The state with it replaced. -/
def State.setPeer (s : State) (p : Nat) (l : Link) : State := { s with peers := s.peers.set p l }
/-- A reduction token queued on a peer port, under the lowest interface of the partition (20 R424); `STAT` 1 signals failure downstream. -/
def State.sendToken (s : State) (n : Node) (tag : Nat) (failed : Bool) (data : List Byte) : State :=
  if n.dport = 15 then s
  else
    let l := s.peer n.dport
    s.setPeer n.dport { l with out := l.out ++ [mkTransaction 0x40 0 failed.toNat (s.lowestVi (s.nodeRoot n).1) tag 0 data] }

/-- Whether a node's local producer has failed or ended as failed (17 R367, R368). -/
def stwFailed (w : Nat) : Bool := decide (2 ≤ bits w 62 2)
/-- The next token from upstream. -/
def State.upToken (s : State) (n : Node) : Option Transaction := (s.peer n.uport).inbox.head?

/-- Why an armed node fails now (17 R368). -/
def State.nodeFails (s : State) (n : Node) : Bool :=
  let w := s.redGet n n.instw 8
  let producer := refusedRead w || stwFailed (gotten w)
  let ready := decide (n.next < bits (gotten w) 0 32)
  let up := n.uport != 15 &&
    match s.upToken n with
    | some t => bits t.header 24 8 != 0 || bits t.header 48 16 != n.next % 2 ^ 16
    | none => false
  let down (p : Nat) : Bool := p != 15 && (s.peer p).phase == .down
  n.state == .armed && (producer || up || down n.uport || down n.dport
    || (ready && refusedRead (s.redGet n (n.inbuf + 64 * n.next) 64)))

/-- The status word of a node's output updated by one indivisible read-modify-write (05 R141). -/
def State.nodeStatus (s : State) (n : Node) (f : Nat → Nat) : State :=
  match s.redLoc n n.outstw 8 .update with
  | .error _ => s
  | .ok l =>
    let w := s.readLoc l 8
    if f w = w then s else (s.storeLoc l 8 (f w)).hubNote (s.nodeRoot n).1 6 0x89 l (bytesOf 8 (f w))

/-- A node accepts its next token: the local one is ready, and upstream has sent one or the node is rank 0. -/
def State.tokenReady (s : State) (n : Node) : Bool :=
  n.state == .armed && decide (n.next < n.ntok) && !s.nodeFails n
    && decide (n.next < bits (gotten (s.redGet n n.instw 8)) 0 32)
    && (match s.redGet n (n.inbuf + 64 * n.next) 64 with
        | .ok _ => true
        | .error _ => false)
    && (n.uport == 15 || (s.upToken n).isSome) && (s.nodeWait n).isNone

/-- What an armed node that waits asks of the migration unit. -/
def State.nodeAsk (s : State) (n : Node) : State :=
  match s.nodeWait n with
  | some e => if n.state = .armed then s.hubAsk (s.nodeRoot n).1 e else s
  | none => s
/-- REDUCTION_TOKEN: one round of 17 R367; the last one ends the stream and the node is done. `OUTSTW` is published as HWPUB publishes it
(07 R230): a word whose `STATE` is not 0 is left alone. -/
def execReductionToken (node : Nat) (s : State) : Host.Outcome State Fault Refusal :=
  let n := s.nodes.get node {}
  if s.tokenReady n then
    let x := gotten (s.redGet n (n.inbuf + 64 * n.next) 64)
    let up := s.upToken n
    let r := match up with
      | some t => if n.uport = 15 then (tokenImage n.fmt x, 0) else combine n.fmt (natOf t.data) x
      | none => (tokenImage n.fmt x, 0)
    let s0 := (s.redNote n n.instw 8).redNote n (n.inbuf + 64 * n.next) 64
    let s1 := if n.uport = 15 then s0 else s0.setPeer n.uport { s0.peer n.uport with inbox := (s0.peer n.uport).inbox.drop 1 }
    let s2 := (s1.sendToken n n.next false (bytesOf 64 r.1)).redPut n (n.outbuf + 64 * n.next) 64 r.1
    let nsat := gotten (s2.redGet n (n.desc + 60) 4)
    let s3 := if r.2 = 0 then s2 else (s2.redNote n (n.desc + 60) 4).redPut n (n.desc + 60) 4 ((nsat + r.2) % 2 ^ 32)
    let last := n.next + 1 = n.ntok
    let s4 := s3.nodeStatus n fun w => publish w (n.next + 1) (decide last)
    let n1 := { n with next := n.next + 1, state := if last then .done else .armed }
    let s5 := { s4 with nodes := s4.nodes.set node n1 }
    .next (if last then s5.putNst n1 2 else s5)
  else .next (s.nodeAsk n)

/-- REDUCTION_NODE_FAIL: `OUTSTW` `STATE` := 2 with `HW` kept, `NST` := 3, and the failure goes downstream (17 R368). -/
def execReductionNodeFail (node : Nat) (s : State) : Host.Outcome State Fault Refusal :=
  let n := s.nodes.get node {}
  if s.nodeFails n ∧ s.nodeWait n = none then
    let s1 := s.nodeStatus n fun w => if bits w 62 2 = 0 then setBits w 62 2 2 else w
    let n1 := { n with state := .failed }
    .next ((({ s1 with nodes := s1.nodes.set node n1 }).putNst n1 3).sendToken n1 n1.next true [])
  else .next (s.nodeAsk n)

/-- Traffic that has come in over a peer port has found its link awake (20 R426). -/
def State.carried (s : State) (port : Nat) : State :=
  let r := LinkRef.peer port
  let x := s.linkSt r
  if x.power = .full ∨ (x.capped ∧ x.power = .narrow) then s
  else s.setLinkSt r { x with waking := false, power := if x.capped then .narrow else .full }
/-- RTOK: a token arrives on a peer port (17 R367, 20 R425); a port that is down receives nothing. -/
def execRtok (port : Nat) (tag : BitVec 16) (failed : Bool) (data : List Byte) (s : State) : Host.Outcome State Fault Refusal :=
  let l := s.peer port
  .next (if l.phase = .down then s
    else (s.setPeer port { l with inbox := l.inbox ++ [mkTransaction 0x40 0 failed.toNat 0 tag.toNat 0 data] }).carried port)

end Sys2Proof.Machine
end

