-- ==== Sys2Proof/Machine/Link.lean ====
section
/-! DEFINITION. The Knadivy Serial Link and the peer ports: flits and their CRC, retry and retraining, transactions, and the host's
accesses through memory windows (20 R417 to R425). Ports 0 to 11 are the peer ports and port 12 is the Knadivy Serial Link. -/
namespace Sys2Proof.Machine

/-! ## Flits (20 R417) -/

/-- One bit of the CRC-64/ECMA-182 register. -/
def crcBit (c : Nat) : Nat := if bitOf c 63 then (2 * c % 2 ^ 64) ^^^ 0x42F0E1EBA9EA3693 else 2 * c
/-- One byte. -/
def crcByte (c b : Nat) : Nat := crcBit (crcBit (crcBit (crcBit (crcBit (crcBit (crcBit (crcBit (c ^^^ (b * 2 ^ 56)))))))))
/-- The CRC of the low `n` bytes of a number, from byte 0. -/
def crc64 (x n : Nat) : Nat := (List.range n).foldl (fun c k => crcByte c (bits x (8 * k) 8)) 0
/-- `SEQ` of a flit. -/
def flitSeq (f : Nat) : Nat := bits f 0 16
/-- `FK` of a flit. -/
def flitKind (f : Nat) : Nat := bits f 40 8
/-- The fifteen 16-byte units of a flit's payload. -/
def flitUnits (f : Nat) : List Nat := (List.range 15).map fun k => bits f (64 + 128 * k) 128
/-- Whether a flit's CRC holds. -/
def flitOk (f : Nat) : Bool := bits f 1984 64 == crc64 f 248
/-- `CRED` of a flit. -/
def flitCredits (f : Nat) : Nat := bits f 32 8
/-- A flit. -/
def mkFlit (seq ack cred kind : Nat) (units : List Nat) : Nat :=
  let body := seq % 2 ^ 16 + ack % 2 ^ 16 * 2 ^ 16 + cred % 2 ^ 8 * 2 ^ 32 + kind * 2 ^ 40 + packElts 128 (units.take 15) * 2 ^ 64
  body + crc64 body 248 * 2 ^ 1984

/-- The link of a port. -/
def State.linkOf (s : State) (port : Nat) : Link := if port = 12 then s.ksl else s.peer port
/-- The state with it replaced. -/
def State.setLinkOf (s : State) (port : Nat) (l : Link) : State := if port = 12 then { s with ksl := l } else s.setPeer port l

/-- The 16-byte units of a transaction: header, then data. -/
def Transaction.units (t : Transaction) : List Nat :=
  t.header :: (List.range ((t.data.length + 15) / 16)).map fun k => natOf ((t.data.drop (16 * k)).take 16)

/-- The flit with a sequence number that a link sends next, returning a credit for each data flit taken in (20 R417, assumption 87), and the
link that has returned them. -/
def Link.flit (l : Link) (seq kind : Nat) (units : List Nat) : Nat × Link :=
  let n := Nat.min l.owed 255
  (mkFlit seq (l.rxSeq + 2 ^ 16 - 1) n kind units, { l with owed := l.owed - n })
/-- `n` flits packed from units, back to back (20 R419). -/
def Link.pack (l : Link) : Nat → List Nat → Link
  | 0, _ => l
  | n + 1, u =>
    let f := l.flit l.txSeq 0 u
    Link.pack { f.2 with txSeq := (l.txSeq + 1) % 2 ^ 16, replay := (l.replay ++ [f.1]).drop (l.replay.length - 63), sent := l.sent ++ [f.1] }
      n (u.drop 15)
/-- The writes to host memory among transactions that go into flits from a sequence number on, each under that of the flit that ends it; `n` units
stand before them. -/
def writesIn (seq n : Nat) : List Transaction → List (Nat × Transaction)
  | [] => []
  | t :: r =>
    let e := n + t.units.length
    (if t.old.isSome then [((seq + (e - 1) / 15) % 2 ^ 16, t)] else []) ++ writesIn seq e r
/-- The queued transactions of a link sent as flits; they are held unless the link is up (20 R418). -/
def Link.flush (l : Link) : Link :=
  if l.phase = .up then
    let u := l.out.flatMap Transaction.units
    let k := (u.length + 14) / 15
    Link.pack { l with
      out := []
      writes := (l.writes ++ writesIn l.txSeq 0 l.out).filter fun w => decide ((l.txSeq + k + 2 ^ 16 - w.1) % 2 ^ 16 ≤ 64) } k u
  else l
/-- What is queued on a peer port raises its link and waits for the wake (20 R426), then goes out. -/
def State.flushPeer (s : State) (port : Nat) : State :=
  let l := s.peer port
  if l.out.isEmpty ∨ l.phase ≠ .up then s
  else
    let s1 := s.touchLink (.peer port)
    if s1.linkHolds (.peer port) then s1 else s1.setPeer port l.flush
/-- Every link sends what is queued. -/
def State.flushLinks (s : State) : State :=
  (s.peers.map (·.1)).foldl State.flushPeer { s with ksl := s.ksl.flush }

/-- The data units that follow a header: none for a read request (assumption 32). -/
def unitsAfter (h : Nat) : Nat := if bits h 0 8 = 2 then 0 else bits h 40 8
/-- Whole transactions at the front of a list of units, and the units left over. -/
def cutTransactions : Nat → List Nat → List Transaction × List Nat
  | 0, u => ([], u)
  | _ + 1, [] => ([], [])
  | n + 1, h :: r =>
    if r.length < unitsAfter h then ([], h :: r)
    else
      let t : Transaction := { header := h, data := (r.take (unitsAfter h)).flatMap fun x => bytesOf 16 x }
      let k := cutTransactions n (r.drop (unitsAfter h))
      (t :: k.1, k.2)

/-! ## What a transaction makes the device do (20 R420) -/

/-- A management request with its code of 20 R429. -/
def mgmtCode : Instr → Option (Nat × MgmtSrc)
  | .mgmtPartition q _ _ _ _ => some (1, q)
  | .mgmtQueueConfiguration q _ _ _ => some (2, q)
  | .mgmtWindow q _ _ _ _ _ _ => some (3, q)
  | .mgmtPreempt q _ _ => some (4, q)
  | .mgmtSwap q _ _ => some (5, q)
  | .mgmtArmNode q _ _ => some (6, q)
  | .mgmtHold q _ => some (7, q)
  | .mgmtThreshold q _ => some (8, q)
  | .mgmtCap q _ _ => some (9, q)
  | .mgmtPool q _ _ => some (10, q)
  | .mgmtAttest q _ => some (11, q)
  | .mgmtStatus q => some (12, q)
  | .mgmtLaunchEnvironment q _ _ => some (13, q)
  | _ => none

/-- Whether an interface may make management requests: the managing one (20 R427), where it is not disabled (20 R424). -/
def State.manages (s : State) (vi : Nat) : Bool := vi == s.mgmt.managing && (s.vis.get vi {}).part.isSome
/-- What an MREQ starts: the request that its data make under the layout that the manual leaves open, or the answer to one that makes
none: `STAT` 5 from an interface that does not manage or is disabled, 1 for an unknown code, else 5 (20 R424, R427, R429). -/
def State.requestStep (s : State) (t : Transaction) : State × List Instr :=
  let vi := bits t.header 32 6
  let tag : BitVec 16 := BitVec.ofNat 16 (bits t.header 48 16)
  let code := bits t.header 8 8
  let no (st : Nat) : State × List Instr := (s.reply 0x31 code st vi tag.toNat 0 [], [])
  if s.manages vi = false then no 5
  else if code = 0 ∨ 13 < code then no 1
  else
    match Config.request vi tag code (bits t.header 64 64) t.data with
    | some i => if mgmtCode i = some (code, .link (BitVec.ofNat 6 vi) tag) then (s, [i]) else no 5
    | none => no 5

/-- What a received transaction of the host starts: a step, or an answer at once. -/
def State.hostStep (s : State) (t : Transaction) : State × List Instr :=
  let h := t.header
  let vi := bits h 32 6
  let tag : BitVec 16 := BitVec.ofNat 16 (bits h 48 16)
  let addr : Word := BitVec.ofNat 64 (bits h 64 64)
  let go (i : Instr) : State × List Instr := (s, [i])
  match bits h 0 8 with
  | 0x00 => (s, [])
  | 0x01 => go (.hwr vi tag addr t.data)
  | 0x02 => go (.hrd vi tag addr (16 * bits h 40 8))
  | 0x03 => go (.cpl tag (BitVec.ofNat 8 (bits h 24 8)) t.data)
  | 0x10 => go (.lmsg vi tag addr)
  | 0x20 => go (.migreq vi tag addr)
  | 0x30 => s.requestStep t
  | _ => (s.reply 3 0 1 vi tag.toNat addr.toNat [], [])
/-- What a transaction of a peer port starts; every other `TYPE` is discarded (20 R425). -/
def State.peerStep (s : State) (port : Nat) (t : Transaction) : State × List Instr :=
  match bits t.header 0 8 with
  | 0x40 => (s, [.rtok port (BitVec.ofNat 16 (bits t.header 48 16)) (bits t.header 24 8 != 0) t.data])
  | 0x30 => s.requestStep t
  | _ => (s, [])

/-! ## Receiving (20 R418) -/

/-- A request for the first missing flit. -/
def Link.askRetry (l : Link) : Link :=
  let f := l.flit l.rxSeq 2 []
  { f.2 with sent := l.sent ++ [f.1] }
/-- A data flit whose transactions start their steps, in order, before any later input. -/
def State.takeFlit (s : State) (port : Nat) (f : Nat) : State :=
  let l := s.linkOf port
  let u := l.partialUnits ++ flitUnits f
  let c := cutTransactions (u.length + 1) u
  let s1 := s.setLinkOf port { l with rxSeq := (l.rxSeq + 1) % 2 ^ 16, owed := l.owed + 1, credits := l.credits + flitCredits f, partialUnits := c.2 }
  let r := c.1.foldl (fun (t : State × List Instr) x =>
    let y := if port = 12 then t.1.hostStep x else t.1.peerStep port x
    (y.1, t.2 ++ y.2)) (s1, [])
  { r.1 with agenda := r.2 ++ r.1.agenda }

/-- Retraining starts, with the first flit that the other side lacks. What was queued before has been performed and goes into flits, which are
replayed; what comes later is held. -/
def Link.retrain (l : Link) (seq : Nat) : Link := { l.flush with phase := .retraining, fails := 0, lostFrom := seq }
/-- The sender replays its last flits from `seq` onward; when eight replays of one flit have failed in a row the link retrains. -/
def Link.retry (l : Link) (seq : Nat) : Link :=
  if l.phase ≠ .up then l
  else if l.failSeq = seq ∧ 8 ≤ l.fails then l.retrain seq
  else
    { l with failSeq := seq, fails := if l.failSeq = seq then l.fails + 1 else 1
             sent := l.sent ++ l.replay.dropWhile fun f => flitSeq f != seq }

/-- The state in which a flit has come in: a peer port's link is awake (20 R426). -/
def State.arrived (s : State) (port : Nat) : State := if port = 12 then s else s.carried port
/-- KSL_FLIT_RECEIVE: a flit whose CRC fails is dropped and asked for again; a data flit in order delivers its transactions, one out of
order is asked for, and one already received is dropped; a retry request is answered, and a retrain flit starts retraining. -/
def execKslFlitReceive (port : Nat) (flit : Nat) (s0 : State) : Host.Outcome State Fault Refusal :=
  let s := s0.arrived port
  let l := s.linkOf port
  if l.phase ≠ .up then .next s
  else if flitOk flit = false then .next (s.setLinkOf port l.askRetry)
  else
    match flitKind flit with
    | 0 =>
      if flitSeq flit = l.rxSeq then .next (s.takeFlit port flit)
      else if (flitSeq flit + 2 ^ 16 - l.rxSeq) % 2 ^ 16 < 2 ^ 15 then .next (s.setLinkOf port l.askRetry)
      else .next s
    | 2 => .next (s.setLinkOf port ({ l with credits := l.credits + flitCredits flit }.retry (flitSeq flit)))
    | 3 => .next (s.setLinkOf port (l.retrain l.txSeq))
    | _ => .next (s.setLinkOf port { l with credits := l.credits + flitCredits flit })

/-- KSL_RETRY_REQUEST: the receiver names the first flit missing. The request has found a peer port's link awake, and the replay goes out on
it (20 R426). -/
def execKslRetryRequest (port : Nat) (seq : BitVec 16) (s0 : State) : Host.Outcome State Fault Refusal :=
  let s := s0.arrived port
  .next (s.setLinkOf port ((s.linkOf port).retry seq.toNat))

/-- The threads that a retraining link held issue again, where it is down those too whose completion it does not bring, and the host's transactions that waited are performed. -/
def State.releaseLink (s : State) : State :=
  (s.threadIds.foldl (fun t h =>
    let th := t.getTh h
    match th.status with
    | .parked (.link _) => t.setTh h { th with status := .issuing }
    | .parked (.reply _ _) => if t.ksl.phase = .down then t.setTh h { th with status := .issuing } else t
    | _ => t) s).releaseHost
/-- The threads whose access to host memory, a read or not, a retraining link holds. -/
def State.heldBy (s : State) (read : Bool) : Nat :=
  (s.threadIds.filter fun h => (s.getTh h).status == .parked (.link read)).length
/-- Whether a retraining link alone holds the next strip of a channel, which reads host memory. -/
def State.stripHeld (s : State) (core ch : Nat) : Bool :=
  (s.stripReady core ch).isNone &&
    match ({ s with ksl := { s.ksl with phase := .up } } : State).stripReady core ch with
    | some (_, x, _) => x.akind != .write
    | none => false
/-- Whether an access is a read that the link holds. -/
def AErr.onLink : AErr → Bool
  | .wait (.link true) => true
  | _ => false
/-- The reads of the hub die that a retraining link holds: those of the launch unit, of the nodes, of threads and launches that end, and
of the host's messages. -/
def State.hubHeld (s : State) : Nat :=
  ((s.parts.flatMap fun p => (s.headLaunches p.1).flatMap (s.headWaits p.1))
    ++ (s.nodes.filterMap fun n => if n.2.state = .armed then s.nodeWait n.2 else none)
    ++ (s.threadIds.filterMap fun h =>
      if (s.getTh h).status = .ending true ∨ (s.getTh h).status = .stopped then s.settleWait h else none)
    ++ s.launches.filterMap fun l => if s.launchOver l.1 then s.completeWait l.1 else none).countP AErr.onLink
    + s.ksl.inbox.countP fun t => bits t.header 0 8 != 0x20 && bits t.header 0 8 != 1
/-- The reads of host memory that a retraining link holds, or whose completion it does not bring. -/
def State.readsHeld (s : State) : Nat :=
  s.outstanding.length + s.heldBy true + ((s.cores.flatMap fun k => k.2.channels.map fun c => (k.1, c.1)).countP fun x => s.stripHeld x.1 x.2) + s.hubHeld
/-- How many writes a retraining link holds. -/
def Link.heldWrites (l : Link) : Nat := (l.held.filter fun w => w.2.isSome).length
/-- The writes that a retraining link held, performed in host memory in their order. -/
def State.performHeld (s : State) : State :=
  s.ksl.held.foldl (fun t w =>
    match w.2 with
    | some x => t.put (.hostmem w.1) x.1 x.2
    | none => t.poisonAt (.hostmem w.1)) { s with ksl := { s.ksl with held := [], words := [] } }

/-- The writes to host memory that the other side has not received when a retraining link goes down, in the order in which they were sent. -/
def Link.undelivered (l : Link) : List Transaction :=
  (l.writes.filter fun w => decide ((w.1 + 2 ^ 16 - l.lostFrom) % 2 ^ 16 < 2 ^ 15)).map (·.2)
/-- Such a write undone, where nothing has written its bytes since. -/
def State.undoWrite (s : State) (t : Transaction) : State :=
  let a := bits t.header 64 64
  match t.old with
  | some x => if s.host.load a x.1 = natOf (t.data.take x.1) then { s with host := s.host.store a x.1 x.2 } else s
  | none => s
/-- KSL_LINK_DOWN: the link was not retrained in time. Writes still held or not received are dropped, held completion words among them, and reads
complete as poisoned when their instructions run again; the controller reports both (15 R330, 20 R418). A peer port's capability falls to none (20 R425, 19 R412) and the nodes that use it fail. -/
def execKslLinkDown (port : Nat) (s : State) : Host.Outcome State Fault Refusal :=
  let l := s.linkOf port
  if l.phase ≠ .retraining then .next s
  else
    let s1 := s.setLinkOf port { l with phase := .down, out := [], partialUnits := [] }
    if port = 12 then
      let s2 := l.undelivered.foldr (fun t u => State.undoWrite u t) s1
      .next ({ s2 with
        outstanding := []
        answers := []
        ksl := { s1.ksl with held := [], words := [], writes := [] }
        mgmt := { s1.mgmt with
          drops := s1.mgmt.drops + l.heldWrites + l.undelivered.length
          undelivered := s1.mgmt.undelivered ++ l.words
          poisonedReads := s1.mgmt.poisonedReads + s.readsHeld } }).releaseLink
    else .next { s1 with rmap := { s1.rmap with ports := s1.rmap.ports.set port 0, pending := true } }

/-- LINK_RETRAIN_COMPLETE: held traffic goes out and held accesses go on. -/
def execLinkRetrainComplete (port : Nat) (s : State) : Host.Outcome State Fault Refusal :=
  let l := s.linkOf port
  if l.phase ≠ .retraining then .next s
  else
    let s1 := s.setLinkOf port { l with phase := .up }
    .next (if port = 12 then { s1.performHeld with ksl := s1.performHeld.ksl.flush }.releaseLink else s1.flushPeer port)

/-! ## Host accesses (20 R421, R423) -/

/-- The window of an interface that holds a bus offset. -/
def VI.windowAt (v : VI) (a : Nat) : Option Window :=
  (v.windows.find? fun w => decide (w.2.hostBase ≤ a) && decide (a < w.2.hostBase + w.2.len)).map (·.2)
/-- The largest of 8, 4, 2 and 1 that divides an address and is not above a length. -/
def pieceSize (a n : Nat) : Nat :=
  if a % 8 = 0 ∧ 8 ≤ n then 8 else if a % 4 = 0 ∧ 4 ≤ n then 4 else if a % 2 = 0 ∧ 2 ≤ n then 2 else 1
/-- The pieces of at most 8 bytes of [a, a+n), naturally aligned in space 0 (11 R278): bus offsets with sizes. -/
def VI.pieces (v : VI) : Nat → Nat → Nat → List (Nat × Nat)
  | 0, _, _ => []
  | fuel + 1, a, n =>
    if n = 0 then []
    else
      let k := match v.windowAt a with
        | some w => pieceSize (w.vbase + (a - w.hostBase)) (Nat.min n (w.hostBase + w.len - a))
        | none => 1
      (a, k) :: v.pieces fuel (a + k) (n - k)

/-- Where a host access lands: the window that holds the bus offset, the walk under the window's identifier, and the leaf's `W`. -/
def State.hostAt (s : State) (vi : Nat) (part a n : Nat) (k : AKind) : Except AErr Loc :=
  let v := s.vis.get vi {}
  match v.windowAt a with
  | none => .error (.page 0 0)
  | some w =>
    let root : Word := BitVec.ofNat 64 (bits v.env.root.toNat 0 40 + w.asid % 2 ^ 16 * 2 ^ 40)
    s.hubLocFor false part root (w.vbase + (a - w.hostBase)) n k
/-- That location, or the `STAT` that ends the access. -/
def State.hostLoc (s : State) (vi : Nat) (part a n : Nat) (k : AKind) : Except Nat Loc :=
  match s.hostAt vi part a n k with
  | .ok l => .ok l
  | .error .prot => .error 3
  | .error _ => .error 2

/-- The pieces of a host write, one after another; the first that cannot be performed ends the access. -/
def State.hostWrite (s : State) (vi part : Nat) : List (Nat × Nat) → List Byte → Except (Nat × State) State
  | [], _ => .ok s
  | p :: r, b =>
    match s.hostLoc vi part p.1 p.2 .write with
    | .error st => .error (st, s)
    | .ok l => (s.hubPut part l p.2 (natOf (b.take p.2))).hostWrite vi part r (b.drop p.2)

/-- The pieces of a host read: the bytes with `STAT` 0, zero data with `STAT` 4 where a piece is poisoned, or the `STAT` that ends the
access. -/
def State.hostRead (s : State) (vi part : Nat) : List (Nat × Nat) → Nat × List Byte
  | [] => (0, [])
  | p :: r =>
    match s.hostLoc vi part p.1 p.2 .read with
    | .error st => (st, [])
    | .ok l =>
      let t := s.hostRead vi part r
      if t.1 = 2 ∨ t.1 = 3 then t
      else if s.poisonedLoc l p.2 ∨ t.1 = 4 then (4, List.replicate (p.2 + t.2.length) 0)
      else (0, bytesOf p.2 (s.readLoc l p.2) ++ t.2)

/-- HWR: a host write through a window; only one that fails is answered (20 R423, R424). Behind a transaction of its interface that waits it
waits too (20 R421). -/
def execHwr (vi : Nat) (tag : BitVec 16) (addr : Word) (data : List Byte) (s : State) : Host.Outcome State Fault Refusal :=
  match (s.vis.get vi {}).part with
  | none => .next (s.reply 3 0 5 vi tag.toNat addr.toNat [])
  | some part =>
    if s.hostBehind vi then .next (s.holdHost (mkTransaction 1 0 0 vi tag.toNat addr.toNat data))
    else
      match s.hostWrite vi part ((s.vis.get vi {}).pieces data.length addr.toNat data.length) data with
      | .ok s1 => .next s1
      | .error (st, s1) => .next (s1.reply 3 0 st vi tag.toNat addr.toNat [])

/-- Whether a host read waits: behind another transaction of its interface, or for a retraining link (20 R418, R421). -/
def State.hostWaits (s : State) (vi part : Nat) (l : List (Nat × Nat)) : Bool :=
  s.hostBehind vi || l.any fun p =>
    match s.hostAt vi part p.1 p.2 .read with
    | .error e => e.waits
    | .ok _ => false
/-- What the pieces of a host access that wait ask of the host (20 R420). -/
def State.hostAsks (s : State) (vi part : Nat) (l : List (Nat × Nat)) : State :=
  l.foldl (fun t p => match t.hostAt vi part p.1 p.2 .read with
    | .error e => t.hubAsk part e
    | .ok _ => t) s
/-- The DRDs of a host read of pages that are in host memory. -/
def State.hostNotes (s : State) (vi part : Nat) (l : List (Nat × Nat)) : State :=
  l.foldl (fun t p => match t.hostAt vi part p.1 p.2 .read with
    | .ok k => t.hubNote part 4 0 k (List.replicate p.2 0)
    | .error _ => t) s
/-- HRD: a host read through a window, answered by a completion (20 R423, R424); one that waits is kept. -/
def execHrd (vi : Nat) (tag : BitVec 16) (addr : Word) (len : Nat) (s : State) : Host.Outcome State Fault Refusal :=
  match (s.vis.get vi {}).part with
  | none => .next (s.reply 3 0 5 vi tag.toNat addr.toNat [])
  | some part =>
    let ps := (s.vis.get vi {}).pieces len addr.toNat len
    let r := s.hostRead vi part ps
    if s.hostWaits vi part ps then .next ((s.hostAsks vi part ps).holdHost { header := 2 + vi * 2 ^ 32 + len / 16 % 256 * 2 ^ 40 + tag.toNat * 2 ^ 48 + addr.toNat * 2 ^ 64 })
    else .next ((if r.1 = 2 ∨ r.1 = 3 then s else s.hostNotes vi part ps).reply 3 0 r.1 vi tag.toNat addr.toNat r.2)

/-- The host's own write of an 8-byte piece of its memory, or its refusal of that piece, seen by every party at one moment (11 R287) and forked
to the new frame of a migrating page (13 R313). -/
def State.hostChange (s : State) (p : Nat) (v : Option Nat) : State :=
  let l := Loc.hostmem p
  let s1 := { s with tags := s.tags.filter fun t => !t.on l }
  let s2 :=
    match v with
    | some x => { s1 with host := s1.host.store p 8 x, hostPoison := clearPoison s1.hostPoison p 8 }
    | none => { s1 with hostPoison := addPoison s1.hostPoison (p / 8) }
  match s.forkOf l, v with
  | some k, some x => s2.putBreak k 8 x
  | some k, none => s2.poisonAt k
  | none, _ => s2
/-- The next of the host's own changes (assumption 9). -/
def State.takeNews (s : State) : State :=
  match s.hostNews with
  | [] => s
  | none :: r => { s with hostNews := r }
  | some (a, v) :: r => ({ s with hostNews := r } : State).hostChange (a % 2 ^ 52 / 8 * 8) v

/-- A thread that waits for a completion reads on. -/
def State.releaseReply (s : State) (h : Nat) : State :=
  match (s.getTh h).status with
  | .parked (.reply _ _) => s.setTh h { s.getTh h with status := .issuing }
  | _ => s
/-- CPL: the completion of a read retires its tag and brings the bytes as the host has read them; what the device or the host has written there
since stands. With a nonzero `STAT` the host has not performed the read, whose pieces are poisoned, so that its consumer takes POISON (06 R177).
The thread reads on, and so does what waits at the hub. A DATM is performed with its DWR's place in the order, and its completion brings nothing
more (assumption 9). -/
def execCpl (tag : BitVec 16) (stat : BitVec 8) (data : List Byte) (s : State) : Host.Outcome State Fault Refusal :=
  .next (
    match s.outstanding.find? fun p => p.tag == tag.toNat with
    | none => s
    | some p =>
      let s1 := { s with outstanding := s.outstanding.erase p, answers := s.answers ++ (piecesOf p.addr p.n).map fun k => (p.agent, k) }
      let s2 :=
        if stat ≠ 0 then (piecesOf p.addr p.n).foldl (fun t k => t.hostChange (8 * k) none) s1
        else if s.host.load p.addr p.n = p.old ∧ natOf (data.take p.n) ≠ p.old then
          (List.range (p.n / 8)).foldl (fun t k => t.hostChange (p.addr + 8 * k) (some (natOf ((data.drop (8 * k)).take 8)))) s1
        else s1
      (s2.releaseReply p.agent).releaseHost)

end Sys2Proof.Machine
end

