-- ==== Sys2Proof/Machine/ResMap.lean ====
section
/-! DEFINITION. Errors and the resource map: corrected and uncorrectable errors, withdrawal, the view and its versions, delivery,
and the asynchronous causes of a thread (17 R363, 19 R376 to R389, R406 to R416, 20 R434). -/
namespace Sys2Proof.Machine

/-! ## Asynchronous causes (19 R376, R377, R382, R389) -/

/-- Whether the thread has just returned with RMSUSP pending, which is taken at once (19 R416). -/
def Thread.returned (t : Thread) : Bool := bitOf t.spend 3 && (t.cv.map (·.resumed)).getD false
/-- Whether an asynchronous cause is taken now: between instructions and convoys, at a resumption that has not issued, where a memory
instruction has stopped within itself, in IDLE, at the exit while a RUN or a transfer is awaited, and while parked, except in TLBSYNC (19
R389, 09 R258, assumption 10); a CHBRK whose finish goes on completes first, but for RMSUSP at a return (19 R416). -/
def Thread.boundary (t : Thread) : Bool :=
  match t.status with
  | .issuing => (!t.breaking || t.returned) && (match t.cv with | none => true | some c => c.resumed || c.part.isSome)
  | .parked .tlbsync => false
  | .parked _ => true
  | .idle => true
  | .ending false => true
  | _ => false

/-- The pending cause that is taken first: the highest bit of spend, then the faults of stream transfers; with the thread without it. -/
def Thread.nextCause (t : Thread) : Option (Trap × Thread) :=
  let clear (b : Nat) : Thread := { t with spend := setBit t.spend b false }
  let mk (c v : Nat) : Trap := { cause := c, tval := BitVec.ofNat 64 v, async := true }
  if bitOf t.spend 5 then some (mk Cause.poweremerg t.shed, clear 5)
  else if bitOf t.spend 4 then
    some (mk Cause.uncorr (t.uncorrs.headD 0),
      { t with spend := setBit t.spend 4 (decide (1 < t.uncorrs.length)), uncorrs := t.uncorrs.drop 1, uncorr := true })
  else if bitOf t.spend 3 then some (mk Cause.rmsusp t.rmvCur, clear 3)
  else if bitOf t.spend 2 then some (mk Cause.rmchange t.rmvCur, clear 2)
  else if bitOf t.spend 1 then some (mk Cause.preempt 0, clear 1)
  else
    match t.chbreaks with
    | c :: r =>
      some ({ mk Cause.chbreak c.2 with det := c.1 }, { t with spend := setBit t.spend 0 (!r.isEmpty), chbreaks := r })
    | [] =>
      match t.streamFaults with
      | f :: r =>
        some (if f.prot then { mk Cause.prot f.addr with elem := f.elem }
              else { mk Cause.pagebatch t.fbarea.toNat with det := f.records.length, elem := f.elem, records := f.records },
          { t with streamFaults := r })
      | [] => none

/-- A CHCFG of the current thread that waits for a claimant place leaves every claimant queue when it is interrupted (19 R389). -/
def State.leaveWaiting (s : State) : State :=
  match s.th.status with
  | .parked (.chcfgClaim k _ _ _) => s.leaveClaims (s.cur, k.toNat)
  | _ => s
/-- TAKE_ASYNC_CAUSE: the pending cause of highest priority is taken at the boundary, a memory instruction that has started being stopped
where it stands (06 R175), and a SETVLW that waits undone, to re-execute in full (05 R142); PREEMPT breaks every running chain, which drains (19 R389, R398), and the PROT of a transfer abandons it
(13 R295). -/
def execTakeAsyncCause (h : Nat) (s : State) : Host.Outcome State Fault Refusal :=
  let s0 := s.switchTo h
  if s0.th.boundary && s0.th.asyncReady then
    let s1 := match s0.th.old with
      | some x => s0.setvlwUndo x
      | none => s0.stopStarted.leaveWaiting
    match s1.th.nextCause with
    | none => .next s
    | some (c, t) =>
      let s2 := { s1 with th := t }
      let s3 :=
        if c.cause = Cause.preempt then s2.breakAll h
        else if c.cause = Cause.prot then (s1.th.streamFaults.head?.map s2.abandon).getD s2
        else s2
      .next ((s3.takeTrap c).switchTo s.cur)
  else .next s

/-- RMGRACE_EXPIRE: the grace has run out with a version still unacknowledged, and RMSUSP is posted (19 R416). The retirement of the last
convoy of the grace makes it the very next step. -/
def execRmgraceExpire (h : Nat) (s : State) : Host.Outcome State Fault Refusal :=
  let t := s.getTh h
  .next (if t.rmDue then (s.setTh h { t with rmDue := false }).post h 3 else s)

/-! ## The view (19 R409 to R411) -/

/-- The lane link capability of a physical core, none on the grid's outer edge (00 R3). -/
def State.linkCap (s : State) (n : Nat) : Nat :=
  let l := (s.phys n).links
  let c := n / 9
  let pres := s.presOf n
  let edge (p : Nat → Bool) : Bool := match pres with | some k => p k | none => false
  (if edge fun k => k % 32 == 31 then 0 else bits l 0 2) + 4 * (if edge fun k => k % 32 == 0 then 0 else bits l 2 2)
    + 16 * (if c / 4 = 0 then 0 else bits l 4 2) + 64 * (if c / 4 = 9 then 0 else bits l 6 2)
/-- A core record. -/
def State.coreRecord (s : State) (n : Nat) : Nat :=
  let p := s.phys n
  let pres := (s.presOf n).getD 0xFFFF
  let mu := pres != 0xFFFF && !s.rmap.deadUnits.contains (pres / 2)
  bits p.lg 0 9 + s.linkCap n * 2 ^ 16 + mu.toNat * 2 ^ 24 + p.st * 2 ^ 32 + pres * 2 ^ 48 + p.banks % 2 ^ 64 * 2 ^ 64
    + p.cerr % 2 ^ 32 * 2 ^ 128
/-- A cluster record, and whether the cluster is in the partition of the view (19 R410, R411). -/
def State.clusterRecord (s : State) (c : Nat) (pin : Bool) : Nat :=
  (s.livePos c).length + pin.toNat * 2 ^ 32 + s.rmap.clk.get c 2500 % 2 ^ 16 * 2 ^ 48
/-- An HBM stack record: its live channels and capacity. -/
def State.hbmRecord (s : State) (k : Nat) : Nat :=
  let m := s.rmap.hbm.get k 0xFFFFFFFF
  let live := ((List.range 32).filter (bitOf m)).length
  m % 2 ^ 32 + live * 48 / 32 * 2 ^ 32
/-- A bank of a partition's view, as bytes of a number: its length is 0x31E0 (19 R410). -/
def State.bankImage (s : State) (part ver : Nat) : Nat :=
  let cl := (s.parts.get part {}).clusters
  let at_ (off x : Nat) : Nat := x * 2 ^ (8 * off)
  ver + ((List.range 40).map fun c => at_ (0x40 + 16 * c) (s.clusterRecord c (cl.contains c))).sum
    + ((cl.flatMap fun c => (List.range 9).map (9 * c + ·)).map fun n => at_ (0x300 + 32 * n) (s.coreRecord n)).sum
    + ((List.range 10).map fun d => at_ (0x3000 + 8 * d) (s.rmap.boundaries.get d 2)).sum
    + ((List.range 16).map fun k => at_ (0x3080 + 16 * k) (s.hbmRecord k)).sum
    + ((List.range 12).map fun k => at_ (0x3180 + 8 * k) (s.rmap.ports.get k 2)).sum
/-- `n` dwords written by the management controller. -/
def State.putDwords (s : State) (a : Nat) : Nat → Nat → State
  | 0, _ => s
  | n + 1, x => (s.storeLoc (.dev a) 8 (x % 2 ^ 64)).putDwords (a + 8) n (x / 2 ^ 64)
/-- A version written to a partition's view: the bank that `SEL` does not name, then the header (19 R413). -/
def State.writeView (s : State) (part ver : Nat) (sel : Bool) : State :=
  let base := viewBase part
  let s1 := s.putDwords (base + (if sel then 0x20000 else 0x10000)) 1596 (s.bankImage part ver)
  s1.putDwords base 8 (0x4D524B4A + 2 ^ 32 + part * 2 ^ 48 + ver * 2 ^ 64 + sel.toNat * 2 ^ 96 + 0x31E0 * 2 ^ 128)

/-! ## Withdrawal (19 R406, 17 R363) -/

/-- The running chains that a test on their frames selects break. -/
def State.breakWhere (s : State) (p : Frame → Bool) : State :=
  s.threadIds.foldl (fun t h => (t.getTh h).slots.foldl (fun u k => if k.2.frames.any p then u.breakChain (h, k.1) else u) t) s

/-- Whether the spare lane group of a core is still unconsumed. -/
def State.spareLg (s : State) (n : Nat) : Bool :=
  !bitOf (s.phys n).lg 8 && !(s.rmap.withdrawn.any fun u => match u with | .laneGroup k _ => k == n | _ => false)
/-- The record of a physical core replaced. -/
def State.setPhys (s : State) (n : Nat) (p : PhysCore) : State := { s with rmap := { s.rmap with phys := s.rmap.phys.set n p } }

/-- Whether a frame uses a lane group of a core: a vector stage, or a port through its slice (02 R61, R67). -/
def Frame.onLane (f : Frame) (core lg : Nat) : Bool := (f.isVecStage || f.isPort) && f.core == core && f.lg == lg
/-- The number under which a physical core serves: its presented number, or that of a withdrawn core that still has residents. -/
def State.servesAs (s : State) (n : Nat) : Option Nat :=
  match s.presOf n with
  | some c => some c
  | none => if (s.cores.look (1000 + n)).isSome then some (1000 + n) else none
/-- A lane group withdrawn: the spare is promoted, a free one is dead, a bake that names it breaks, and a thread that holds it keeps it
until its next grant. -/
def State.dropLane (s : State) (n lg : Nat) : State :=
  let p := s.phys n
  let spare := s.spareLg n
  let s1 := s.setPhys n { p with lg := if spare then setBit (setBit p.lg lg false) 8 true else setBit p.lg lg false }
  match s.servesAs n with
  | none => s1
  | some c =>
    let s2 := if s1.laneOwner c lg = .free then s1.setLane c lg .dead else s1
    let s3 := if spare ∧ s2.laneOwner c 8 = .dead then s2.setLane c 8 .free else s2
    (s3.breakWhere fun f => f.onLane c lg).shares (s3.getCore c).gangFirst

/-- Every reference to a presented core under a renumbering (17 R363, 19 R412). -/
def State.renumber (s : State) (r : Nat → Nat) : State :=
  let rh (h : Nat) : Nat := 4 * r (h / 4) + h % 4
  let ch (c : Nat × Nat) : Nat × Nat := (rh c.1, c.2)
  let core (k : Core) : Core :=
    { k with
      gangFirst := r k.gangFirst
      queues := k.queues.map fun q => (q.1, { q.2 with prod := q.2.prod.map ch, cons := q.2.cons.map ch })
      channels := k.channels.map fun c => (c.1, { c.2 with owner := c.2.owner.map rh })
      rings := k.rings.map fun x => (x.1, { x.2 with owner := rh x.2.owner })
      allocs := k.allocs.map fun a => (a.1, { a.2 with claims := a.2.claims.map fun q => (q.1, q.2.map ch), waiting := a.2.waiting.map fun q => (q.1, q.2.map ch) }) }
  let loc (l : Loc) : Loc :=
    match l with
    | .tile c g o => .tile (r c) g o
    | x => x
  let thread (t0 : Thread) : Thread :=
    let t := t0.mapLocs loc
    { t with
      slots := t.slots.map fun x => (x.1, { x.2 with
        kept := x.2.kept.map fun q => (r q.1, q.2)
        frames := x.2.frames.map fun f => { f with core := r f.core, outCore := r f.outCore }
        handed := x.2.handed.map fun b => 256 * r (b / 256) + b % 256 }) }
  let lnk (l : LinkRef) : LinkRef :=
    match l with
    | .lane c d => .lane (r c) d
    | x => x
  { s with
    cur := rh s.cur
    th := thread s.th
    others := s.others.foldl (fun m x => SMap.set m (rh x.1) (thread x.2)) []
    cores := s.cores.foldl (fun m x => SMap.set m (r x.1) (core x.2)) []
    groups := s.groups.map fun g => (g.1, { g.2 with firsts := g.2.firsts.map r })
    units := s.units.map fun u => (u.1, { u.2 with
      even := u.2.even.map fun a => { a with h := rh a.h }
      odd := u.2.odd.map fun a => { a with h := rh a.h } })
    tags := s.tags.map fun t => { t with h := rh t.h, tile := t.tile.map fun x => (r x.1, x.2) }
    links := s.links.map fun l => (lnk l.1, l.2)
    migRequests := s.migRequests.map fun q => { q with h := rh q.h }
    outstanding := s.outstanding.map fun q => { q with agent := rh q.agent }
    answers := s.answers.map fun q => (rh q.1, q.2)
    mgmt := { s.mgmt with stopped := s.mgmt.stopped.map rh } }

/-- The resident threads of a group. -/
def State.threadsIn (s : State) (gid : Nat) : List Nat :=
  s.threadIds.filter fun h => (s.getTh h).resident && (s.getTh h).group == gid
/-- The cores of a group. -/
def Group.cores (g : Group) : List Nat := g.firsts.flatMap fun f => (List.range (2 ^ g.gang)).map (f + ·)
/-- A group taken off its cores: its allocations and its threads, whose contexts are saved, are kept with it. -/
def State.swapOut (s : State) (gid : Nat) (g : Group) : State :=
  let hs := s.threadsIn gid
  let unit (h : Nat) : Nat := g.firsts.idxOf (h / 4)
  let g1 := { g with
    swapped := true
    firsts := []
    savedAllocs := g.cores.map fun c => s.alloc c gid
    savedThreads := hs.map fun h => (unit h, h % 4, s.getTh h) }
  let s1 := hs.foldl (fun t h => (t.setTh h {}).releaseLanes h) s
  let s2 := g.cores.foldl (fun t c => t.updCore c fun k => { k with gang := 0, gangFirst := c, allocs := k.allocs.erase gid }) s1
  { s2 with groups := s2.groups.set gid g1
            tags := s2.tags.filter fun t => match t.tile with | some x => x.2 != gid | none => true }
/-- The gangs that a withdrawal reaches are taken off their cores, whose numbers no longer run on from one another (09 R238): their
threads are saved, and a swap request places them again. -/
def State.dropGangs (s : State) (cores : List Nat) : State :=
  (s.groups.filter fun g => g.2.gang != 0 && g.2.cores.any cores.contains).foldl (fun t g =>
    let t1 := (t.threadsIn g.1).foldl (fun u h => ((u.releaseChains h).releaseStreams h).detach h) t
    t1.swapOut g.1 g.2) s
/-- The owners of a core's lane groups when it comes into use: its live ones are free (09 R240). -/
def lanesOf (lg : Nat) : List LaneOwner := (List.range 9).map fun p => if bitOf lg p then .free else .dead
/-- A core withdrawn: chains with a frame on it break, a spare of its cluster is promoted with the lane groups that its record shows live, and the live cores take the ordinals that
the map now gives. The core goes on serving its residents under no presented number. -/
def State.dropCore (s : State) (n : Nat) : State :=
  match s.presOf n with
  | none => s
  | some k =>
    let c := n / 9
    let s0 := s.dropGangs (s.changedBy n)
    let s1 := s0.breakWhere fun f => f.core == k || (f.isSwitch && f.outCore == k)
    let all := (List.range 9).map (9 * c + ·)
    let s2 := (List.range 8).foldl (fun t o => t.updCore (coreAt c o) id) s1
    let s3 := s2.setPhys n { s2.phys n with st := 3 }
    let spare := all.find? fun x => (s3.phys x).st == 1
    let s4 := match spare with
      | some x => s3.setPhys x { s3.phys x with st := 0 }
      | none => s3
    let moves := all.filterMap fun x => (s.presOf x).map fun old => (old, (s4.presOf x).getD (1000 + x))
    let r (old : Nat) : Nat := ((moves.find? fun m => m.1 == old).map (·.2)).getD old
    let s5 := s4.renumber r
    match spare.bind fun x => (s5.presOf x).map fun k => (k, (s5.phys x).lg) with
    | some p => s5.updCore p.1 fun c => { c with lanes := lanesOf p.2 }
    | none => s5

/-- A capability lowered to narrow. -/
def lowerCap (x : Nat) : Nat := Nat.min x 1
/-- A unit withdrawn from the map, with the effect of its kind. -/
def State.withdraw (s : State) (u : UnitRef) : State :=
  let s1 := match u with
    | .laneGroup n lg => s.dropLane n lg
    | .matrixUnit k => { s with rmap := { s.rmap with deadUnits := s.rmap.deadUnits ++ [k] } }
    | .core n => s.dropCore n
    | .tileBank n b => s.setPhys n { s.phys n with banks := setBit (s.phys n).banks b false }
    | .hbmChannel k c => { s with rmap := { s.rmap with hbm := s.rmap.hbm.set k (setBit (s.rmap.hbm.get k 0xFFFFFFFF) c false) } }
    | .laneLink n d => s.setPhys n { s.phys n with links := setBits (s.phys n).links (2 * d) 2 (lowerCap (bits (s.phys n).links (2 * d) 2)) }
    | .dieLink b => { s with rmap := { s.rmap with boundaries := s.rmap.boundaries.set b (lowerCap (s.rmap.boundaries.get b 2)) } }
    | .peerPort p => { s with rmap := { s.rmap with ports := s.rmap.ports.set p (lowerCap (s.rmap.ports.get p 2)) } }
  { s1 with rmap := { s1.rmap with withdrawn := s1.rmap.withdrawn ++ [u] } }

/-! ## The frames of an HBM channel (19 R406, 13 R313, R314) -/

/-- The entries of a page table that memory lists. -/
def State.tableEntries (s : State) (table : Nat) : List Nat :=
  ((s.dram.filter fun c => c.1 / 4096 == table).map fun c => c.1 % 4096 / 8).eraseDups
/-- The leaves and blocks below a table. -/
def State.leavesUnder (s : State) (hostpg : Bool) (asid : Nat) : Nat → Nat → Nat → List Trans
  | 0, va, table => (s.tableEntries table).filterMap fun i =>
      let pa := table * 4096 + 8 * i
      match walkEntry hostpg asid (va + 4096 * i) 0 pa (s.entryAt pa) with
      | .leaf t => some t
      | _ => none
  | l + 1, va, table => (s.tableEntries table).flatMap fun i =>
      let pa := table * 4096 + 8 * i
      let at_ := va + i * 4096 * 512 ^ (l + 1)
      match walkEntry hostpg asid at_ (l + 1) pa (s.entryAt pa) with
      | .leaf t => [t]
      | .table f => s.leavesUnder hostpg asid l at_ f
      | .stop _ => []
/-- The translation roots in use, with their partitions: those of the launch environments and of the resident threads. -/
def State.roots (s : State) : List (Nat × Word) :=
  (s.vis.filterMap (fun v => v.2.part.map fun p => (p, v.2.env.root))
    ++ (s.threadIds.filter fun h => (s.getTh h).resident).map fun h =>
      ((s.launches.get (s.groups.get (s.getTh h).group {}).launch {}).part, (s.getTh h).ptroot)).eraseDups
/-- Every leaf and block of device memory with the partition under which it was found. -/
def State.deviceLeaves (s : State) : List (Nat × Trans) :=
  (s.roots.flatMap fun r =>
    (s.leavesUnder (bitOf (s.parts.get r.1 {}).feat 5) (bits r.2.toNat 40 16) 4 0 (bits r.2.toNat 0 40)).filterMap fun t =>
      if t.host then none else some (r.1, t)).foldl (fun l x => if l.any fun y => y.2.leaf == x.2.leaf then l else l ++ [x]) []
/-- The leaves whose frames the migration unit can move off a channel: level-0 leaves with `SPAN` = 0 (13 R312) that alone map their
frame. -/
def State.movable (s : State) (ch : Nat) : List (Nat × Trans) :=
  let l := s.deviceLeaves
  l.filter fun x => x.2.size == 4096 && channelOf (x.2.pa / 4096) == ch
    && !(l.any fun y => y.2.leaf != x.2.leaf && decide (y.2.pa ≤ x.2.pa) && decide (x.2.pa < y.2.pa + y.2.size))
/-- The frames of a channel that is to be withdrawn begin to move, as far as the pool has frames of other channels. -/
def State.evacuate (s : State) (ch : Nat) : State :=
  (s.movable ch).foldl (fun t x =>
    match t.freeFrame with
    | none => t
    | some f =>
      if (t.migrations.look x.2.leaf).isSome then t
      else { t with pool := t.pool.erase f }.splice (t.lowestVi x.1) x.2.leaf (t.dram.load x.2.leaf 8) x.2.va false (4096 * f)) s
/-- Whether no frame of a channel is left to move, nor being moved from it or to it. -/
def State.evacuated (s : State) (ch : Nat) : Bool :=
  (s.movable ch).isEmpty
    && !(s.migrations.any fun m => m.2.phase != .hold && ((!m.2.oldHost && channelOf (m.2.oldPa / 4096) == ch)
      || (!m.2.newHost && channelOf (m.2.newPa / 4096) == ch)))

/-- Whether a withdrawal can be published: a core's waits until every thread of the cores that it changes has been saved (17 R363), an
HBM channel's until its frames have moved (19 R406), and a lane group's while its core would be short of free ones for the threads to which
one is owed (09 R244, R247, assumption 61). -/
def State.canPublish (s : State) (u : UnitRef) : Bool :=
  match u with
  | .core n => (s.residentsOf (s.changedBy n)).all fun h => (s.getTh h).saved
  | .hbmChannel k c => s.evacuated (32 * k + c)
  | .laneGroup n lg =>
    match s.servesAs n with
    | some c => (s.dropLane n lg).covered c
    | none => true
  | _ => true

/-! ## Errors (19 R406, R407, 20 R434) -/

/-- The physical core on which a unit's corrected errors are counted (19 R411 `CERR`). -/
def errorCore : UnitRef → Option Nat
  | .laneGroup n _ => some n
  | .core n => some n
  | .tileBank n _ => some n
  | .laneLink n _ => some n
  | _ => none
/-- The corrected errors of a unit. -/
def State.errorsOf (s : State) (u : UnitRef) : Nat :=
  match s.rmap.errors.find? fun e => e.1 == u with
  | some e => e.2
  | none => 0
/-- What a unit's withdrawal takes with it: a core left with fewer than four lane groups, those that already wait to go not counted, is
withdrawn as a whole (09 R244). -/
def State.effective (s : State) (u : UnitRef) : UnitRef :=
  match u with
  | .laneGroup n lg =>
    let left := ((List.range 9).filter fun p => bitOf (s.phys n).lg p && p != lg && !s.rmap.waiting.contains (.laneGroup n p)).length
    if left + (if s.spareLg n then 1 else 0) < 4 then .core n else u
  | _ => u
/-- A unit that has reached the threshold waits for the version that withdraws it; for a core PREEMPT is posted at once to the residents
of every core that changes (17 R363, 19 R388). -/
def State.reach (s : State) (u0 : UnitRef) : State :=
  let u := s.effective u0
  if s.errorsOf u0 < s.mgmt.threshold ∨ s.rmap.waiting.contains u ∨ s.rmap.withdrawn.contains u then s
  else
    let s1 := { s with rmap := { s.rmap with waiting := s.rmap.waiting ++ [u] } }
    match u with
    | .core n => (s1.residentsOf (s1.changedBy n)).foldl (fun t h => t.post h 1) s1
    | _ => s1

/-- CORRECTED_ERROR: one more corrected error of a unit (19 R406, R411, 20 R434). -/
def execCorrectedError (unit : UnitRef) (s : State) : Host.Outcome State Fault Refusal :=
  let n := s.errorsOf unit + 1
  let s1 := { s with rmap := { s.rmap with errors := s.rmap.errors.filter (fun (e : UnitRef × Nat) => e.1 != unit) ++ [(unit, n)] } }
  let s2 := match errorCore unit with
    | some k => s1.setPhys k { s1.phys k with cerr := ((s1.phys k).cerr + 1) % 2 ^ 32 }
    | none => s1
  .next (s2.reach unit)

/-- UNCORR posted to a thread with a class of lost state. -/
def State.postUncorr (s : State) (h cls : Nat) : State :=
  let t := s.getTh h
  if t.resident then s.setTh h { t with spend := setBit t.spend 4 true, uncorrs := t.uncorrs ++ [cls] } else s

/-- UNCORRECTABLE_ERROR: memory is poisoned; state that carries no poison posts UNCORR to the thread that owns it (19 R407). A register's
parity error is one only where it stands after the one replay of its instruction (20 R434); a replay that succeeds performs an instruction
that has changed nothing, so that it leaves no trace beside CORRECTED_ERROR (assumption 89). -/
def execUncorrectableError (lost : LostState) (s : State) : Host.Outcome State Fault Refusal :=
  match lost with
  | .devicePiece k => .next (if 8 * k + 8 ≤ deviceBytes then s.poisonAt (.dev (8 * k)) else s)
  | .tilePiece g c k => .next (if 8 * k + 8 ≤ (s.alloc c g).size then s.poisonAt (.tile c g (8 * k)) else s)
  | .scalarRegs h => .next (s.postUncorr h 1)
  | .vectorRegs h => .next (s.postUncorr h 2)
  | .queueEntries c q =>
    let x := s.queue c q
    .next (((x.prod.toList ++ x.cons.toList).map (·.1)).eraseDups.foldl (fun t h => t.postUncorr h 3) s)
  | .accumulators u =>
    let m := s.units.get u {}
    .next (((m.even.toList ++ m.odd.toList).map (·.h)).foldl (fun t h => t.postUncorr h 4) s)
  | .codeLines c => .next ((s.residentsOf ((List.range 8).map (coreAt c))).foldl (fun t h => t.postUncorr h 5) s)
  | .latticeEntries h => .next (s.postUncorr h 6)
  | .contextMove h => .next (s.postUncorr h 7)

/-! ## Publication and delivery (19 R412 to R415) -/

/-- A version delivered to a thread: `CUR` := the version, RMCHANGE posted, and the grace begins when `CUR` first differs from
`ACK`. -/
def State.deliver (s : State) (h : Nat) : State :=
  let t := s.getTh h
  if t.resident then
    s.setTh h { t with rmvCur := s.rmap.ver, spend := setBit t.spend 2 true,
                       rmLeft := if t.rmvAck = t.rmvCur then t.rmAllow else t.rmLeft }
  else s

/-- RESOURCE_MAP_PUBLISH: the frames of the HBM channels that are to go begin to move, the waiting withdrawals that can be published are
made, the other bank of every view holds the new version, and the version is delivered to every running context. -/
def execResourceMapPublish (s0 : State) : Host.Outcome State Fault Refusal :=
  let s := s0.rmap.waiting.foldl (fun t u =>
    match u with
    | .hbmChannel k c => t.evacuate (32 * k + c)
    | _ => t) s0
  let (s1, later) := s.rmap.waiting.foldl (fun (p : State × List UnitRef) u =>
    if p.1.canPublish u then (p.1.withdraw u, p.2) else (p.1, p.2 ++ [u])) (s, [])
  if s.rmap.pending = false ∧ later = s.rmap.waiting then .next s
  else
    let ver := s1.rmap.ver + 1
    if 2 ^ 32 ≤ ver then .next { s1 with rmap := { s1.rmap with waiting := later, pending := false } }
    else
      let s2 := { s1 with rmap := { s1.rmap with ver := ver, sel := !s1.rmap.sel, waiting := later, pending := false } }
      let s3 := s2.parts.foldl (fun t p => t.writeView p.1 ver s2.rmap.sel) s2
      .next (s3.threadIds.foldl State.deliver s3)

end Sys2Proof.Machine
end

