-- ==== Sys2Proof/Machine/Power.lean ====
section
/-! DEFINITION. Power capping, alarms, cap frames and the power states of links (20 R426, R430 to R433), and boot (20 R436 to R438). -/
namespace Sys2Proof.Machine

/-! ## The throttle of a partition (20 R431, R433) -/

/-- The thermal ceiling of a die in MHz. -/
def State.dieClock (s : State) (die : Nat) : Nat := Nat.max 1000 (2500 - s.power.thermal.get die 0)
/-- The clock ceiling that caps leave a partition: six steps of 250 MHz down to 1,000 MHz; a shed one is at the floor. -/
def Partition.capClock (p : Partition) : Nat := if p.shed then 1000 else 2500 - 250 * Nat.min p.steps 6
/-- `CLK` of PTHR: the lowest ceiling of the partition's clusters. -/
def State.partClock (s : State) (p : Partition) : Nat :=
  p.clusters.foldl (fun m c => Nat.min m (s.dieClock (dieOf (coreAt c 0)))) p.capClock
/-- `ISS` of PTHR: 12, 8 and 4 by the steps, 1 while shed, and the limit that a supply current alarm leaves. -/
def Partition.issue (part : Nat) (p : Partition) : Nat :=
  let k := if p.shed then 1 else if 9 ≤ p.steps then 4 else if 8 ≤ p.steps then 8 else if 7 ≤ p.steps then 12 else 16
  if p.alarm then Nat.min k (4 * (1 + Config.alarmIssue part % 3)) else k
/-- `NAR` of PTHR: the tenth step narrows the links. -/
def Partition.narrowed (p : Partition) : Bool := decide (10 ≤ p.steps)
/-- PTHR (20 R433). -/
def State.pthr (s : State) (part : Nat) (p : Partition) : Nat :=
  p.narrowed.toNat + p.shed.toNat * 2 + p.issue part * 2 ^ 8 + s.partClock p * 2 ^ 16 + p.cause * 2 ^ 32

/-- The lane and die links that lie wholly within a partition: between two of its cores, or between two dies that are wholly its. -/
def Partition.innerLinks (p : Partition) : List LinkRef :=
  let has (core : Nat) : Bool := p.clusters.contains (clusterOf core)
  let lanes := (coresOf p.clusters).flatMap fun c =>
    (if c % 32 ≠ 31 ∧ has (c + 1) = true then [LinkRef.lane c 0] else [])
      ++ (if c % 32 ≠ 0 ∧ has (c - 1) = true then [LinkRef.lane c 1] else [])
      ++ (if 32 ≤ c ∧ has (c - 32) = true then [LinkRef.lane c 2] else [])
      ++ (if c + 32 < 320 ∧ has (c + 32) = true then [LinkRef.lane c 3] else [])
  let whole (die : Nat) : Bool :=
    (List.range 40).all fun c => dieOf (coreAt c 0) != die || p.clusters.contains c
  let sides (d : Nat) : Nat × Nat := if d < 6 then (d / 3 * 4 + d % 3, d / 3 * 4 + d % 3 + 1) else (d - 6, d - 2)
  lanes ++ ((List.range 10).filter fun d => whole (sides d).1 && whole (sides d).2).map LinkRef.die

/-- The links of a partition held narrow, or released. -/
def State.capLinks (s : State) (p : Partition) (on : Bool) : State :=
  p.innerLinks.foldl (fun t l =>
    let x := t.linkSt l
    t.setLinkSt l { x with capped := on, power := if on ∧ x.power = .full then .narrow else x.power }) s

/-- The resident threads of a partition. -/
def State.threadsOf (s : State) (part : Nat) : List Nat :=
  s.threadIds.filter fun h =>
    let t := s.getTh h
    t.resident && (s.launches.get (s.groups.get t.group {}).launch {}).part == part
/-- A cause written to thrcause of every thread of a partition and kept as its last cause (01 R24, 20 R431). -/
def State.markCause (s : State) (part cause : Nat) : State :=
  let s1 := (s.threadsOf part).foldl (fun t h => t.setTh h { t.getTh h with thrcause := cause }) s
  { s1 with parts := s1.parts.set part { s1.parts.get part {} with cause := cause } }
/-- A partition replaced. -/
def State.setPart (s : State) (part : Nat) (p : Partition) : State := { s with parts := s.parts.set part p }

/-- The next throttle step of a partition, with its cause; none where it is fully stepped. -/
def State.throttle (s : State) (part cause : Nat) : State :=
  let p := s.parts.get part {}
  if 10 ≤ p.steps then s
  else
    let p1 := { p with steps := p.steps + 1 }
    let s1 := s.setPart part p1
    let s2 := if p1.steps = 10 then s1.capLinks p1 true else s1
    let s3 := s2.markCause part cause
    { s3 with power := { s3.power with history := s3.power.history ++ [(part, cause)] } }

/-! ## Estimates (20 R430, R431) -/

/-- The estimate of a partition's power under its present steps. -/
def State.partPower (s : State) (part : Nat) : Nat :=
  let p := s.parts.get part {}
  Config.power s.power.estimates part (s.partClock p) (p.issue part) p.narrowed
/-- The estimate of the module's power: that of its partitions and of the rest, numbered 8. -/
def State.modulePower (s : State) : Nat :=
  ((s.parts.map fun p => s.partPower p.1).sum) + Config.power s.power.estimates 8 2500 16 false
/-- The least of 3,200 W, MCAP and the limit of the last cap frame. -/
def State.moduleLimit (s : State) : Nat := Nat.min 3200 (Nat.min s.power.mcap s.power.limit)
/-- The cause of a step under the module limit. -/
def State.moduleCause (s : State) : Nat := if s.power.limit < Nat.min 3200 s.power.mcap then 3 else 1

/-- Steps of a partition over its own cap, one at a time. -/
def State.capPart (s : State) (part : Nat) : State :=
  (List.range 10).foldl (fun t _ =>
    let cap := (t.parts.get part {}).cap
    if cap ≠ 0 ∧ cap < t.partPower part then t.throttle part 2 else t) s
/-- Steps of the partitions of one rank, one each in turn, until the module fits. -/
def State.capRank (s : State) (rank : Nat) : State :=
  (List.range 10).foldl (fun t _ =>
    (t.parts.filter fun p => p.2.rankNow == rank).foldl (fun u p =>
      if u.moduleLimit < u.modulePower then u.throttle p.1 u.moduleCause else u) t) s

/-- POWER_ESTIMATE: the ranks of PCAP take effect (20 R433); partitions over their own caps are stepped first, then the module limit is met
in ascending rank. -/
def execPowerEstimate (s : State) : Host.Outcome State Fault Refusal :=
  let s1 := { s with
    power := { s.power with estimates := s.power.estimates + 1 }
    parts := s.parts.map fun (p : Nat × Partition) => (p.1, { p.2 with rankNow := p.2.rank }) }
  let s2 := (s1.parts.map (·.1)).foldl State.capPart s1
  .next ((List.range 8).foldl State.capRank s2)

/-- Whether the estimates lie 5 % below every limit. -/
def State.powerLow (s : State) : Bool :=
  decide (100 * s.modulePower ≤ 95 * s.moduleLimit)
    && s.parts.all fun p => p.2.cap == 0 || decide (100 * s.partPower p.1 ≤ 95 * p.2.cap)
/-- The ceilings of a die's clusters in the resource map, as the thermal sensors leave them (19 R411, assumption 81). -/
def State.mapClock (s : State) (die : Nat) : State :=
  { s with rmap := { s.rmap with
      clk := ((List.range 40).filter fun c => dieOf (coreAt c 0) == die).foldl (fun m c => SMap.set m c (s.dieClock die)) s.rmap.clk } }
/-- One step undone. -/
def State.undo (s : State) (e : Nat × Nat) : State :=
  if e.2 = 4 then
    ({ s with power := { s.power with thermal := s.power.thermal.set e.1 (s.power.thermal.get e.1 0 - 250) } }).mapClock e.1
  else
    let p := s.parts.get e.1 {}
    if e.2 = 5 then s.setPart e.1 { p with alarm := false }
    else
      let s1 := s.setPart e.1 { p with steps := p.steps - 1 }
      if p.steps = 10 then s1.capLinks p false else s1
/-- THROTTLE_RELEASE: the last step is undone once the estimate has stayed 5 % below every limit. -/
def execThrottleRelease (s : State) : Host.Outcome State Fault Refusal :=
  match s.power.history.getLast? with
  | none => .next s
  | some e =>
    .next (if s.powerLow then { s with power := { s.power with history := s.power.history.dropLast } }.undo e else s)

/-- The partitions that hold a cluster of a die. -/
def State.partsOnDie (s : State) (die : Nat) : List Nat :=
  (s.parts.filter fun p => p.2.clusters.any fun c => dieOf (coreAt c 0) == die).map (·.1)
/-- THERMAL_ALARM: the clock of the die's clusters falls by 250 MHz, with cause 4 (20 R431), and the resource map gets a version for the
lowered `CLK` (19 R412). -/
def execThermalAlarm (die : Nat) (s : State) : Host.Outcome State Fault Refusal :=
  let low := s.power.thermal.get die 0
  if 8 ≤ die ∨ 1500 ≤ low then .next s
  else
    let s1 := { s with power := { s.power with thermal := s.power.thermal.set die (low + 250), history := s.power.history ++ [(die, 4)] } }
    let s2 := s1.mapClock die
    .next ((s2.partsOnDie die).foldl (fun t p => t.markCause p 4) { s2 with rmap := { s2.rmap with pending := true } })
/-- CURRENT_ALARM: issue is limited, with cause 5 (20 R431). -/
def execCurrentAlarm (part : Nat) (s : State) : Host.Outcome State Fault Refusal :=
  match s.parts.look part with
  | none => .next s
  | some p =>
    if p.alarm then .next s
    else
      let s1 := (s.setPart part { p with alarm := true }).markCause part 5
      .next { s1 with power := { s1.power with history := s1.power.history ++ [(part, 5)] } }

/-! ## Cap frames (20 R432) -/

/-- Whether the tag, magic and reserved bytes of a cap frame's payload hold. -/
def capFrameOk (b : List Byte) : Bool :=
  b.length == 32 && field b 0 4 == 0x50434B4A && field b 13 3 == 0 && field b 16 16 == (Config.hmac (b.take 16)).toNat
/-- A frame that is ignored and counted. -/
def State.ignoreFrame (s : State) : State := { s with mgmt := { s.mgmt with ignored := s.mgmt.ignored + 1 } }
/-- Whether a `SHED` sheds a partition. -/
def sheds (shed rank : Nat) : Bool := shed != 0xFF && decide (rank ≤ shed)
/-- POWEREMERG posted to the threads of a partition with its `stval`. -/
def State.emergency (s : State) (part shed : Nat) : State :=
  (s.threadsOf part).foldl (fun t h =>
    let x := t.getTh h
    t.setTh h { x with spend := setBit x.spend 5 true, shed := shed }) s
/-- CAP_FRAME: a valid frame with a greater `SEQ` sets the limit; partitions whose rank it sheds stay at the floor and their threads take
POWEREMERG, and the others are released from shedding. -/
def execCapFrame (payload : List Byte) (s : State) : Host.Outcome State Fault Refusal :=
  if capFrameOk payload = false then .next s.ignoreFrame
  else
    let seq := field payload 4 4
    if (match s.mgmt.capSeq with | some q => decide (seq ≤ q) | none => false) = true then .next s
    else
      let shed := field payload 12 1
      let s1 : State :=
        { s with
          mgmt := { s.mgmt with capSeq := some seq }
          power := { s.power with limit := field payload 8 4, shed := shed }
          parts := s.parts.map fun (p : Nat × Partition) => (p.1, { p.2 with shed := sheds shed p.2.rankNow }) }
      .next ((s1.parts.filter fun p => p.2.shed).foldl (fun t p => t.emergency p.1 shed) s1)

/-! ## Power states of links (20 R426) -/

/-- LINK_IDLE_NARROW: a full link without traffic goes to narrow; one that LWAKE raised has then been full long enough to fall next
time. -/
def execLinkIdleNarrow (link : LinkRef) (s : State) : Host.Outcome State Fault Refusal :=
  let x := s.linkSt link
  .next (if x.power ≠ .full ∨ x.waking then s
    else s.setLinkSt link (if x.raised then { x with raised := false } else { x with power := .narrow }))
/-- LINK_IDLE_SLEEP: a narrow link without traffic goes to sleep. -/
def execLinkIdleSleep (link : LinkRef) (s : State) : Host.Outcome State Fault Refusal :=
  let x := s.linkSt link
  .next (if x.power ≠ .narrow ∨ x.waking then s else s.setLinkSt link { x with power := .sleep })
/-- LINK_WAKE_COMPLETE: a waking link is full, or narrow while a cap holds it. -/
def execLinkWakeComplete (link : LinkRef) (s : State) : Host.Outcome State Fault Refusal :=
  let x := s.linkSt link
  .next (if x.waking then s.setLinkSt link { x with waking := false, power := if x.capped then .narrow else .full } else s)

/-! ## Boot (20 R436 to R438) -/

/-- Whether an image is accepted. -/
def imageAccepted (b : List Byte) : Bool :=
  Config.ecdsaVerifies b && Config.lmsVerifies b && decide (Config.fusedCounter ≤ Config.imageVersion b)
/-- A measurement register extended with a stage's digest (20 R437). -/
def extendMeasure (m : BitVec 384) (b : List Byte) : BitVec 384 :=
  Config.sha384 (bytesOf 48 m.toNat ++ bytesOf 48 (Config.sha384 b).toNat)
/-- The stages of the flash checked one after another, each measured before it runs; stage `n` extends register min(n, 7). -/
def bootStages : List (List Byte) → Nat → Security → Security
  | [], _, k => k
  | b :: r, n, k =>
    if imageAccepted b then
      let i : Fin 8 := ⟨Nat.min n 7, Nat.lt_succ_of_le (Nat.min_le_right n 7)⟩
      bootStages r (n + 1)
        { k with measure := k.measure.set i (extendMeasure k.measure[i] b), version := Config.imageVersion b, phase := .running }
    else { k with phase := .recovery }
/-- The certificate of attestation key pair `k`, by the identity keys (20 R440). -/
def attestationCert (k : Nat) : Certificate :=
  let p := Config.attestationKeys k
  { keys := p, ecdsa := Config.attestationEcdsa p, lms := Config.attestationLms p }
/-- The identity certificate (20 R438). -/
def identityCert : Certificate :=
  { keys := Config.identityKeys, ecdsa := Config.identityEcdsa Config.identityKeys, lms := Config.identityLms Config.identityKeys }
/-- BOOT: the boot ROM loads the first image and each stage the next; a failed check leaves the module in recovery. Two identity key
pairs are derived with their certificate (20 R438), which certifies the first attestation keys, and the resource map's version is 1 (19
R412). -/
def execBoot (s : State) : Host.Outcome State Fault Refusal :=
  if s.sec.phase ≠ .reset then .next s
  else
    let k := bootStages s.sec.flash 0 { s.sec with
      phase := .recovery, keys := Config.identityKeys, identity := some identityCert, attCert := some (attestationCert s.sec.attKey) }
    .next { s with sec := k, rmap := { s.rmap with ver := if k.phase = .running then 1 else s.rmap.ver } }

end Sys2Proof.Machine
end

