-- ==== Sys2Proof/Machine/Mgmt.lean ====
section
/-! DEFINITION. The management controller: requests from the managing interface and from the management port, their answers, and the
thirteen requests (20 R427 to R429, R433, R440). -/
namespace Sys2Proof.Machine

/-! ## Frames of the management port (20 R428) -/

/-- A response frame: magic, `SEQ`, header, data, and the tag over all of them. -/
def responseFrame (seq : Nat) (t : Transaction) : List Byte :=
  let b := bytesOf 4 0x534D4B4A ++ bytesOf 4 seq ++ bytesOf 16 t.header ++ t.data ++ List.replicate ((16 - t.data.length % 16) % 16) 0
  b ++ bytesOf 16 (Config.hmac b).toNat
/-- The transaction header of a frame's payload. -/
def frameHeader (b : List Byte) : Nat := field b 8 16
/-- Whether the magic, `TYPE`, reserved fields, length and tag of a request hold. -/
def requestFrameOk (b : List Byte) (mac : BitVec 128) : Bool :=
  let h := frameHeader b
  field b 0 4 == 0x524D4B4A && bits h 0 8 == 0x30 && bits h 16 8 == 0 && bits h 38 2 == 0 && decide (bits h 40 8 ≤ 16)
    && b.length == 24 + 16 * bits h 40 8 && Config.hmac b == mac

/-! ## Answers (20 R429) -/

/-- Data cut into pieces of at most 256 bytes; at least one. -/
def pieces256 : Nat → List Byte → List (List Byte)
  | 0, b => [b]
  | n + 1, b => if b.length ≤ 256 then [b] else b.take 256 :: pieces256 n (b.drop 256)
/-- A request answered on the link or on the management port; data that one transaction cannot carry go in several (the model's own
choice: 20 R440 does not say). -/
def State.answer (s : State) (code stat : Nat) (src : MgmtSrc) (data : List Byte) : State :=
  let ps := pieces256 (data.length / 256) data
  match src with
  | .link vi tag => ps.foldl (fun t p => t.reply 0x31 code stat vi.toNat tag.toNat 0 p) s
  | .port seq payload _ =>
    let h := frameHeader payload
    { s with mgmt := { s.mgmt with
        responses := s.mgmt.responses
          ++ ps.map fun p => responseFrame seq.toNat (mkTransaction 0x31 code stat (bits h 32 6) (bits h 48 16) 0 p) } }
/-- The interface that a request names as its own. -/
def requesterOf (q : MgmtSrc) : Nat :=
  match q with
  | .link vi _ => vi.toNat
  | .port _ payload _ => bits (frameHeader payload) 32 6

/-- What a request comes to: a `STAT` that leaves the state as it was, or the state with a `STAT` and data. -/
abbrev Answered := Except Nat (State × Nat × List Byte)
/-- A request that has been performed and answers with data. -/
def tells (s : State) (data : List Byte) : Answered := .ok (s, 0, data)
/-- One that answers without data. -/
def done (s : State) : Answered := tells s []
/-- One that waits for pages: it is not accepted now, and the migration unit has been asked for them (13 R312). -/
def waiting (s : State) : Answered := .ok (s, 6, [])
/-- The request served: in recovery only request 12 is (20 R436), any other is not accepted. -/
def State.serveRequest (s : State) (code : Nat) (src : MgmtSrc) (body : State → Answered) : State :=
  if code ≠ 12 ∧ s.sec.phase ≠ .running then s.answer code 6 src []
  else
    match body s with
    | .ok (t, st, data) => t.answer code st src data
    | .error st => s.answer code st src []
/-- A management request with its code (20 R427 to R429). Requests of the link come from the managing interface, which
is not disabled; those of the port have a valid frame with a greater `SEQ`. -/
def manage (code : Nat) (src : MgmtSrc) (body : State → Answered) (s : State) : Host.Outcome State Fault Refusal :=
  match src with
  | .link vi _ => .next (if s.manages vi.toNat then s.serveRequest code src body else s.answer code 5 src [])
  | .port seq payload mac =>
    if requestFrameOk payload mac = false then .next s.ignoreFrame
    else if seq.toNat ≠ field payload 4 4 ∨ (match s.mgmt.seq with | some q => decide (seq.toNat ≤ q) | none => false) = true then .next s
    else
      let s1 := { s with mgmt := { s.mgmt with seq := some seq.toNat } }
      let opa := bits (frameHeader payload) 8 8
      .next (if opa = code then s1.serveRequest code src body
        else if opa = 0 ∨ 13 < opa then s1.answer opa 1 src []
        else s)

/-! ## Partitions (20 R424, R429, 15 R325, R330) -/

/-- The queues of a new partition (15 R325); where it has no interface, `OWNER` of the first four is 63, which the manual does not say
(DESIGN CHOICE, assumption 88). -/
def freshQueues (vi : Nat) : SMap LQueue :=
  (List.range 8).map fun q => (q, if q < 4 then { owner := vi, prio := q } else { owner := 0xFE, prio := q - 4 })
/-- A partition reset: its threads are terminated, its groups end, and its launches end as withdrawn (15 R330). -/
def State.abortPart (s : State) (part : Nat) : State :=
  let hs := s.threadsOf part
  let s1 := hs.foldl (fun t h => if (t.getTh h).status = .settled then t else t.settle h) s
  let s2 := hs.foldl (fun t h => t.retire h true) s1
  let ls := (s2.launches.filter fun l => l.2.part == part).map (·.1)
  let s3 := (s2.groups.filter fun g => ls.contains g.2.launch).foldl (fun t g => t.endGroup g.1 g.2 true) s2
  ls.foldl (fun t n => { t with launches := t.launches.set n { t.launches.get n {} with aborted := true } }.completeLaunch n) s3
/-- What a reset waits for: tasks' records and completion words' pages. -/
def State.abortWaits (s : State) (part : Nat) : List AErr :=
  (s.threadsOf part).filterMap s.settleWait ++ s.launches.filterMap fun l => if l.2.part = part then s.completeWait l.1 else none
/-- What it asks of the migration unit. -/
def State.abortAsk (s : State) (part : Nat) : State := (s.abortWaits part).foldl (fun t e => t.hubAsk part e) s
/-- The throttle steps of a partition forgotten as it is destroyed, its links released (20 R431). -/
def State.forgetSteps (s : State) (part : Nat) (p : Partition) : State :=
  let s1 := if 10 ≤ p.steps then s.capLinks p false else s
  { s1 with power := { s1.power with history := s1.power.history.filter fun e => e.2 == 4 || e.1 != part } }
/-- The links that a narrowed partition's new clusters leave it, held narrow in place of those of its old ones (20 R431). -/
def State.moveCaps (s : State) (p q : Partition) : State := if 10 ≤ p.steps then (s.capLinks p false).capLinks q true else s
/-- The interfaces bound to a partition after a request: those listed. One that leaves keeps neither the windows nor the launch environment
of the partition (20 R424). -/
def bindVis (vis : SMap VI) (part : Nat) (l : List Nat) : SMap VI :=
  let off : SMap VI := vis.map fun (v : Nat × VI) => (v.1, if v.2.part = some part ∧ l.contains v.1 = false then {} else v.2)
  l.foldl (fun m k => SMap.set m k { SMap.get m k {} with part := some part }) off
/-- A clusters's list with the clusters that change hands emptied. -/
def State.emptyClusters (s : State) (l : List Nat) : State := l.foldl (fun t c => t.setCluster c {}) s
/-- Whether a cluster holds a group. -/
def State.clusterBusy (s : State) (c : Nat) : Bool := s.groups.any fun g => g.2.cluster == c && !g.2.swapped
/-- Whether a list repeats an entry. -/
def repeats : List Nat → Bool
  | [] => false
  | x :: r => r.contains x || repeats r

/-- Request 1: no cluster destroys the partition; else it is created or resized. A cluster that holds a group is not taken away. The
request carries the features that the partition masks (01 R31): there is one mask for each partition, which stands for its supervisor's
masking as well, for which the manual gives no way (DESIGN CHOICE, assumption 88). -/
def partitionRequest (part : Nat) (clusters vis : List Nat) (feat : Nat) (s : State) : Answered :=
  let old := s.parts.look part
  let foreign (c : Nat) : Bool := s.parts.any fun p => p.1 != part && p.2.clusters.contains c
  let taken (v : Nat) : Bool := match (s.vis.get v {}).part with | some p => p != part | none => false
  if 7 < part ∨ repeats clusters = true ∨ repeats vis = true ∨ (clusters.any fun c => decide (40 ≤ c) || foreign c) = true
      ∨ (vis.any fun v => decide (64 ≤ v) || taken v) = true then .error 5
  else if clusters = [] then
    match old with
    | none => .error 5
    | some p =>
      if s.abortWaits part ≠ [] then waiting (s.abortAsk part) else
      let s1 := ((s.abortPart part).emptyClusters p.clusters).forgetSteps part p
      done { s1 with parts := s1.parts.erase part, vis := bindVis s1.vis part [], rmap := { s1.rmap with pending := true } }
  else
    let p : Partition := match old with
      | some p => p
      | none => { queues := freshQueues (vis.foldl Nat.min 63), shed := sheds s.power.shed 0, viewed := true }
    let removed := p.clusters.filter fun c => !clusters.contains c
    if removed.any s.clusterBusy then .error 6
    else
      let added := clusters.filter fun c => !p.clusters.contains c
      let sorted := (List.range 40).filter clusters.contains
      let p1 := { p with clusters := sorted, feat := feat, images := if p.feat = feat then p.images else [] }
      let s1 := ((s.emptyClusters (removed ++ added)).setPart part p1).moveCaps p p1
      done { s1 with vis := bindVis s1.vis part vis, rmap := { s1.rmap with pending := true } }
/-- MGMT_PARTITION. -/
def execMgmtPartition (src : MgmtSrc) (part : Nat) (clusters vis : List Nat) (feat : BitVec 6) (s : State) :
    Host.Outcome State Fault Refusal :=
  manage 1 src (partitionRequest part clusters vis feat.toNat) s

/-! ## Queues, windows, pre-emption (15 R325, 19 R388, 20 R423) -/

/-- Request 2: the configuration entry of a queue. -/
def queueRequest (part queue entry : Nat) (s : State) : Answered :=
  match s.parts.look part with
  | none => .error 5
  | some p =>
    if 7 < queue ∨ bits entry 16 48 ≠ 0 ∨ bits entry 2 2 ≠ 0 then .error 5
    else
      let o := bits entry 8 8
      let x := { p.queues.get queue {} with
        owner := if o < 64 ∨ o = 0xFE then o else 0xFF
        wt := Nat.max 1 (bits entry 4 4)
        prio := bits entry 0 2 }
      done (s.setPart part { p with queues := p.queues.set queue x })
/-- MGMT_QUEUE_CONFIGURATION. -/
def execMgmtQueueConfiguration (src : MgmtSrc) (part queue : Nat) (entry : Word) (s : State) : Host.Outcome State Fault Refusal :=
  manage 2 src (queueRequest part queue entry.toNat) s

/-- Request 3: a memory window of an interface that is bound to a partition. -/
def windowRequest (vi win hostBase len vbase asid : Nat) (s : State) : Answered :=
  let v := s.vis.get vi {}
  if 64 ≤ vi ∨ v.part = none ∨ 16 ≤ win ∨ 2 ^ 57 < vbase + len ∨ 2 ^ 64 < hostBase + len then .error 5
  else
    let w : Window := { hostBase := hostBase, len := len, vbase := vbase, asid := asid }
    done { s with vis := s.vis.set vi { v with windows := v.windows.set win w } }
/-- MGMT_WINDOW. -/
def execMgmtWindow (src : MgmtSrc) (vi win : Nat) (hostBase len vbase : Word) (asid : BitVec 16) (s : State) :
    Host.Outcome State Fault Refusal :=
  manage 3 src (windowRequest vi win hostBase.toNat len.toNat vbase.toNat asid.toNat) s

/-- Request 4: PREEMPT posted to a thread, which must be resident. -/
def preemptRequest (core thr : Nat) (s : State) : Answered :=
  if 320 ≤ core ∨ 4 ≤ thr ∨ (s.getTh (4 * core + thr)).resident = false then .error 5 else done (s.post (4 * core + thr) 1)
/-- MGMT_PREEMPT. -/
def execMgmtPreempt (src : MgmtSrc) (core thr : Nat) (s : State) : Host.Outcome State Fault Refusal := manage 4 src (preemptRequest core thr) s

/-! ## Swapping a group (19 R397, 06 R192, 11 R273) -/

/-- Whether a thread's context is saved and holds nothing of its core. -/
def State.savedAndFree (s : State) (h : Nat) : Bool :=
  let t := s.getTh h
  t.saved && t.slots.isEmpty && s.held (h / 4) (h % 4) == 0
    && !((s.attOf (h / 4)).any fun a => a.h == h)
    && !((s.getCore (h / 4)).channels.any fun c => c.2.owner == some h)
/-- The threads of a unit placed on the lowest free hardware threads of its first core, in the order of their old numbers. -/
def State.seat (s : State) (first : Nat) (l : List Thread) : State :=
  let free := (List.range 4).filter fun t => !(s.getTh (4 * first + t)).resident
  (free.zip l).foldl (fun t x => t.setTh (4 * first + x.1) x.2) s
/-- A swapped group put on the units that start at some cores. -/
def State.swapIn (s : State) (gid : Nat) (g : Group) (cluster : Nat) (firsts : List Nat) : State :=
  let g1 := { g with cluster := cluster, firsts := firsts, swapped := false, savedAllocs := [], savedThreads := [] }
  let s1 := (g1.cores.zip g.savedAllocs).foldl (fun t x => t.updCore x.1 fun k => { k with allocs := k.allocs.set gid x.2 }) s
  let s2 := (firsts.flatMap fun f => (List.range (2 ^ g.gang)).map fun j => (f, f + j)).foldl (fun t c =>
    t.updCore c.2 fun k => { k with gang := g.gang, gangFirst := c.1 }) s1
  let s3 := firsts.zipIdx.foldl (fun t x =>
    t.seat x.1 (((List.range 4).flatMap fun n => g.savedThreads.filter fun y => y.1 == x.2 && y.2.1 == n).map (·.2.2))) s2
  { s3 with groups := s3.groups.set gid g1 }
/-- The shape of a placed group. -/
def Group.shape (g : Group) : Shape := { threads := g.threads, lanes := g.lanes, gang := g.gang, tile := g.tile * 2 ^ g.gang }
/-- Request 5: without a cluster the group is saved, once the contexts of all its threads are; with one it is restored there. -/
def swapRequest (gid : Nat) (dest : Option Nat) (s : State) : Answered :=
  match s.groups.look gid with
  | none => .error 5
  | some g =>
    let l := s.launches.get g.launch {}
    match dest with
    | none =>
      if !g.started ∨ g.swapped then .error 5
      else if (s.threadsIn gid).all s.savedAndFree then done (s.swapOut gid g) else .error 6
    | some c =>
      if !g.swapped ∨ !(s.parts.get l.part {}).clusters.contains c then .error 5
      else
        match s.lowestRun g.shape g.tagSlots l c, l.image with
        | some firsts, some i =>
          match s.loadStore l i c with
          | .ok s1 => done (s1.swapIn gid g c firsts)
          | .error (.waits e) => waiting (s.hubAsk l.part e)
          | .error (.refuse _) => .error 5
        | _, _ => .error 6
/-- MGMT_SWAP. -/
def execMgmtSwap (src : MgmtSrc) (group : Nat) (restoreTo : Option Nat) (s : State) : Host.Outcome State Fault Refusal :=
  manage 5 src (swapRequest group restoreTo) s

/-! ## Nodes, hold, threshold, caps and pool (13 R312, R315, 17 R365, 19 R406, 20 R433) -/

/-- Why arming at a descriptor waits. -/
def State.armWait (s : State) (vi desc : Nat) : Option AErr :=
  match s.redLoc { vi := vi, desc := desc } desc 64 .read with
  | .error e => if e.waits then some e else none
  | .ok _ => none
/-- What it asks of the migration unit. -/
def State.armAsk (s : State) (vi desc : Nat) : State :=
  match s.armWait vi desc with
  | some e => s.hubAsk (s.nodeRoot { vi := vi }).1 e
  | none => s
/-- Request 6: one of the 64 reduction nodes armed under the requesting interface; an armed one is busy, and so is a descriptor that
cannot be read yet. -/
def armRequest (node desc vi : Nat) (s : State) : Answered :=
  if 64 ≤ node then .error 5
  else if (s.nodes.get node {}).state = .armed then .error 6
  else if (s.armWait vi desc).isSome then waiting (s.armAsk vi desc)
  else
    match s.arm node vi desc with
    | some t => done t
    | none => .error 5
/-- MGMT_ARM_NODE. A descriptor's page that migrates on touch is asked for. -/
def execMgmtArmNode (src : MgmtSrc) (node : Nat) (desc : Word) (s : State) : Host.Outcome State Fault Refusal :=
  manage 6 src (armRequest node desc.toNat (requesterOf src)) s

/-- MGMT_HOLD: request 7, from 1 µs to 1 s. -/
def execMgmtHold (src : MgmtSrc) (nanos : Nat) (s : State) : Host.Outcome State Fault Refusal :=
  manage 7 src (fun s => if nanos < 1000 ∨ 10 ^ 9 < nanos then .error 5 else done { s with holdNanos := nanos }) s
/-- MGMT_THRESHOLD: request 8, from 1 to 65,535; units whose errors have reached it are withdrawn. -/
def execMgmtThreshold (src : MgmtSrc) (count : Nat) (s : State) : Host.Outcome State Fault Refusal :=
  manage 8 src (fun s =>
    if count = 0 ∨ 65535 < count then .error 5
    else
      let s1 := { s with mgmt := { s.mgmt with threshold := count } }
      done ((s1.rmap.errors.map (·.1)).foldl State.reach s1)) s

/-- The value of a cap register; none for a partition that does not exist. -/
def State.capGet (s : State) (r : CapReg) : Option Nat :=
  match r with
  | .mcap => some s.power.mcap
  | .pcap k => (s.parts.look k).map fun p => p.cap + p.rank * 2 ^ 48
  | .pthr k => (s.parts.look k).map fun p => s.pthr k p
/-- A cap register written; PTHR is read-only, and reserved bits must be zero. -/
def State.capPut (s : State) (r : CapReg) (x : Nat) : Option State :=
  match r with
  | .mcap => if bits x 16 48 ≠ 0 then none else some { s with power := { s.power with mcap := Nat.min x 3200 } }
  | .pcap k =>
    match s.parts.look k with
    | none => none
    | some p => if bits x 51 13 ≠ 0 ∨ bits x 16 32 ≠ 0 then none else some (s.setPart k { p with cap := bits x 0 16, rank := bits x 48 3 })
  | .pthr _ => none
/-- MGMT_CAP: request 9 reads or writes MCAP, PCAP or PTHR. -/
def execMgmtCap (src : MgmtSrc) (reg : CapReg) (write : Option Word) (s : State) : Host.Outcome State Fault Refusal :=
  manage 9 src (fun s =>
    match write with
    | none => match s.capGet reg with
      | some x => tells s (bytesOf 8 x)
      | none => .error 5
    | some x => match s.capPut reg x.toNat with
      | some t => done t
      | none => .error 5) s

/-- MGMT_POOL: request 10 adds a device frame to the migration pool, or withdraws one that is not in use. -/
def execMgmtPool (src : MgmtSrc) (add : Bool) (frame : Nat) (s : State) : Host.Outcome State Fault Refusal :=
  manage 10 src (fun s =>
    if deviceBytes / 4096 ≤ frame ∨ s.pool.contains frame = add then .error 5
    else done { s with pool := if add then s.pool ++ [frame] else s.pool.erase frame }) s

/-! ## Attestation and status (20 R429, R440) -/

/-- The signed part of a report, 0x1B8 bytes. -/
def State.reportBody (s : State) (vi : Nat) (nonce : List Byte) : List Byte :=
  bytesOf 4 0x54414B4A ++ bytesOf 4 1 ++ nonce ++ (s.sec.measure.toList.flatMap fun m => bytesOf 48 m.toNat)
    ++ bytesOf 8 (s.rmap.ver + ((s.vis.get vi {}).part.getD 0xFFFF) * 2 ^ 32 + vi * 2 ^ 48) ++ bytesOf 8 s.sec.version
/-- A report with its two signatures. -/
def State.attest (s : State) (vi : Nat) (nonce : List Byte) : List Byte :=
  let b := s.reportBody vi nonce
  b ++ bytesOf 96 (Config.ecdsaSign s.sec.attKey (bytesOf 48 (Config.sha384 b).toNat)).toNat
    ++ bytesOf 1740 (Config.lmsSign s.sec.attKey s.sec.reports b).toNat
/-- A signature spent: a key that has signed 2^20 reports is replaced, and its successor certified (20 R440). -/
def Security.spend (k : Security) : Security :=
  if k.reports + 1 = 2 ^ 20 then { k with reports := 0, attKey := k.attKey + 1, attCert := some (attestationCert (k.attKey + 1)) } else { k with reports := k.reports + 1 }
/-- MGMT_ATTEST: request 11 carries a 32-byte nonce. -/
def execMgmtAttest (src : MgmtSrc) (nonce : List Byte) (s : State) : Host.Outcome State Fault Refusal :=
  manage 11 src (fun s =>
    if nonce.length ≠ 32 then .error 5 else tells { s with sec := s.sec.spend } (s.attest (requesterOf src) nonce)) s

/-- The state of every link of the module: the Knadivy Serial Link and the peer ports (0 up, 1 retraining, 2 down). -/
def State.linkPhases (s : State) : List Nat :=
  let num : LinkPhase → Nat := fun p => match p with | .up => 0 | .retraining => 1 | .down => 2
  num s.ksl.phase :: (List.range 12).map fun p => num (s.peer p).phase
/-- MGMT_STATUS: request 12 returns stopped threads, withdrawn units and link state. -/
def execMgmtStatus (src : MgmtSrc) (s : State) : Host.Outcome State Fault Refusal :=
  manage 12 src (fun s =>
    tells s (Config.statusData s.mgmt.stopped s.rmap.withdrawn s.linkPhases s.mgmt.undelivered s.mgmt.drops s.mgmt.poisonedReads s.mgmt.ignored)) s

/-! ## The launch environment (15 R327) -/

/-- Whether every field of a launch environment is within its limits and aligned. -/
def envOk (e : Env) : Bool :=
  e.root.toNat / 2 ^ 56 == 0 && e.rtAddr.toNat % 64 == 0 && e.rtAddr.toNat / 2 ^ 57 == 0 && e.rtLen % 64 == 0
    && decide (e.rtLen ≤ 256 * 1024) && e.svOff % 4 == 0 && e.fvOff % 4 == 0 && e.fb.toNat % 256 == 0 && e.stk.toNat % 64 == 0
    && e.stkSz % 64 == 0
/-- MGMT_LAUNCH_ENVIRONMENT: request 13 applies to threads started afterwards. -/
def execMgmtLaunchEnvironment (src : MgmtSrc) (vi : Nat) (env : Env) (s : State) : Host.Outcome State Fault Refusal :=
  manage 13 src (fun s =>
    if 64 ≤ vi ∨ envOk env = false then .error 5 else done { s with vis := s.vis.set vi { s.vis.get vi {} with env := env } }) s

end Sys2Proof.Machine
end

