-- ==== Sys2Proof/Machine/Issue.lean ====
section
/-! DEFINITION. Issue: how a word at the program counter becomes an instruction to execute or a trap (02 R51 to R57, 09 R251 to R262),
the retirement of a convoy, which thread issues next, and which device steps the machine performs by itself. -/
namespace Sys2Proof.Machine

/-! ## Convoys at decode (02 R51, R52, R57) -/

/-- A convoy-eligible word (02 R51). -/
def convoyEligible (w : Nat) : Bool :=
  let op := bits w 0 7
  (decide (0x21 ≤ op) && decide (op ≤ 0x31)) || (decide (0x40 ≤ op) && decide (op ≤ 0x49))
/-- The C bit. -/
def joined (w : Nat) : Bool := bitOf w 7
/-- The words that a convoy takes from an offset: a word follows while the word before it has C = 1, four at the most (02 R52). -/
def State.convoyFrom (s : State) (off : Nat) : Nat → List Nat
  | 0 => []
  | n + 1 =>
    let w := (s.codeWord s.core off).toNat
    w :: (if joined w then s.convoyFrom (off + 4) n else [])
/-- Whether a major opcode is unassigned or permanently undefined (02 R54, R56). -/
def opUnassigned (w : Nat) : Bool :=
  let op := bits w 0 7
  op == 0x00 || op == 0x7F || (decide (0x32 ≤ op) && decide (op ≤ 0x3F)) || (decide (0x5B ≤ op) && decide (op ≤ 0x5F)) || op == 0x6F
    || op == 0x7D || op == 0x7E
/-- Whether a word names an instruction or a control register above a level (01 R20). -/
def wordPriv (l : Level) (w : Nat) : Bool :=
  let op := bits w 0 7
  let fn := bits w 26 6
  (l == .user && (op == 0x71 || op == 0x7C || ((op == 0x78 || op == 0x79) && decide (fn ≤ 1))))
    || (decide (0x74 ≤ op) && decide (op ≤ 0x77) && crPriv l (bits w 18 12))
/-- Whether member `i` of a convoy is ILLEGAL at decode: it follows a C bit and is not eligible, has a C bit that it may not have, or
holds a reserved value (02 R50 to R52). -/
noncomputable def memberIllegal (i w : Nat) : Bool :=
  (decide (0 < i) && !convoyEligible w) || (joined w && (!convoyEligible w || i == 3))
    || (match decode (BitVec.ofNat 32 w) with | .ok _ => false | .error _ => true)
/-- The first member that a test selects, with its index. -/
def firstMember (p : Nat → Nat → Bool) (ws : List Nat) : Option (Nat × Nat) := (ws.zipIdx.map fun x => (x.2, x.1)).find? fun x => p x.1 x.2

/-- A trap before any member executes: the restart point is the convoy's first word, the faulting address member `i`'s (02 R53). -/
def State.decodeTrap (s : State) (cause i : Nat) (tval : Nat) : Trap :=
  { cause := cause, tval := BitVec.ofNat 64 tval, epc := some s.th.pc, fpc := some (s.th.pc + BitVec.ofNat 64 (4 * i)), fresh := true }
/-- Steps 1 to 4 of 02 R57 over the members of a convoy; UNDEF of step 2, which only the first word takes, is left to the
instruction. -/
noncomputable def State.decodeCheck (s : State) (ws : List Nat) : Option Trap :=
  let off := s.th.pc.toNat
  match firstMember (fun i _ => !s.inWindow s.th.level s.core (off + 4 * i)) ws with
  | some x => some (s.decodeTrap Cause.codewin x.1 (off + 4 * x.1))
  | none =>
    if opUnassigned (ws.headD 0) then none
    else
      match firstMember (fun _ w => wordPriv s.th.level w) ws with
      | some x => some (s.decodeTrap Cause.priv x.1 x.2)
      | none => (firstMember memberIllegal ws).map fun x => s.decodeTrap Cause.illegal x.1 x.2

/-! ## The checks of every member before the first executes (09 R255) -/

/-- The checks of 05 R137 steps 1 to 3, the width check of 06 R166, and the estart check of a whole-vector member against the start of
the convoy. -/
def memberReady (x : ECtx) (cb4 : Bool) (e0 : Nat) (i : Instr) : Bool :=
  match elemOf i with
  | some op => (op x).isSome
  | none =>
    match i with
    | .vqnt _ _ _ _ q _ => qntPre cb4 q x
    | .vdqnt _ _ _ _ q _ => qntPre cb4 q x && !(x.frm == 5 && !x.srnd)
    | .vfredsum _ _ _ _ f _ => e0 == 0 && fpPre true f x
    | .vredmaxF _ _ _ _ f _ | .vredminF _ _ _ _ f _ => e0 == 0 && fpPre false f x
    | .vredsum _ _ _ _ _ | .vredmaxI _ _ _ _ _ | .vredmaxN _ _ _ _ _ | .vredminI _ _ _ _ _ | .vredminN _ _ _ _ _ => e0 == 0
    | .vextN _ _ _ _ | .vextI _ _ _ _ | .vslideup _ _ _ _ _ | .vslidedn _ _ _ _ _ | .vperm _ _ _ _ _ | .vcompress _ _ _ _
    | .vexpand _ _ _ _ | .viota _ _ _ | .vconf _ _ _ _ => e0 == 0
    | .mand _ _ _ _ _ | .mor _ _ _ _ _ | .mxor _ _ _ _ _ | .mnot _ _ _ _ | .mpopc _ _ _ _ | .mfirst _ _ _ _ | .mseti _ _ _
    | .mvfm _ _ => e0 == 0
    | .vld _ _ _ _ z _ _ | .vst _ _ _ _ z _ _ | .vldff _ _ _ _ z _ => z.toNat == x.ew
    | .vlds _ _ _ _ _ z _ _ | .vldx _ _ _ _ _ z _ _ | .vsts _ _ _ _ _ z _ _ | .vstx _ _ _ _ _ z _ _ | .vgll _ _ _ _ _ z _ _
    | .vscc _ _ _ _ _ z _ _ => z.toNat == x.ew
    | .vstxa _ f _ _ _ _ z _ _ => z.toNat == x.ew && !(f == 1 && z == 3 && !x.vf64)
    | _ => true
/-- The first member that the state does not allow. -/
noncomputable def State.memberCheck (s : State) (e0 : Nat) (ws : List Nat) : Option Trap :=
  (firstMember (fun _ w =>
    match decode (BitVec.ofNat 32 w) with
    | .ok i => !memberReady s.ectx (s.hasFeat 1) e0 i
    | .error _ => false) ws).map fun x => s.decodeTrap Cause.illegal x.1 x.2

/-! ## Stops within an instruction (06 R175, 07 R206, 09 R258) -/

/-- The accesses of an instruction that pre-emption may stop between elements, as its word has them. -/
noncomputable def memberOf (i : Instr) : Option (Bool × (State → VMem)) := (encode i).bind fun w => memOfWord w.toNat
/-- A step instruction stopped at a step boundary, with mprog the steps completed (07 R206). -/
def State.stopMop (s : State) (c : Cut) (o : MatOp) (a b : BitVec 5) : Option State :=
  match (do
      let t ← s.need
      let _ ← s.matPre o t a b
      s.matFetch o t a b s.th.mprog : M (State × MatIn)) with
  | .error _ => none
  | .ok (s1, x) =>
    if o.count s.th.mvl ≤ s.th.mprog + c.after then none
    else
      match matSteps o x c.after s.th.mprog s1 with
      | (t, k, none) => some { t with th := { t.th with mprog := k } }
      | _ => none
/-- A thread of the other core of the pair whose next instruction is a MATT that would execute, with the MATT's operands (07 R201). -/
noncomputable def State.mate (s : State) : Option (Nat × BitVec 5 × BitVec 5) :=
  if (s.attOf s.core).isSome ∨ (s.attOf (pairOf s.core)).isSome ∨ s.unitLive s.core = false ∨ s.unitLive (pairOf s.core) = false then none
  else
    (s.threadIds.filter fun h => h / 4 == pairOf s.core).findSome? fun h =>
      let t := s.switchTo h
      let ws := t.convoyFrom t.th.pc.toNat 4
      if t.th.status ≠ .issuing ∨ t.th.cv.isSome ∨ t.th.asyncReady ∨ t.th.finishPending ∨ (t.decodeCheck ws).isSome ∨ t.runHolds then none
      else
        match decode (BitVec.ofNat 32 (ws.headD 0)) with
        | .ok (.matt d a) => some (h, d, a)
        | _ => none
/-- An instruction stopped within itself as a cut says; a MATT, which has no boundary within it, is served in the same cycle as that of
the other core, where there is one. -/
noncomputable def State.stopWithin (s : State) (c : Cut) (i : Instr) : Option State :=
  match memberOf i with
  | some m => s.stopMember c m.1 m.2
  | none =>
    match matOf i with
    | some (.step o a b) => s.stopMop c o a b
    | some _ => none
    | none =>
      match i with
      | .matt d a => s.mate.map fun m => s.attachPair d a m.1 m.2.1 m.2.2
      | _ => none

/-! ## Issue (09 R259, R260) -/

/-- What a thread's turn comes to: nothing, an instruction or step executed in a state, or an outcome at once. -/
inductive Choice where
  | idle
  | run (i : Instr) (s : State)
  | ends (o : Host.Outcome State Fault Refusal)

/-- The instruction that a word is, executed; where a cut is set, as far as it says. -/
noncomputable def State.runWord (s : State) (w : W32) : Choice :=
  match decode w with
  | .ok i =>
    match s.cut with
    | none => .run i s
    | some c =>
      let s1 := { s with cut := none }
      match s1.stopWithin c i with
      | some t => .ends (.next t)
      | none => .run i s1
  | .error _ => .ends (finish (illegal s))

/-- A new instruction or convoy, or one that resumes at a recorded member: the checks of 02 R57, the wait behind a RUN, the checks of 09
R255 and R385, then the member. Of the unassigned words, 0x32 to 0x3F wait behind a RUN before their UNDEF is taken, as the vector words
around them do (DESIGN CHOICE, assumption 93). -/
noncomputable def State.issueFresh (s : State) : Choice :=
  let ws := s.convoyFrom s.th.pc.toNat 4
  let member := match s.th.cv with | some c => c.idx | none => 0
  match s.decodeCheck ws with
  | some t => .ends (finish (raise s t))
  | none =>
    if ws.length ≤ member then .ends (finish (raise s (s.decodeTrap Cause.illegal 0 (ws.headD 0))))
    else if s.runHolds then .ends (finish (.error (.park .runWait s)))
    else if convoyEligible (ws.headD 0) then
      let e0 := match s.th.cv with | some c => c.e0 | none => s.th.estart
      match (if member = 0 then s.memberCheck e0 ws else none) with
      | some t => .ends (finish (raise s t))
      | none => s.runWord (BitVec.ofNat 32 (ws.getD member 0))
    else ({ s with th := { s.th with cv := none } } : State).runWord (BitVec.ofNat 32 (ws.headD 0))

/-- The turn of the current thread: a pending asynchronous cause at a boundary (19 R377, R389), a pending chain finish (19 R401), the
retirement of a complete convoy (09 R254), the next member of a convoy, or the instruction at the program counter. -/
noncomputable def State.issue (s : State) : Choice :=
  if s.th.boundary && s.th.asyncReady then .run (.takeAsyncCause s.cur) s
  else if (s.th.boundary || s.th.breaking) && s.th.finishPending then .run (.chainFinish s.cur) s
  else
    match s.th.status with
    | .issuing =>
      match s.th.cv with
      | some c =>
        if c.resumed then s.issueFresh
        else if c.last then .run (.convoyRetire s.cur) s
        else s.runWord s.word
      | none => s.issueFresh
    | _ => .idle

/-- CONVOY_RETIRE: estart := 0, the program counter passes the convoy, and the grace of an unacknowledged map version counts one convoy;
where it runs out, RMGRACE_EXPIRE is the next step (09 R251, R254, 19 R415, R416). -/
def execConvoyRetire (h : Nat) (s : State) : Host.Outcome State Fault Refusal :=
  let t := s.getTh h
  match t.cv with
  | some c =>
    if c.last ∧ c.resumed = false then
      let left := if t.rmvAck ≠ t.rmvCur then t.rmLeft - 1 else t.rmLeft
      let due := t.rmvAck != t.rmvCur && t.rmLeft != 0 && left == 0
      let s1 := if due then { s with agenda := .rmgraceExpire h :: s.agenda } else s
      .next (s1.setTh h { t with
        estart := 0, pc := t.pc + BitVec.ofNat 64 (4 * c.idx), cv := none, rmLeft := left, rmDue := t.rmDue || due })
    else .next s
  | none => .next s

/-! ## The schedule (09 R259, assumption 3) -/

/-- Whether a thread's turn can come to anything. -/
def Thread.ready (t : Thread) : Bool := t.status == .issuing || (t.boundary && (t.asyncReady || t.finishPending))
/-- The least of the numbers of a list that a test selects. -/
def leastOf (p : Nat → Bool) (l : List Nat) : Option Nat :=
  (l.filter p).foldl (fun (m : Option Nat) k => match m with | some j => some (Nat.min j k) | none => some k) none
/-- The next ready thread after the current one, round-robin; the current one where no thread is ready. -/
def State.pickNext (s : State) : State :=
  let l := s.threadIds.filter fun h => (s.getTh h).ready
  match leastOf (fun h => decide (s.cur < h)) l with
  | some h => s.switchTo h
  | none =>
    match leastOf (fun _ => true) l with
    | some h => s.switchTo h
    | none => s

/-- The wake of a parked thread; the other waits end with the step that frees what they wait for. -/
def wakeOf (h : Nat) : Wait → List Instr
  | .vwait _ _ _ _ _ _ _ _ => [.vwaitWake h]
  | .setvlw _ _ _ _ _ => [.setvlwWake h]
  | .rwait _ _ _ _ => [.rwaitWake h]
  | .swm _ _ _ => [.swmWake h]
  | .sdrain _ => [.sdrainWake h]
  | .qwr _ _ => [.qwrWake h]
  | .qrd _ _ => [.qrdWake h]
  | .chwait _ _ => [.chwaitWake h]
  | .tlbsync => [.tlbsyncWake h]
  | .chcfgClaim _ _ _ _ => [.chcfgClaimWake h]
  | .transferSlot _ => [.transferSlotWake h]
  | .runWait => [.runWaitWake h]
  | .stall _ | .channelIdle _ | .migrate _ _ | .link _ | .reply _ _ | .finish => []
/-- The steps that may be due for a thread. -/
def State.threadSteps (s : State) (h : Nat) : List Instr :=
  let t := s.getTh h
  (match t.status with
    | .parked w => wakeOf h w
    | .ending true => [.threadTermination h]
    | .stopped => [.threadTermination h]
    | .ending false => [.threadEnd h]
    | .settled => [.threadEnd h]
    | _ => [])
  ++ (if t.tlbinvs ≠ 0 then [.tlbinvComplete h] else [])
  ++ (if s.migRequests.any fun r => r.h == h then [.migrationDeviceRequest h] else [])
  ++ t.slots.flatMap fun k =>
    match k.2.run with
    | none => []
    | some r =>
      if r.phase = .draining then [.chainDrainComplete h k.1]
      else if r.phase = .streaming then
        .runComplete h k.1 :: (k.2.frames.zipIdx.map fun f =>
          if f.1.isSwitch then .switchEntryMove h k.1 f.2 else .chainNodeElement h k.1 f.2)
      else []
/-- The steps that the machine may perform by itself. Timers, alarms, errors and what arrives from outside come only through the
agenda. -/
def State.internalSteps (s : State) : List Instr :=
  (if s.sec.phase = .reset then [.boot] else [])
  ++ s.threadIds.flatMap s.threadSteps
  ++ (s.cores.flatMap fun c => c.2.channels.flatMap fun k =>
    if k.2.xfers.isEmpty then [] else [.streamRetranslation c.1 k.1, .stripComplete c.1 k.1])
  ++ (s.groups.flatMap fun g => if g.2.started then [] else [.groupStart g.1])
  ++ (s.launches.map fun l => .launchCompletion l.1)
  ++ (s.parts.flatMap fun p => (p.2.queues.map fun q => Instr.imageSelection p.1 q.1) ++ [.dispatchStep p.1])
  ++ (s.migRequests.flatMap fun r => if hubAgent 0 ≤ r.h then [.migrationDeviceRequest r.h] else [])
  ++ (s.migrations.map fun m => if m.2.phase = .splice then .migrationSwitch m.1 else .migrationInvalidationComplete m.1)
  ++ (s.nodes.flatMap fun n => if n.2.state = .armed then [.reductionNodeFail n.1, .reductionToken n.1] else [])
  ++ (s.links.flatMap fun l => if l.2.waking then [.linkWakeComplete l.1] else [])
  ++ (if s.rmap.pending ∨ s.rmap.waiting ≠ [] then [.resourceMapPublish] else [])
/-- Those steps in the order of this turn: after the one performed last, so that none is passed over for ever. -/
def State.dueSteps (s : State) : List Instr :=
  let l := s.internalSteps
  l.drop (s.rot % l.length) ++ l.take (s.rot % l.length)

/-- The rows of the table of operations that are steps of the device and no instruction of a thread: what the agenda may hold. -/
def deviceStep : Instr → Bool
  | .convoyRetire _ | .takeAsyncCause _ | .rmgraceExpire _ | .vwaitWake _ | .setvlwWake _ | .rwaitWake _ | .swmWake _
  | .sdrainWake _ | .qwrWake _ | .qrdWake _ | .chwaitWake _ | .tlbsyncWake _ | .chcfgClaimWake _ | .transferSlotWake _
  | .runWaitWake _ | .stripComplete _ _ | .streamRetranslation _ _ | .tlbinvComplete _ | .chainNodeElement _ _ _
  | .switchEntryMove _ _ _ | .runComplete _ _ | .chainDrainComplete _ _ | .chainFinish _ | .groupStart _ | .threadEnd _
  | .threadTermination _ | .launchCompletion _ | .dispatchStep _ | .imageSelection _ _ | .migrationDeviceRequest _
  | .migrationSwitch _ | .migrationInvalidationComplete _ | .migrationHoldExpire _ | .reductionToken _ | .reductionNodeFail _
  | .kslFlitReceive _ _ | .kslRetryRequest _ _ | .kslLinkDown _ | .hwr _ _ _ _ | .hrd _ _ _ _ | .cpl _ _ _ | .lmsg _ _ _
  | .migreq _ _ _ | .rtok _ _ _ _ | .mgmtPartition _ _ _ _ _ | .mgmtQueueConfiguration _ _ _ _ | .mgmtWindow _ _ _ _ _ _ _
  | .mgmtPreempt _ _ _ | .mgmtSwap _ _ _ | .mgmtArmNode _ _ _ | .mgmtHold _ _ | .mgmtThreshold _ _ | .mgmtCap _ _ _
  | .mgmtPool _ _ _ | .mgmtAttest _ _ | .mgmtStatus _ | .mgmtLaunchEnvironment _ _ _ | .capFrame _ | .powerEstimate
  | .throttleRelease | .thermalAlarm _ | .currentAlarm _ | .linkIdleNarrow _ | .linkIdleSleep _ | .linkWakeComplete _
  | .correctedError _ | .uncorrectableError _ | .resourceMapPublish | .boot | .linkRetrainComplete _ => true
  | _ => false

/-! ## Reads that no edge orders after a port's store (11 R282, assumption 94) -/

/-- The instructions that only read memory and write registers, without an order among their elements, so that no edge orders a chain's stores
before their reads. -/
def lateReader : Instr → Bool
  | .ldBS _ _ _ | .ldBN _ _ _ | .ldHS _ _ _ | .ldHN _ _ _ | .ldWS _ _ _ | .ldWN _ _ _ | .ldD _ _ _
  | .mopa _ _ _ _ _ _ | .mopa2 _ _ _ _ _ _ | .mopa4 _ _ _ _ _ _ | .mops _ _ _ _ | .mopg _ _ _ _ _ _ | .mopq _ _ _ _ => true
  | .vld _ _ _ _ _ o _ => o == 0
  | .vlds _ _ _ _ _ _ o _ => o == 0
  | .vldx _ _ _ _ _ _ o _ => o == 0
  | .vldff _ _ _ _ _ o => o == 0
  | _ => false
/-- The state with the bytes of the noted stores of some thread as they stood before. -/
def State.stale (s : State) : State := s.th.unseen.foldl (fun t x => t.put x.2.1 x.2.2.1 x.2.2.2) { s with lag := false }
/-- The state after such a read, with those bytes and their poison as they are. -/
def State.renew (s t : State) : State :=
  s.th.unseen.foldl (fun u x =>
    match x.2.1 with
    | .tile c g _ => u.setAlloc c g (s.alloc c g)
    | l => u.put l x.2.2.1 (s.readLoc l x.2.2.1)) t
/-- The state in which an instruction reads, where the schedule has chosen that its reads are late. -/
def State.lateFrom (s : State) (i : Instr) : Option State := if s.lag && lateReader i then some s.stale else none
/-- The instructions, by their opcode, that access no memory and acquire nothing. After any other one no younger access of the thread reads a
chain's store late: what it has read, or what it waited for, may stand after the store (11 R277, R281, R282). A FENCE or LSYNC orders older
accesses, each of which has had that effect already. -/
def quiet (i : Instr) (w : Nat) : Bool :=
  let op := bits w 0 7
  match i with
  | .setvlw _ _ _ _ => false
  | _ =>
    decide (op ≤ 0x12) || (decide (0x1F ≤ op) && decide (op ≤ 0x3F)) || op == 0x50 || op == 0x57
      || (decide (0x60 ≤ op) && decide (op ≤ 0x64)) || op == 0x66 || decide (0x68 ≤ op) && decide (op ≤ 0x6A) || op == 0x6D
      || decide (0x6F ≤ op) && op != 0x78
/-- Whether the next word, which is not quiet, is an access of the thread to tile memory: a scalar one by bit 63 of its address; every vector or
matrix one is taken to be (assumption 94). -/
def State.tileAccess (s : State) : Bool :=
  let w := s.word.toNat
  let op := bits w 0 7
  let a := s.rd (BitVec.ofNat 5 (bits w 13 5))
  if 0x13 ≤ op ∧ op ≤ 0x1D then bitOf (a + BitVec.ofInt 64 (toS 14 (bits w 18 14))).toNat 63
  else if op = 0x1E then bitOf a.toNat 63
  else decide (0x40 ≤ op) && decide (op ≤ 0x5A)
/-- The state in which an instruction of the thread executes that reads memory as it is: it catches up with what it is ordered after. -/
def State.caughtUp (s : State) (i : Instr) : State :=
  if deviceStep i || quiet i s.word.toNat then s
  else (if s.tileAccess then s.upd fun t => { t with fills := [] } else s).caught
/-- What comes of such a read, after which nothing is read late. -/
def State.afterLate (s : State) : Host.Outcome State Fault Refusal → Host.Outcome State Fault Refusal
  | .next t => .next ((s.renew t).upd fun u => { u with unseen := [], fills := [] })
  | o => o

/-! ## How a program is placed (assumption 4) -/

/-- A code store that holds one word at offset 0, in a code window of one line. -/
def oneWord (c : Cluster) (w : Nat) : Cluster := { c with code := Memory.store [] 0 4 w, codeLen := 64, rtBase := 4096, rtLen := 0 }
/-- The state in which a thread of core 0 is about to issue a word: the thread resident at user level, in a group of a launch of
partition 0 with every feature, its next instruction at offset 0, and nothing else due before it. -/
def State.placeWord (s : State) (w : Nat) : State :=
  { s with
    cur := 0
    th := { s.th with
      pc := 0, level := .user, em := false, status := .issuing, cv := none, reissue := false, spend := 0, chbreaks := [], uncorrs := []
      streamFaults := [], slots := [], gens := srSeedAll 1, group := 0 }
    others := []
    clusters := s.clusters.set 0 (oneWord (s.getCluster 0) w)
    groups := s.groups.set 0 { s.groups.get 0 {} with launch := 0, cluster := 0, firsts := [0], started := true }
    launches := s.launches.set 0 { s.launches.get 0 {} with part := 0 }
    parts := s.parts.set 0 { s.parts.get 0 {} with clusters := List.range 40, feat := 63 }
    agenda := []
    cut := none
    lag := false
    older := []
    turn := .thread }

end Sys2Proof.Machine
end

