-- ==== Sys2Proof/Machine/Scalar.lean ====
section
/-! DEFINITION. The scalar front end (04): integer operations, constants, branches and jumps, loads and stores, atomics and
scalar floating point. Privileged and system instructions stand in System.lean. -/
namespace Sys2Proof.Machine

/-! ## Integer operations (04 R100 to R104) -/

/-- g[D] := op(g[A], g[B]) and on (04 R99, R100). -/
def aluRR (op : Word → Word → Word) (d a b : BitVec 5) (s : State) : Host.Outcome State Fault Refusal :=
  .next (s.wrAdvance d (op (s.rd a) (s.rd b)))
/-- g[D] := op(g[A], sext(IMM)) and on (04 R102, R103). -/
def aluRI (op : Word → Word → Word) (d a : BitVec 5) (i : Word) (s : State) : Host.Outcome State Fault Refusal :=
  .next (s.wrAdvance d (op (s.rd a) i))
/-- g[D] := op(g[A]) and on (04 R100). -/
def aluR (op : Word → Word) (d a : BitVec 5) (s : State) : Host.Outcome State Fault Refusal :=
  .next (s.wrAdvance d (op (s.rd a)))

/-- ADD (04 R100). -/
def execAdd (d a b : BitVec 5) (s : State) : Host.Outcome State Fault Refusal := aluRR aluAdd d a b s
/-- SUB (04 R100). -/
def execSub (d a b : BitVec 5) (s : State) : Host.Outcome State Fault Refusal := aluRR aluSub d a b s
/-- AND (04 R100). -/
def execAnd (d a b : BitVec 5) (s : State) : Host.Outcome State Fault Refusal := aluRR aluAnd d a b s
/-- OR (04 R100). -/
def execOr (d a b : BitVec 5) (s : State) : Host.Outcome State Fault Refusal := aluRR aluOr d a b s
/-- XOR (04 R100). -/
def execXor (d a b : BitVec 5) (s : State) : Host.Outcome State Fault Refusal := aluRR aluXor d a b s
/-- SLL (04 R100). -/
def execSll (d a b : BitVec 5) (s : State) : Host.Outcome State Fault Refusal := aluRR aluSll d a b s
/-- SRL (04 R100). -/
def execSrl (d a b : BitVec 5) (s : State) : Host.Outcome State Fault Refusal := aluRR aluSrl d a b s
/-- SRA (04 R100). -/
def execSra (d a b : BitVec 5) (s : State) : Host.Outcome State Fault Refusal := aluRR aluSra d a b s
/-- SLT (04 R100). -/
def execSlt (d a b : BitVec 5) (s : State) : Host.Outcome State Fault Refusal := aluRR aluSlt d a b s
/-- SLTN (04 R100). -/
def execSltn (d a b : BitVec 5) (s : State) : Host.Outcome State Fault Refusal := aluRR aluSltn d a b s
/-- MUL (04 R100). -/
def execMul (d a b : BitVec 5) (s : State) : Host.Outcome State Fault Refusal := aluRR aluMul d a b s
/-- MULH (04 R100). -/
def execMulh (d a b : BitVec 5) (s : State) : Host.Outcome State Fault Refusal := aluRR aluMulh d a b s
/-- MULHN (04 R100). -/
def execMulhn (d a b : BitVec 5) (s : State) : Host.Outcome State Fault Refusal := aluRR aluMulhn d a b s
/-- DIV (04 R100). -/
def execDiv (d a b : BitVec 5) (s : State) : Host.Outcome State Fault Refusal := aluRR aluDiv d a b s
/-- DIVN (04 R100). -/
def execDivn (d a b : BitVec 5) (s : State) : Host.Outcome State Fault Refusal := aluRR aluDivn d a b s
/-- REM (04 R100). -/
def execRem (d a b : BitVec 5) (s : State) : Host.Outcome State Fault Refusal := aluRR aluRem d a b s
/-- REMN (04 R100). -/
def execRemn (d a b : BitVec 5) (s : State) : Host.Outcome State Fault Refusal := aluRR aluRemn d a b s
/-- MIN (04 R100). -/
def execMin (d a b : BitVec 5) (s : State) : Host.Outcome State Fault Refusal := aluRR aluMin d a b s
/-- MAX (04 R100). -/
def execMax (d a b : BitVec 5) (s : State) : Host.Outcome State Fault Refusal := aluRR aluMax d a b s
/-- MINN (04 R100). -/
def execMinn (d a b : BitVec 5) (s : State) : Host.Outcome State Fault Refusal := aluRR aluMinn d a b s
/-- MAXN (04 R100). -/
def execMaxn (d a b : BitVec 5) (s : State) : Host.Outcome State Fault Refusal := aluRR aluMaxn d a b s
/-- ROTL (04 R100). -/
def execRotl (d a b : BitVec 5) (s : State) : Host.Outcome State Fault Refusal := aluRR aluRotl d a b s
/-- ROTR (04 R100). -/
def execRotr (d a b : BitVec 5) (s : State) : Host.Outcome State Fault Refusal := aluRR aluRotr d a b s
/-- CLZ: leading zero bits (04 R100). -/
def execClz (d a : BitVec 5) (s : State) : Host.Outcome State Fault Refusal := aluR (fun x => BitVec.ofNat 64 (lzBits x.toNat 64)) d a s
/-- CTZ: trailing zero bits (04 R100). -/
def execCtz (d a : BitVec 5) (s : State) : Host.Outcome State Fault Refusal := aluR (fun x => BitVec.ofNat 64 (tzBits x.toNat 0 64)) d a s
/-- POPC: one bits (04 R100). -/
def execPopc (d a : BitVec 5) (s : State) : Host.Outcome State Fault Refusal := aluR (fun x => BitVec.ofNat 64 (popBits x.toNat 64)) d a s
/-- BSWAP: the eight bytes in reverse order (04 R100). -/
def execBswap (d a : BitVec 5) (s : State) : Host.Outcome State Fault Refusal := aluR (fun x => BitVec.ofNat 64 (swapBytes x.toNat 8)) d a s
/-- SEL: a if g[D] ≠ 0, else b; the condition is read before g[D] is written (04 R100). -/
def execSel (d a b : BitVec 5) (s : State) : Host.Outcome State Fault Refusal :=
  .next (s.wrAdvance d (if s.rd d ≠ 0 then s.rd a else s.rd b))
/-- ADDI (04 R102). -/
def execAddi (d a : BitVec 5) (i : BitVec 14) (s : State) : Host.Outcome State Fault Refusal := aluRI aluAdd d a (simm i) s
/-- ANDI (04 R102). -/
def execAndi (d a : BitVec 5) (i : BitVec 14) (s : State) : Host.Outcome State Fault Refusal := aluRI aluAnd d a (simm i) s
/-- ORI (04 R102). -/
def execOri (d a : BitVec 5) (i : BitVec 14) (s : State) : Host.Outcome State Fault Refusal := aluRI aluOr d a (simm i) s
/-- XORI (04 R102). -/
def execXori (d a : BitVec 5) (i : BitVec 14) (s : State) : Host.Outcome State Fault Refusal := aluRI aluXor d a (simm i) s
/-- SLTI (04 R102). -/
def execSlti (d a : BitVec 5) (i : BitVec 14) (s : State) : Host.Outcome State Fault Refusal := aluRI aluSlt d a (simm i) s
/-- SLTNI (04 R102). -/
def execSltni (d a : BitVec 5) (i : BitVec 14) (s : State) : Host.Outcome State Fault Refusal := aluRI aluSltn d a (simm i) s
/-- SLLI (04 R103). -/
def execSlli (d a : BitVec 5) (n : BitVec 6) (s : State) : Host.Outcome State Fault Refusal := aluRI aluSll d a (n.setWidth 64) s
/-- SRLI (04 R103). -/
def execSrli (d a : BitVec 5) (n : BitVec 6) (s : State) : Host.Outcome State Fault Refusal := aluRI aluSrl d a (n.setWidth 64) s
/-- SRAI (04 R103). -/
def execSrai (d a : BitVec 5) (n : BitVec 6) (s : State) : Host.Outcome State Fault Refusal := aluRI aluSra d a (n.setWidth 64) s
/-- ROTRI (04 R103). -/
def execRotri (d a : BitVec 5) (n : BitVec 6) (s : State) : Host.Outcome State Fault Refusal := aluRI aluRotr d a (n.setWidth 64) s
/-- LIH: sext(IMM19) << 13 (04 R104). -/
def execLih (d : BitVec 5) (i : BitVec 19) (s : State) : Host.Outcome State Fault Refusal := .next (s.wrAdvance d (simm i <<< 13))
/-- ADDPC: pc + sext(IMM19) × 4 (04 R104). -/
def execAddpc (d : BitVec 5) (i : BitVec 19) (s : State) : Host.Outcome State Fault Refusal := .next (s.wrAdvance d (s.th.pc + simm4 i))

/-! ## Branches and jumps (04 R105 to R107) -/

/-- Control passes to a target inside the window of the level; another target takes CODEWIN, with nothing written (04 R107,
09 R262). -/
def State.transfer (s : State) (d : BitVec 5) (link : Word) (target : Word) : M State :=
  if s.inWindow s.th.level s.core target.toNat then
    let s1 := s.wr d link
    .ok { s1 with th := { s1.th with pc := target, cv := none, reissue := false } }
  else raise s { cause := Cause.codewin, tval := target }

/-- A conditional branch: taken to pc + sext(OFF14) × 4, else on to pc + 4 (04 R105). -/
def branch (c : Word → Word → Bool) (a b : BitVec 5) (o : BitVec 14) (s : State) : Host.Outcome State Fault Refusal :=
  if c (s.rd a) (s.rd b) then finish (s.transfer 0 0 (s.th.pc + simm4 o)) else .next s.advance

/-- BEQ (04 R105). -/
def execBeq (a b : BitVec 5) (o : BitVec 14) (s : State) : Host.Outcome State Fault Refusal := branch (fun x y => x == y) a b o s
/-- BNE (04 R105). -/
def execBne (a b : BitVec 5) (o : BitVec 14) (s : State) : Host.Outcome State Fault Refusal := branch (fun x y => x != y) a b o s
/-- BLT (04 R105). -/
def execBlt (a b : BitVec 5) (o : BitVec 14) (s : State) : Host.Outcome State Fault Refusal := branch (fun x y => x.slt y) a b o s
/-- BGE (04 R105). -/
def execBge (a b : BitVec 5) (o : BitVec 14) (s : State) : Host.Outcome State Fault Refusal := branch (fun x y => !x.slt y) a b o s
/-- BLTN (04 R105). -/
def execBltn (a b : BitVec 5) (o : BitVec 14) (s : State) : Host.Outcome State Fault Refusal := branch (fun x y => x.ult y) a b o s
/-- BGEN (04 R105). -/
def execBgen (a b : BitVec 5) (o : BitVec 14) (s : State) : Host.Outcome State Fault Refusal := branch (fun x y => !x.ult y) a b o s
/-- JAL (04 R106). -/
def execJal (d : BitVec 5) (i : BitVec 19) (s : State) : Host.Outcome State Fault Refusal :=
  finish (s.transfer d (s.th.pc + 4) (s.th.pc + simm4 i))
/-- JALR (04 R106, R107): a misaligned target traps, and the exit address ends the thread without writing g[D] (01 R32). -/
def execJalr (d a : BitVec 5) (i : BitVec 14) (s : State) : Host.Outcome State Fault Refusal :=
  let target := s.rd a + simm i
  if target.toNat % 4 ≠ 0 then finish (raise s { cause := Cause.misalign, tval := target })
  else if target = exitAddress then .next { s with th := { s.th with status := .ending false, cv := none } }
  else finish (s.transfer d (s.th.pc + 4) target)

/-! ## Loads and stores (04 R108 to R112) -/

/-- A scalar access: bit 63 of the address selects the space (04 R109), the causes of R111 in their order, and POISON of a
value that is read. -/
def State.scalarLoc (s : State) (ea : Word) (n : Nat) (k : AKind) : M (Loc × State) :=
  let tile := bitOf ea.toNat 63
  match s.locate tile ea.toNat n k with
  | .error e => .error (accTrap s e ea.toNat 0 0 k)
  | .ok (l, s1) =>
    if k ≠ .write ∧ s1.poisonedLoc l n then .error (accTrap s1 .poison ea.toNat 0 0 k) else .ok (l, s1)

/-- A load of `n` bytes, extended to 64 bits (04 R108). -/
def load (n : Nat) (signed_ : Bool) (d a : BitVec 5) (i : BitVec 14) (s : State) : Host.Outcome State Fault Refusal :=
  finish do
    let (l, s1) ← s.scalarLoc (s.rd a + simm i) n .read
    let x := s1.readLoc l n
    .ok ((s1.noteReads [l]).wrAdvance d (if signed_ then (BitVec.ofNat (8 * n) x).signExtend 64 else BitVec.ofNat 64 x))

/-- A store of the low `n` bytes of g[D] (04 R108). -/
def store (n : Nat) (d a : BitVec 5) (i : BitVec 14) (s : State) : Host.Outcome State Fault Refusal :=
  finish do
    let (l, s1) ← s.scalarLoc (s.rd a + simm i) n .write
    .ok (s1.writeLoc l n (s.rdN d)).advance

/-- LD.BS (04 R108). -/
def execLdBS (d a : BitVec 5) (i : BitVec 14) (s : State) : Host.Outcome State Fault Refusal := load 1 true d a i s
/-- LD.BN (04 R108). -/
def execLdBN (d a : BitVec 5) (i : BitVec 14) (s : State) : Host.Outcome State Fault Refusal := load 1 false d a i s
/-- LD.HS (04 R108). -/
def execLdHS (d a : BitVec 5) (i : BitVec 14) (s : State) : Host.Outcome State Fault Refusal := load 2 true d a i s
/-- LD.HN (04 R108). -/
def execLdHN (d a : BitVec 5) (i : BitVec 14) (s : State) : Host.Outcome State Fault Refusal := load 2 false d a i s
/-- LD.WS (04 R108). -/
def execLdWS (d a : BitVec 5) (i : BitVec 14) (s : State) : Host.Outcome State Fault Refusal := load 4 true d a i s
/-- LD.WN (04 R108). -/
def execLdWN (d a : BitVec 5) (i : BitVec 14) (s : State) : Host.Outcome State Fault Refusal := load 4 false d a i s
/-- LD.D (04 R108). -/
def execLdD (d a : BitVec 5) (i : BitVec 14) (s : State) : Host.Outcome State Fault Refusal := load 8 false d a i s
/-- ST.B (04 R108). -/
def execStB (d a : BitVec 5) (i : BitVec 14) (s : State) : Host.Outcome State Fault Refusal := store 1 d a i s
/-- ST.H (04 R108). -/
def execStH (d a : BitVec 5) (i : BitVec 14) (s : State) : Host.Outcome State Fault Refusal := store 2 d a i s
/-- ST.W (04 R108). -/
def execStW (d a : BitVec 5) (i : BitVec 14) (s : State) : Host.Outcome State Fault Refusal := store 4 d a i s
/-- ST.D (04 R108). -/
def execStD (d a : BitVec 5) (i : BitVec 14) (s : State) : Host.Outcome State Fault Refusal := store 8 d a i s

/-! ## Atomics (04 R113 to R115) -/

/-- AMO: one indivisible read-modify-write; a failed cas writes nothing; a 4-byte old value is sign-extended (04 R114). -/
def amo (op : Nat) (d a b : BitVec 5) (z : BitVec 1) (s : State) : Host.Outcome State Fault Refusal :=
  let n := if z = 0 then 4 else 8
  finish do
    let (l, s1) ← s.scalarLoc (s.rd a) n .rmw
    let old := BitVec.ofNat (8 * n) (s1.readLoc l n)
    let s2 := match amoNew op old ((s.rd b).setWidth (8 * n)) ((s.rd d).setWidth (8 * n)) with
      | some x => s1.storeLoc l n x.toNat
      | none => s1
    .ok ((s2.noteAtomic l n op (s.rdN b)).wrAdvance d (old.signExtend 64))

/-- AMO.ADD (04 R114). Each step of the machine performs its accesses in order, so `ORD` orders nothing more (04 R115). -/
def execAmoAdd (d a b : BitVec 5) (z : BitVec 1) (_o : BitVec 2) (s : State) : Host.Outcome State Fault Refusal := amo 0 d a b z s
/-- AMO.AND (04 R114). Each step of the machine performs its accesses in order, so `ORD` orders nothing more (04 R115). -/
def execAmoAnd (d a b : BitVec 5) (z : BitVec 1) (_o : BitVec 2) (s : State) : Host.Outcome State Fault Refusal := amo 1 d a b z s
/-- AMO.OR (04 R114). Each step of the machine performs its accesses in order, so `ORD` orders nothing more (04 R115). -/
def execAmoOr (d a b : BitVec 5) (z : BitVec 1) (_o : BitVec 2) (s : State) : Host.Outcome State Fault Refusal := amo 2 d a b z s
/-- AMO.XOR (04 R114). Each step of the machine performs its accesses in order, so `ORD` orders nothing more (04 R115). -/
def execAmoXor (d a b : BitVec 5) (z : BitVec 1) (_o : BitVec 2) (s : State) : Host.Outcome State Fault Refusal := amo 3 d a b z s
/-- AMO.MIN (04 R114). Each step of the machine performs its accesses in order, so `ORD` orders nothing more (04 R115). -/
def execAmoMin (d a b : BitVec 5) (z : BitVec 1) (_o : BitVec 2) (s : State) : Host.Outcome State Fault Refusal := amo 4 d a b z s
/-- AMO.MAX (04 R114). Each step of the machine performs its accesses in order, so `ORD` orders nothing more (04 R115). -/
def execAmoMax (d a b : BitVec 5) (z : BitVec 1) (_o : BitVec 2) (s : State) : Host.Outcome State Fault Refusal := amo 5 d a b z s
/-- AMO.MINN (04 R114). Each step of the machine performs its accesses in order, so `ORD` orders nothing more (04 R115). -/
def execAmoMinn (d a b : BitVec 5) (z : BitVec 1) (_o : BitVec 2) (s : State) : Host.Outcome State Fault Refusal := amo 6 d a b z s
/-- AMO.MAXN (04 R114). Each step of the machine performs its accesses in order, so `ORD` orders nothing more (04 R115). -/
def execAmoMaxn (d a b : BitVec 5) (z : BitVec 1) (_o : BitVec 2) (s : State) : Host.Outcome State Fault Refusal := amo 7 d a b z s
/-- AMO.SWAP (04 R114). Each step of the machine performs its accesses in order, so `ORD` orders nothing more (04 R115). -/
def execAmoSwap (d a b : BitVec 5) (z : BitVec 1) (_o : BitVec 2) (s : State) : Host.Outcome State Fault Refusal := amo 8 d a b z s
/-- AMO.CAS (04 R114). Each step of the machine performs its accesses in order, so `ORD` orders nothing more (04 R115). -/
def execAmoCas (d a b : BitVec 5) (z : BitVec 1) (_o : BitVec 2) (s : State) : Host.Outcome State Fault Refusal := amo 9 d a b z s

/-! ## Scalar floating point (04 R116 to R119) -/

/-- The format that `FMT` selects (04 R116). -/
def fpFmt (f : BitVec 1) : Fmt := if f = 0 then .f32 else .f64
/-- The mode that `RMS` selects, 7 taking frm (04 R116). -/
def State.fpMode (s : State) (r : BitVec 3) : RMode := rmodeOf (if r = 7 then s.th.frm else r.toNat)

/-- A scalar floating result: under SR the word is drawn as for element 0 (04 R116), the flags are raised (03 R94), and the
result is written zero-extended. SR asks for no feature here (DEDUCED, assumption 97). -/
def fpResult (mode : RMode) (d : BitVec 5) (f : Nat → Rounded) (s : State) : Host.Outcome State Fault Refusal :=
  let dr := if mode = .sr then srDraw s.th.gens 0 else (0, s.th.gens)
  let r := f dr.1
  .next (({ s with th := { s.th with gens := dr.2, fflags := s.th.fflags ||| r.flags } }).wrAdvance d (BitVec.ofNat 64 r.val))

/-- FADD (04 R117). -/
def execFadd (d a b : BitVec 5) (f : BitVec 1) (r : BitVec 3) (s : State) : Host.Outcome State Fault Refusal :=
  let m := s.fpMode r
  fpResult m d (fun w => fpAdd (fpFmt f) m w (dec (fpFmt f) (s.rdN a)) (dec (fpFmt f) (s.rdN b))) s
/-- FMUL (04 R117). -/
def execFmul (d a b : BitVec 5) (f : BitVec 1) (r : BitVec 3) (s : State) : Host.Outcome State Fault Refusal :=
  let m := s.fpMode r
  fpResult m d (fun w => fpMul (fpFmt f) m w (dec (fpFmt f) (s.rdN a)) (dec (fpFmt f) (s.rdN b))) s
/-- FFMA: a × b + d with one rounding, d the old g[D] (04 R117). -/
def execFfma (d a b : BitVec 5) (f : BitVec 1) (r : BitVec 3) (s : State) : Host.Outcome State Fault Refusal :=
  let m := s.fpMode r
  fpResult m d (fun w => fpFma (fpFmt f) m w (dec (fpFmt f) (s.rdN a)) (dec (fpFmt f) (s.rdN b)) (dec (fpFmt f) (s.rdN d))) s
/-- FCVT by its kind (04 R118). -/
def execFcvt (d a k : BitVec 5) (f : BitVec 1) (r : BitVec 3) (s : State) : Host.Outcome State Fault Refusal :=
  let m := s.fpMode r
  let x := s.rdN a
  fpResult m d (fun w =>
    match k.toNat with
    | 0 => enc (fpFmt f) m w (dec (if f = 0 then .f64 else .f32) x)
    | 1 => toInt 64 true m w (dec (fpFmt f) x)
    | 2 => toInt 64 false m w (dec (fpFmt f) x)
    | 3 => enc (fpFmt f) m w (ofInt 64 true x)
    | _ => enc (fpFmt f) m w (ofInt 64 false x)) s

/-- FCMP (04 R119). -/
def execFcmp (d a b : BitVec 5) (f : BitVec 1) (q : BitVec 2) (s : State) : Host.Outcome State Fault Refusal :=
  fpResult .rne d (fun _ =>
    let r := fpRel q.toNat (dec (fpFmt f) (s.rdN a)) (dec (fpFmt f) (s.rdN b))
    { val := r.1.toNat, flags := r.2 }) s

end Sys2Proof.Machine
end

