-- ==== Sys2Proof/Machine/Dispatch.lean ====
section
/-! DEFINITION. One arm for each instruction and device step: its meaning, or its refusal by name. -/
namespace Sys2Proof.Machine

/-- The meaning of an instruction or device step in a state. -/
def exec (i : Instr) (s : State) : Host.Outcome State Fault Refusal :=
  match i with
  | .add d a b => Sys2Proof.Machine.execAdd d a b s
  | .sub d a b => Sys2Proof.Machine.execSub d a b s
  | .and d a b => Sys2Proof.Machine.execAnd d a b s
  | .or d a b => Sys2Proof.Machine.execOr d a b s
  | .xor d a b => Sys2Proof.Machine.execXor d a b s
  | .sll d a b => Sys2Proof.Machine.execSll d a b s
  | .srl d a b => Sys2Proof.Machine.execSrl d a b s
  | .sra d a b => Sys2Proof.Machine.execSra d a b s
  | .slt d a b => Sys2Proof.Machine.execSlt d a b s
  | .sltn d a b => Sys2Proof.Machine.execSltn d a b s
  | .mul d a b => Sys2Proof.Machine.execMul d a b s
  | .mulh d a b => Sys2Proof.Machine.execMulh d a b s
  | .mulhn d a b => Sys2Proof.Machine.execMulhn d a b s
  | .div d a b => Sys2Proof.Machine.execDiv d a b s
  | .divn d a b => Sys2Proof.Machine.execDivn d a b s
  | .rem d a b => Sys2Proof.Machine.execRem d a b s
  | .remn d a b => Sys2Proof.Machine.execRemn d a b s
  | .min d a b => Sys2Proof.Machine.execMin d a b s
  | .max d a b => Sys2Proof.Machine.execMax d a b s
  | .minn d a b => Sys2Proof.Machine.execMinn d a b s
  | .maxn d a b => Sys2Proof.Machine.execMaxn d a b s
  | .clz d a => Sys2Proof.Machine.execClz d a s
  | .ctz d a => Sys2Proof.Machine.execCtz d a s
  | .popc d a => Sys2Proof.Machine.execPopc d a s
  | .bswap d a => Sys2Proof.Machine.execBswap d a s
  | .rotl d a b => Sys2Proof.Machine.execRotl d a b s
  | .rotr d a b => Sys2Proof.Machine.execRotr d a b s
  | .sel d a b => Sys2Proof.Machine.execSel d a b s
  | .addi d a imm => Sys2Proof.Machine.execAddi d a imm s
  | .andi d a imm => Sys2Proof.Machine.execAndi d a imm s
  | .ori d a imm => Sys2Proof.Machine.execOri d a imm s
  | .xori d a imm => Sys2Proof.Machine.execXori d a imm s
  | .slti d a imm => Sys2Proof.Machine.execSlti d a imm s
  | .sltni d a imm => Sys2Proof.Machine.execSltni d a imm s
  | .slli d a sel => Sys2Proof.Machine.execSlli d a sel s
  | .srli d a sel => Sys2Proof.Machine.execSrli d a sel s
  | .srai d a sel => Sys2Proof.Machine.execSrai d a sel s
  | .rotri d a sel => Sys2Proof.Machine.execRotri d a sel s
  | .lih d imm => Sys2Proof.Machine.execLih d imm s
  | .addpc d imm => Sys2Proof.Machine.execAddpc d imm s
  | .jal d imm => Sys2Proof.Machine.execJal d imm s
  | .jalr d a imm => Sys2Proof.Machine.execJalr d a imm s
  | .beq a b o => Sys2Proof.Machine.execBeq a b o s
  | .bne a b o => Sys2Proof.Machine.execBne a b o s
  | .blt a b o => Sys2Proof.Machine.execBlt a b o s
  | .bge a b o => Sys2Proof.Machine.execBge a b o s
  | .bltn a b o => Sys2Proof.Machine.execBltn a b o s
  | .bgen a b o => Sys2Proof.Machine.execBgen a b o s
  | .ldBS d a imm => Sys2Proof.Machine.execLdBS d a imm s
  | .ldBN d a imm => Sys2Proof.Machine.execLdBN d a imm s
  | .ldHS d a imm => Sys2Proof.Machine.execLdHS d a imm s
  | .ldHN d a imm => Sys2Proof.Machine.execLdHN d a imm s
  | .ldWS d a imm => Sys2Proof.Machine.execLdWS d a imm s
  | .ldWN d a imm => Sys2Proof.Machine.execLdWN d a imm s
  | .ldD d a imm => Sys2Proof.Machine.execLdD d a imm s
  | .stB d a imm => Sys2Proof.Machine.execStB d a imm s
  | .stH d a imm => Sys2Proof.Machine.execStH d a imm s
  | .stW d a imm => Sys2Proof.Machine.execStW d a imm s
  | .stD d a imm => Sys2Proof.Machine.execStD d a imm s
  | .amoAdd d a b z o => Sys2Proof.Machine.execAmoAdd d a b z o s
  | .amoAnd d a b z o => Sys2Proof.Machine.execAmoAnd d a b z o s
  | .amoOr d a b z o => Sys2Proof.Machine.execAmoOr d a b z o s
  | .amoXor d a b z o => Sys2Proof.Machine.execAmoXor d a b z o s
  | .amoMin d a b z o => Sys2Proof.Machine.execAmoMin d a b z o s
  | .amoMax d a b z o => Sys2Proof.Machine.execAmoMax d a b z o s
  | .amoMinn d a b z o => Sys2Proof.Machine.execAmoMinn d a b z o s
  | .amoMaxn d a b z o => Sys2Proof.Machine.execAmoMaxn d a b z o s
  | .amoSwap d a b z o => Sys2Proof.Machine.execAmoSwap d a b z o s
  | .amoCas d a b z o => Sys2Proof.Machine.execAmoCas d a b z o s
  | .fadd d a b f r => Sys2Proof.Machine.execFadd d a b f r s
  | .fmul d a b f r => Sys2Proof.Machine.execFmul d a b f r s
  | .ffma d a b f r => Sys2Proof.Machine.execFfma d a b f r s
  | .fcvt d a k f r => Sys2Proof.Machine.execFcvt d a k f r s
  | .fcmp d a b f q => Sys2Proof.Machine.execFcmp d a b f q s
  | .ecall => Sys2Proof.Machine.execEcall s
  | .brk => Sys2Proof.Machine.execBrk s
  | .tret r => Sys2Proof.Machine.execTret r s
  | .emuret => Sys2Proof.Machine.execEmuret s
  | .fence sel k => Sys2Proof.Machine.execFence sel k s
  | .lsync => Sys2Proof.Machine.execLsync s
  | .crrd d r => Sys2Proof.Machine.execCrrd d r s
  | .crwr d a r => Sys2Proof.Machine.execCrwr d a r s
  | .crset d a r => Sys2Proof.Machine.execCrset d a r s
  | .crclr d a r => Sys2Proof.Machine.execCrclr d a r s
  | .fmaskClear d a => Sys2Proof.Machine.execFmaskClear d a s
  | .srseedWrite d a => Sys2Proof.Machine.execSrseedWrite d a s
  | .ctxsv a => Sys2Proof.Machine.execCtxsv a s
  | .ctxld a => Sys2Proof.Machine.execCtxld a s
  | .tlbinv a b sel => Sys2Proof.Machine.execTlbinv a b sel s
  | .tlbsync => Sys2Proof.Machine.execTlbsync s
  | .rmack d a => Sys2Proof.Machine.execRmack d a s
  | .lwake a sel => Sys2Proof.Machine.execLwake a sel s
  | .idle => Sys2Proof.Machine.execIdle s
  | .undefinedInstruction w => Sys2Proof.Machine.execUndefinedInstruction w s
  | .setvl d a b e => Sys2Proof.Machine.execSetvl d a b e s
  | .setvlw d a b e => Sys2Proof.Machine.execSetvlw d a b e s
  | .vadd d a b k c => Sys2Proof.Machine.execVadd d a b k c s
  | .vsub d a b k c => Sys2Proof.Machine.execVsub d a b k c s
  | .vand d a b k c => Sys2Proof.Machine.execVand d a b k c s
  | .vor d a b k c => Sys2Proof.Machine.execVor d a b k c s
  | .vxor d a b k c => Sys2Proof.Machine.execVxor d a b k c s
  | .vsll d a b k c => Sys2Proof.Machine.execVsll d a b k c s
  | .vsrl d a b k c => Sys2Proof.Machine.execVsrl d a b k c s
  | .vsra d a b k c => Sys2Proof.Machine.execVsra d a b k c s
  | .vmul d a b k c => Sys2Proof.Machine.execVmul d a b k c s
  | .vmulh d a b k c => Sys2Proof.Machine.execVmulh d a b k c s
  | .vmulhn d a b k c => Sys2Proof.Machine.execVmulhn d a b k c s
  | .vdiv d a b k c => Sys2Proof.Machine.execVdiv d a b k c s
  | .vdivn d a b k c => Sys2Proof.Machine.execVdivn d a b k c s
  | .vrem d a b k c => Sys2Proof.Machine.execVrem d a b k c s
  | .vremn d a b k c => Sys2Proof.Machine.execVremn d a b k c s
  | .vmin d a b k c => Sys2Proof.Machine.execVmin d a b k c s
  | .vmax d a b k c => Sys2Proof.Machine.execVmax d a b k c s
  | .vminn d a b k c => Sys2Proof.Machine.execVminn d a b k c s
  | .vmaxn d a b k c => Sys2Proof.Machine.execVmaxn d a b k c s
  | .vclmul d a b k c => Sys2Proof.Machine.execVclmul d a b k c s
  | .vclmulh d a b k c => Sys2Proof.Machine.execVclmulh d a b k c s
  | .vwid d a k c => Sys2Proof.Machine.execVwid d a k c s
  | .vwidn d a k c => Sys2Proof.Machine.execVwidn d a k c s
  | .vaddScalar d a b k c => Sys2Proof.Machine.execVaddScalar d a b k c s
  | .vsubScalar d a b k c => Sys2Proof.Machine.execVsubScalar d a b k c s
  | .vandScalar d a b k c => Sys2Proof.Machine.execVandScalar d a b k c s
  | .vorScalar d a b k c => Sys2Proof.Machine.execVorScalar d a b k c s
  | .vxorScalar d a b k c => Sys2Proof.Machine.execVxorScalar d a b k c s
  | .vsllScalar d a b k c => Sys2Proof.Machine.execVsllScalar d a b k c s
  | .vsrlScalar d a b k c => Sys2Proof.Machine.execVsrlScalar d a b k c s
  | .vsraScalar d a b k c => Sys2Proof.Machine.execVsraScalar d a b k c s
  | .vmulScalar d a b k c => Sys2Proof.Machine.execVmulScalar d a b k c s
  | .vmulhScalar d a b k c => Sys2Proof.Machine.execVmulhScalar d a b k c s
  | .vmulhnScalar d a b k c => Sys2Proof.Machine.execVmulhnScalar d a b k c s
  | .vdivScalar d a b k c => Sys2Proof.Machine.execVdivScalar d a b k c s
  | .vdivnScalar d a b k c => Sys2Proof.Machine.execVdivnScalar d a b k c s
  | .vremScalar d a b k c => Sys2Proof.Machine.execVremScalar d a b k c s
  | .vremnScalar d a b k c => Sys2Proof.Machine.execVremnScalar d a b k c s
  | .vminScalar d a b k c => Sys2Proof.Machine.execVminScalar d a b k c s
  | .vmaxScalar d a b k c => Sys2Proof.Machine.execVmaxScalar d a b k c s
  | .vminnScalar d a b k c => Sys2Proof.Machine.execVminnScalar d a b k c s
  | .vmaxnScalar d a b k c => Sys2Proof.Machine.execVmaxnScalar d a b k c s
  | .vclmulScalar d a b k c => Sys2Proof.Machine.execVclmulScalar d a b k c s
  | .vclmulhScalar d a b k c => Sys2Proof.Machine.execVclmulhScalar d a b k c s
  | .vsadd d a b k c => Sys2Proof.Machine.execVsadd d a b k c s
  | .vssub d a b k c => Sys2Proof.Machine.execVssub d a b k c s
  | .vsaddn d a b k c => Sys2Proof.Machine.execVsaddn d a b k c s
  | .vssubn d a b k c => Sys2Proof.Machine.execVssubn d a b k c s
  | .vnrw d a k c => Sys2Proof.Machine.execVnrw d a k c s
  | .vnrwn d a k c => Sys2Proof.Machine.execVnrwn d a k c s
  | .vnrwsn d a k c => Sys2Proof.Machine.execVnrwsn d a k c s
  | .vsaddScalar d a b k c => Sys2Proof.Machine.execVsaddScalar d a b k c s
  | .vssubScalar d a b k c => Sys2Proof.Machine.execVssubScalar d a b k c s
  | .vsaddnScalar d a b k c => Sys2Proof.Machine.execVsaddnScalar d a b k c s
  | .vssubnScalar d a b k c => Sys2Proof.Machine.execVssubnScalar d a b k c s
  | .vfadd d a b k f c => Sys2Proof.Machine.execVfadd d a b k f c s
  | .vfsub d a b k f c => Sys2Proof.Machine.execVfsub d a b k f c s
  | .vfmul d a b k f c => Sys2Proof.Machine.execVfmul d a b k f c s
  | .vfma d a b k f c => Sys2Proof.Machine.execVfma d a b k f c s
  | .vfms d a b k f c => Sys2Proof.Machine.execVfms d a b k f c s
  | .vfnma d a b k f c => Sys2Proof.Machine.execVfnma d a b k f c s
  | .vfdiv d a b k f c => Sys2Proof.Machine.execVfdiv d a b k f c s
  | .vfsqrt d a k f c => Sys2Proof.Machine.execVfsqrt d a k f c s
  | .vfmin d a b k f c => Sys2Proof.Machine.execVfmin d a b k f c s
  | .vfmax d a b k f c => Sys2Proof.Machine.execVfmax d a b k f c s
  | .vfrcp d a k f c => Sys2Proof.Machine.execVfrcp d a k f c s
  | .vfaddScalar d a b k f c => Sys2Proof.Machine.execVfaddScalar d a b k f c s
  | .vfsubScalar d a b k f c => Sys2Proof.Machine.execVfsubScalar d a b k f c s
  | .vfmulScalar d a b k f c => Sys2Proof.Machine.execVfmulScalar d a b k f c s
  | .vfmaScalar d a b k f c => Sys2Proof.Machine.execVfmaScalar d a b k f c s
  | .vfmsScalar d a b k f c => Sys2Proof.Machine.execVfmsScalar d a b k f c s
  | .vfnmaScalar d a b k f c => Sys2Proof.Machine.execVfnmaScalar d a b k f c s
  | .vfdivScalar d a b k f c => Sys2Proof.Machine.execVfdivScalar d a b k f c s
  | .vfsqrtScalar d a k f c => Sys2Proof.Machine.execVfsqrtScalar d a k f c s
  | .vfminScalar d a b k f c => Sys2Proof.Machine.execVfminScalar d a b k f c s
  | .vfmaxScalar d a b k f c => Sys2Proof.Machine.execVfmaxScalar d a b k f c s
  | .vfrcpScalar d a k f c => Sys2Proof.Machine.execVfrcpScalar d a k f c s
  | .vcmp d a b k q c => Sys2Proof.Machine.execVcmp d a b k q c s
  | .vcmps d a b k q c => Sys2Proof.Machine.execVcmps d a b k q c s
  | .vfcmp d a b k q f c => Sys2Proof.Machine.execVfcmp d a b k q f c s
  | .vfcmps d a b k q f c => Sys2Proof.Machine.execVfcmps d a b k q f c s
  | .vmerge d a b k c => Sys2Proof.Machine.execVmerge d a b k c s
  | .vmv d a k c => Sys2Proof.Machine.execVmv d a k c s
  | .vbcast d a k c => Sys2Proof.Machine.execVbcast d a k c s
  | .vextN d a b c => Sys2Proof.Machine.execVextN d a b c s
  | .vextI d a b c => Sys2Proof.Machine.execVextI d a b c s
  | .vslideup d a b k c => Sys2Proof.Machine.execVslideup d a b k c s
  | .vslidedn d a b k c => Sys2Proof.Machine.execVslidedn d a b k c s
  | .vperm d a b k c => Sys2Proof.Machine.execVperm d a b k c s
  | .vcompress d a k c => Sys2Proof.Machine.execVcompress d a k c s
  | .vexpand d a k c => Sys2Proof.Machine.execVexpand d a k c s
  | .viota d k c => Sys2Proof.Machine.execViota d k c s
  | .vconf d a k c => Sys2Proof.Machine.execVconf d a k c s
  | .vredsum d a b k c => Sys2Proof.Machine.execVredsum d a b k c s
  | .vredmaxI d a b k c => Sys2Proof.Machine.execVredmaxI d a b k c s
  | .vredmaxN d a b k c => Sys2Proof.Machine.execVredmaxN d a b k c s
  | .vredminI d a b k c => Sys2Proof.Machine.execVredminI d a b k c s
  | .vredminN d a b k c => Sys2Proof.Machine.execVredminN d a b k c s
  | .vfredsum d a b k f c => Sys2Proof.Machine.execVfredsum d a b k f c s
  | .vredmaxF d a b k f c => Sys2Proof.Machine.execVredmaxF d a b k f c s
  | .vredminF d a b k f c => Sys2Proof.Machine.execVredminF d a b k f c s
  | .vcvt d a t sel k r g c => Sys2Proof.Machine.execVcvt d a t sel k r g c s
  | .vqnt d a b k q c => Sys2Proof.Machine.execVqnt d a b k q c s
  | .vdqnt d a b k q c => Sys2Proof.Machine.execVdqnt d a b k q c s
  | .mand d a b k c => Sys2Proof.Machine.execMand d a b k c s
  | .mor d a b k c => Sys2Proof.Machine.execMor d a b k c s
  | .mxor d a b k c => Sys2Proof.Machine.execMxor d a b k c s
  | .mnot d a k c => Sys2Proof.Machine.execMnot d a k c s
  | .mpopc d a k c => Sys2Proof.Machine.execMpopc d a k c s
  | .mfirst d a k c => Sys2Proof.Machine.execMfirst d a k c s
  | .mseti d a c => Sys2Proof.Machine.execMseti d a c s
  | .mvfm d c => Sys2Proof.Machine.execMvfm d c s
  | .vld d b k t sel o c => Sys2Proof.Machine.execVld d b k t sel o c s
  | .vlds d b x k t sel o c => Sys2Proof.Machine.execVlds d b x k t sel o c s
  | .vldx d b x k t sel o c => Sys2Proof.Machine.execVldx d b x k t sel o c s
  | .vldff d b k t sel o => Sys2Proof.Machine.execVldff d b k t sel o s
  | .vst d b k t sel o c => Sys2Proof.Machine.execVst d b k t sel o c s
  | .vsts d b x k t sel o c => Sys2Proof.Machine.execVsts d b x k t sel o c s
  | .vstx d b x k t sel o c => Sys2Proof.Machine.execVstx d b x k t sel o c s
  | .vstxa d f b x k t sel o c => Sys2Proof.Machine.execVstxa d f b x k t sel o c s
  | .vgll d b x k t sel o c => Sys2Proof.Machine.execVgll d b x k t sel o c s
  | .vscc d b x k t sel o c => Sys2Proof.Machine.execVscc d b x k t sel o c s
  | .vamoWAdd d a x k o => Sys2Proof.Machine.execVamoWAdd d a x k o s
  | .vamoWAnd d a x k o => Sys2Proof.Machine.execVamoWAnd d a x k o s
  | .vamoWOr d a x k o => Sys2Proof.Machine.execVamoWOr d a x k o s
  | .vamoWXor d a x k o => Sys2Proof.Machine.execVamoWXor d a x k o s
  | .vamoWMin d a x k o => Sys2Proof.Machine.execVamoWMin d a x k o s
  | .vamoWMax d a x k o => Sys2Proof.Machine.execVamoWMax d a x k o s
  | .vamoWMinn d a x k o => Sys2Proof.Machine.execVamoWMinn d a x k o s
  | .vamoWMaxn d a x k o => Sys2Proof.Machine.execVamoWMaxn d a x k o s
  | .vamoWSwap d a x k o => Sys2Proof.Machine.execVamoWSwap d a x k o s
  | .vamoWCas d a x k o => Sys2Proof.Machine.execVamoWCas d a x k o s
  | .vamoDAdd d a x k o => Sys2Proof.Machine.execVamoDAdd d a x k o s
  | .vamoDAnd d a x k o => Sys2Proof.Machine.execVamoDAnd d a x k o s
  | .vamoDOr d a x k o => Sys2Proof.Machine.execVamoDOr d a x k o s
  | .vamoDXor d a x k o => Sys2Proof.Machine.execVamoDXor d a x k o s
  | .vamoDMin d a x k o => Sys2Proof.Machine.execVamoDMin d a x k o s
  | .vamoDMax d a x k o => Sys2Proof.Machine.execVamoDMax d a x k o s
  | .vamoDMinn d a x k o => Sys2Proof.Machine.execVamoDMinn d a x k o s
  | .vamoDMaxn d a x k o => Sys2Proof.Machine.execVamoDMaxn d a x k o s
  | .vamoDSwap d a x k o => Sys2Proof.Machine.execVamoDSwap d a x k o s
  | .vamoDCas d a x k o => Sys2Proof.Machine.execVamoDCas d a x k o s
  | .vwait d a x k z q => Sys2Proof.Machine.execVwait d a x k z q s
  | .tagl d a k => Sys2Proof.Machine.execTagl d a k s
  | .tagw a b k => Sys2Proof.Machine.execTagw a b k s
  | .vspill a b sel => Sys2Proof.Machine.execVspill a b sel s
  | .vfill a sel => Sys2Proof.Machine.execVfill a sel s
  | .matt d a => Sys2Proof.Machine.execMatt d a s
  | .mdet => Sys2Proof.Machine.execMdet s
  | .mmode d a => Sys2Proof.Machine.execMmode d a s
  | .mzero d => Sys2Proof.Machine.execMzero d s
  | .mopa d a b n q p => Sys2Proof.Machine.execMopa d a b n q p s
  | .mopa2 d a b n q p => Sys2Proof.Machine.execMopa2 d a b n q p s
  | .mopa4 d a b n q p => Sys2Proof.Machine.execMopa4 d a b n q p s
  | .mops d a n p => Sys2Proof.Machine.execMops d a n p s
  | .mopg d a b n q p => Sys2Proof.Machine.execMopg d a b n q p s
  | .mopq d a b q => Sys2Proof.Machine.execMopq d a b q s
  | .mrd d a t => Sys2Proof.Machine.execMrd d a t s
  | .mwr d a t => Sys2Proof.Machine.execMwr d a t s
  | .mcbl a => Sys2Proof.Machine.execMcbl a s
  | .mrll a => Sys2Proof.Machine.execMrll a s
  | .msave a => Sys2Proof.Machine.execMsave a s
  | .mrest a => Sys2Proof.Machine.execMrest a s
  | .schIn d a b => Sys2Proof.Machine.execSchIn d a b s
  | .schOut d a b => Sys2Proof.Machine.execSchOut d a b s
  | .schRel d => Sys2Proof.Machine.execSchRel d s
  | .sld d a => Sys2Proof.Machine.execSld d a s
  | .sst d a => Sys2Proof.Machine.execSst d a s
  | .sgath d a b k => Sys2Proof.Machine.execSgath d a b k s
  | .sscat d a b k => Sys2Proof.Machine.execSscat d a b k s
  | .sscataInt d a b k => Sys2Proof.Machine.execSscataInt d a b k s
  | .sscataFloat d a b k => Sys2Proof.Machine.execSscataFloat d a b k s
  | .swm d a b => Sys2Proof.Machine.execSwm d a b s
  | .sdrain b => Sys2Proof.Machine.execSdrain b s
  | .sdrainAll => Sys2Proof.Machine.execSdrainAll s
  | .rcfg a b sel => Sys2Proof.Machine.execRcfg a b sel s
  | .rwait d a b sel => Sys2Proof.Machine.execRwait d a b sel s
  | .rfree d a sel => Sys2Proof.Machine.execRfree d a sel s
  | .chcfg a b sel => Sys2Proof.Machine.execChcfg a b sel s
  | .run a sel => Sys2Proof.Machine.execRun a sel s
  | .chwait d sel => Sys2Proof.Machine.execChwait d sel s
  | .chbrk d sel => Sys2Proof.Machine.execChbrk d sel s
  | .hwpub d a b n => Sys2Proof.Machine.execHwpub d a b n s
  | .tkpush d a => Sys2Proof.Machine.execTkpush d a s
  | .tkpop d => Sys2Proof.Machine.execTkpop d s
  | .qwr d a => Sys2Proof.Machine.execQwr d a s
  | .qrd d a => Sys2Proof.Machine.execQrd d a s
  | .launch d a => Sys2Proof.Machine.execLaunch d a s
  | .convoyRetire h => Sys2Proof.Machine.execConvoyRetire h s
  | .takeAsyncCause h => Sys2Proof.Machine.execTakeAsyncCause h s
  | .rmgraceExpire h => Sys2Proof.Machine.execRmgraceExpire h s
  | .vwaitWake h => Sys2Proof.Machine.execVwaitWake h s
  | .setvlwWake h => Sys2Proof.Machine.execSetvlwWake h s
  | .rwaitWake h => Sys2Proof.Machine.execRwaitWake h s
  | .swmWake h => Sys2Proof.Machine.execSwmWake h s
  | .sdrainWake h => Sys2Proof.Machine.execSdrainWake h s
  | .qwrWake h => Sys2Proof.Machine.execQwrWake h s
  | .qrdWake h => Sys2Proof.Machine.execQrdWake h s
  | .chwaitWake h => Sys2Proof.Machine.execChwaitWake h s
  | .tlbsyncWake h => Sys2Proof.Machine.execTlbsyncWake h s
  | .chcfgClaimWake h => Sys2Proof.Machine.execChcfgClaimWake h s
  | .transferSlotWake h => Sys2Proof.Machine.execTransferSlotWake h s
  | .runWaitWake h => Sys2Proof.Machine.execRunWaitWake h s
  | .stripComplete core ch => Sys2Proof.Machine.execStripComplete core ch s
  | .streamRetranslation core ch => Sys2Proof.Machine.execStreamRetranslation core ch s
  | .tlbinvComplete h => Sys2Proof.Machine.execTlbinvComplete h s
  | .chainNodeElement h slot frame => Sys2Proof.Machine.execChainNodeElement h slot frame s
  | .switchEntryMove h slot frame => Sys2Proof.Machine.execSwitchEntryMove h slot frame s
  | .runComplete h slot => Sys2Proof.Machine.execRunComplete h slot s
  | .chainDrainComplete h slot => Sys2Proof.Machine.execChainDrainComplete h slot s
  | .chainFinish h => Sys2Proof.Machine.execChainFinish h s
  | .groupStart group => Sys2Proof.Machine.execGroupStart group s
  | .threadEnd h => Sys2Proof.Machine.execThreadEnd h s
  | .threadTermination h => Sys2Proof.Machine.execThreadTermination h s
  | .launchCompletion launch => Sys2Proof.Machine.execLaunchCompletion launch s
  | .dispatchStep part => Sys2Proof.Machine.execDispatchStep part s
  | .imageSelection part queue => Sys2Proof.Machine.execImageSelection part queue s
  | .migrationDeviceRequest h => Sys2Proof.Machine.execMigrationDeviceRequest h s
  | .migrationSwitch leaf => Sys2Proof.Machine.execMigrationSwitch leaf s
  | .migrationInvalidationComplete leaf => Sys2Proof.Machine.execMigrationInvalidationComplete leaf s
  | .migrationHoldExpire leaf => Sys2Proof.Machine.execMigrationHoldExpire leaf s
  | .reductionToken node => Sys2Proof.Machine.execReductionToken node s
  | .reductionNodeFail node => Sys2Proof.Machine.execReductionNodeFail node s
  | .kslFlitReceive port flit => Sys2Proof.Machine.execKslFlitReceive port flit s
  | .kslRetryRequest port seq => Sys2Proof.Machine.execKslRetryRequest port seq s
  | .kslLinkDown port => Sys2Proof.Machine.execKslLinkDown port s
  | .hwr vi tag addr data => Sys2Proof.Machine.execHwr vi tag addr data s
  | .hrd vi tag addr len => Sys2Proof.Machine.execHrd vi tag addr len s
  | .cpl tag stat data => Sys2Proof.Machine.execCpl tag stat data s
  | .lmsg vi tag addr => Sys2Proof.Machine.execLmsg vi tag addr s
  | .migreq vi tag addr => Sys2Proof.Machine.execMigreq vi tag addr s
  | .rtok port tag failed data => Sys2Proof.Machine.execRtok port tag failed data s
  | .mgmtPartition src part clusters vis feat => Sys2Proof.Machine.execMgmtPartition src part clusters vis feat s
  | .mgmtQueueConfiguration src part queue entry => Sys2Proof.Machine.execMgmtQueueConfiguration src part queue entry s
  | .mgmtWindow src vi win hostBase len vbase asid => Sys2Proof.Machine.execMgmtWindow src vi win hostBase len vbase asid s
  | .mgmtPreempt src core thr => Sys2Proof.Machine.execMgmtPreempt src core thr s
  | .mgmtSwap src group restoreTo => Sys2Proof.Machine.execMgmtSwap src group restoreTo s
  | .mgmtArmNode src node desc => Sys2Proof.Machine.execMgmtArmNode src node desc s
  | .mgmtHold src nanos => Sys2Proof.Machine.execMgmtHold src nanos s
  | .mgmtThreshold src count => Sys2Proof.Machine.execMgmtThreshold src count s
  | .mgmtCap src reg write => Sys2Proof.Machine.execMgmtCap src reg write s
  | .mgmtPool src add frame => Sys2Proof.Machine.execMgmtPool src add frame s
  | .mgmtAttest src nonce => Sys2Proof.Machine.execMgmtAttest src nonce s
  | .mgmtStatus src => Sys2Proof.Machine.execMgmtStatus src s
  | .mgmtLaunchEnvironment src vi env => Sys2Proof.Machine.execMgmtLaunchEnvironment src vi env s
  | .capFrame payload => Sys2Proof.Machine.execCapFrame payload s
  | .powerEstimate => Sys2Proof.Machine.execPowerEstimate s
  | .throttleRelease => Sys2Proof.Machine.execThrottleRelease s
  | .thermalAlarm die => Sys2Proof.Machine.execThermalAlarm die s
  | .currentAlarm part => Sys2Proof.Machine.execCurrentAlarm part s
  | .linkIdleNarrow link => Sys2Proof.Machine.execLinkIdleNarrow link s
  | .linkIdleSleep link => Sys2Proof.Machine.execLinkIdleSleep link s
  | .linkWakeComplete link => Sys2Proof.Machine.execLinkWakeComplete link s
  | .correctedError unit => Sys2Proof.Machine.execCorrectedError unit s
  | .uncorrectableError lost => Sys2Proof.Machine.execUncorrectableError lost s
  | .resourceMapPublish => Sys2Proof.Machine.execResourceMapPublish s
  | .boot => Sys2Proof.Machine.execBoot s
  | .linkRetrainComplete port => Sys2Proof.Machine.execLinkRetrainComplete port s

end Sys2Proof.Machine
end

