-- ==== Sys2Proof/Machine/Step.lean ====
section
/-! DEFINITION. One step of the machine: an input or choice of the agenda, the turn of the current thread, or one device step that is
due; and the placing of a word where the next step fetches. -/
namespace Sys2Proof.Machine

/-- The first of some device steps that changes the state; the state as it is where none does. -/
def firstStep (s : State) : List Instr → Host.Outcome State Fault Refusal
  | [] => .next s
  | i :: r =>
    match exec i s with
    | .next t => if t = s then firstStep s r else .next { t with rot := s.rot + 1 }
    | o => o

/-- One step (assumption 3). The decoder, and so the step, is noncomputable only in that Lean generates no code for it. -/
noncomputable def step (s : State) : Host.Outcome State Fault Refusal :=
  match s.agenda with
  | i :: r => if deviceStep i then exec i { s with agenda := r } else .next { s with agenda := r }
  | [] =>
    match s.turn with
    | .thread =>
      match ({ s with turn := .engine } : State).issue with
      | .idle => .next { s with turn := .engine }
      | .run i t =>
        match t.lateFrom i with
        | none => exec i (t.caughtUp i)
        | some u => t.afterLate (exec i u)
      | .ends o => o
    | .engine =>
      let t := ({ s with turn := .thread } : State).takeNews.flushLinks.pickNext
      firstStep t t.dueSteps

/-- The state whose next step fetches and runs the instruction with the bits `w`, `nbits` of them given and the others zero. -/
def State.withFetchWord (s : State) (nbits w : Nat) : State := s.placeWord (w % 2 ^ nbits)

end Sys2Proof.Machine
end

