-- ==== Sys2Proof/Safety.lean ====
section
/-! DEFINITION. What a sound state is, and the terms in which the statements say what a step leaves as it was. -/
namespace Sys2Proof.Machine

/-! ## Sound states -/

/-- Every byte memory of the module is in its canonical form: device memory, host memory, the code stores, and the tile allocations
of the cores and of groups that are swapped out. -/
def State.wf (s : State) : Bool :=
  s.dram.wf && s.host.wf && (s.clusters.all fun c => c.2.code.wf)
    && (s.cores.all fun c => c.2.allocs.all fun a => a.2.mem.wf)
    && (s.groups.all fun g => g.2.savedAllocs.all fun a => a.mem.wf)

/-! ## What is left as it was -/

/-- From `s` to `t` nothing but the context of the current thread has changed. -/
def OnlyThread (s t : State) : Prop := t = { s with th := t.th }
/-- Every byte of device memory, host memory and tile memory reads as before. -/
def SameBytes (s t : State) : Prop := ∀ l : Loc, t.readLoc l 1 = s.readLoc l 1
/-- Of two thread contexts nothing differs but the scalar registers, the program counter, the convoy position and a
reissue, which is over. -/
def OnlyScalars (x y : Thread) : Prop := y = { x with g := y.g, pc := y.pc, cv := y.cv, reissue := false }
/-- Every scalar register but `d` reads as before. -/
def KeepsRegs (d : BitVec 5) (s t : State) : Prop := ∀ r, r ≠ d → t.rd r = s.rd r
/-- Scalar register `d` holds `x` after the step; g0 discards it and reads as zero (01 R13, 04 R99). -/
def Holds (d : BitVec 5) (x : Word) (t : State) : Prop := t.rd d = if d = 0 then 0 else x

/-- `i` completes in `s` with `x` in g[d] and control at `target`: no other register, flag, special register or byte of memory
changes. -/
def GoesTo (i : Instr) (s : State) (d : BitVec 5) (x target : Word) : Prop :=
  ∃ t, exec i s = .next t ∧ Holds d x t ∧ KeepsRegs d s t ∧ t.th.pc = target
    ∧ OnlyScalars s.th t.th ∧ OnlyThread s t ∧ SameBytes s t
/-- `i` completes in `s` with `x` in g[d], execution going on at pc + 4. -/
def WritesReg (i : Instr) (s : State) (d : BitVec 5) (x : Word) : Prop := GoesTo i s d x (s.th.pc + 4)

/-! ## Bytes -/

/-- The little-endian value of the `n` bytes from a location, read one by one (00 R8). -/
def State.bytesAt (s : State) (l : Loc) (n : Nat) : Nat :=
  ((List.range n).map fun i => s.readLoc (l.add i) 1 * 256 ^ i).sum
/-- A location is one of the `n` from `l`. -/
def Loc.within (m l : Loc) (n : Nat) : Prop := ∃ i < n, m = l.add i
/-- Host memory is behind a link that is not up, so that a write there is dropped, or held while the link retrains (20 R418). -/
def State.dropped (s : State) (l : Loc) : Prop := s.ksl.phase ≠ .up ∧ ∃ p, l = .hostmem p
/-- From `s` to `t` the `n` bytes at `l` have become those of `x`, and so have the forked ones; every other byte reads as
before. -/
def Stored (s t : State) (l : Loc) (n x : Nat) : Prop :=
  (¬ s.dropped l → (∀ f, s.forkOf l = some f → ∀ m : Loc, m.within f n → ¬ m.within l n) →
    ∀ i < n, t.readLoc (l.add i) 1 = x / 256 ^ i % 256)
  ∧ ∀ m : Loc, ¬ m.within l n → (∀ f, s.forkOf l = some f → ¬ m.within f n) → t.readLoc m 1 = s.readLoc m 1

/-! ## Scalar accesses -/

/-- A scalar instruction that accesses memory: its bytes, its effective address, and whether it reads, writes or does both. -/
structure ScalarAccess where
  instr : Instr
  size : Nat
  addr : Word
  kind : AKind
  deriving DecidableEq, Repr
/-- The scalar loads and stores at g[a] + `i`, and the AMOs at g[a] (04 R108, R114). -/
noncomputable def State.scalarAccesses (s : State) (d a b : BitVec 5) (i : BitVec 14) (z : BitVec 1) (o : BitVec 2) : List ScalarAccess :=
  let ea := s.rd a + BitVec.ofInt 64 i.toInt
  let loads : List (Nat × Instr) :=
    [(1, .ldBS d a i), (1, .ldBN d a i), (2, .ldHS d a i), (2, .ldHN d a i), (4, .ldWS d a i), (4, .ldWN d a i), (8, .ldD d a i)]
  let stores : List (Nat × Instr) := [(1, .stB d a i), (2, .stH d a i), (4, .stW d a i), (8, .stD d a i)]
  let amos : List Instr :=
    [.amoAdd d a b z o, .amoAnd d a b z o, .amoOr d a b z o, .amoXor d a b z o, .amoMin d a b z o, .amoMax d a b z o, .amoMinn d a b z o,
     .amoMaxn d a b z o, .amoSwap d a b z o, .amoCas d a b z o]
  (loads.map fun p => { instr := p.2, size := p.1, addr := ea, kind := .read })
    ++ (stores.map fun p => { instr := p.2, size := p.1, addr := ea, kind := .write })
    ++ amos.map fun x => { instr := x, size := if z = 0 then 4 else 8, addr := s.rd a, kind := .rmw }

/-! ## Lane groups -/

/-- From `s` to `t` the current thread's request for `r` lane groups has been granted as 09 R245 and R246 say, limited by its `LIM`. `share` are the
shares of the threads of the core or gang that ask: where all that they want above one lane group each can be given, it is; else each gets its
proportional part, and what is left goes to those with the largest remainders, the lower number first. The thread gives up what it holds above its
share, or takes what it lacks from the free lane groups that are not kept for other threads; those whose every lane group has been withdrawn are counted
with those that have not asked (assumption 61). No other thread's holding changes, and where a lane group is free for each that one is kept for, the
thread holds at least one (09 R247). -/
def Granted (s t : State) (r : Nat) : Prop :=
  let c := s.core
  let h := s.thr
  let count := fun p : LaneOwner → Bool => ((s.laneList c).filter fun l => p l.2.2.1 && l.2.2.2).length
  let lim := (s.lat c h).lim
  let req := fun u => if u = h then (if lim = 0 then r else Nat.min r lim) else (s.lat c u).req
  let asks := (s.residents c).filter fun u => u == h || (s.lat c u).ask
  let L := s.live c - count (· == .bake)
  let want := fun u => Nat.min (req u) L - 1
  let W := (asks.map want).sum
  let E := L - (s.residents c).length
  let share := fun u => (t.lat c u).share
  let free := count (· == .free) - ((s.owed c).filter (· != h)).length
  let mine := count (· == .thread h)
  h ∈ s.residents c →
    (t.lat c h).req = req h ∧ (t.lat c h).ask = true
    ∧ (W ≤ E → ∀ u ∈ asks, share u = 1 + want u)
    ∧ (E < W → (∀ u ∈ asks, share u = 1 + E * want u / W ∨ share u = 2 + E * want u / W) ∧ (asks.map share).sum = asks.length + E
        ∧ ∀ u ∈ asks, ∀ v ∈ asks, share v = 2 + E * want v / W →
          (E * want v % W < E * want u % W ∨ (E * want v % W = E * want u % W ∧ u < v)) → share u = 2 + E * want u / W)
    ∧ t.held c h = (if share h < mine then share h else mine + Nat.min (share h - mine) free)
    ∧ (∀ u < 4, u ≠ h → t.held c u = s.held c u)
    ∧ (s.covered c = true → 1 ≤ t.held c h)

/-! ## Exceptions -/

/-- From `s` to `t` the trap `x` has been entered at level `l` as 19 R383 says: the cause, restart point, faulting address, value and
info registers of the level are written, `PAIE` holds the old `AIE`, `AIE` is 0 and `TIH` 1, the level is `l`, emulation mode is left and
the program counter holds the handler; nothing else of the context changes, and of the machine only the thread's link tags (06 R183). -/
def Entered (s t : State) (l : Level) (x : Trap) : Prop :=
  let r := t.th.regs l
  let old := s.th.regs l
  let c := r.cause.toNat
  let member := match s.th.cv with | some v => (if x.fresh then 0 else v.idx) | none => 0
  let e0 := match s.th.cv with | some v => v.e0 | none => s.th.estart
  t.th.level = l ∧ t.th.em = false ∧ t.th.pc = old.vec ∧ t.th.status = .issuing
  ∧ bits c 0 6 = x.cause ∧ bits c 24 16 = e0 % 2 ^ 16 ∧ bits c 40 2 = member % 4 ∧ bits c 48 8 = x.det % 256
  ∧ bitOf c 59 = s.th.em ∧ bits c 60 2 = s.th.level.num ∧ bitOf c 62 = x.fin ∧ bitOf c 63 = x.async
  ∧ r.epc = x.epc.getD s.th.pc
  ∧ r.fpc = (if x.async then x.epc.getD s.th.pc else x.fpc.getD s.th.ipc)
  ∧ r.tval = x.tval
  ∧ bits r.info.toNat 0 2 = x.slot % 4 ∧ bits r.info.toNat 16 6 = x.frame % 64 ∧ bits r.info.toNat 32 32 = x.elem % 2 ^ 32
  ∧ r.paie = old.aie ∧ r.aie = false ∧ r.tih = true ∧ r.vec = old.vec ∧ r.scratch = old.scratch
  ∧ (l = .firmware → t.th.sup = s.th.sup) ∧ (l ≠ .firmware → t.th.fw = s.th.fw)
  ∧ t.th = { s.th with sup := t.th.sup, fw := t.th.fw, pc := t.th.pc, level := l, em := false, cv := none, reissue := false,
                       status := .issuing }
  ∧ t = { s with th := t.th, tags := t.tags } ∧ SameBytes s t
/-- The level that takes a cause raised at the thread's level (19 R376). -/
def State.taker (s : State) (cause : Nat) : Level :=
  if cause = 50 ∨ s.th.level = .firmware ∨ (cause = 48 ∧ s.th.level = .supervisor) then .firmware else .supervisor
/-- Level `l` handles no trap and its handler lies in the runtime window, so that it can take one (15 R327, 19 R386). -/
def State.canTake (s : State) (l : Level) : Prop :=
  (s.th.regs l).tih = false ∧ s.inRuntime s.core (s.th.regs l).vec.toNat = true
/-- `i` takes the trap `x` in `s`, entering level `l`. -/
def Traps (i : Instr) (s : State) (l : Level) (x : Trap) : Prop := ∃ t, exec i s = .next t ∧ Entered s t l x

/-- Steps 2 to 6 of a context load (19 R397) for a save area that has passed its checks; none where a resource is not free, or where an
image that a slot or its entries need cannot be read now. -/
def State.restored (s : State) (x : Saved) : Option State := do
  let s3 ← (s.releaseChains s.cur).restoreLanes x.fixed
  let s4 ← s3.restoreState x
  let s5 ← s4.restoreMatrix x
  let s6 ← (s5.restoreStreams x).toOption
  (s6.restoreChains x).toOption

/-! ## Vector instructions -/

/-- The element from which a convoy member starts: estart as it stood at the convoy's issue, or for the member at which the convoy
resumes estart as it stands (09 R251, R257). -/
def State.start (s : State) : Nat :=
  match s.th.cv with
  | some v => if v.resumed then s.th.estart else v.e0
  | none => s.th.estart
/-- A member governed by mask `k` performs element `j` (05 R133, R135). -/
def State.performs (s : State) (k : BitVec 3) (j : Nat) : Bool := decide (s.start ≤ j) && decide (j < s.th.vl) && s.active k j
/-- The elements that a member governed by mask `k` performs, in ascending order. -/
def State.performed (s : State) (k : BitVec 3) : List Nat := (span s.start s.th.vl).filter (s.active k)
/-- Those of them that are left to a memory instruction which has stopped within itself (06 R175). -/
def State.left (s : State) (k : BitVec 3) : List Nat := (s.performed k).filter fun j => !s.partMask.testBit j
/-- The convoy position after a member with bit C = `c` has completed (09 R251, R254). -/
def State.passed (s : State) (c : BitVec 1) : Option Convoy :=
  let v := s.th.cv.getD { e0 := s.th.estart }
  some { v with idx := v.idx + 1, last := c == 0, resumed := false, part := none, upTo := none }
/-- estart as it stood at the convoy's issue, from which the next member runs (09 R251, R257). -/
def State.firstElt (s : State) : Nat := (s.th.cv.getD { e0 := s.th.estart }).e0
/-- From `s` to `t` a convoy member has completed: the position has passed it, estart is that of the convoy's issue, and of the thread nothing
else differs but vector, mask and scalar registers, fflags and the stochastic generators; of the machine nothing else. -/
def MemberDone (c : BitVec 1) (s t : State) : Prop :=
  t.th = { s.th with v := t.th.v, m := t.th.m, g := t.th.g, fflags := t.th.fflags, gens := t.th.gens, cv := s.passed c,
                       estart := s.firstElt, reissue := false }
  ∧ OnlyThread s t ∧ SameBytes s t
/-- Every vector register but `d` is as before. -/
def KeepsVectors (d : BitVec 5) (s t : State) : Prop := ∀ r, r ≠ d → t.vreg r = s.vreg r
/-- Every mask register but `d` is as before. -/
def KeepsMasks (d : Nat) (s t : State) : Prop := ∀ r : Fin 8, r.val ≠ d → t.th.m[r] = s.th.m[r]
/-- fflags has gained exactly the flags that the performed elements raise (01 R24, 03 R94). -/
def GainsFlags (s t : State) (k : BitVec 3) (f : Nat → Nat) : Prop :=
  ∀ b, t.th.fflags.testBit b = true ↔ s.th.fflags.testBit b = true ∨ ∃ j, s.performs k j = true ∧ (f j).testBit b = true
/-- `i` completes with, in every performed element of v[d] at width `w`, the value, flags and m0 mark of `f`, and the generators `gens`; the
other elements, and every other register, keep their values. -/
def ElementwiseIn (i : Instr) (s : State) (d : BitVec 5) (w : Nat) (k : BitVec 3) (c : BitVec 1) (gens : List W32) (f : Nat → Rounded) :
    Prop :=
  ∃ t, exec i s = .next t ∧ MemberDone c s t ∧ t.th.g = s.th.g ∧ t.th.gens = gens ∧ KeepsVectors d s t
    ∧ (∀ j, elt (t.vreg d) w j = if s.performs k j then (f j).val % 2 ^ w else elt (s.vreg d) w j)
    ∧ GainsFlags s t k (fun j => (f j).flags)
    ∧ (∀ j, t.th.m[0].testBit j = (s.th.m[0].testBit j || (s.performs k j && (f j).mark))) ∧ KeepsMasks 0 s t
/-- So with the generators as before. -/
def Elementwise (i : Instr) (s : State) (d : BitVec 5) (w : Nat) (k : BitVec 3) (c : BitVec 1) (f : Nat → Rounded) : Prop :=
  ElementwiseIn i s d w k c s.th.gens f
/-- The word that generator `j` mod 128 gives at its step `n` from now (03 R90). -/
def State.srWordAt (s : State) (j n : Nat) : Nat := srWordOf (srStep^[n] (s.th.gens.getD (j % 128) 0))
/-- The generators once generator `j` has stepped `n j` times (03 R90). -/
def State.srStepped (s : State) (n : Nat → Nat) : List W32 := (List.range 128).map fun j => srStep^[n j] (s.th.gens.getD j 0)
/-- The performed elements that draw from the generator of `j`, up to `j` (03 R90). -/
def State.srDraws (s : State) (k : BitVec 3) (j : Nat) : Nat :=
  ((s.performed k).filter fun i => decide (i ≤ j) && i % 128 == j % 128).length
/-- The generators after an element-wise instruction under SR: one step for each performed element (03 R90). -/
def State.srAfter (s : State) (k : BitVec 3) : List W32 := s.srStepped fun j => ((s.performed k).filter (· % 128 == j)).length
/-- `i` completes with, in every performed bit of m[d], the truth value of `f`; the other bits below vlmax and every other register keep
their values, and the flags of `fl` are gained. -/
def Maskwise (i : Instr) (s : State) (d : BitVec 5) (k : BitVec 3) (c : BitVec 1) (f : Nat → Bool) (fl : Nat → Nat) : Prop :=
  ∃ t, exec i s = .next t ∧ MemberDone c s t ∧ t.th.g = s.th.g ∧ t.th.gens = s.th.gens ∧ t.th.v = s.th.v ∧ KeepsMasks d.toNat s t
    ∧ (∀ j < s.th.vlmax, (t.mreg d.toNat).testBit j = if s.performs k j then f j else (s.mreg d.toNat).testBit j)
    ∧ GainsFlags s t k fl
/-- The format of a floating vector operation with bit `BF` = `f` at the current element width (05 R147). -/
def State.format (s : State) (f : BitVec 1) (F : Fmt) : Prop :=
  (f = 1 ∧ s.th.ew = 1 ∧ F = Fmt.bf16) ∨ (f = 0 ∧ s.th.ew = 1 ∧ F = Fmt.f16) ∨ (f = 0 ∧ s.th.ew = 2 ∧ F = Fmt.f32)
    ∨ (f = 0 ∧ s.th.ew = 3 ∧ s.hasFeat 0 = true ∧ F = Fmt.f64)
/-- Node `i` of level `l` of the pairwise tree of VFREDSUM (03 R98): a leaf, or the sum of two neighbours of the level below, rounded in mode
`m` with the word of its level and index. -/
def treeNode (F : Fmt) (m : RMode) (word : Nat → Nat → Nat) (leaf : Nat → Nat) : Nat → Nat → Rounded
  | 0, i => { val := leaf i }
  | l + 1, i => fpAdd F m (word (l + 1) i) (dec F (treeNode F m word leaf l (2 * i)).val) (dec F (treeNode F m word leaf l (2 * i + 1)).val)
/-- How often the generator of index `i` has stepped when the add `i` of level `l`, in a tree of 2^lg leaves, has drawn: the adds of the
levels below, in full, and those of its level up to it (03 R98). The final add is index 0 of level lg + 1. -/
def treeDraws (lg l i : Nat) : Nat :=
  let among := fun n : Nat => ((List.range n).filter (· % 128 == i % 128)).length
  ((List.range (l - 1)).map fun h => among (2 ^ (lg - (h + 1)))).sum + among (i + 1)
/-- `i` traps ILLEGAL in `s` with its word, and nothing is written (19 R376). -/
def IsIllegal (i : Instr) (s : State) : Prop := exec i s = .next (s.takeTrap { cause := 2, tval := s.word.setWidth 64 })

/-! ## Vector memory -/

/-- The addresses of the elements `js` pass the checks of 06 R171: element `j` is at `loc j`, and where its data is read it is not poisoned;
`u` is `s` with the translations that were found. -/
def State.Reaches (s : State) (tile : Bool) (n : Nat) (kind : AKind) (reads : Bool) (js : List Nat) (addr : Nat → Nat) (loc : Nat → Loc)
    (u : State) : Prop :=
  s.locateAll .v s.th.level tile n kind (js.map fun j => (j, addr j)) = (u, js.map fun j => (j, addr j, .ok (loc j)))
  ∧ (reads = true → ∀ j ∈ js, u.poisonedLoc (loc j) n = false)
/-- The elements that a vector memory instruction governed by mask `k` is to perform: those left to it, and on a reissue of the unordered class
only those whose fmask bit is set (06 R172, R173). -/
def State.toPerform (s : State) (ordered : Bool) (k : BitVec 3) : List Nat :=
  (s.left k).filter fun j => !(s.th.reissue && !ordered) || s.th.fmask.testBit j
/-- What befalls a vector memory instruction whose elements `js`, of `n` bytes, do not all pass the checks of 06 R171: `addr j` is the address of
element `j`, and `does l loc v` says that in `v` exactly the elements `l` have been performed, at `loc`. A MISALIGN, then a TILEBND and, in the
unordered class, a PROT element traps with nothing performed, the lowest of its kind reported. The unordered class then performs every element
that it can and leaves the others in fmask: it takes PAGEBATCH with one record for each of the first sixteen 4 KiB pages that they touch, or
POISON where every one is poisoned (R172, R177). The ordered class performs the elements below the lowest that fails, which estart names, and
takes the cause of that one (R174); the first-fault class does so where that is its first element (R176). -/
def Checked (i : Instr) (s : State) (tile : Bool) (n : Nat) (kind : AKind) (reads ordered first : Bool) (js : List Nat) (addr : Nat → Nat)
    (does : List Nat → (Nat → Loc) → State → Prop) : Prop :=
  ∀ (u : State) (r : Nat → Except AErr Loc) (loc : Nat → Loc),
    s.locateAll .v s.th.level tile n kind (js.map fun j => (j, addr j)) = (u, js.map fun j => (j, addr j, r j)) →
    (∀ j ∈ js, ∀ l, r j = .ok l → loc j = l) →
    let err := fun j => match r j with
      | .error e => some e
      | .ok l => if reads && u.poisonedLoc l n then some .poison else none
    let lowest := fun p : AErr → Bool => js.find? fun j => (err j).any p
    let ends := fun (x : Trap) (estart : Nat) (fmask : Nat → Bool) (done : List Nat) => ∃ v, exec i s = .next (v.takeTrap x) ∧ does done loc v
      ∧ (∀ j, v.th.fmask.testBit j = fmask j)
      ∧ v.th = { s.th with v := v.th.v, m := v.th.m, fflags := v.th.fflags, fmask := v.th.fmask, estart := estart
                           cv := some (s.th.cv.getD { e0 := s.th.estart }) }
    let refused := fun x : Trap => ends x s.th.estart s.th.fmask.testBit []
    let trap := fun cause j : Nat => ({ cause := cause, tval := BitVec.ofNat 64 (addr j), elem := j } : Trap)
    let record := fun j => match err j with
      | some (.page c lvl) => mkRecord j (bits s.th.ptroot.toNat 40 16) 1 0 lvl kind.num c (addr j)
      | _ => 0
    let batch := fun (j : Nat) (l : List Nat) =>
      ({ cause := 16, tval := s.th.fbarea, det := l.length, elem := j, records := l.map record } : Trap)
    (∀ j, lowest AErr.isMisalign = some j → refused (trap 4 j))
    ∧ (lowest AErr.isMisalign = none →
      (∀ j, lowest AErr.isTilebnd = some j → refused { trap 19 j with tval := BitVec.ofNat 64 (addr j % 2 ^ 22) })
      ∧ (lowest AErr.isTilebnd = none → ordered = false → ∀ j, lowest AErr.isProt = some j → refused (trap 17 j))
      ∧ (lowest AErr.isTilebnd = none → lowest AErr.isStop = none →
        (ordered = false → lowest AErr.isProt = none →
          let left := js.filter fun j => (err j).isSome
          let good := js.filter fun j => (err j).isNone
          let paged := fun j => (err j).any AErr.isPage
          let pages := js.filter fun j => paged j && !js.any fun i => decide (i < j) && paged i && addr i / 4096 == addr j / 4096
          (∀ j, lowest AErr.isPage = none → lowest AErr.isPoison = some j → ends (trap 18 j) s.th.estart left.contains good)
          ∧ ∀ j, lowest AErr.isPage = some j → ends (batch j (pages.take 16)) s.th.estart left.contains good)
        ∧ (ordered = true → ∀ j e, lowest (fun _ => true) = some j → err j = some e → (first = true → js.head? = some j ∧ s.partMask = 0) →
          let below := js.filter fun i => decide (i < j)
          (e.isProt = true → ends (trap 17 j) j s.th.fmask.testBit below)
          ∧ (e.isPoison = true → ends (trap 18 j) j s.th.fmask.testBit below)
          ∧ (e.isPage = true → ends (batch j [j]) j s.th.fmask.testBit below))))
/-- What befalls a whole-vector instruction that checks the accesses `l`, numbers with addresses of `n` bytes, in the state `w` before it performs
any (06 R191, R197): where one fails, the lowest cause of 06 R171 is taken at the first access that meets it, with at most sixteen records of
source `src`, one for each 4 KiB page, and nothing is performed. -/
def Refuses (i : Instr) (s w : State) (tile : Bool) (n : Nat) (kind : AKind) (src : Nat) (l : List (Nat × Nat)) : Prop :=
  ∀ (u : State) (r : Nat × Nat → Except AErr Loc),
    w.locateAll .v s.th.level tile n kind l = (u, l.map fun q => (q.1, q.2, r q)) →
    let fails := fun (p : AErr → Bool) (q : Nat × Nat) => match r q with
      | .error e => p e
      | .ok _ => false
    let lowest := fun p : AErr → Bool => l.find? (fails p)
    let takes := fun x : Trap => ∃ v, exec i s = .next (v.takeTrap x) ∧ v.th = { s.th with cv := some (s.th.cv.getD { e0 := s.th.estart }) }
      ∧ SameBytes s v
    let trap := fun (cause : Nat) (q : Nat × Nat) => ({ cause := cause, tval := BitVec.ofNat 64 q.2, elem := q.1 } : Trap)
    let record := fun q => match r q with
      | .error (.page c lvl) => mkRecord q.1 (bits s.th.ptroot.toNat 40 16) src 0 lvl kind.num c q.2
      | _ => 0
    let paged := fails AErr.isPage
    let pages := l.filter fun q => paged q && !(l.takeWhile (· != q)).any fun p => paged p && p.2 / 4096 == q.2 / 4096
    l.Nodup →
    (∀ q, lowest AErr.isMisalign = some q → takes (trap 4 q))
    ∧ (lowest AErr.isMisalign = none →
      (∀ q, lowest AErr.isTilebnd = some q → takes { trap 19 q with tval := BitVec.ofNat 64 (q.2 % 2 ^ 22) })
      ∧ (lowest AErr.isTilebnd = none →
        (∀ q, lowest AErr.isProt = some q → takes (trap 17 q))
        ∧ (lowest AErr.isProt = none → ∀ q, lowest AErr.isPage = some q →
          let p := pages.take 16
          takes { cause := 16, tval := s.th.fbarea, det := p.length, elem := q.1, records := p.map record })))
/-- From `s` to `t` a member that accesses memory has completed: of the thread nothing differs but v, m, fflags, fmask and the convoy
position. -/
def MemMemberDone (c : BitVec 1) (s t : State) : Prop :=
  t.th = { s.th with v := t.th.v, m := t.th.m, fflags := t.th.fflags, fmask := t.th.fmask, cv := s.passed c, estart := s.firstElt,
                       reissue := false }
/-- The bytes of the elements `js` are the same or apart, and no forked write of one falls on another. -/
def State.Apart (s : State) (js : List Nat) (loc : Nat → Loc) (n : Nat) : Prop :=
  ∀ j ∈ js, ∀ l ∈ js, (loc j = loc l ∨ ∀ m : Loc, m.within (loc j) n → ¬ m.within (loc l) n)
    ∧ ∀ f, s.forkOf (loc l) = some f → ∀ m : Loc, m.within (loc j) n → ¬ m.within f n
/-- From `s` to `t` the `n` bytes at `loc j` have become those of `x j`, for every `j` of `js`; every byte outside them, and outside the
second writes of pages that are being migrated (13 R313), reads as before. -/
def Scattered (s t : State) (js : List Nat) (loc : Nat → Loc) (n : Nat) (x : Nat → Nat) : Prop :=
  (∀ m : Loc, (∀ j ∈ js, ¬ m.within (loc j) n ∧ ∀ f, s.forkOf (loc j) = some f → ¬ m.within f n) → t.readLoc m 1 = s.readLoc m 1)
  ∧ (s.Apart js loc n → ∀ j ∈ js, ¬ s.dropped (loc j) → ∀ i < n, t.readLoc ((loc j).add i) 1 = x j / 256 ^ i % 256)
/-- Two locations lie in one 64-byte line (06 R183). -/
def Loc.sameLine : Loc → Loc → Bool
  | .dev p, .dev q => p / 64 == q / 64
  | .hostmem p, .hostmem q => p / 64 == q / 64
  | .tile c g o, .tile d h q => c == d && g == h && o / 64 == q / 64
  | _, _ => false
/-- The highest of the elements `js` at the location of `j`. -/
def lastAt (js : List Nat) (loc : Nat → Loc) (j : Nat) : Nat := ((js.filter fun i => loc i == loc j).getLast?).getD j

/-! ## The matrix unit -/

/-- From `s` to `t` an instruction has gone on to pc + 4, having written scalar register `d` with `x`; nothing else of the thread has
changed. -/
def Passes (s t : State) (d : BitVec 5) (x : Word) : Prop :=
  Holds d x t ∧ KeepsRegs d s t ∧ t.th = { s.th with g := t.th.g, pc := s.th.pc + 4, cv := none, reissue := false }
/-- Every row of the accumulator tiles of a core's unit but the rows `rows` of tile `k` that the core holds is as before. -/
def KeepsRows (s t : State) (core rows k : Nat) : Prop :=
  ∀ q, (∀ i < rows, q ≠ 64 * k + physRow core rows i) → (t.unit core).acc.get q 0 = (s.unit core).acc.get q 0
/-- `i` takes the trap `x` at `s` (19 R376). -/
def Takes (i : Instr) (s : State) (x : Trap) : Prop := exec i s = .next (s.takeTrap x)

/-! ## Deques -/

/-- A deque without the `n` oldest entries of a launch (15 R343). -/
def withoutOldest (launch : Nat) : Nat → List (Word × Nat) → List (Word × Nat)
  | 0, l => l
  | _, [] => []
  | n + 1, x :: r => if x.2 = launch then withoutOldest launch n r else x :: withoutOldest launch (n + 1) r

/-! ## Cores and other threads -/

/-- From `s` to `t` nothing but the current thread's context and presented core `n`, which has become `k`, has changed. -/
def OnlyCore (s t : State) (n : Nat) (k : Core) : Prop :=
  t.getCore n = k ∧ (∀ m, m ≠ n → t.getCore m = s.getCore m) ∧ t = { s with th := t.th, cores := t.cores }
/-- The current thread has gone on to pc + 4 with nothing else of its context changed. -/
def GoesOn (s t : State) : Prop := t.th = { s.th with pc := s.th.pc + 4, cv := none, reissue := false }
/-- The current thread parks at `w`, with nothing else changed (09 R260). -/
def Parks (i : Instr) (s : State) (w : Wait) : Prop := exec i s = .next { s with th := { s.th with status := .parked w } }
/-- From `s` to `t` the current thread is the same one, and every thread but `h` has kept its context. -/
def OthersKept (s t : State) (h : Nat) : Prop := t.cur = s.cur ∧ ∀ k, k ≠ h → t.getTh k = s.getTh k
/-- From `s` to `t` the parked thread `h` has completed its instruction: it issues again from pc + 4 with `x` in g[d], and nothing else of
any thread has changed. -/
def Woken (s t : State) (h : Nat) (d : BitVec 5) (x : Word) : Prop :=
  OthersKept s t h
  ∧ t.getTh h = { s.getTh h with g := (t.getTh h).g, pc := (s.getTh h).pc + 4, cv := none, reissue := false,
                                 status := .issuing }
  ∧ (t.switchTo h).rd d = (if d = 0 then 0 else x) ∧ ∀ r, r ≠ d → (t.switchTo h).rd r = (s.switchTo h).rd r

/-! ## Device steps -/

/-- From `s` to `t` the current thread is the same one, and no thread has changed but in its bake slots. -/
def ThreadsKept (s t : State) : Prop := t.cur = s.cur ∧ ∀ k, t.getTh k = { s.getTh k with slots := (t.getTh k).slots }
/-- `i` completes in `s` as in `u`, with the transaction `x` queued towards the host after those that wait there (20 R420). -/
def Sends (i : Instr) (s u : State) (x : Transaction) : Prop :=
  exec i s = .next { u with ksl := { u.ksl with out := u.ksl.out ++ [x] } }
/-- `i`, request `code` of the managing interface, is granted: it completes in `s` as in `u`, answered with `STAT` 0 and the bytes
`data`, at most 256 (20 R429). -/
def Grants (i : Instr) (s u : State) (vi : BitVec 6) (tag : BitVec 16) (code : Nat) (data : List Byte) : Prop :=
  Sends i s u (mkTransaction 0x31 code 0 vi.toNat tag.toNat 0 data)

end Sys2Proof.Machine
end

