-- ==== Sys2Proof/Certificates/Slice0/Obligations.lean ====
section
/-! DEFINITION. The statements for the provers. -/
open Sys2Proof Sys2Proof.Machine

/-! ## Scalar instructions (04) -/

/-- 04 R100, R101: the three-register integer operations write their result modulo 2^64 and change nothing else. Division by zero
gives −1 and the remainder a; no integer operation traps. -/
def Obligations.ScalarIntegerResults : Prop :=
  ∀ (s : State) (d a b : BitVec 5),
    let x := s.rd a
    let y := s.rd b
    let n := y.toNat % 64
    WritesReg (.add d a b) s d (x + y) ∧ WritesReg (.sub d a b) s d (x - y)
    ∧ WritesReg (.and d a b) s d (x &&& y) ∧ WritesReg (.or d a b) s d (x ||| y) ∧ WritesReg (.xor d a b) s d (x ^^^ y)
    ∧ WritesReg (.sll d a b) s d (x <<< n) ∧ WritesReg (.srl d a b) s d (x >>> n)
    ∧ WritesReg (.sra d a b) s d (BitVec.ofInt 64 (x.toInt / 2 ^ n))
    ∧ WritesReg (.slt d a b) s d (if x.toInt < y.toInt then 1 else 0)
    ∧ WritesReg (.sltn d a b) s d (if x.toNat < y.toNat then 1 else 0)
    ∧ WritesReg (.mul d a b) s d (BitVec.ofNat 64 (x.toNat * y.toNat))
    ∧ WritesReg (.mulh d a b) s d (BitVec.ofInt 64 (x.toInt * y.toInt / 2 ^ 64))
    ∧ WritesReg (.mulhn d a b) s d (BitVec.ofNat 64 (x.toNat * y.toNat / 2 ^ 64))
    ∧ WritesReg (.div d a b) s d (if y = 0 then -1 else BitVec.ofInt 64 (x.toInt.tdiv y.toInt))
    ∧ WritesReg (.divn d a b) s d (if y = 0 then -1 else BitVec.ofNat 64 (x.toNat / y.toNat))
    ∧ WritesReg (.rem d a b) s d (if y = 0 then x else BitVec.ofInt 64 (x.toInt.tmod y.toInt))
    ∧ WritesReg (.remn d a b) s d (if y = 0 then x else BitVec.ofNat 64 (x.toNat % y.toNat))
    ∧ WritesReg (.min d a b) s d (if y.toInt < x.toInt then y else x)
    ∧ WritesReg (.max d a b) s d (if x.toInt < y.toInt then y else x)
    ∧ WritesReg (.minn d a b) s d (if y.toNat < x.toNat then y else x)
    ∧ WritesReg (.maxn d a b) s d (if x.toNat < y.toNat then y else x)
    ∧ WritesReg (.rotl d a b) s d (x <<< n ||| x >>> (64 - n))
    ∧ WritesReg (.rotr d a b) s d (x >>> n ||| x <<< (64 - n))
    ∧ WritesReg (.sel d a b) s d (if s.rd d ≠ 0 then x else y)

/-- 04 R100: CLZ, CTZ, POPC and BSWAP, described by the bits of the operand. -/
def Obligations.ScalarBitResults : Prop :=
  ∀ (s : State) (d a : BitVec 5),
    let x := s.rd a
    (∃ n ≤ 64, WritesReg (.clz d a) s d (BitVec.ofNat 64 n) ∧ x.toNat < 2 ^ (64 - n) ∧ (n < 64 → 2 ^ (63 - n) ≤ x.toNat))
    ∧ (∃ n ≤ 64, WritesReg (.ctz d a) s d (BitVec.ofNat 64 n) ∧ 2 ^ n ∣ x.toNat ∧ (n < 64 → ¬ 2 ^ (n + 1) ∣ x.toNat))
    ∧ WritesReg (.popc d a) s d (BitVec.ofNat 64 ((List.range 64).filter fun i => x.getLsbD i).length)
    ∧ ∃ y : Word, WritesReg (.bswap d a) s d y ∧ ∀ i < 8, y.toNat / 256 ^ i % 256 = x.toNat / 256 ^ (7 - i) % 256

/-- 04 R102 to R104: the immediate forms compute the operation with the sign-extended immediate or the count of the word; LIH and
ADDPC build constants and code offsets. -/
def Obligations.ScalarImmediateResults : Prop :=
  ∀ (s : State) (d a : BitVec 5) (i : BitVec 14) (n : BitVec 6) (j : BitVec 19),
    let x := s.rd a
    let y : Word := BitVec.ofInt 64 i.toInt
    WritesReg (.addi d a i) s d (x + y) ∧ WritesReg (.andi d a i) s d (x &&& y) ∧ WritesReg (.ori d a i) s d (x ||| y)
    ∧ WritesReg (.xori d a i) s d (x ^^^ y)
    ∧ WritesReg (.slti d a i) s d (if x.toInt < y.toInt then 1 else 0)
    ∧ WritesReg (.sltni d a i) s d (if x.toNat < y.toNat then 1 else 0)
    ∧ WritesReg (.slli d a n) s d (x <<< n.toNat) ∧ WritesReg (.srli d a n) s d (x >>> n.toNat)
    ∧ WritesReg (.srai d a n) s d (BitVec.ofInt 64 (x.toInt / 2 ^ n.toNat))
    ∧ WritesReg (.rotri d a n) s d (x >>> n.toNat ||| x <<< (64 - n.toNat))
    ∧ WritesReg (.lih d j) s d (BitVec.ofInt 64 (j.toInt * 2 ^ 13))
    ∧ WritesReg (.addpc d j) s d (s.th.pc + BitVec.ofInt 64 (j.toInt * 4))

/-- 04 R105 to R107: a branch that is not taken goes to pc + 4; a taken branch and a jump whose target lies in the window of the
level pass control there, JAL and JALR with pc + 4 in g[D]. A target outside the window takes CODEWIN at the branch or jump, a misaligned
target of JALR takes MISALIGN, and a JALR to the exit address ends the thread, all without writing g[D]. -/
def Obligations.ControlTransfers : Prop :=
  ∀ (s : State) (d a b : BitVec 5) (o i : BitVec 14) (j : BitVec 19),
    let x := s.rd a
    let y := s.rd b
    let inWin := fun t : Word => s.inWindow s.th.level s.core t.toNat = true
    let outWin := fun t : Word => s.inWindow s.th.level s.core t.toNat = false
    let bt := s.th.pc + BitVec.ofInt 64 (o.toInt * 4)
    let jt := s.th.pc + BitVec.ofInt 64 (j.toInt * 4)
    let rt := x + BitVec.ofInt 64 i.toInt
    let codewin := fun (br : Instr) (t : Word) => Takes br s { cause := 5, tval := t }
    let branch := fun (br : Instr) (c : Prop) =>
      (¬ c → GoesTo br s 0 0 (s.th.pc + 4)) ∧ (c → inWin bt → GoesTo br s 0 0 bt) ∧ (c → outWin bt → codewin br bt)
    branch (.beq a b o) (x = y) ∧ branch (.bne a b o) (x ≠ y)
    ∧ branch (.blt a b o) (x.toInt < y.toInt) ∧ branch (.bge a b o) (y.toInt ≤ x.toInt)
    ∧ branch (.bltn a b o) (x.toNat < y.toNat) ∧ branch (.bgen a b o) (y.toNat ≤ x.toNat)
    ∧ (inWin jt → GoesTo (.jal d j) s d (s.th.pc + 4) jt)
    ∧ (outWin jt → codewin (.jal d j) jt)
    ∧ (rt.toNat % 4 = 0 → rt ≠ exitAddress → inWin rt → GoesTo (.jalr d a i) s d (s.th.pc + 4) rt)
    ∧ (rt.toNat % 4 ≠ 0 → Takes (.jalr d a i) s { cause := 4, tval := rt })
    ∧ (rt.toNat % 4 = 0 → rt ≠ exitAddress → outWin rt → codewin (.jalr d a i) rt)
    ∧ (rt = 0xFFFFFFFFFFFFFFFC →
      exec (.jalr d a i) s = .next { s with th := { s.th with status := .ending false, cv := none } })

/-- 04 R108: a load of 1, 2, 4 or 8 bytes that can be performed writes the little-endian bytes at its effective address, extended to
64 bits, and changes no byte of memory and no other register. -/
def Obligations.ScalarLoadResults : Prop :=
  ∀ (s u : State) (l : Loc) (n : Nat) (d a : BitVec 5) (i : BitVec 14),
    s.scalarLoc (s.rd a + BitVec.ofInt 64 i.toInt) n .read = .ok (l, u) →
    let loads := fun (ld : Instr) (x : Word) =>
      ∃ t, exec ld s = .next t ∧ Holds d x t ∧ KeepsRegs d s t ∧ t.th.pc = s.th.pc + 4 ∧ OnlyScalars s.th t.th ∧ SameBytes s t
    let m := s.bytesAt l n
    (n = 1 → loads (.ldBS d a i) (BitVec.ofInt 64 (BitVec.ofNat 8 m).toInt) ∧ loads (.ldBN d a i) (BitVec.ofNat 64 m))
    ∧ (n = 2 → loads (.ldHS d a i) (BitVec.ofInt 64 (BitVec.ofNat 16 m).toInt) ∧ loads (.ldHN d a i) (BitVec.ofNat 64 m))
    ∧ (n = 4 → loads (.ldWS d a i) (BitVec.ofInt 64 (BitVec.ofNat 32 m).toInt) ∧ loads (.ldWN d a i) (BitVec.ofNat 64 m))
    ∧ (n = 8 → loads (.ldD d a i) (BitVec.ofNat 64 m))

/-- 04 R108: a store of 1, 2, 4 or 8 bytes that can be performed writes the low bytes of g[D] at its effective address and changes no
register; every other byte of memory reads as before, but for the second write of a page that is being migrated (13 R313). -/
def Obligations.ScalarStoreResults : Prop :=
  ∀ (s u : State) (l : Loc) (n : Nat) (d a : BitVec 5) (i : BitVec 14),
    s.wf = true → s.scalarLoc (s.rd a + BitVec.ofInt 64 i.toInt) n .write = .ok (l, u) →
    let stores := fun (st : Instr) =>
      ∃ t, exec st s = .next t ∧ t.th = { s.th with pc := s.th.pc + 4, cv := none, reissue := false } ∧ Stored s t l n (s.rd d).toNat
    (n = 1 → stores (.stB d a i)) ∧ (n = 2 → stores (.stH d a i)) ∧ (n = 4 → stores (.stW d a i)) ∧ (n = 8 → stores (.stD d a i))

/-- 04 R114: an AMO that can be performed writes the sign-extended old value to g[D] and the new value to memory; a failed cas changes no
byte. -/
def Obligations.AtomicResults : Prop :=
  ∀ (s u : State) (l : Loc) (d a b : BitVec 5) (z : BitVec 1) (o : BitVec 2),
    let n := if z = 0 then 4 else 8
    s.wf = true → s.scalarLoc (s.rd a) n .rmw = .ok (l, u) →
    let old : BitVec (8 * n) := BitVec.ofNat (8 * n) (s.bytesAt l n)
    let y : BitVec (8 * n) := BitVec.ofNat (8 * n) (s.rd b).toNat
    let e : BitVec (8 * n) := BitVec.ofNat (8 * n) (s.rd d).toNat
    let writes := fun (am : Instr) (new : BitVec (8 * n)) =>
      ∃ t, exec am s = .next t ∧ Holds d (BitVec.ofInt 64 old.toInt) t ∧ KeepsRegs d s t ∧ t.th.pc = s.th.pc + 4
        ∧ OnlyScalars s.th t.th ∧ Stored s t l n new.toNat
    writes (.amoAdd d a b z o) (old + y) ∧ writes (.amoAnd d a b z o) (old &&& y) ∧ writes (.amoOr d a b z o) (old ||| y)
    ∧ writes (.amoXor d a b z o) (old ^^^ y)
    ∧ writes (.amoMin d a b z o) (if y.toInt < old.toInt then y else old)
    ∧ writes (.amoMax d a b z o) (if old.toInt < y.toInt then y else old)
    ∧ writes (.amoMinn d a b z o) (if y.toNat < old.toNat then y else old)
    ∧ writes (.amoMaxn d a b z o) (if old.toNat < y.toNat then y else old)
    ∧ writes (.amoSwap d a b z o) y
    ∧ (old = e → writes (.amoCas d a b z o) y)
    ∧ (old ≠ e → ∃ t, exec (.amoCas d a b z o) s = .next t ∧ Holds d (BitVec.ofInt 64 old.toInt) t ∧ KeepsRegs d s t
        ∧ t.th.pc = s.th.pc + 4 ∧ OnlyScalars s.th t.th ∧ SameBytes s t)

/-- 04 R109 to R111, R114: the checks of a scalar access in their order, for every load, store and AMO. A misaligned address takes MISALIGN; a
space-0 address with a nonzero bit among 62 to 57, or a page without write permission for a store or an AMO or closed to the thread's level,
takes PROT; a tile address with a nonzero bit among 62 to 22, or beyond the tile allocation, takes TILEBND, with the tile offset in stval
(log 54); a page that is not mapped or not present takes PAGEBATCH with one record; data that are read and poisoned take POISON, a store
never. A tile access that passes them and is not stalled is performed at its offset. -/
def Obligations.ScalarAccessChecks : Prop :=
  ∀ (s : State) (d a b : BitVec 5) (i : BitVec 14) (z : BitVec 1) (o : BitVec 2), ∀ p ∈ s.scalarAccesses d a b i z o,
    let traps := fun (u : State) (c : Nat) (v : Word) => exec p.instr s = .next (u.takeTrap { cause := c, tval := v })
    let at_ := p.addr.toNat
    let off := at_ % 2 ^ 22
    (at_ % p.size ≠ 0 → traps s 4 p.addr)
    ∧ (at_ % p.size = 0 → at_ < 2 ^ 63 → 2 ^ 57 ≤ at_ → traps s 17 p.addr)
    ∧ (at_ % p.size = 0 → at_ < 2 ^ 57 →
        (∀ t held, s.lookup (s.tlb .v) s.th.ptroot at_ = .ok (t, held) →
          (s.th.level = .user ∧ t.user = false) ∨ (p.kind ≠ .read ∧ t.write = false) → traps s 17 p.addr)
        ∧ (∀ c l, s.lookup (s.tlb .v) s.th.ptroot at_ = .error (.page c l) →
          exec p.instr s = .next (s.takeTrap { cause := 16, tval := s.th.fbarea, det := 1, records :=
            [at_ % 2 ^ 57 + c * 2 ^ 64 + p.kind.num * 2 ^ 67 + l * 2 ^ 69 + s.th.ptroot.toNat / 2 ^ 40 % 2 ^ 16 * 2 ^ 80] })))
    ∧ (at_ % p.size = 0 → 2 ^ 63 ≤ at_ →
        (at_ / 2 ^ 22 % 2 ^ 41 ≠ 0 ∨ s.group.tileSpace < off + p.size → traps s 19 (BitVec.ofNat 64 off))
        ∧ (at_ / 2 ^ 22 % 2 ^ 41 = 0 → off + p.size ≤ s.group.tileSpace → s.stalledOn s.core off p.size p.kind = none →
            (p.kind ≠ .write → s.poisonedLoc (s.tileLoc s.core off) p.size = false) →
            s.scalarLoc p.addr p.size p.kind = .ok (s.tileLoc s.core off, s)))
    ∧ ∀ l u, s.locateAt .v s.th.level (decide (2 ^ 63 ≤ at_)) at_ p.size p.kind = .ok (l, u) → u.poisonedLoc l p.size = true →
        (p.kind ≠ .write → traps u 18 p.addr) ∧ (p.kind = .write → ∃ v, exec p.instr s = .next v ∧ GoesOn s v)

/-- 04 R116 to R119: the scalar floating instructions complete in every state. With `FMT` and the mode that `RMS` selects, FADD, FMUL and FFMA
write the rounded sum, product and fused product-sum of the values of their operands; FCVT converts from the other format, to a signed or
natural integer, or from one; FCMP writes its relation. The result is written zero-extended, its flags are added to fflags, and under SR
generator 0 steps and gives the random word; nothing else changes. That SR does so without the feature srnd too is the model's reading (log 97). -/
def Obligations.ScalarFloatCompletes : Prop :=
  ∀ (s : State) (d a b k : BitVec 5) (f : BitVec 1) (r : BitVec 3) (q : BitVec 2),
    let F : Fmt := if f = 0 then .f32 else .f64
    let m := s.fpMode r
    let w := if m = .sr then (srDraw s.th.gens 0).1 else 0
    let x := dec F (s.rd a).toNat
    let y := dec F (s.rd b).toNat
    let writes := fun (i : Instr) (v : Rounded) (gens : List W32) =>
      ∃ t, exec i s = .next t ∧ Holds d (BitVec.ofNat 64 v.val) t ∧ KeepsRegs d s t ∧ t.th.fflags = s.th.fflags ||| v.flags
        ∧ t.th = { s.th with g := t.th.g, pc := s.th.pc + 4, cv := none, reissue := false, fflags := t.th.fflags, gens := gens }
        ∧ OnlyThread s t ∧ SameBytes s t
    let rounds := fun (i : Instr) (v : Rounded) => writes i v (if m = .sr then (srDraw s.th.gens 0).2 else s.th.gens)
    let compares := fun (p : BitVec 2) (v : Bool) (sig : Bool) =>
      q = p → writes (.fcmp d a b f q) { val := v.toNat, flags := if sig then 16 else 0 } s.th.gens
    let nan := x.isNaN || y.isNaN
    let signalling := x.isSig || y.isSig
    rounds (.fadd d a b f r) (fpAdd F m w x y) ∧ rounds (.fmul d a b f r) (fpMul F m w x y)
    ∧ rounds (.ffma d a b f r) (fpFma F m w x y (dec F (s.rd d).toNat))
    ∧ (f = 0 → (fpAdd F m w x y).val < 2 ^ 32 ∧ (fpMul F m w x y).val < 2 ^ 32 ∧ (fpFma F m w x y (dec F (s.rd d).toNat)).val < 2 ^ 32)
    ∧ (k = 0 → rounds (.fcvt d a k f r) (enc F m w (dec (if f = 0 then .f64 else .f32) (s.rd a).toNat)))
    ∧ (k = 1 → rounds (.fcvt d a k f r) (toInt 64 true m w x)) ∧ (k = 2 → rounds (.fcvt d a k f r) (toInt 64 false m w x))
    ∧ (k = 3 → rounds (.fcvt d a k f r) (enc F m w (.fin (decide ((s.rd a).toInt < 0)) (s.rd a).toInt.natAbs 0)))
    ∧ (k = 4 → rounds (.fcvt d a k f r) (enc F m w (.fin false (s.rd a).toNat 0)))
    ∧ compares 0 (!nan && decide (x.cmp y = 0)) signalling ∧ compares 1 (!nan && decide (x.cmp y < 0)) nan
    ∧ compares 2 (!nan && decide (x.cmp y ≤ 0)) nan ∧ compares 3 nan signalling

/-! ## Exceptions (19 R376 to R386) -/

/-- 19 R376, R379 to R381, R383: a trap is entered at the level that takes its cause, with the trap-entry registers of that level written
and nothing else of the context changed. A trap with fault records writes them first, 16 bytes each, from fbarea (13 R307): nothing else of
memory changes, and the entry is as without them; where the area faults or is poisoned no record is written, and DOUBLE with the cause in
`DET` and fbarea in `stval` is raised to firmware. That the write of the records waits neither for the migration unit nor for the link is
the model's choice (log 84). UNDEF at user level with a nonzero emulation vector enters emulation mode (01 R21); in emulation mode it
becomes EMUDOUBLE. -/
def Obligations.TrapEntry : Prop :=
  ∀ (s : State) (x : Trap), x.cause < 64 →
    let l := s.taker x.cause
    let emulated := x.cause = 1 ∧ s.th.level = .user ∧ (s.th.em = true ∨ s.th.emvec ≠ 0)
    (x.records = [] → ¬ emulated → s.canTake l → Entered s (s.takeTrap x) l x)
    ∧ (x.records ≠ [] → x.records.length ≤ 16 → ¬ emulated → s.canTake l →
        let double : Trap := { x with cause := 50, det := x.cause, tval := s.th.fbarea, records := [], async := false }
        (∀ area u, s.locateNow l s.th.fbarea.toNat 256 = .ok (area, u) →
          (u.poisonedLoc area 256 = false → s.wf = true → ∃ v, v.th = s.th ∧ v.others = s.others
            ∧ Scattered s v (List.range x.records.length) (fun i => area.add (16 * i)) 16 (fun i => x.records.getD i 0)
            ∧ Entered v (s.takeTrap x) l x)
          ∧ (u.poisonedLoc area 256 = true → s.canTake .firmware → Entered u (s.takeTrap x) .firmware double))
        ∧ ∀ e, s.locateNow l s.th.fbarea.toNat 256 = .error e → s.canTake .firmware → Entered s (s.takeTrap x) .firmware double)
    ∧ (x.cause = 1 → s.th.level = .user → s.th.em = false → s.th.emvec ≠ 0 → x.epc = none →
        (s.takeTrap x).th = { s.th with empc := s.th.ipc, eminst := BitVec.ofNat 32 x.tval.toNat, em := true, pc := s.th.emvec, cv := none,
                                        reissue := false, status := .issuing }
        ∧ s.takeTrap x = { s with th := (s.takeTrap x).th, tags := (s.takeTrap x).tags } ∧ SameBytes s (s.takeTrap x))
    ∧ (x.cause = 1 → s.th.level = .user → s.th.em = true → x.records = [] → s.canTake .supervisor →
        Entered s (s.takeTrap x) .supervisor { x with cause := 7 })

/-- 19 R386: a synchronous cause for the supervisor while its `TIH` is 1 is raised as DOUBLE to firmware, with the cause in `DET`; a
synchronous cause for firmware while fstatus `TIH` is 1 stops the thread and is reported; and 15 R327: a trap whose handler lies outside
the runtime window terminates the thread; that this leaves the trap-entry registers unwritten is the model's reading (log 57). -/
def Obligations.TrapNotTaken : Prop :=
  ∀ (s : State) (x : Trap), x.async = false → x.records = [] → x.cause ≠ 1 → x.cause < 64 →
    (s.taker x.cause = .supervisor → s.th.sup.tih = true → s.canTake .firmware →
      Entered s (s.takeTrap x) .firmware { x with cause := 50, det := x.cause })
    ∧ (s.taker x.cause = .firmware → s.th.fw.tih = true →
      (s.takeTrap x).th = { s.th with status := .stopped, cv := none }
      ∧ (s.takeTrap x).mgmt.stopped = s.mgmt.stopped ++ [s.cur] ∧ SameBytes s (s.takeTrap x))
    ∧ ((s.th.regs (s.taker x.cause)).tih = false →
      s.inRuntime s.core (s.th.regs (s.taker x.cause)).vec.toNat = false →
      (s.takeTrap x).th = { s.th with status := .ending true, cv := none } ∧ SameBytes s (s.takeTrap x))

/-- 04 R120: ECALL enters the supervisor from user level and firmware from supervisor level with restart point pc + 4, and is ILLEGAL at
firmware level; BRK enters the supervisor, or firmware from firmware level, with restart point pc. -/
def Obligations.EnvironmentCalls : Prop :=
  ∀ s : State, s.th.cv = none →
    (s.th.level = .user → s.canTake .supervisor → Traps .ecall s .supervisor { cause := 48, epc := some (s.th.pc + 4) })
    ∧ (s.th.level = .supervisor → s.canTake .firmware → Traps .ecall s .firmware { cause := 48, epc := some (s.th.pc + 4) })
    ∧ (s.th.level = .firmware → s.canTake .firmware → Traps .ecall s .firmware { cause := 2, tval := s.word.setWidth 64 })
    ∧ (s.th.level ≠ .firmware → s.canTake .supervisor → Traps .brk s .supervisor { cause := 49 })
    ∧ (s.th.level = .firmware → s.canTake .firmware → Traps .brk s .firmware { cause := 49 })

/-- 02 R56, 01 R21, 04 R122: a word with an unassigned opcode at user level with a nonzero emulation vector enters emulation mode, with its
address in empc and the word in eminst; with emvec zero, and above user level, it takes UNDEF; in emulation mode it takes EMUDOUBLE. EMURET
leaves emulation mode to empc, takes CODEWIN for a target outside the code window, and is ILLEGAL outside emulation mode. That EMURET takes the
two low bits of empc as zero is the model's choice (log 77): 02 R46 says only that the program counter keeps them zero. -/
def Obligations.Emulation : Prop :=
  ∀ (s : State) (w : W32),
    let back := s.th.empc &&& 0xFFFFFFFFFFFFFFFC
    (s.th.level = .user → s.th.em = false → s.th.emvec ≠ 0 →
      ∃ t, exec (.undefinedInstruction w) s = .next t
        ∧ t.th = { s.th with empc := s.th.ipc, eminst := w, em := true, pc := s.th.emvec, cv := none, reissue := false, status := .issuing }
        ∧ t = { s with th := t.th, tags := t.tags })
    ∧ (s.th.level = .user → s.th.em = false → s.th.emvec = 0 → s.canTake .supervisor →
      Traps (.undefinedInstruction w) s .supervisor { cause := 1, tval := w.setWidth 64 })
    ∧ (s.th.level = .user → s.th.em = true → s.canTake .supervisor →
      Traps (.undefinedInstruction w) s .supervisor { cause := 7, tval := w.setWidth 64 })
    ∧ (s.th.level ≠ .user → s.canTake (s.taker 1) → Traps (.undefinedInstruction w) s (s.taker 1) { cause := 1, tval := w.setWidth 64 })
    ∧ (s.th.level = .user → s.th.em = true → s.inWindow .user s.core back.toNat = true →
      exec .emuret s = .next { s with th := { s.th with pc := back, em := false, cv := none, reissue := false } })
    ∧ (s.th.level = .user → s.th.em = true → s.inWindow .user s.core back.toNat = false →
      exec .emuret s = .next (s.takeTrap { cause := 5, tval := back }))
    ∧ (s.th.em = false → exec .emuret s = .next (s.takeTrap { cause := 2, tval := s.word.setWidth 64 }))

/-- 04 R121, 19 R384: TRET at supervisor or firmware level takes the program counter, the level and `EM` from the trap-entry registers of
its level, sets `AIE` := `PAIE` and `TIH` := 0, and resumes at the recorded member; every register of the other level, every general
register and every byte of memory keeps its value. A level that `PLEV` may not name is ILLEGAL, the abort address terminates the context,
and at user level TRET takes PRIV. That the two low bits of the saved program counter are dropped is the model's choice (log 77). -/
def Obligations.ReturnFromTrap : Prop :=
  ∀ (s : State) (ri : BitVec 1) (p : Level),
    let l := s.th.level
    let r := s.th.regs l
    let c := r.cause.toNat
    (l ≠ .user → bits c 60 2 = p.num → p.num ≤ l.num → r.epc ≠ 0xFFFFFFFFFFFFFFF8 → (s.th.uncorr = true → p = l) →
      (p = .user → s.th.rmvAck = s.th.rmvCur) →
      ∃ t, exec (.tret ri) s = .next t ∧ t.th.pc = r.epc &&& 0xFFFFFFFFFFFFFFFC ∧ t.th.level = p ∧ t.th.em = bitOf c 59
        ∧ t.th.regs l = { r with aie := r.paie, tih := false }
        ∧ t.th.cv = some { idx := bits c 40 2, e0 := bits c 24 16, resumed := true }
        ∧ (t.th.reissue = true ↔ ri = 1 ∧ s.th.fmask ≠ 0)
        ∧ (l = .firmware → t.th.sup = s.th.sup) ∧ (l = .supervisor → t.th.fw = s.th.fw)
        ∧ t.th = { s.th with sup := t.th.sup, fw := t.th.fw, pc := t.th.pc, level := p, em := t.th.em, saved := t.th.saved, cv := t.th.cv,
                             restored := t.th.restored, reissue := t.th.reissue }
        ∧ SameBytes s t)
    ∧ (l ≠ .user → (bits c 60 2 = 3 ∨ l.num < bits c 60 2) →
      exec (.tret ri) s = .next (s.takeTrap { cause := 2, tval := s.word.setWidth 64 }))
    ∧ (l ≠ .user → bits c 60 2 ≤ l.num → r.epc = 0xFFFFFFFFFFFFFFF8 →
      ∃ t, exec (.tret ri) s = .next t ∧ t.th = { s.th with status := .ending true, cv := none } ∧ SameBytes s t)
    ∧ (l = .user → exec (.tret ri) s = .next (s.takeTrap { cause := 3, tval := s.word.setWidth 64 }))

/-! ## System instructions (04 R123 to R132) -/

/-- 01 R23 to R28, R31, 04 R126, 07 R215, 09 R239 to R243, 15 R337 to R339, 19 R378 to R382: CRRD of the user control registers, of the channel
registers, of the identity registers, above user level of the supervisor's, the core's and the cluster's registers, and at firmware level of
firmware's, writes the register's value to g[D] and changes nothing else; a read of ccount finds it advanced. The model's choices: fmask counts its
bits at and above vlmax too (log 96), what a core that is no longer presented reads in corecfg (log 71), and what `ST` shows of a thread that ends or
is suspended (log 96). -/
def Obligations.ControlRegisterReads : Prop :=
  ∀ (s : State) (d : BitVec 5),
    let reads := fun (n : BitVec 12) (x : Nat) => WritesReg (.crrd d n) s d (BitVec.ofNat 64 x)
    let status := fun r : TrapRegs => r.aie.toNat + 2 * r.paie.toNat + 4 * r.tih.toNat
    reads 0x000 s.th.vl ∧ reads 0x001 s.th.ew ∧ reads 0x002 s.th.vlmax ∧ reads 0x003 s.th.vrlen ∧ reads 0x004 s.th.estart
    ∧ reads 0x006 s.th.fflags ∧ reads 0x007 s.th.frm ∧ reads 0x008 s.th.srseed ∧ reads 0x009 s.th.qthr ∧ reads 0x00A s.th.mvl
    ∧ reads 0x00B s.th.mgrant ∧ reads 0x00C s.th.mprog ∧ reads 0x00D (s.th.rmvAck * 2 ^ 32 + s.th.rmvCur)
    ∧ reads 0x00E s.th.thrcause ∧ reads 0x00F s.th.hwfail ∧ reads 0x011 s.th.tkcur.toNat ∧ reads 0x018 s.th.emvec.toNat
    ∧ reads 0x019 s.th.empc.toNat ∧ reads 0x01A s.th.eminst.toNat ∧ reads 0x01B s.th.em.toNat
    ∧ reads 0x005 (((List.range 32768).filter fun i => s.th.fmask.testBit i).length)
    ∧ (∃ n t, exec (.crrd d 0x010) s = .next t ∧ Passes s t d (BitVec.ofNat 64 n) ∧ (s.getCore s.core).ccount ≤ n
        ∧ OnlyCore s { t with free := s.free } s.core { s.getCore s.core with ccount := n })
    ∧ (∀ c < 16,
        let x := s.chan c
        reads (BitVec.ofNat 12 (0x40 + 4 * c)) (if x.owner = some s.cur then
          (if x.xfers = [] then 0 else 2 ^ 63) + (if x.outward then 2 ^ 62 else 0) + x.xfers.length * 2 ^ 56 + x.wm % 2 ^ 22 else 0)
        ∧ ∀ k, 1 ≤ k → k ≤ 3 → reads (BitVec.ofNat 12 (0x40 + 4 * c + k)) (s.th.cdim.get (4 * c + k) 0).toNat)
    ∧ reads 0x800 0x0100 ∧ reads 0x801 (s.part.feat % 64) ∧ reads 0x802 2 ∧ (s.core < 320 → reads 0x803 s.core)
    ∧ reads 0x804 (clusterOf s.core) ∧ reads 0x805 (dieOf s.core) ∧ reads 0x806 s.thr
    ∧ (s.th.level ≠ .user → reads 0x100 s.th.sup.cause.toNat ∧ reads 0x101 s.th.sup.epc.toNat ∧ reads 0x102 s.th.sup.fpc.toNat
        ∧ reads 0x103 s.th.sup.tval.toNat ∧ reads 0x104 s.th.sup.info.toNat ∧ reads 0x105 s.th.sup.vec.toNat
        ∧ reads 0x106 s.th.sup.scratch.toNat ∧ reads 0x107 s.th.ptroot.toNat ∧ reads 0x108 s.th.fbarea.toNat
        ∧ reads 0x109 (status s.th.sup) ∧ reads 0x10A s.th.spend ∧ reads 0x10B (s.th.rmLeft * 2 ^ 32 + s.th.rmAllow)
        ∧ reads 0x10C (viewAddr s.launch.part))
    ∧ (s.th.level = .firmware → reads 0x180 s.th.fw.cause.toNat ∧ reads 0x181 s.th.fw.epc.toNat ∧ reads 0x182 s.th.fw.fpc.toNat
        ∧ reads 0x183 s.th.fw.tval.toNat ∧ reads 0x184 s.th.fw.info.toNat ∧ reads 0x185 s.th.fw.vec.toNat
        ∧ reads 0x186 s.th.fw.scratch.toNat ∧ reads 0x189 (status s.th.fw))
    ∧ (s.th.level ≠ .user →
        let k := s.getCore s.core
        let thread := fun t => s.getTh (4 * s.core + t)
        let first := k.gangFirst = s.core
        let held := fun p => match k.lanes.getD p .dead with | .thread t => t | .free => 8 | .bake => 9 | .dead => 15
        let state := fun t => match (thread t).status with
          | .absent => 0 | .stopped => 4
          | .parked _ => if (thread t).rmvAck ≠ (thread t).rmvCur ∧ (thread t).rmLeft = 0 then 4 else 2
          | .idle => if (thread t).rmvAck ≠ (thread t).rmvCur ∧ (thread t).rmLeft = 0 then 4 else 3
          | _ => if (thread t).rmvAck ≠ (thread t).rmvCur ∧ (thread t).rmLeft = 0 then 4 else 1
        reads 0x200 (((List.range 9).map fun p => held p * 16 ^ p).sum)
        ∧ reads 0x201 (s.live s.core * 2 ^ 32 + k.gangFirst % 512 * 2 ^ 16 + k.gang * 2 ^ 8 + ((s.residents s.core).map (2 ^ ·)).sum)
        ∧ (∀ t < 4, reads (BitVec.ofNat 12 (0x204 + t)) (if first then
            (if (thread t).resident then 2 ^ 63 else 0) + (if (s.lat s.core t).ask then 2 ^ 62 else 0) + (s.lat s.core t).lim * 2 ^ 24
              + s.held s.core t * 2 ^ 16 + (s.lat s.core t).share * 2 ^ 8 + (s.lat s.core t).req else 0))
        ∧ reads 0x208 (if first then ((List.range 4).map fun t => state t * 16 ^ t).sum else 0)
        ∧ let cl := s.getCluster (clusterOf s.core)
          let cores := (List.range 8).map (coreAt (clusterOf s.core))
          let live := cores.filter s.coreLive
          let free := live.filter fun c => (s.getCore c).gang == 0 && (s.residents c).isEmpty
          let resident := cores.flatMap fun c => (List.range 4).filter fun t => (s.getTh (4 * c + t)).resident
          reads 0x300 (resident.length * 2 ^ 16 + free.length * 2 ^ 8 + live.length)
          ∧ reads 0x301 cl.obj.toNat ∧ reads 0x302 cl.stealctl ∧ reads 0x303 ((if cl.lerrV then 2 ^ 63 else 0) + cl.lerrAddr % 2 ^ 57))

/-- 01 R23 to R25, 03 R90, 04 R126, 09 R242, 15 R338, R339, 19 R378 to R381, R415: CRWR, CRSET and CRCLR write the old value of the register
to g[D] and the value they produce to the register, whose reserved bits stay 0; a read-only register takes ILLEGAL; a CRWR of zero to fmask
clears it, any other value, and every CRSET and CRCLR of fmask, traps; a CRWR of srseed seeds the 128 generators (a CRSET or CRCLR none: the
model's reading, log 47); a reserved rounding mode, a matrix vector length of 0 or above 64, a `LIM` above 64 and an `ALLOW` of 0 trap
ILLEGAL and change nothing; of latthr only `LIM` is written; `V` of lerr is cleared where g[A] holds 1 in its place, and stands otherwise.
-/
def Obligations.ControlRegisterWrites : Prop :=
  ∀ (s : State) (d a : BitVec 5),
    let x := s.rd a
    let done := fun (i : Instr) (old : Nat) (th : Thread) =>
      ∃ t, exec i s = .next t ∧ Holds d (BitVec.ofNat 64 old) t ∧ KeepsRegs d s t ∧ t.th.pc = s.th.pc + 4 ∧ OnlyThread s t
        ∧ t.th = { th with g := t.th.g, pc := t.th.pc, cv := none, reissue := false } ∧ SameBytes s t
    let shared := fun (i : Instr) (old : Nat) (t : State) =>
      exec i s = .next t ∧ Passes s t d (BitVec.ofNat 64 old) ∧ SameBytes s t
    let illegal := fun i : Instr => exec i s = .next (s.takeTrap { cause := 2, tval := s.word.setWidth 64 })
    let forms : List ((BitVec 12 → Instr) × (Word → Word)) :=
      [(fun n => .crwr d a n, fun _ => x), (fun n => .crset d a n, fun old => old ||| x), (fun n => .crclr d a n, fun old => old &&& ~~~ x)]
    let entry := fun (b : Nat) (r : TrapRegs) (put : TrapRegs → Thread) => ∀ p ∈ forms,
      let w := fun (n : Nat) (old : Word) (f : Word → TrapRegs) => done (p.1 (BitVec.ofNat 12 (b + n))) old.toNat (put (f (p.2 old)))
      w 0 r.cause (fun v => { r with cause := v &&& 0xF8FF03FFFF00003F }) ∧ w 1 r.epc (fun v => { r with epc := v })
      ∧ w 2 r.fpc (fun v => { r with fpc := v }) ∧ w 3 r.tval (fun v => { r with tval := v })
      ∧ w 4 r.info (fun v => { r with info := v &&& 0xFFFFFFFF003F0003 }) ∧ w 5 r.vec (fun v => { r with vec := v &&& 0xFFFFFFFFFFFFFFFC })
      ∧ w 6 r.scratch (fun v => { r with scratch := v })
      ∧ w 9 (BitVec.ofNat 64 (r.aie.toNat + 2 * r.paie.toNat + 4 * r.tih.toNat))
          (fun v => { r with aie := v.getLsbD 0, paie := v.getLsbD 1, tih := v.getLsbD 2 })
    (∀ n : BitVec 12, n.toNat ∈ [0, 1, 2, 3, 0xB, 0xC, 0xD, 0xE, 0x10, 0x1A, 0x1B, 0x800, 0x801, 0x802, 0x803, 0x804, 0x805, 0x806] →
        ∀ p ∈ forms, illegal (p.1 n))
    ∧ (∀ c < 16, ∀ p ∈ forms, illegal (p.1 (BitVec.ofNat 12 (0x40 + 4 * c)))
        ∧ ∀ k, 1 ≤ k → k ≤ 3 → done (p.1 (BitVec.ofNat 12 (0x40 + 4 * c + k))) (s.th.cdim.get (4 * c + k) 0).toNat
            { s.th with cdim := s.th.cdim.set (4 * c + k) (p.2 (s.th.cdim.get (4 * c + k) 0)) })
    ∧ (∀ p ∈ forms,
        let v := fun old : Nat => (p.2 (BitVec.ofNat 64 old)).toNat
        done (p.1 0x018) s.th.emvec.toNat { s.th with emvec := p.2 s.th.emvec &&& 0xFFFFFFFFFFFFFFFC }
        ∧ done (p.1 0x019) s.th.empc.toNat { s.th with empc := p.2 s.th.empc }
        ∧ done (p.1 0x004) s.th.estart { s.th with estart := v s.th.estart % 2 ^ 16 }
        ∧ done (p.1 0x006) s.th.fflags { s.th with fflags := v s.th.fflags % 32 }
        ∧ (v s.th.frm % 8 ≤ 5 → done (p.1 0x007) s.th.frm { s.th with frm := v s.th.frm % 8 })
        ∧ (6 ≤ v s.th.frm % 8 → illegal (p.1 0x007))
        ∧ done (p.1 0x009) s.th.qthr { s.th with qthr := v s.th.qthr % 2 ^ 32 }
        ∧ (1 ≤ v s.th.mvl % 128 ∧ v s.th.mvl % 128 ≤ 64 → done (p.1 0x00A) s.th.mvl { s.th with mvl := v s.th.mvl % 128 })
        ∧ (v s.th.mvl % 128 = 0 ∨ 64 < v s.th.mvl % 128 → illegal (p.1 0x00A))
        ∧ done (p.1 0x00F) s.th.hwfail { s.th with hwfail := v s.th.hwfail % 2 }
        ∧ done (p.1 0x011) s.th.tkcur.toNat { s.th with tkcur := p.2 s.th.tkcur })
    ∧ (x = 0 → done (.fmaskClear d a) ((List.range 32768).filter fun i => s.th.fmask.testBit i).length { s.th with fmask := 0 })
    ∧ (x ≠ 0 → illegal (.fmaskClear d a)) ∧ illegal (.crset d a 0x005) ∧ illegal (.crclr d a 0x005)
    ∧ (∃ gens, done (.srseedWrite d a) s.th.srseed { s.th with srseed := x.toNat % 2 ^ 32, gens := gens } ∧ gens.length = 128
        ∧ ∀ j < 128, gens[j]? = some (let y := BitVec.ofNat 32 (x.toNat % 2 ^ 32) ^^^ BitVec.ofNat 32 (j * 0x9E3779B9)
            if y = 0 then 1 else y))
    ∧ done (.crset d a 0x008) s.th.srseed { s.th with srseed := (BitVec.ofNat 64 s.th.srseed ||| x).toNat % 2 ^ 32 }
    ∧ done (.crclr d a 0x008) s.th.srseed { s.th with srseed := (BitVec.ofNat 64 s.th.srseed &&& ~~~ x).toNat % 2 ^ 32 }
    ∧ (s.th.level = .firmware → entry 0x180 s.th.fw fun r => { s.th with fw := r })
    ∧ (s.th.level ≠ .user →
        entry 0x100 s.th.sup (fun r => { s.th with sup := r })
        ∧ (∀ n : BitVec 12, n.toNat ∈ [0x10A, 0x10C, 0x200, 0x201, 0x208, 0x300, 0x301] → ∀ p ∈ forms, illegal (p.1 n))
        ∧ ∀ p ∈ forms,
            done (p.1 0x107) s.th.ptroot.toNat { s.th with ptroot := p.2 s.th.ptroot &&& 0x00FFFFFFFFFFFFFF }
            ∧ done (p.1 0x108) s.th.fbarea.toNat { s.th with fbarea := p.2 s.th.fbarea &&& 0xFFFFFFFFFFFFFF00 }
            ∧ (let old := s.th.rmLeft * 2 ^ 32 + s.th.rmAllow
               let v := (p.2 (BitVec.ofNat 64 old)).toNat % 2 ^ 21
               (v ≠ 0 → done (p.1 0x10B) old { s.th with rmAllow := v }) ∧ (v = 0 → illegal (p.1 0x10B)))
            ∧ (∀ h < 4,
                let old := s.latthr s.core h
                let v := ((p.2 (BitVec.ofNat 64 old)).toNat >>> 24) % 128
                (v ≤ 64 → ∃ t, shared (p.1 (BitVec.ofNat 12 (0x204 + h))) old t
                  ∧ OnlyCore s t s.core { s.getCore s.core with lat := (t.getCore s.core).lat }
                  ∧ ∀ u, t.lat s.core u = if u = h then { s.lat s.core h with lim := v } else s.lat s.core u)
                ∧ (64 < v → illegal (p.1 (BitVec.ofNat 12 (0x204 + h)))))
            ∧ (let cl := clusterOf s.core
               let c := s.getCluster cl
               let only := fun (n : BitVec 12) (old : Nat) (k : Cluster) => ∃ t, shared (p.1 n) old t
                 ∧ t = { s with th := t.th, clusters := t.clusters } ∧ ∀ m, t.getCluster m = if m = cl then k else s.getCluster m
               only 0x302 c.stealctl { c with stealctl := (p.2 (BitVec.ofNat 64 c.stealctl)).toNat % 4 }
               ∧ only 0x303 ((if c.lerrV then 2 ^ 63 else 0) + c.lerrAddr % 2 ^ 57) { c with lerrV := c.lerrV && !x.getLsbD 63 }))

/-- 01 R20, R22, 04 R126, 19 R378: at user level an access to a supervisor, core or cluster register, and every instruction reserved to the
supervisor, takes PRIV with the word; so does a supervisor's access to a register of firmware; every other access to an unassigned
register takes ILLEGAL; nothing is written. -/
def Obligations.PrivilegeChecks : Prop :=
  ∀ (s : State) (d a b : BitVec 5) (n : BitVec 12) (k : BitVec 3) (ri : BitVec 1),
    let priv := fun i : Instr => exec i s = .next (s.takeTrap { cause := 3, tval := s.word.setWidth 64 })
    let illegal := fun i : Instr => exec i s = .next (s.takeTrap { cause := 2, tval := s.word.setWidth 64 })
    let all := fun p : Instr → Prop => p (.crrd d n) ∧ p (.crwr d a n) ∧ p (.crset d a n) ∧ p (.crclr d a n)
    let within := fun lo hi : Nat => lo ≤ n.toNat ∧ n.toNat ≤ hi
    let firmwares := within 0x180 0x186 ∨ n = 0x189
    let assigned := within 0 0x11 ∨ within 0x18 0x1B ∨ within 0x40 0x7F ∨ within 0x100 0x10C ∨ firmwares ∨ within 0x200 0x201
      ∨ within 0x204 0x208 ∨ within 0x300 0x303 ∨ within 0x800 0x806
    (s.th.level = .user → priv (.tret ri) ∧ priv .idle ∧ priv (.ctxsv a) ∧ priv (.ctxld a) ∧ priv (.tlbinv a b k) ∧ priv .tlbsync)
    ∧ (s.th.level = .user → within 0x100 0x3FF → all priv)
    ∧ (s.th.level = .supervisor → firmwares → all priv)
    ∧ (¬ assigned → (s.th.level = .user → ¬ within 0x100 0x3FF) → all illegal)

/-- 04 R123 to R132: what the remaining system instructions do. FENCE and LSYNC go on, since every access has been performed (log entry 2);
TLBSYNC goes on when no TLBINV of the thread is outstanding and waits otherwise; TLBINV removes from the VTLB of every core of the
partition, from its engines' held translations (the STLB) and from the MTLB of its matrix unit the translations it names and only those (a
code-store fill walks afresh, so that no ITLB is held); RMACK acknowledges a version between `ACK` and `CUR`; LWAKE raises the links of the
path that are neither full, waking nor held by a cap at narrow, and only those; IDLE stops issue after pc + 4 unless a cause is pending. The
model's choices: a core that has left its cluster counts for the partition of the cluster whose store it fetches from (the numbers from 320,
log 71), and which links a path has (log 92). -/
def Obligations.SystemInstructionResults : Prop :=
  ∀ (s : State) (d a b : BitVec 5) (k : BitVec 3) (q : BitVec 2),
    exec (.fence k q) s = .next s.advance ∧ exec .lsync s = .next s.advance
    ∧ (s.th.level ≠ .user → s.th.tlbinvs = 0 → exec .tlbsync s = .next s.advance)
    ∧ (s.th.level ≠ .user → s.th.tlbinvs ≠ 0 →
        exec .tlbsync s = .next { s with th := { s.th with status := .parked .tlbsync } })
    ∧ (s.th.level ≠ .user → ∃ t, exec (.tlbinv a b k) s = .next t
        ∧ t.th = { s.th with pc := s.th.pc + 4, cv := none, reissue := false, tlbinvs := s.th.tlbinvs + 1 } ∧ SameBytes s t
        ∧ t = { s with th := t.th, cores := t.cores, units := t.units }
        ∧ let serves := fun c => c ∈ coresOf s.part.clusters ∨ (320 ≤ c ∧ clusterOf c ∈ s.part.clusters)
          let kept := fun l : List Trans => l.filter fun x => !x.named k.toNat (s.rd a).toNat ((s.rd b).toNat % 2 ^ 16)
          (∀ c, (s.cores.look c).isSome = true →
            (serves c → (t.getCore c).vtlb = kept (s.getCore c).vtlb
              ∧ ∀ n, ((t.getCore c).channels.get n {}).xfers.map (·.held) = ((s.getCore c).channels.get n {}).xfers.map fun x => kept x.held)
            ∧ (¬ serves c → t.getCore c = s.getCore c))
          ∧ ∀ n, (∀ c, c / 2 = n → (s.cores.look c).isSome = true) →
            (t.units.get n {}).mtlb = if serves (2 * n) ∨ serves (2 * n + 1) then kept (s.units.get n {}).mtlb else (s.units.get n {}).mtlb)
    ∧ (let v := (s.rd a).toNat % 2 ^ 32
       (s.th.rmvAck ≤ v → v ≤ s.th.rmvCur → ∃ t, exec (.rmack d a) s = .next t ∧ Holds d 1 t ∧ KeepsRegs d s t
          ∧ t.th = { s.th with rmvAck := v, g := t.th.g, pc := s.th.pc + 4, cv := none, reissue := false } ∧ OnlyThread s t ∧ SameBytes s t)
       ∧ (v < s.th.rmvAck ∨ s.th.rmvCur < v → WritesReg (.rmack d a) s d 0))
    ∧ (∃ t, exec (.lwake a k) s = .next t ∧ t.th = s.advance.th ∧ t = { s with th := t.th, links := t.links } ∧ SameBytes s t
        ∧ ∀ r, let x := s.linkSt r
          t.linkSt r = if r ∈ s.pathLinks s.core k.toNat ((s.rd a).toNat % 256) ∧ x.power ≠ .full ∧ x.waking = false
              ∧ ¬ (x.capped = true ∧ x.power = .narrow)
            then { x with waking := true, raised := true } else x)
    ∧ (s.th.level ≠ .user → s.advance.th.asyncReady = false →
        exec .idle s = .next { s with th := { s.th with pc := s.th.pc + 4, cv := none, reissue := false, status := .idle } })
    ∧ (s.th.level ≠ .user → s.advance.th.asyncReady = true → exec .idle s = .next s.advance)

/-- 05 R139, R140, 01 R14, 09 R245 to R249: SETVL has the lane groups that it asks for granted, sets the element width, vrlen and vlmax from
those that the thread then holds, vl to the smaller of g[A] and vlmax, estart to 0, and zeroes the tail of every vector and mask register if
the grant has changed. SETVLW does the same for the thread's last request with the strip that the status word leaves, waits where it leaves
none, takes PRODFAIL after a failure, and where the word cannot be read traps without a grant (05 R142). The model's choices: which threads
a lane group is kept for (log 61), and that a SETVLW which has waited reads on with its grant, which a trap undoes (log 59). -/
def Obligations.VectorConfiguration : Prop :=
  ∀ (s : State) (d a b : BitVec 5) (e : BitVec 2),
    let w := 8 * 2 ^ e.toNat
    let configured := fun (t : State) (vl hwfail : Nat) =>
      t.th.ew = e.toNat ∧ t.th.vrlen = t.held s.core s.thr * 512 ∧ t.th.vlmax = t.th.vrlen * 8 / w ∧ t.th.vl = vl ∧ t.th.estart = 0
      ∧ Holds d (BitVec.ofNat 64 vl) t ∧ KeepsRegs d s t
      ∧ (t.held s.core s.thr = s.held s.core s.thr → t.th.v = s.th.v ∧ t.th.m = s.th.m)
      ∧ (t.held s.core s.thr ≠ s.held s.core s.thr →
          t.th.v = s.th.v.map (· % 2 ^ (vl * w)) ∧ t.th.m = s.th.m.map (· % 2 ^ vl))
      ∧ t.th = { s.th with ew := t.th.ew, vrlen := t.th.vrlen, vlmax := t.th.vlmax, vl := t.th.vl, estart := 0, v := t.th.v, m := t.th.m,
                           g := t.th.g, pc := s.th.pc + 4, cv := none, reissue := false, status := t.th.status, hwfail := hwfail }
      ∧ SameBytes s t
    let asked := Nat.min (if s.rd b = 0 then s.th.lanes else (s.rd b).toNat) (8 * 2 ^ (s.getCore s.core).gang)
    let last := (s.lat s.core s.thr).req
    let kept := if last = 0 then s.th.lanes else last
    (∃ t, exec (.setvl d a b e) s = .next t ∧ configured t (Nat.min (s.rd a).toNat t.th.vlmax) s.th.hwfail ∧ Granted s t asked)
    ∧ (s.th.old = none → s.th.hwfail = 1 → exec (.setvlw d a b e) s = .next (s.takeTrap { cause := 34, tval := s.rd b }))
    ∧ (∀ x u, s.th.old = none → s.th.hwfail ≠ 1 → s.space0 (s.rd b) 8 .read = .error (.trap x u) →
        exec (.setvlw d a b e) s = .next (u.takeTrap x))
    ∧ (∀ x u o, s.th.old = some o → s.space0 (s.rd b) 8 .read = .error (.trap x u) →
        exec (.setvlw d a b e) s = .next ((u.setvlwUndo o).takeTrap x))
    ∧ ∀ l u, s.space0 (s.rd b) 8 .read = .ok (l, u) →
        let x := s.bytesAt l 8
        let p := (s.rd a).toNat
        let hw := x % 2 ^ 32
        let waits := x < 2 ^ 62 ∧ hw ≤ p
        let parks := fun (o : VConf) => ∃ t, exec (.setvlw d a b e) s = .next t ∧ t.th.status = .parked (.setvlw d a b e (t.watch [l]))
          ∧ t.th.old = some o
        (s.th.old = none → s.th.hwfail ≠ 1 →
          let goes := fun (vl : State → Nat) (hwfail : Nat) =>
            ∃ t, exec (.setvlw d a b e) s = .next t ∧ configured t (vl t) hwfail ∧ Granted s t kept
          (2 ^ 63 ≤ x → goes (fun _ => 0) 1)
          ∧ (x < 2 ^ 63 → p < hw → goes (fun t => Nat.min (hw - p) t.th.vlmax) s.th.hwfail)
          ∧ (x < 2 ^ 63 → hw ≤ p → 2 ^ 62 ≤ x → goes (fun _ => 0) s.th.hwfail)
          ∧ (waits → parks u.vconf))
        ∧ ∀ o, s.th.old = some o →
          let goes := fun (vl hwfail : Nat) =>
            ∃ t, exec (.setvlw d a b e) s = .next t ∧ Holds d (BitVec.ofNat 64 vl) t ∧ KeepsRegs d s t ∧ SameBytes s t
              ∧ t.th.v = (if s.th.vrlen = 512 * o.lanes.length then s.th.v else s.th.v.map (· % 2 ^ (vl * (8 * 2 ^ s.th.ew))))
              ∧ t.th.m = (if s.th.vrlen = 512 * o.lanes.length then s.th.m else s.th.m.map (· % 2 ^ vl))
              ∧ t.th = { s.th with vl := vl, v := t.th.v, m := t.th.m, g := t.th.g, pc := s.th.pc + 4, cv := none, reissue := false,
                                   status := .issuing, hwfail := hwfail }
          (2 ^ 63 ≤ x → goes 0 1)
          ∧ (x < 2 ^ 63 → p < hw → goes (Nat.min (hw - p) s.th.vlmax) s.th.hwfail)
          ∧ (x < 2 ^ 63 → hw ≤ p → 2 ^ 62 ≤ x → goes 0 s.th.hwfail)
          ∧ (waits → parks o)

/-- 04 R127, 19 R390, R397: CTXSV at supervisor or firmware level, with a save area that can be written, leaves the thread without a grant: vl,
vlmax, vrlen, every vector and mask register are 0, no chain, lane group, attachment or channel is left, the general registers keep their
values and execution goes on; the save area holds, at the places of 19 R391 and R392, the general and the trap-entry registers and
ptroot, and every byte outside it reads as it did when the engines had stopped. CTXLD at supervisor or firmware level, when the area can
be read, passes its checks and every resource it names is free, restores the context: the general registers, ptroot and the supervisor's
trap-entry registers are those of the area, and execution goes on at the level of the CTXLD. -/
def Obligations.ContextSaveAndLoad : Prop :=
  (∀ (s : State) (a : BitVec 5) (l : List (Nat × Loc)) (u : State), s.th.level ≠ .user → (s.rd a).toNat % 4096 = 0 →
    s.drainContext.wf = true → (s.th.slots.map (·.1)).Pairwise (· < ·) →
    s.drainContext.saveLocs (s.rd a).toNat s.drainContext.areaImage.2 .write = .ok (l, u) →
    let img := s.drainContext.areaImage.1
    ∃ t, exec (.ctxsv a) s = .next t ∧ t.th.vl = 0 ∧ t.th.vlmax = 0 ∧ t.th.vrlen = 0 ∧ (∀ r, t.vreg r = 0) ∧ (∀ r, t.mreg r = 0)
      ∧ t.th.saved = true ∧ t.th.g = s.th.g ∧ t.th.pc = s.th.pc + 4 ∧ t.th.level = s.th.level ∧ t.th.sup = s.th.sup ∧ t.th.fw = s.th.fw
      ∧ t.th.ew = s.th.ew ∧ t.th.slots = [] ∧ t.held t.core t.thr = 0 ∧ t.att = none ∧ (∀ c, t.holds c = false)
      ∧ Scattered s.drainContext t (List.range l.length) (fun j => (l.getD j (0, .dev 0)).2) 8
          (fun j => img / 2 ^ (64 * lastAt (List.range l.length) (fun j => (l.getD j (0, .dev 0)).2) j) % 2 ^ 64)
      ∧ (∀ r : BitVec 5, r ≠ 0 → dword img (0x78 + 8 * r.toNat) = (s.rd r).toNat)
      ∧ dword img 0x40 = s.th.sup.cause.toNat ∧ dword img 0x48 = s.th.sup.epc.toNat ∧ dword img 0x50 = s.th.sup.fpc.toNat
      ∧ dword img 0x58 = s.th.sup.tval.toNat ∧ dword img 0x60 = s.th.sup.info.toNat ∧ dword img 0x68 = s.th.ptroot.toNat)
  ∧ ∀ (s u v t : State) (a : BitVec 5) (f img : Nat) (x : Saved), s.th.level ≠ .user → (s.rd a).toNat % 4096 = 0 →
    s.loadArea (s.rd a).toNat 4096 = .ok (f, u) → 4096 ≤ dword f 8 → dword f 8 % 64 = 0 → (directory f).isSome = true →
    u.loadArea (s.rd a).toNat (dword f 8) = .ok (img, v) → Saved.parse img = some x → v.restored x = some t →
    ∃ t', exec (.ctxld a) s = .next t' ∧ t'.th.level = s.th.level ∧ t'.th.pc = s.th.pc + 4 ∧ t'.th.saved = false
      ∧ (∀ r : BitVec 5, r ≠ 0 → t'.rd r = BitVec.ofNat 64 (dword x.fixed (0x78 + 8 * r.toNat)))
      ∧ t'.th.sup = { s.th.sup with
          cause := BitVec.ofNat 64 (dword x.fixed 0x40), epc := BitVec.ofNat 64 (dword x.fixed 0x48)
          fpc := BitVec.ofNat 64 (dword x.fixed 0x50), tval := BitVec.ofNat 64 (dword x.fixed 0x58)
          info := BitVec.ofNat 64 (dword x.fixed 0x60) }
      ∧ t'.th.ptroot = BitVec.ofNat 64 (dword x.fixed 0x68)
      ∧ t'.th.rmvCur = t.rmap.ver

/-! ## Vector instructions (05) -/

/-- 05 R133 to R135, R143 to R145: the vector integer operations, with a vector or a scalar second operand, write each performed element
modulo 2^w, w the element width; tail and inactive elements keep their values, and no flag is raised. The carry-less product is that of
polynomials over the bits; VWID and VWIDN read elements of half the width. -/
def Obligations.VectorIntegerResults : Prop :=
  ∀ (s : State) (d a b : BitVec 5) (k : BitVec 3) (c : BitVec 1),
    let w := 8 * 2 ^ s.th.ew
    let x := fun j => BitVec.ofNat w (elt (s.vreg a) w j)
    let y := fun j => BitVec.ofNat w (elt (s.vreg b) w j)
    let z := BitVec.ofNat w (s.rd b).toNat
    let h := fun j => BitVec.ofNat (w / 2) (elt (s.vreg a) (w / 2) j)
    let product := fun u v : BitVec w => (List.range w).foldl (fun p n => if v.getLsbD n then p ^^^ u.toNat <<< n else p) 0
    let writes := fun (i : Instr) (f : Nat → BitVec w) => Elementwise i s d w k c fun j => { val := (f j).toNat }
    let both := fun (vv vs : BitVec 5 → BitVec 5 → BitVec 5 → BitVec 3 → BitVec 1 → Instr) (f : BitVec w → BitVec w → BitVec w) =>
      writes (vv d a b k c) (fun j => f (x j) (y j)) ∧ writes (vs d a b k c) (fun j => f (x j) z)
    both .vadd .vaddScalar (fun u v => u + v)
    ∧ both .vsub .vsubScalar (fun u v => u - v)
    ∧ both .vand .vandScalar (fun u v => u &&& v)
    ∧ both .vor .vorScalar (fun u v => u ||| v)
    ∧ both .vxor .vxorScalar (fun u v => u ^^^ v)
    ∧ both .vsll .vsllScalar (fun u v => u <<< (v.toNat % w))
    ∧ both .vsrl .vsrlScalar (fun u v => u >>> (v.toNat % w))
    ∧ both .vsra .vsraScalar (fun u v => BitVec.ofInt w (u.toInt / 2 ^ (v.toNat % w)))
    ∧ both .vmul .vmulScalar (fun u v => BitVec.ofNat w (u.toNat * v.toNat))
    ∧ both .vmulh .vmulhScalar (fun u v => BitVec.ofInt w (u.toInt * v.toInt / 2 ^ w))
    ∧ both .vmulhn .vmulhnScalar (fun u v => BitVec.ofNat w (u.toNat * v.toNat / 2 ^ w))
    ∧ both .vdiv .vdivScalar (fun u v => if v = 0 then -1 else BitVec.ofInt w (u.toInt.tdiv v.toInt))
    ∧ both .vdivn .vdivnScalar (fun u v => if v = 0 then -1 else BitVec.ofNat w (u.toNat / v.toNat))
    ∧ both .vrem .vremScalar (fun u v => if v = 0 then u else BitVec.ofInt w (u.toInt.tmod v.toInt))
    ∧ both .vremn .vremnScalar (fun u v => if v = 0 then u else BitVec.ofNat w (u.toNat % v.toNat))
    ∧ both .vmin .vminScalar (fun u v => if v.toInt < u.toInt then v else u)
    ∧ both .vmax .vmaxScalar (fun u v => if u.toInt < v.toInt then v else u)
    ∧ both .vminn .vminnScalar (fun u v => if v.toNat < u.toNat then v else u)
    ∧ both .vmaxn .vmaxnScalar (fun u v => if u.toNat < v.toNat then v else u)
    ∧ both .vclmul .vclmulScalar (fun u v => BitVec.ofNat w (product u v))
    ∧ both .vclmulh .vclmulhScalar (fun u v => BitVec.ofNat w (product u v / 2 ^ w))
    ∧ (s.th.ew ≠ 0 → writes (.vwid d a k c) (fun j => BitVec.ofInt w (h j).toInt) ∧ writes (.vwidn d a k c) (fun j => BitVec.ofNat w (h j).toNat))
    ∧ (s.th.ew = 0 → IsIllegal (.vwid d a k c) s ∧ IsIllegal (.vwidn d a k c) s)

/-- 05 R146, 03 R74: the saturating operations write the exact result clamped to the range of the destination, and an element that the
clamp changes sets its m0 bit; the narrowing forms write elements of half the width and are ILLEGAL at 8-bit elements. -/
def Obligations.VectorSaturatingResults : Prop :=
  ∀ (s : State) (d a b : BitVec 5) (k : BitVec 3) (c : BitVec 1),
    let w := 8 * 2 ^ s.th.ew
    let x := fun j => BitVec.ofNat w (elt (s.vreg a) w j)
    let y := fun j => BitVec.ofNat w (elt (s.vreg b) w j)
    let z := BitVec.ofNat w (s.rd b).toNat
    let clamp := fun (n : Nat) (lo hi v : Int) =>
      ({ val := (BitVec.ofInt n (max lo (min hi v))).toNat, mark := decide (v < lo ∨ hi < v) } : Rounded)
    let sat := fun (n : Nat) (v : Int) => clamp n (-2 ^ (n - 1)) (2 ^ (n - 1) - 1) v
    let satn := fun (n : Nat) (v : Int) => clamp n 0 (2 ^ n - 1) v
    let writes := fun (i : Instr) (n : Nat) (f : Nat → Rounded) => Elementwise i s d n k c f
    writes (.vsadd d a b k c) w (fun j => sat w ((x j).toInt + (y j).toInt)) ∧ writes (.vsaddScalar d a b k c) w (fun j => sat w ((x j).toInt + z.toInt))
    ∧ writes (.vssub d a b k c) w (fun j => sat w ((x j).toInt - (y j).toInt)) ∧ writes (.vssubScalar d a b k c) w (fun j => sat w ((x j).toInt - z.toInt))
    ∧ writes (.vsaddn d a b k c) w (fun j => satn w ((x j).toNat + (y j).toNat)) ∧ writes (.vsaddnScalar d a b k c) w (fun j => satn w ((x j).toNat + z.toNat))
    ∧ writes (.vssubn d a b k c) w (fun j => satn w ((x j).toNat - (y j).toNat)) ∧ writes (.vssubnScalar d a b k c) w (fun j => satn w ((x j).toNat - z.toNat))
    ∧ (s.th.ew ≠ 0 → writes (.vnrw d a k c) (w / 2) (fun j => sat (w / 2) (x j).toInt) ∧ writes (.vnrwn d a k c) (w / 2) (fun j => satn (w / 2) (x j).toNat)
        ∧ writes (.vnrwsn d a k c) (w / 2) (fun j => satn (w / 2) (x j).toInt))
    ∧ (s.th.ew = 0 → IsIllegal (.vnrw d a k c) s ∧ IsIllegal (.vnrwn d a k c) s ∧ IsIllegal (.vnrwsn d a k c) s)

/-- 05 R147, R149: the floating vector operations write to each performed element the result of the operation on the values of its operands
in the format of BF and the element width, and raise its flags; those that round under a rounding mode other than SR, VFMIN and VFMAX and
their scalar forms, which round nothing and draw nothing, under every mode. -/
def Obligations.VectorFloatResults : Prop :=
  ∀ (s : State) (d a b : BitVec 5) (k : BitVec 3) (f c : BitVec 1) (F : Fmt), s.format f F →
    let w := 8 * 2 ^ s.th.ew
    let r := rmodeOf s.th.frm
    let x := fun j => elt (s.vreg a) w j
    let y := fun j => elt (s.vreg b) w j
    let o := fun j => elt (s.vreg d) w j
    let z := (s.rd b).toNat
    let writes := fun (i : Instr) (g : Nat → Rounded) => Elementwise i s d w k c g
    let both := fun (vv vs : BitVec 5 → BitVec 5 → BitVec 5 → BitVec 3 → BitVec 1 → BitVec 1 → Instr) (g : FVal → FVal → FVal → Rounded) =>
      writes (vv d a b k f c) (fun j => g (dec F (x j)) (dec F (y j)) (dec F (o j)))
      ∧ writes (vs d a b k f c) (fun j => g (dec F (x j)) (dec F z) (dec F (o j)))
    (s.th.frm ≤ 4 → both .vfadd .vfaddScalar (fun u v _ => fpAdd F r 0 u v) ∧ both .vfsub .vfsubScalar (fun u v _ => fpAdd F r 0 u v.neg)
    ∧ both .vfmul .vfmulScalar (fun u v _ => fpMul F r 0 u v) ∧ both .vfma .vfmaScalar (fun u v q => fpFma F r 0 u v q)
    ∧ both .vfms .vfmsScalar (fun u v q => fpFma F r 0 u v q.neg) ∧ both .vfnma .vfnmaScalar (fun u v q => fpFma F r 0 u.neg v q)
    ∧ both .vfdiv .vfdivScalar (fun u v _ => fpDiv F r 0 u v)
    ∧ writes (.vfsqrt d a k f c) (fun j => fpSqrt F r 0 (dec F (x j))) ∧ writes (.vfsqrtScalar d a k f c) (fun j => fpSqrt F r 0 (dec F (x j)))
    ∧ writes (.vfrcp d a k f c) (fun j => fpDiv F r 0 (.fin false 1 0) (dec F (x j)))
    ∧ writes (.vfrcpScalar d a k f c) (fun j => fpDiv F r 0 (.fin false 1 0) (dec F (x j))))
    ∧ writes (.vfmin d a b k f c) (fun j => fpMinMax F false (x j) (y j)) ∧ writes (.vfminScalar d a b k f c) (fun j => fpMinMax F false (x j) z)
    ∧ writes (.vfmax d a b k f c) (fun j => fpMinMax F true (x j) (y j)) ∧ writes (.vfmaxScalar d a b k f c) (fun j => fpMinMax F true (x j) z)

/-- 05 R137, R147: a floating vector operation, comparison or reduction is ILLEGAL with BF at another width than 16, at 8-bit elements, at 64-bit
elements without the feature vf64, and, where it rounds, under SR without the feature srnd; with it, it completes under SR: each performed element, in
ascending order, steps the generator of its number modulo 128 and is rounded with the word that this gives (03 R90). -/
def Obligations.VectorFloatChecks : Prop :=
  ∀ (s : State) (d a b : BitVec 5) (k : BitVec 3) (f c : BitVec 1) (q : BitVec 3),
    let rounding : List Instr := [.vfadd d a b k f c, .vfsub d a b k f c, .vfmul d a b k f c, .vfma d a b k f c, .vfms d a b k f c, .vfnma d a b k f c,
      .vfdiv d a b k f c, .vfsqrt d a k f c, .vfrcp d a k f c, .vfaddScalar d a b k f c, .vfsubScalar d a b k f c, .vfmulScalar d a b k f c,
      .vfmaScalar d a b k f c, .vfmsScalar d a b k f c, .vfnmaScalar d a b k f c, .vfdivScalar d a b k f c, .vfsqrtScalar d a k f c,
      .vfrcpScalar d a k f c]
    let others : List Instr := [.vfmin d a b k f c, .vfmax d a b k f c, .vfminScalar d a b k f c, .vfmaxScalar d a b k f c, .vfcmp d a b k q f c,
      .vfcmps d a b k q f c, .vfredsum d a b k f c, .vredmaxF d a b k f c, .vredminF d a b k f c]
    ((f = 1 ∧ s.th.ew ≠ 1) ∨ s.th.ew = 0 ∨ (s.th.ew = 3 ∧ s.hasFeat 0 = false) → ∀ i ∈ rounding ++ others, IsIllegal i s)
    ∧ (s.th.frm = 5 → s.hasFeat 2 = false → ∀ i ∈ rounding ++ [.vfredsum d a b k f c], IsIllegal i s)
    ∧ ∀ F, s.format f F → s.th.frm = 5 → s.hasFeat 2 = true →
        (∀ i ∈ rounding, ∃ t, exec i s = .next t ∧ MemberDone c s t ∧ t.th.g = s.th.g
          ∧ KeepsVectors d s t ∧ KeepsMasks 0 s t ∧ t.th.gens.length = s.th.gens.length
          ∧ ∀ j, s.performs k j = false → elt (t.vreg d) (8 * 2 ^ s.th.ew) j = elt (s.vreg d) (8 * 2 ^ s.th.ew) j)
        ∧ (s.th.gens.length = 128 →
          let w := 8 * 2 ^ s.th.ew
          let x := fun j => dec F (elt (s.vreg a) w j)
          let y := fun j => dec F (elt (s.vreg b) w j)
          let o := fun j => dec F (elt (s.vreg d) w j)
          let z := dec F (s.rd b).toNat
          let writes := fun (i : Instr) (g : Nat → Nat → Rounded) =>
            ElementwiseIn i s d w k c (s.srAfter k) fun j => g (s.srWordAt j (s.srDraws k j)) j
          let both := fun (vv vs : BitVec 5 → BitVec 5 → BitVec 5 → BitVec 3 → BitVec 1 → BitVec 1 → Instr) (g : Nat → FVal → FVal → FVal → Rounded) =>
            writes (vv d a b k f c) (fun r j => g r (x j) (y j) (o j)) ∧ writes (vs d a b k f c) (fun r j => g r (x j) z (o j))
          both .vfadd .vfaddScalar (fun r u v _ => fpAdd F .sr r u v) ∧ both .vfsub .vfsubScalar (fun r u v _ => fpAdd F .sr r u v.neg)
          ∧ both .vfmul .vfmulScalar (fun r u v _ => fpMul F .sr r u v) ∧ both .vfma .vfmaScalar (fun r u v q => fpFma F .sr r u v q)
          ∧ both .vfms .vfmsScalar (fun r u v q => fpFma F .sr r u v q.neg) ∧ both .vfnma .vfnmaScalar (fun r u v q => fpFma F .sr r u.neg v q)
          ∧ both .vfdiv .vfdivScalar (fun r u v _ => fpDiv F .sr r u v)
          ∧ writes (.vfsqrt d a k f c) (fun r j => fpSqrt F .sr r (x j)) ∧ writes (.vfsqrtScalar d a k f c) (fun r j => fpSqrt F .sr r (x j))
          ∧ writes (.vfrcp d a k f c) (fun r j => fpDiv F .sr r (.fin false 1 0) (x j))
          ∧ writes (.vfrcpScalar d a k f c) (fun r j => fpDiv F .sr r (.fin false 1 0) (x j)))

/-- 05 R150 to R152: VCMP and VFCMP write the bit of each performed element to a mask register, and a floating comparison raises NV as its
condition says; VMERGE selects by the mask, VMV and VBCAST copy. -/
def Obligations.VectorComparisons : Prop :=
  ∀ (s : State) (d a b : BitVec 5) (k : BitVec 3) (c : BitVec 1),
    let w := 8 * 2 ^ s.th.ew
    let x := fun j => BitVec.ofNat w (elt (s.vreg a) w j)
    let y := fun j => BitVec.ofNat w (elt (s.vreg b) w j)
    let z := BitVec.ofNat w (s.rd b).toNat
    let cond := fun (q : BitVec 6) (p : BitVec w → BitVec w → Bool) => d.toNat < 8 →
      Maskwise (.vcmp d a b k q c) s d k c (fun j => p (x j) (y j)) (fun _ => 0) ∧ Maskwise (.vcmps d a b k q c) s d k c (fun j => p (x j) z) (fun _ => 0)
    cond 0 (fun u v => decide (u = v)) ∧ cond 1 (fun u v => decide (u ≠ v)) ∧ cond 2 (fun u v => decide (u.toInt < v.toInt))
    ∧ cond 3 (fun u v => decide (u.toInt ≤ v.toInt)) ∧ cond 4 (fun u v => decide (v.toInt < u.toInt)) ∧ cond 5 (fun u v => decide (v.toInt ≤ u.toInt))
    ∧ cond 6 (fun u v => decide (u.toNat < v.toNat)) ∧ cond 7 (fun u v => decide (u.toNat ≤ v.toNat)) ∧ cond 8 (fun u v => decide (v.toNat < u.toNat))
    ∧ cond 9 (fun u v => decide (v.toNat ≤ u.toNat))
    ∧ (∀ (f : BitVec 1) (F : Fmt) (q : BitVec 3), s.format f F → d.toNat < 8 → q.toNat ≤ 4 →
        let rel := fun (u v : FVal) =>
          let nan := u.isNaN || v.isNaN
          let sig := u.isSig || v.isSig
          let o := u.cmp v
          if q = 0 then (!nan && decide (o = 0), if sig then 16 else 0)
          else if q = 1 then (!nan && decide (o < 0), if nan then 16 else 0)
          else if q = 2 then (!nan && decide (o ≤ 0), if nan then 16 else 0)
          else if q = 3 then (nan, if sig then 16 else 0)
          else (nan || decide (o ≠ 0), if sig then 16 else 0)
        let u := fun j => dec F (elt (s.vreg a) w j)
        let v := fun j => dec F (elt (s.vreg b) w j)
        let g := dec F (s.rd b).toNat
        Maskwise (.vfcmp d a b k q f c) s d k c (fun j => (rel (u j) (v j)).1) (fun j => (rel (u j) (v j)).2)
        ∧ Maskwise (.vfcmps d a b k q f c) s d k c (fun j => (rel (u j) g).1) (fun j => (rel (u j) g).2))
    ∧ Elementwise (.vmerge d a b k c) s d w 0 c (fun j => { val := if (s.mreg k.toNat).testBit j then (x j).toNat else (y j).toNat })
    ∧ Elementwise (.vmv d a k c) s d w k c (fun j => { val := (x j).toNat })
    ∧ Elementwise (.vbcast d a k c) s d w k c (fun _ => { val := (s.rd a).toNat })

/-- 05 R137, R152 to R154: the whole-vector moves and permutations, at estart 0, write the elements that their rules name and keep all others;
at a nonzero start they are ILLEGAL. -/
def Obligations.VectorPermutations : Prop :=
  ∀ (s : State) (d a b : BitVec 5) (k : BitVec 3) (c : BitVec 1),
    let w := 8 * 2 ^ s.th.ew
    let vl := s.th.vl
    let on := fun j => decide (j < vl) && s.active k j
    let actives := (List.range vl).filter on
    let x := fun j => elt (s.vreg a) w j
    let n := (s.rd b).toNat
    let e := if n < vl then x n else 0
    let writes := fun (i : Instr) (at_ : Nat → Bool) (f : Nat → Nat) => ∃ t, exec i s = .next t ∧ MemberDone c s t
      ∧ KeepsVectors d s t ∧ (∀ j, elt (t.vreg d) w j = if at_ j then f j % 2 ^ w else elt (s.vreg d) w j)
      ∧ t.th.m = s.th.m ∧ t.th.g = s.th.g ∧ t.th.fflags = s.th.fflags ∧ t.th.gens = s.th.gens
    let scalar := fun (i : Instr) (v : Word) => ∃ t, exec i s = .next t ∧ MemberDone c s t ∧ Holds d v t ∧ KeepsRegs d s t
      ∧ t.th.v = s.th.v ∧ t.th.m = s.th.m ∧ t.th.fflags = s.th.fflags ∧ t.th.gens = s.th.gens
    (s.start = 0 →
      scalar (.vextN d a b c) (BitVec.ofNat 64 e) ∧ scalar (.vextI d a b c) (BitVec.ofInt 64 (BitVec.ofNat w e).toInt)
      ∧ writes (.vslideup d a b k c) (fun j => on j && decide (n ≤ j)) (fun j => x (j - n))
      ∧ writes (.vslidedn d a b k c) on (fun j => if j + n < vl then x (j + n) else 0)
      ∧ writes (.vperm d a b k c) on (fun j => let o := elt (s.vreg b) w j; if o < vl then x o else 0)
      ∧ writes (.vcompress d a k c) (fun j => decide (j < actives.length)) (fun j => x (actives.getD j 0))
      ∧ writes (.vexpand d a k c) on (fun j => x (actives.filter (· < j)).length)
      ∧ writes (.viota d k c) on (fun j => (actives.filter (· < j)).length)
      ∧ (d.toNat < 8 → ∃ t, exec (.vconf d a k c) s = .next t ∧ MemberDone c s t ∧ t.th.v = s.th.v ∧ t.th.g = s.th.g
          ∧ t.th.fflags = s.th.fflags ∧ t.th.gens = s.th.gens ∧ KeepsMasks d.toNat s t
          ∧ ∀ j < s.th.vlmax, (t.mreg d.toNat).testBit j =
              if j < vl then s.active k j && (actives.filter (· < j)).all (fun i => x i != x j) else (s.mreg d.toNat).testBit j))
    ∧ (s.start ≠ 0 → ∀ i ∈ [Instr.vextN d a b c, .vextI d a b c, .vslideup d a b k c, .vslidedn d a b k c, .vperm d a b k c, .vcompress d a k c,
        .vexpand d a k c, .viota d k c, .vconf d a k c], IsIllegal i s)

/-- 05 R155, R137, 03 R98: at vl = 0 a reduction writes nothing; else element 0 of v[VD] becomes the start value combined with the active
elements: the sum modulo 2^w, the greatest or least as signed or natural numbers, the fold of VFMAX or VFMIN, whose NV flag a signalling NaN
among the operands raises and which gives a NaN as the canonical one, with no active element too (03 R77), or the fixed pairwise tree of rounded
sums and one final add, which under SR draw in the order of R98. It writes no
other element and no other register; at a nonzero start it is ILLEGAL. That at vl = 0 the final add makes its draw, though nothing is written and
no flag raised, is the model's reading of R90 and R98 (log 91). -/
def Obligations.VectorReductions : Prop :=
  ∀ (s : State) (d a b : BitVec 5) (k : BitVec 3) (f c : BitVec 1),
    (s.start ≠ 0 → ∀ i ∈ [Instr.vredsum d a b k c, .vredmaxI d a b k c, .vredmaxN d a b k c, .vredminI d a b k c, .vredminN d a b k c,
      .vfredsum d a b k f c, .vredmaxF d a b k f c, .vredminF d a b k f c], IsIllegal i s)
    ∧ (s.start = 0 →
    let w := 8 * 2 ^ s.th.ew
    let actives := (List.range s.th.vl).filter (s.active k)
    let x := fun j => BitVec.ofNat w (elt (s.vreg a) w j)
    let o := BitVec.ofNat w (elt (s.vreg b) w 0)
    let done := fun (i : Instr) (g : State → Prop) (p : State → BitVec w → Prop) => ∃ t, exec i s = .next t ∧ MemberDone c s t ∧ t.th.g = s.th.g ∧ t.th.m = s.th.m
      ∧ KeepsVectors d s t ∧ (∀ j, 0 < j → elt (t.vreg d) w j = elt (s.vreg d) w j)
      ∧ g t ∧ (s.th.vl = 0 → t.th = { s.th with gens := t.th.gens, cv := t.th.cv, estart := t.th.estart, reissue := false })
      ∧ (s.th.vl ≠ 0 → p t (BitVec.ofNat w (elt (t.vreg d) w 0)))
    let kept := fun t : State => t.th.gens = s.th.gens
    let integer := fun (i : Instr) (p : BitVec w → Prop) => done i kept fun t r => p r ∧ t.th.fflags = s.th.fflags
    let extreme := fun (le : BitVec w → BitVec w → Prop) (r : BitVec w) => (r = o ∨ ∃ j ∈ actives, r = x j) ∧ le o r ∧ ∀ j ∈ actives, le (x j) r
    integer (.vredsum d a b k c) (fun r => r = (actives.map x).foldl (· + ·) o)
    ∧ integer (.vredmaxI d a b k c) (extreme fun u v => u.toInt ≤ v.toInt) ∧ integer (.vredmaxN d a b k c) (extreme fun u v => u.toNat ≤ v.toNat)
    ∧ integer (.vredminI d a b k c) (extreme fun u v => v.toInt ≤ u.toInt) ∧ integer (.vredminN d a b k c) (extreme fun u v => v.toNat ≤ u.toNat)
    ∧ ∀ F, s.format f F →
        let folds := fun (isMax : Bool) (t : State) (r : BitVec w) =>
          r = BitVec.ofNat w ((actives.map fun j => (x j).toNat).foldl (fun u v => (fpMinMax F isMax u v).val) (fpMinMax F isMax o.toNat o.toNat).val)
          ∧ t.th.fflags = s.th.fflags ||| (if (dec F o.toNat).isSig = true ∨ ∃ j ∈ actives, (dec F (x j).toNat).isSig = true then 16 else 0)
        let m := rmodeOf s.th.frm
        done (.vredmaxF d a b k f c) kept (folds true) ∧ done (.vredminF d a b k f c) kept (folds false)
        ∧ ((m = .sr → s.hasFeat 2 = true) → done (.vfredsum d a b k f c) (fun _ => True) (fun _ _ => True))
        ∧ ((m = .sr → s.hasFeat 2 = true ∧ s.th.gens.length = 128) → ∀ lg, s.th.vl ≤ 2 ^ lg → (∀ h, s.th.vl ≤ 2 ^ h → lg ≤ h) →
            let word := fun l i => if m = .sr then s.srWordAt i (treeDraws lg l i) else 0
            let node := treeNode F m word fun i => if i < s.th.vl ∧ s.active k i = true then (x i).toNat else 0
            let sum := fpAdd F m (word (lg + 1) 0) (dec F (node lg 0).val) (dec F o.toNat)
            let drawn := fun t : State => t.th.gens = if m = .sr then s.srStepped fun g =>
                ((List.range lg).map fun l => ((List.range (2 ^ (lg - (l + 1)))).filter (· % 128 == g)).length).sum + (if g = 0 then 1 else 0)
              else s.th.gens
            done (.vfredsum d a b k f c) drawn fun t r => r = BitVec.ofNat w sum.val
              ∧ ∀ n, t.th.fflags.testBit n = true ↔ s.th.fflags.testBit n = true ∨ sum.flags.testBit n = true
                  ∨ ∃ l < lg, ∃ i < 2 ^ (lg - (l + 1)), (node (l + 1) i).flags.testBit n = true))

/-- 05 R156: the mask instructions, at estart 0, act on the active bits below vl and keep every other bit below vlmax; MPOPC and MFIRST write a
scalar register; at a nonzero start they are ILLEGAL. -/
def Obligations.MaskInstructionResults : Prop :=
  ∀ (s : State) (d a b : BitVec 5) (k : BitVec 3) (c : BitVec 1),
    let x := fun j => (s.mreg a.toNat).testBit j
    let y := fun j => (s.mreg b.toNat).testBit j
    let actives := (List.range s.th.vl).filter (s.active k)
    let only := fun t : State => MemberDone c s t ∧ t.th.v = s.th.v ∧ t.th.fflags = s.th.fflags ∧ t.th.gens = s.th.gens
    let writes := fun (i : Instr) (at_ : Nat → Bool) (f : Nat → Bool) => d.toNat < 8 → ∃ t, exec i s = .next t ∧ only t ∧ t.th.g = s.th.g
      ∧ KeepsMasks d.toNat s t ∧ ∀ j < s.th.vlmax, (t.mreg d.toNat).testBit j = if at_ j then f j else (s.mreg d.toNat).testBit j
    let scalar := fun (i : Instr) (v : Word) => ∃ t, exec i s = .next t ∧ only t ∧ t.th.m = s.th.m ∧ Holds d v t ∧ KeepsRegs d s t
    let on := fun j => decide (j < s.th.vl) && s.active k j
    let below := fun j => decide (j < s.th.vl)
    (s.start = 0 →
      writes (.mand d a b k c) on (fun j => x j && y j) ∧ writes (.mor d a b k c) on (fun j => x j || y j)
      ∧ writes (.mxor d a b k c) on (fun j => x j != y j) ∧ writes (.mnot d a k c) on (fun j => !x j)
      ∧ writes (.mseti d a c) below (fun j => decide (j < (s.rd a).toNat)) ∧ writes (.mvfm d c) below s.th.fmask.testBit
      ∧ scalar (.mpopc d a k c) (BitVec.ofNat 64 (actives.filter x).length)
      ∧ scalar (.mfirst d a k c) (match (actives.filter x).head? with | some j => BitVec.ofNat 64 j | none => -1))
    ∧ (s.start ≠ 0 → ∀ i ∈ [Instr.mand d a b k c, .mor d a b k c, .mxor d a b k c, .mnot d a k c, .mseti d a c, .mvfm d c, .mpopc d a k c,
        .mfirst d a k c], IsIllegal i s)

/-- 05 R157 to R159, 03 R79: VCVT, at the element width that its formats ask for, writes each performed element: the value of the source in the
source format encoded in the destination format, or rounded into the integer range. A scaled form multiplies the value of an MX source by
2^(e − 127), rounded to FP32, and that for an MX destination by 2^(127 − e), `e` the byte of vsc of its block, and a scale of 0xFF gives a
NaN, which the model takes to be the canonical one, so that forced to a finite value it is positive (assumption 17). Under SR each performed
element draws once (03 R90). At another width, or without a feature that it needs, VCVT is ILLEGAL. -/
def Obligations.VectorConversions : Prop :=
  ∀ (s : State) (d a : BitVec 5) (t n : BitVec 1) (sf df : BitVec 4) (k : BitVec 3) (r : BitVec 2), sf.toNat ≤ 11 → df.toNat ≤ 11 →
    ¬ (10 ≤ sf.toNat ∧ 10 ≤ df.toNat) →
    let w := 8 * 2 ^ s.th.ew
    let width := fun f : BitVec 4 => if f.toNat ≥ 10 then w else if f = 0 then 64 else if f = 1 then 32 else if f.toNat ≤ 3 then 16 else if f = 8 then 4 else 8
    let need := max 8 (if sf.toNat ≥ 10 then width df else if df.toNat ≥ 10 then width sf else max (width sf) (width df))
    let m := if r = 0 then rmodeOf s.th.frm else if r = 1 then .rne else if r = 2 then .rtz else .sr
    let i := Instr.vcvt d a t sf k r df n
    let x := fun j => elt (s.vreg a) (width sf) j
    let e := fun j => elt (s.vreg 30) 8 (j / 32)
    let isMx := fun q : BitVec 4 => t = 1 ∧ 4 ≤ q.toNat ∧ q.toNat ≤ 9
    let source : Nat → FVal × Nat := fun j =>
      if sf.toNat ≥ 10 then (ofInt w (sf == 10) (x j), 0)
      else if isMx sf then
        if e j = 0xFF then (.nan false false, 0)
        else
          let v := enc .f32 .rne 0 ((dec (cvtFmt sf.toNat) (x j)).scale ((e j : Int) - 127))
          (dec .f32 v.val, v.flags)
      else (dec (cvtFmt sf.toNat) (x j), 0)
    let value : Nat → FVal := fun j =>
      if isMx df then (if e j = 0xFF then .nan false false else (source j).1.scale (127 - (e j : Int))) else (source j).1
    let result : Nat → Nat → Rounded := fun r j =>
      let v := if df.toNat ≥ 10 then toInt w (df == 10) m r (value j) else enc (cvtFmt df.toNat) m r (value j)
      { v with flags := v.flags ||| (source j).2 }
    (w = need → ((sf = 0 ∨ df = 0) → s.hasFeat 0 = true) → (m = .sr → s.hasFeat 2 = true) →
      (m ≠ .sr → Elementwise i s d (width df) k n (result 0))
      ∧ (m = .sr → s.th.gens.length = 128 →
          ElementwiseIn i s d (width df) k n (s.srAfter k) fun j => result (s.srWordAt j (s.srDraws k j)) j)
      ∧ ∃ u, exec i s = .next u ∧ MemberDone n s u ∧ u.th.g = s.th.g ∧ KeepsVectors d s u ∧ KeepsMasks 0 s u
        ∧ ∀ j, s.performs k j = false → elt (u.vreg d) (width df) j = elt (s.vreg d) (width df) j)
    ∧ (w ≠ need ∨ ((sf = 0 ∨ df = 0) ∧ s.hasFeat 0 = false) ∨ (m = .sr ∧ s.hasFeat 2 = false) → IsIllegal i s)

/-- 05 R160 to R164, 03 R83, R84, R86, R87: VQNT and VDQNT, with the feature cb4 and 16- or 32-bit elements, trap CBOOK with the lowest check
that the frame fails. VQNT writes the code of each performed element: an elected one, while the list holds fewer than 64 entries, gets an
escape, and its value and offset join the list; past 64 entries it is quantised like the others where `OSAT` = 1, and raises RAISINOVF
where `OSAT` = 0, with the codes and entries below it written and estart at it. VDQNT writes the value of each code, of an escape that of its
entry or +0. Each that completes advances `NEXT` of the frame by vl. -/
def Obligations.Quantisation : Prop :=
  ∀ (s : State) (d a b : BitVec 5) (k : BitVec 3) (q c : BitVec 1),
    let frame := s.vreg b % 2 ^ 512
    let list := s.vreg (b + 1)
    let next := frame / 2 ^ 272 % 2 ^ 16
    let count := frame / 2 ^ 288 % 2 ^ 8
    let esc := frame / 2 ^ 256 % 4
    let w := 8 * 2 ^ s.th.ew
    let F : Fmt := if q = 0 then .bf16 else .f32
    let scale := fun j => elt (s.vreg 30) 8 ((next + j) / 32 - next / 32)
    let pat := fun j => elt (s.vreg a) w j
    let quant := fun j => cb4Quant frame s.th.qthr (scale j) (dec F (pat j))
    let elected := (s.performed k).filter fun j => quant j = none
    let rank := fun j => count + (elected.filter (· < j)).length
    let val := fun j => if q = 0 then pat j * 2 ^ 16 else pat j
    let code : Nat → Rounded := fun j =>
      match quant j with
      | some r => r
      | none =>
        if rank j < 64 then { val := if esc = 1 ∨ val j < 2 ^ 31 then 15 else 14 }
        else { cb4Overflow frame (scale j) (dec F (pat j)) with mark := true }
    -- The codes, the list, the flags and the marks once the elements below `n` have been taken.
    let quantised := fun (t : State) (n : Nat) =>
      (d ≠ b → d ≠ b + 1 → ∀ j, elt (t.vreg d) 4 j = if s.performs k j = true ∧ j < n then (code j).val % 16 else elt (s.vreg d) 4 j)
      ∧ (∀ r, elt (t.vreg (b + 1)) 64 r = match elected.find? (fun j => rank j == r && decide (j < n)) with
          | some j => if r < 64 then val j * 2 ^ 32 + (next + j) else elt list 64 r
          | none => elt list 64 r)
      ∧ t.vreg b / 2 ^ 288 % 2 ^ 8 = Nat.min 64 (count + (elected.filter (· < n)).length)
      ∧ (∀ m, t.th.fflags.testBit m = true ↔ s.th.fflags.testBit m = true ∨ ∃ j < n, s.performs k j = true ∧ (code j).flags.testBit m = true)
      ∧ (∀ j, t.th.m[0].testBit j = (s.th.m[0].testBit j || (s.performs k j && decide (j < n) && (code j).mark)))
      ∧ KeepsMasks 0 s t ∧ ∀ r, r ∉ [d, b, b + 1] → t.vreg r = s.vreg r
    let sr := rmodeOf s.th.frm = .sr
    let item := fun j => (List.range count).find? fun r => elt list 64 r % 2 ^ 12 == next + j
    let value : Nat → Rounded := fun j =>
      let x := elt (s.vreg a) 4 j
      if (esc = 1 ∧ x = 15) ∨ (esc = 2 ∧ 14 ≤ x) then
        { val := match item j with | some r => elt list 64 r / 2 ^ 32 | none => 0 }
      else decScaled .bf16 (elt frame 16 x) (scale j)
    let result : Nat → Nat → Rounded := fun r j =>
      let v := enc F (rmodeOf s.th.frm) r (dec .f32 (value j).val)
      { v with flags := v.flags ||| (value j).flags }
    ((s.hasFeat 1 = false ∨ s.th.ew ≠ 1 + q.toNat) → IsIllegal (.vqnt d a b k q c) s ∧ IsIllegal (.vdqnt d a b k q c) s)
    ∧ (s.hasFeat 1 = true → s.th.ew = 1 + q.toNat →
        (∀ x, frameDet frame s.th.vl = some x → exec (.vqnt d a b k q c) s = .next (s.takeTrap { cause := 33, det := x }))
        ∧ (frameDet frame s.th.vl = none → (frame.testBit 258 = true ∨ count + elected.length ≤ 64) →
            ∃ t, exec (.vqnt d a b k q c) s = .next t ∧ MemberDone c s t ∧ t.th.g = s.th.g ∧ t.th.gens = s.th.gens
              ∧ t.vreg b / 2 ^ 272 % 2 ^ 16 = (next + s.th.vl) % 2 ^ 16 ∧ quantised t s.th.vl)
        ∧ (frameDet frame s.th.vl = none → frame.testBit 258 = false → ∀ j ∈ elected, rank j = 64 →
            ∃ u, exec (.vqnt d a b k q c) s = .next (u.takeTrap { cause := 32, tval := BitVec.ofNat 64 (next + j), elem := j })
              ∧ u = { s with th := { s.th with
                  v := u.th.v, m := u.th.m, fflags := u.th.fflags, estart := j, cv := some (s.th.cv.getD { e0 := s.th.estart }) } }
              ∧ u.vreg b / 2 ^ 272 % 2 ^ 16 = next ∧ quantised u j)
        ∧ ((s.th.frm = 5 → s.hasFeat 2 = true) →
            (∀ x, listDet frame list (s.vreg a) s.th.vl = some x →
              exec (.vdqnt d a b k q c) s = .next (s.takeTrap { cause := 33, det := x }))
            ∧ (listDet frame list (s.vreg a) s.th.vl = none → (sr → s.th.gens.length = 128) →
                let out := fun j => result (if sr then s.srWordAt j (s.srDraws k j) else 0) j
                ∃ t, exec (.vdqnt d a b k q c) s = .next t ∧ MemberDone c s t ∧ t.th.g = s.th.g
                  ∧ t.th.gens = (if sr then s.srAfter k else s.th.gens)
                  ∧ t.vreg b / 2 ^ 272 % 2 ^ 16 = (next + s.th.vl) % 2 ^ 16 ∧ (∀ r, r ∉ [d, b] → t.vreg r = s.vreg r)
                  ∧ (d ≠ b → ∀ j, elt (t.vreg d) w j = if s.performs k j then (out j).val % 2 ^ w else elt (s.vreg d) w j)
                  ∧ GainsFlags s t k (fun j => (out j).flags) ∧ KeepsMasks 0 s t
                  ∧ ∀ j, t.th.m[0].testBit j = (s.th.m[0].testBit j || (s.performs k j && (out j).mark)))))

/-! ## Vector memory (06) -/

/-- 06 R166 to R178: a vector load whose width is the element width and every address of which passes the checks writes
the little-endian bytes at the address of each element that it is to perform (every active one from the start, on a reissue those in fmask, without
those performed before a stop within it, log 10) to the element; the unordered class leaves fmask 0; nothing else of the thread, and no byte of
memory, changes. Where an address fails a check or an element is poisoned it takes the cause that R171 to R177 give, with the elements performed
that its class performs, and fmask or estart names the others. VLDFF keeps its elements below a
translation, protection or poison fault that is not at the lowest, whatever befalls the elements above that, and vl becomes the faulting element. A
vector load or store of another width is ILLEGAL and accesses nothing. -/
def Obligations.VectorLoadResults : Prop :=
  (∀ (s u : State) (d b y : BitVec 5) (k : BitVec 3) (t : BitVec 1) (z o : BitVec 2) (c : BitVec 1) (loc : Nat → Loc), z.toNat = s.th.ew →
    let n := 2 ^ z.toNat
    let base := (s.rd b).toNat
    let unit := fun j => (base + j * n) % 2 ^ 64
    let stride := fun j => (BitVec.ofNat 64 base + BitVec.ofNat 64 j * s.rd y).toNat
    let index := fun j => (base + elt (s.vreg y) (8 * n) j * n) % 2 ^ 64
    let does := fun (l : List Nat) (loc : Nat → Loc) (v : State) => v.th.m = s.th.m ∧ v.th.fflags = s.th.fflags ∧ KeepsVectors d s v ∧ SameBytes s v
      ∧ ∀ j, elt (v.vreg d) (8 * n) j = if j ∈ l then s.bytesAt (loc j) n else elt (s.vreg d) (8 * n) j
    let loads := fun (i : Instr) (addr : Nat → Nat) (e : BitVec 1) (ordered first : Bool) =>
      let js := s.toPerform ordered k
      (s.Reaches (t == 1) n .read true js addr loc u →
        ∃ v, exec i s = .next v ∧ MemMemberDone e s v ∧ v.th.fmask = (if ordered then s.th.fmask else 0) ∧ does js loc v)
      ∧ Checked i s (t == 1) n .read true ordered first js addr does
    loads (.vld d b k t z o c) unit c (o == 1) false ∧ loads (.vlds d b y k t z o c) stride c (o == 1) false
    ∧ loads (.vldx d b y k t z o c) index c (o == 1) false ∧ loads (.vldff d b k t z o) unit 0 true true
    ∧ ∀ (p q : List Nat) (j : Nat) (r : Nat → Except AErr Loc), let js := s.toPerform true k
        js = p ++ j :: q → (p ≠ [] ∨ s.partMask ≠ 0) →
        s.locateAll .v s.th.level (t == 1) n .read (js.map fun i => (i, unit i)) = (u, js.map fun i => (i, unit i, r i)) →
        (∀ i ∈ js, ∀ e, r i = .error e → e.isMisalign = false ∧ e.isTilebnd = false) →
        (∀ i ∈ p, r i = .ok (loc i) ∧ u.poisonedLoc (loc i) n = false) →
        ((∃ e, r j = .error e ∧ (e.isPage = true ∨ e.isProt = true)) ∨ ∃ l, r j = .ok l ∧ u.poisonedLoc l n = true) →
        ∃ v, exec (.vldff d b k t z o) s = .next v ∧ v.th.vl = j ∧ v.th.cv = s.passed 0 ∧ v.th.fmask = s.th.fmask ∧ SameBytes s v
          ∧ KeepsVectors d s v
          ∧ ∀ i, elt (v.vreg d) (8 * n) i = if i ∈ p then s.bytesAt (loc i) n else elt (s.vreg d) (8 * n) i)
  ∧ ∀ (s : State) (d b y : BitVec 5) (g : BitVec 4) (f : BitVec 1) (k : BitVec 3) (t : BitVec 1) (z o : BitVec 2) (c : BitVec 1), z.toNat ≠ s.th.ew →
    ∀ i ∈ [Instr.vld d b k t z o c, .vlds d b y k t z o c, .vldx d b y k t z o c, .vldff d b k t z o, .vst d b k t z o c, .vsts d b y k t z o c,
      .vstx d b y k t z o c, .vstxa g f b y k t z o c, .vgll d b y k t z o c, .vscc d b y k t z o c], IsIllegal i s

/-- 06 R166, R170 to R175, R178: a vector store whose width is the element width and every address of which passes the checks writes the
elements that it is to perform, in ascending order, so that the highest of those with one address stays; it changes no register but fmask. Where an
address fails a check it takes the cause that R171 to R174 give, with the elements performed that its class performs. -/
def Obligations.VectorStoreResults : Prop :=
  ∀ (s u : State) (d b y : BitVec 5) (k : BitVec 3) (t : BitVec 1) (z o : BitVec 2) (c : BitVec 1) (loc : Nat → Loc), z.toNat = s.th.ew →
    s.wf = true →
    let n := 2 ^ z.toNat
    let base := (s.rd b).toNat
    let ordered := o == 1
    let js := s.toPerform ordered k
    let does := fun (l : List Nat) (loc : Nat → Loc) (v : State) => v.th.v = s.th.v ∧ v.th.m = s.th.m ∧ v.th.fflags = s.th.fflags
      ∧ Scattered s v l loc n fun j => elt (s.vreg d) (8 * n) (lastAt l loc j)
    let stores := fun (i : Instr) (addr : Nat → Nat) =>
      (s.Reaches (t == 1) n .write false js addr loc u →
        ∃ v, exec i s = .next v ∧ MemMemberDone c s v ∧ v.th.fmask = (if ordered then s.th.fmask else 0) ∧ does js loc v)
      ∧ Checked i s (t == 1) n .write false ordered false js addr does
    stores (.vst d b k t z o c) (fun j => (base + j * n) % 2 ^ 64)
    ∧ stores (.vsts d b y k t z o c) (fun j => (BitVec.ofNat 64 base + BitVec.ofNat 64 j * s.rd y).toNat)
    ∧ stores (.vstx d b y k t z o c) (fun j => (base + elt (s.vreg y) (8 * n) j * n) % 2 ^ 64)

/-- 06 R171 to R175, R177, R180, R181, R198: VSTXA, with every address passing the checks, adds to each distinct address the sum of the elements
performed there: an integer add leaves the old value plus their sum modulo 2^(8n); a floating add forms the sum of the elements of one address in
ascending order, each add rounded and raising its flags, and leaves the rounded sum of the old value and that, which raises none. At host-resident
pages the elements are added one by one, and no flag is raised. No vector register changes. Where an address fails a check or an old value is
poisoned it takes the cause that R171, R172 and R177 give, with the others added and fmask naming those that are left. -/
def Obligations.ScatterAddResults : Prop :=
  ∀ (s u : State) (g : BitVec 4) (f : BitVec 1) (b y : BitVec 5) (k : BitVec 3) (t : BitVec 1) (z o : BitVec 2) (c : BitVec 1) (loc : Nat → Loc),
    z.toNat = s.th.ew → s.wf = true → (f = 1 → z ≠ 0) → (f = 1 → z = 3 → s.hasFeat 0 = true) →
    let n := 2 ^ z.toNat
    let base := (s.rd b).toNat
    let js := s.toPerform false k
    let x := fun j => elt (s.vreg (g.setWidth 5)) (8 * n) j
    let F := if z = 1 then Fmt.bf16 else if z = 2 then Fmt.f32 else Fmt.f64
    let addr := fun j => (base + elt (s.vreg y) (8 * n) j * n) % 2 ^ 64
    let place := fun j => addr j % (if t = 1 then 2 ^ 63 else 2 ^ 64)
    let plus := fun u v : Nat => fpAdd F .rne 0 (dec F u) (dec F v)
    let does := fun (l : List Nat) (loc : Nat → Loc) (v : State) =>
      let old := fun j => s.bytesAt (loc j) n
      -- The sum of the elements that a test selects, in ascending order.
      let inCore : (Nat → Bool) → Option Nat := fun p => (l.filter p).foldl (fun r i => some (match r with
        | some q => (plus q (x i)).val
        | none => x i)) none
      v.th.v = s.th.v ∧ v.th.m = s.th.m
      ∧ ((∀ i ∈ l, ∀ j ∈ l, place i = place j → loc i = loc j) →
        (f = 0 → v.th.fflags = s.th.fflags
          ∧ Scattered s v l loc n fun j => (old j + ((l.filter fun i => loc i == loc j).map x).sum) % 2 ^ (8 * n))
        ∧ (f = 1 → (∀ i ∈ l, ∀ j ∈ l, loc i = loc j → i = j) → v.th.fflags = s.th.fflags
          ∧ Scattered s v l loc n fun j => (fpAdd F .rne 0 (dec F (old j)) (dec F (x j))).val)
        ∧ (f = 1 → (∀ j ∈ l, (loc j).isHost = false) → (∀ i ∈ l, ∀ j ∈ l, loc i = loc j → place i = place j) →
          (∀ n, v.th.fflags.testBit n = true ↔ s.th.fflags.testBit n = true
            ∨ ∃ j ∈ l, ∃ r, inCore (fun i => decide (i < j) && loc i == loc j) = some r ∧ (plus r (x j)).flags.testBit n = true)
          ∧ Scattered s v l loc n fun j => (plus (old j) ((inCore fun i => loc i == loc j).getD 0)).val)
        ∧ (f = 1 → (∀ j ∈ l, (loc j).isHost = true) → v.th.fflags = s.th.fflags
          ∧ Scattered s v l loc n fun j => (l.filter fun i => loc i == loc j).foldl (fun r i => (plus r (x i)).val) (old j)))
    let i := Instr.vstxa g f b y k t z o c
    (s.Reaches (t == 1) n .rmw true js addr loc u →
      ∃ v, exec i s = .next v ∧ MemMemberDone c s v ∧ v.th.fmask = 0 ∧ does js loc v)
    ∧ Checked i s (t == 1) n .rmw true false false js addr does

/-- 06 R171 to R177, R183 to R185: VGLL loads as VLDX does and leaves the thread's link on the line of every element performed that is not in host
memory. VSCC stores exactly the elements whose line holds the thread's link and into whose line no lower element has been stored, and clears their
bits of the mask. Where an address fails a check or an element is poisoned either takes the cause that R171 to R177 give, with the elements
performed that its class performs; an element that VSCC leaves keeps its bit. -/
def Obligations.LinkedAccessResults : Prop :=
  ∀ (s u : State) (d b y : BitVec 5) (k : BitVec 3) (t : BitVec 1) (z o : BitVec 2) (c : BitVec 1) (loc : Nat → Loc), z.toNat = s.th.ew →
    let n := 2 ^ z.toNat
    let addr := fun j => ((s.rd b).toNat + elt (s.vreg y) (8 * n) j * n) % 2 ^ 64
    let mine := fun (w : State) (l : Loc) => w.tags.any fun g => g.h == s.cur && g.on l
    let loads := fun (l : List Nat) (loc : Nat → Loc) (v : State) => v.th.m = s.th.m ∧ v.th.fflags = s.th.fflags ∧ KeepsVectors d s v
      ∧ SameBytes s v ∧ (∀ j, elt (v.vreg d) (8 * n) j = if j ∈ l then s.bytesAt (loc j) n else elt (s.vreg d) (8 * n) j)
      ∧ ∀ j ∈ l, (∀ p, loc j ≠ .hostmem p) → mine v (loc j) = true
    let stores := fun (l : List Nat) (loc : Nat → Loc) (v : State) => v.th.v = s.th.v ∧ v.th.fflags = s.th.fflags ∧ KeepsMasks k.toNat s v
      ∧ ((∀ i ∈ l, ∀ j ∈ l, ∀ f, s.forkOf (loc i) = some f → f.sameLine (loc j) = false) →
        let won := fun j => mine s (loc j) && l.all fun i => decide (j ≤ i) || !(mine s (loc i) && (loc i).sameLine (loc j))
        (∀ j < s.th.vlmax, (v.mreg k.toNat).testBit j = ((s.mreg k.toNat).testBit j && !(decide (j ∈ l) && won j)))
        ∧ Scattered s v (l.filter won) loc n fun j => elt (s.vreg d) (8 * n) j)
    let does := fun (i : Instr) (kind : AKind) (ordered : Bool) (e : List Nat → (Nat → Loc) → State → Prop) =>
      let js := s.toPerform ordered k
      (s.Reaches (t == 1) n kind true js addr loc u →
        ∃ v, exec i s = .next v ∧ MemMemberDone c s v ∧ v.th.fmask = (if ordered then s.th.fmask else 0) ∧ e js loc v)
      ∧ Checked i s (t == 1) n kind true ordered false js addr e
    does (.vgll d b y k t z o c) .read (o == 2) loads
    ∧ (s.wf = true → k ≠ 0 → (∀ j ∈ s.left k, j < s.th.vlmax) → does (.vscc d b y k t z o c) .write (o == 3) stores)

/-- 06 R166, R171 to R177, R186, R187, R189: VAMO at its width, with every address passing the checks, takes the elements of one address in
ascending order: each gives its element of v[D] the value that it finds and leaves the new value; a cas compares with v[D] and stores v[D+1], and
one that fails leaves memory as it was. Then estart is 0 and execution goes on at pc + 4. Where an address fails a check or an old value is poisoned
it takes the cause that R171 to R177 give, with the elements performed that its class performs, the ordered one with .acq or .rel. At another width
it is ILLEGAL. That such an ordered VAMO resumes from estart on any TRET is the model's reading (log 95). -/
def Obligations.VectorAtomicResults : Prop :=
  (∀ (s u : State) (d a y : BitVec 5) (k : BitVec 3) (o : BitVec 2) (wide : Bool) (loc : Nat → Loc), s.th.ew = (if wide then 3 else 2) →
    s.wf = true →
    let n := if wide then 8 else 4
    let base := (s.rd a).toNat
    let ordered := o != 0
    let js := s.toPerform ordered k
    let tile := decide (2 ^ 63 ≤ base)
    let addr := fun j => (base % 2 ^ 63 + elt (s.vreg y) (8 * n) j * n) % 2 ^ 64
    let x := fun j => BitVec.ofNat (8 * n) (elt (s.vreg d) (8 * n) j)
    let y1 := fun j => BitVec.ofNat (8 * n) (elt (s.vreg (d + 1)) (8 * n) j)
    let done := fun (i : Instr) (stored : BitVec (8 * n) → Nat → Bool) (step : BitVec (8 * n) → Nat → BitVec (8 * n)) =>
      let does := fun (l : List Nat) (loc : Nat → Loc) (v : State) =>
        -- The value at the address of `j` once the elements there that a test selects have been taken.
        let after := fun (p : Nat → Bool) (j : Nat) => (l.filter fun i => p i && loc i == loc j).foldl step (BitVec.ofNat (8 * n) (s.bytesAt (loc j) n))
        let found := fun j => after (fun i => decide (i < j)) j
        v.th.m = s.th.m ∧ v.th.fflags = s.th.fflags ∧ KeepsVectors d s v
        ∧ (s.Apart l loc n →
          (∀ j, elt (v.vreg d) (8 * n) j = if j ∈ l then (found j).toNat else elt (s.vreg d) (8 * n) j)
          ∧ Scattered s v (l.filter fun j => stored (found j) j) loc n fun j => (after (fun _ => true) j).toNat)
      (s.Reaches tile n .rmw true js addr loc u → ∃ v, exec i s = .next v
        ∧ v.th = { s.th with v := v.th.v, fmask := v.th.fmask, estart := 0, reissue := false, pc := s.th.pc + 4, cv := none }
        ∧ v.th.fmask = (if ordered then s.th.fmask else 0) ∧ does js loc v)
      ∧ Checked i s tile n .rmw true ordered false js addr does
    let both := fun (w32 w64 : Instr) (step : BitVec (8 * n) → BitVec (8 * n) → BitVec (8 * n)) =>
      done (if wide then w64 else w32) (fun _ _ => true) fun old j => step old (x j)
    both (.vamoWAdd d a y k o) (.vamoDAdd d a y k o) (fun old v => old + v)
    ∧ both (.vamoWAnd d a y k o) (.vamoDAnd d a y k o) (fun old v => old &&& v)
    ∧ both (.vamoWOr d a y k o) (.vamoDOr d a y k o) (fun old v => old ||| v)
    ∧ both (.vamoWXor d a y k o) (.vamoDXor d a y k o) (fun old v => old ^^^ v)
    ∧ both (.vamoWMin d a y k o) (.vamoDMin d a y k o) (fun old v => if v.toInt < old.toInt then v else old)
    ∧ both (.vamoWMax d a y k o) (.vamoDMax d a y k o) (fun old v => if old.toInt < v.toInt then v else old)
    ∧ both (.vamoWMinn d a y k o) (.vamoDMinn d a y k o) (fun old v => if v.toNat < old.toNat then v else old)
    ∧ both (.vamoWMaxn d a y k o) (.vamoDMaxn d a y k o) (fun old v => if old.toNat < v.toNat then v else old)
    ∧ both (.vamoWSwap d a y k o) (.vamoDSwap d a y k o) (fun _ v => v)
    ∧ (d ≠ 31 → done (if wide then .vamoDCas d a y k o else .vamoWCas d a y k o) (fun old j => decide (old = x j))
        fun old j => if old = x j then y1 j else old))
  ∧ ∀ (s : State) (d a y : BitVec 5) (k : BitVec 3) (o : BitVec 2),
    (s.th.ew ≠ 2 → ∀ i ∈ [Instr.vamoWAdd d a y k o, .vamoWAnd d a y k o, .vamoWOr d a y k o, .vamoWXor d a y k o, .vamoWMin d a y k o,
      .vamoWMax d a y k o, .vamoWMinn d a y k o, .vamoWMaxn d a y k o, .vamoWSwap d a y k o, .vamoWCas d a y k o], IsIllegal i s)
    ∧ (s.th.ew ≠ 3 → ∀ i ∈ [Instr.vamoDAdd d a y k o, .vamoDAnd d a y k o, .vamoDOr d a y k o, .vamoDXor d a y k o, .vamoDMin d a y k o,
      .vamoDMax d a y k o, .vamoDMinn d a y k o, .vamoDMaxn d a y k o, .vamoDSwap d a y k o, .vamoDCas d a y k o], IsIllegal i s)

/-- 06 R166, R190, R191: VWAIT at its width, every watched address passing the checks, completes at once where every active element's word
satisfies the condition, and else parks with the elements satisfied so far, among them those that it found satisfied before it waited for
something else (log 10), and watches the lines of the others; it writes no register and no memory. An address that fails a check, and a
watched element that is poisoned, trap with nothing changed. At another width or a nonzero start it is ILLEGAL. -/
def Obligations.WaitOnMemory : Prop :=
  (∀ (s : State) (d a y : BitVec 5) (k : BitVec 3) (z : BitVec 1) (q : BitVec 3),
    let n := if z = 0 then 4 else 8
    let base := (s.rd a).toNat
    let js := (List.range s.th.vl).filter fun j => s.active k j && !s.partMask.testBit j
    let addr := fun j => (base % 2 ^ 63 + elt (s.vreg y) (8 * n) j * n) % 2 ^ 64
    let i := Instr.vwait d a y k z q
    (s.start ≠ 0 ∨ s.th.ew ≠ (if z = 0 then 2 else 3) → IsIllegal i s)
    ∧ (s.start = 0 → s.th.ew = (if z = 0 then 2 else 3) →
      Refuses i s s (decide (2 ^ 63 ≤ base)) n .read 1 (js.map fun j => (j, addr j))
      ∧ ∀ (u : State) (loc : Nat → Loc) (j : Nat),
          s.locateAll .v s.th.level (decide (2 ^ 63 ≤ base)) n .read (js.map fun j => (j, addr j)) = (u, js.map fun j => (j, addr j, .ok (loc j))) →
          js.find? (fun j => u.poisonedLoc (loc j) n) = some j →
          ∃ v, exec i s = .next (v.takeTrap { cause := 18, tval := BitVec.ofNat 64 (addr j), elem := j }) ∧ SameBytes s v
            ∧ v.th = { s.th with cv := some (s.th.cv.getD { e0 := s.th.estart }) }))
  ∧ ∀ (s u : State) (d a y : BitVec 5) (k : BitVec 3) (z : BitVec 1) (q : BitVec 3) (loc : Nat → Loc), s.start = 0 → q.toNat ≤ 5 →
    s.th.ew = (if z = 0 then 2 else 3) →
    let n := if z = 0 then 4 else 8
    let base := (s.rd a).toNat
    let js := (List.range s.th.vl).filter fun j => s.active k j && !s.partMask.testBit j
    s.Reaches (decide (2 ^ 63 ≤ base)) n .read true js (fun j => (base % 2 ^ 63 + elt (s.vreg y) (8 * n) j * n) % 2 ^ 64) loc u →
    let x := fun j => BitVec.ofNat (8 * n) (s.bytesAt (loc j) n)
    let v := fun j => BitVec.ofNat (8 * n) (elt (s.vreg d) (8 * n) j)
    let holds := fun j => if q = 0 then decide (x j = v j) else if q = 1 then decide (x j ≠ v j) else if q = 2 then decide ((x j).toInt < (v j).toInt)
      else if q = 3 then decide ((v j).toInt ≤ (x j).toInt) else if q = 4 then decide ((x j).toNat < (v j).toNat)
      else decide ((v j).toNat ≤ (x j).toNat)
    let i := Instr.vwait d a y k z q
    ((∀ j ∈ js, holds j = true) → ∃ t, exec i s = .next t ∧ t.th = { s.th with pc := s.th.pc + 4, cv := none, reissue := false, status := .issuing } ∧ SameBytes s t)
    ∧ ((∃ j ∈ js, holds j = false) → ∃ t done, exec i s = .next t
        ∧ t.th.status = .parked (.vwait d a y k z q done (t.watch ((js.filter fun j => !holds j).map loc))) ∧ t.th.pc = s.th.pc
        ∧ t.th.v = s.th.v ∧ t.th.m = s.th.m ∧ t.th.g = s.th.g ∧ SameBytes s t ∧ ∀ j, done.testBit j = (s.partMask.testBit j || (decide (j ∈ js) && holds j)))

/-- 06 R192 to R194: TAGL and TAGW at a nonzero start or at another width are ILLEGAL. TAGL, at estart 0 and 32- or 64-bit elements, writes to each
active element the slot of the lowest way of its key's set that holds the key, or the top bit and the victim: the lowest empty way, or the way of the
rotation pointer where none is empty; it writes nothing else. TAGW with a slot at or above the table's end takes TILEBND at the lowest such element,
with the slot in `stval` (the model's reading, log 54), and writes nothing; else, in ascending order, an element empties its slot where its top bit is
set, and otherwise stores its key there and advances the pointer of the set that names it. -/
def Obligations.TagTable : Prop :=
  (∀ (s : State) (d a b : BitVec 5) (k : BitVec 3), s.start ≠ 0 ∨ (s.th.ew ≠ 2 ∧ s.th.ew ≠ 3) → IsIllegal (.tagl d a k) s ∧ IsIllegal (.tagw a b k) s)
  ∧ ∀ (s : State) (d a b : BitVec 5) (k : BitVec 3), s.start = 0 → (s.th.ew = 2 ∨ s.th.ew = 3) → s.group.tagSlots ≤ 4096 →
    (∀ i, s.tagAlloc.rotate.get i 0 < 4) → (s.tagAlloc.tags.map (·.1)).Pairwise (· < ·) →
    let w := 8 * 2 ^ s.th.ew
    let T := s.group.tagSlots
    let js := (List.range s.th.vl).filter (s.active k)
    let key := fun j => elt (s.vreg a) w j
    let slot := fun j => elt (s.vreg b) w j % 2 ^ (w - 1)
    let empties := fun j => decide (2 ^ (w - 1) ≤ elt (s.vreg b) w j)
    let table := fun (t : State) (i : Nat) => (t.alloc s.core s.th.group).tags.look i
    let pointer := fun (t : State) (i : Nat) => (t.alloc s.core s.th.group).rotate.get i 0
    let set := fun x : Nat => (x / 2 ^ 48 % 2 ^ 16 ^^^ x / 2 ^ 32 % 2 ^ 16 ^^^ x / 2 ^ 16 % 2 ^ 16 ^^^ x % 2 ^ 16) % (T / 4)
    (∃ t, exec (.tagl d a k) s = .next t ∧ t.th = { s.th with v := t.th.v, pc := s.th.pc + 4, cv := none, reissue := false } ∧ OnlyThread s t ∧ KeepsVectors d s t
      ∧ (∀ j, j ∉ js → elt (t.vreg d) w j = elt (s.vreg d) w j)
      ∧ ∀ j ∈ js,
          let x := elt (t.vreg d) w j
          let way := fun y => table s (4 * set (key j) + y)
          (∀ y < 4, way y = some (key j) → (∀ z < y, way z ≠ some (key j)) → x = 4 * set (key j) + y)
          ∧ ((∀ y < 4, way y ≠ some (key j)) →
              (∀ y < 4, way y = none → (∀ z < y, way z ≠ none) → x = 2 ^ (w - 1) + 4 * set (key j) + y)
              ∧ ((∀ y < 4, way y ≠ none) → x = 2 ^ (w - 1) + 4 * set (key j) + pointer s (set (key j)))))
    ∧ (∀ j, js.find? (fun j => decide (T ≤ slot j)) = some j →
        exec (.tagw a b k) s = .next (s.takeTrap { cause := 19, tval := BitVec.ofNat 64 (slot j), elem := j }))
    ∧ ((∀ j ∈ js, slot j < T) → ∃ t, exec (.tagw a b k) s = .next t ∧ t.th = { s.th with pc := s.th.pc + 4, cv := none, reissue := false } ∧ SameBytes s t
        ∧ (∀ i, table t i = match (js.filter fun j => slot j == i).getLast? with
            | some j => if empties j then none else some (key j)
            | none => table s i)
        ∧ ∀ i, pointer t i = js.foldl (fun r j => if !empties j && slot j / 4 == i && slot j % 4 == r then (r + 1) % 4 else r) (pointer s i))

/-- 06 R195 to R197: VSPILL at a 64-byte aligned area that can be written writes its frame there and nothing else: the header, then for each vector
and mask register named, in ascending number, its elements or bits below vl and zeros to a multiple of 64 bytes. VFILL of a sound frame that
can be read gives each vector and mask register that the frame names its elements or bits below `VL` and zeros above, to vlmax, and keeps the
others. An address that is no multiple of 64 takes MISALIGN and a nonzero start is ILLEGAL, as is a frame whose header is not sound; a page that
fails a check, the header's before the frame's, and a poisoned frame trap with nothing written. -/
def Obligations.SpillAndFill : Prop :=
  (∀ (s : State) (a b : BitVec 5) (t : BitVec 1),
    let base := (s.rd a).toNat
    let w := 8 * 2 ^ s.th.ew
    let pieces := fun n : Nat => (List.range ((n + 7) / 8)).map fun j => (0, (base + 8 * j) % 2 ^ 64)
    let left := fun (v : State) => v.th = { s.th with cv := some (s.th.cv.getD { e0 := s.th.estart }) } ∧ SameBytes s v
    (base % 64 ≠ 0 → ∀ i ∈ [Instr.vspill a b t, .vfill a t], Takes i s { cause := 4, tval := s.rd a })
    ∧ (base % 64 = 0 → s.start ≠ 0 → ∀ i ∈ [Instr.vspill a b t, .vfill a t], IsIllegal i s)
    ∧ (base % 64 = 0 → s.start = 0 →
      Refuses (.vspill a b t) s s (t == 1) 8 .write 4
        (pieces (frameSize s.th.vl w ((s.rd b).toNat % 2 ^ 32) ((s.rd b).toNat / 2 ^ 32 % 2 ^ 8)))
      ∧ Refuses (.vfill a t) s s (t == 1) 8 .read 4 (pieces 64)
      ∧ (∀ hd u, s.fetchArea .v (t == 1) base 64 4 = .ok (hd, u) →
          let n := frameSize (hd / 2 ^ 16 % 2 ^ 16) w (hd / 2 ^ 32 % 2 ^ 32) (hd / 2 ^ 64 % 2 ^ 8)
          (frameBad hd s.th.ew s.th.vlmax = true → ∃ v, exec (.vfill a t) s = .next (v.takeTrap { cause := 2, tval := s.word.setWidth 64 }) ∧ left v)
          ∧ (frameBad hd s.th.ew s.th.vlmax = false → Refuses (.vfill a t) s u (t == 1) 8 .read 4 (pieces n)
            ∧ ∀ l w p, u.area .v s.th.level (t == 1) base n .read 4 = .ok (l, w) → l.find? (fun p => w.poisonedLoc p.2 8) = some p →
                ∃ v, exec (.vfill a t) s = .next (v.takeTrap { cause := 18, tval := BitVec.ofNat 64 p.1 }) ∧ left v))
      ∧ ∀ l u p, s.area .v s.th.level (t == 1) base 64 .read 4 = .ok (l, u) → l.find? (fun p => u.poisonedLoc p.2 8) = some p →
          ∃ v, exec (.vfill a t) s = .next (v.takeTrap { cause := 18, tval := BitVec.ofNat 64 p.1 }) ∧ left v))
  ∧ ∀ (s u v : State) (a b : BitVec 5) (t : BitVec 1) (hd img : Nat), s.start = 0 → (s.rd a).toNat % 64 = 0 →
    let base := (s.rd a).toNat
    let w := 8 * 2 ^ s.th.ew
    let vset := (s.rd b).toNat % 2 ^ 32
    let mset := (s.rd b).toNat / 2 ^ 32 % 2 ^ 8
    let goesOn := fun t : State => t.th = { s.th with v := t.th.v, m := t.th.m, pc := s.th.pc + 4, cv := none, reissue := false }
    -- Where the bodies of a frame of length `n` and sets `V` stand, from its start in bytes.
    let vecAt := fun (n V x : Nat) => 64 + ((List.range x).filter V.testBit).length * vbody n w
    let maskAt := fun (n V M x : Nat) => vecAt n V 32 + ((List.range x).filter M.testBit).length * mbody n
    (s.th.ew < 4 → s.th.vl ≤ 32768 →
      let f := s.spillImage vset mset
      f % 2 ^ 512 = 1 + s.th.ew * 2 ^ 14 + s.th.vl * 2 ^ 16 + vset * 2 ^ 32 + mset * 2 ^ 64
      ∧ (∀ x : BitVec 5, vset.testBit x.toNat = true →
          f / 2 ^ (8 * vecAt s.th.vl vset x.toNat) % 2 ^ (8 * vbody s.th.vl w) = s.vreg x % 2 ^ (s.th.vl * w))
      ∧ ∀ x : Fin 8, mset.testBit x = true →
          f / 2 ^ (8 * maskAt s.th.vl vset mset x) % 2 ^ (8 * mbody s.th.vl) = s.mreg x % 2 ^ s.th.vl)
    ∧ (∀ l, s.wf = true → s.area .v s.th.level (t == 1) base (frameSize s.th.vl w vset mset) .write 4 = .ok (l, u) →
      ∃ r, exec (.vspill a b t) s = .next r ∧ goesOn r ∧ r.th.v = s.th.v ∧ r.th.m = s.th.m
        ∧ Scattered s r (List.range l.length) (fun j => (l.getD j (0, .dev 0)).2) 8
            (fun j => s.spillImage vset mset / 2 ^ (64 * lastAt (List.range l.length) (fun j => (l.getD j (0, .dev 0)).2) j) % 2 ^ 64))
    ∧ (s.fetchArea .v (t == 1) base 64 4 = .ok (hd, u) → frameBad hd s.th.ew s.th.vlmax = false →
        u.fetchArea .v (t == 1) base (frameSize (hd / 2 ^ 16 % 2 ^ 16) w (hd / 2 ^ 32 % 2 ^ 32) (hd / 2 ^ 64 % 2 ^ 8)) 4 = .ok (img, v) →
        img % 2 ^ 512 = hd →
        ∃ r, exec (.vfill a t) s = .next r ∧ goesOn r ∧ SameBytes s r
          ∧ (∀ x : BitVec 5, hd.testBit (32 + x.toNat) = false → r.vreg x = s.vreg x)
          ∧ (∀ x : Fin 8, hd.testBit (64 + x.val) = false → r.th.m[x] = s.th.m[x])
          ∧ let n := hd / 2 ^ 16 % 2 ^ 16
            let V := hd / 2 ^ 32 % 2 ^ 32
            let M := hd / 2 ^ 64 % 2 ^ 8
            (∀ x : BitVec 5, V.testBit x.toNat = true → ∀ j < s.th.vlmax,
              elt (r.vreg x) w j = if j < n then elt (img / 2 ^ (8 * vecAt n V x.toNat)) w j else 0)
            ∧ ∀ x : Fin 8, M.testBit x = true → ∀ j < s.th.vlmax,
              (r.mreg x).testBit j = (decide (j < n) && img.testBit (8 * maskAt n V M x + j)))

/-! ## The matrix unit (07 R200 to R212) -/

/-- 07 R201, R202: MATT gives a thread that is not attached as many of the rows that it asks for (64 for 0 or more than 64) as the other core of
the pair leaves, zeroed in all four tiles, and writes their count to g[D] and mgrant, or 0 where there are none; attached, it is ILLEGAL. MDET
ends the attachment and leaves every row; MMODE replaces the mode and MZERO zeroes one tile of the rows held; without an attachment these two
take MNOGRANT and MDET does nothing. -/
def Obligations.MatrixAttachment : Prop :=
  ∀ (s : State) (d a : BitVec 5),
    let x := (s.rd a).toNat
    let asked := if x = 0 ∨ 64 < x then 64 else x
    let others := match s.attOf (pairOf s.core) with
      | some o => o.rows
      | none => 0
    let n := Nat.min asked (64 - others)
    let usable := s.attOf s.core = none ∧ n ≠ 0 ∧ s.rmap.deadUnits.contains (s.core / 2) = false ∧ s.coreLive s.core = true
    (s.att = none → usable → ∃ t, exec (.matt d a) s = .next t ∧ Holds d (BitVec.ofNat 64 n) t ∧ KeepsRegs d s t
      ∧ t.th = { s.th with g := t.th.g, mgrant := n, pc := s.th.pc + 4, cv := none, reissue := false } ∧ t.att = some { h := s.cur, rows := n }
      ∧ t.attOf (pairOf s.core) = s.attOf (pairOf s.core) ∧ (∀ k < 4, ∀ i < n, t.accRow s.core n k i = 0) ∧ SameBytes s t)
    ∧ (s.att = none → ¬ usable → WritesReg (.matt d a) s d 0)
    ∧ (s.att ≠ none → IsIllegal (.matt d a) s)
    ∧ (s.att = none → exec .mdet s = .next s.advance ∧ Takes (.mmode d a) s { cause := 35 } ∧ Takes (.mzero d) s { cause := 35 })
    ∧ ∀ o, s.att = some o →
        (s.stageOn s.core = true → IsIllegal .mdet s)
        ∧ (s.stageOn s.core = false → ∃ t, exec .mdet s = .next t ∧ t.attOf s.core = none ∧ (t.unit s.core).acc = (s.unit s.core).acc
            ∧ t.th = { s.th with mgrant := 0, pc := s.th.pc + 4, cv := none, reissue := false } ∧ SameBytes s t)
        ∧ (x < 4 → ∃ t, exec (.mmode d a) s = .next t ∧ Passes s t d (BitVec.ofNat 64 o.mode) ∧ t.att = some { o with mode := x }
            ∧ (t.unit s.core).acc = (s.unit s.core).acc ∧ SameBytes s t)
        ∧ (4 ≤ x → IsIllegal (.mmode d a) s)
        ∧ ∃ t, exec (.mzero d) s = .next t ∧ Passes s t 0 0 ∧ (∀ i < o.rows, t.accRow s.core o.rows d.toNat i = 0)
            ∧ KeepsRows s t s.core o.rows d.toNat ∧ t.att = s.att ∧ SameBytes s t

/-- 03 R84, R96, R97, 07 R203 to R208, 17 R364: a step instruction of an attached thread, whose checks pass and whose operands can be read
without poison, adds to each element of each row held, step by step from mprog, the products of that step with one rounding; MOPQ, whose
escaped codes give no product there, then adds the rounded product of each raisin entry of the row and the step, in the order of the list,
each add rounded. The flags of every decoding, product and rounding, and of no other, are joined to fflags (03 R94). It then clears mprog,
goes on and changes no other row, no register and no byte of memory. Without an attachment it takes MNOGRANT. -/
def Obligations.MatrixAccumulate : Prop :=
  ∀ (s u : State) (d a b : BitVec 5) (n : BitVec 1) (q p : BitVec 3) (h : BitVec 1),
    let ops : List (Instr × MatOp × BitVec 5) :=
      [(.mopa d a b n q p, { kind := .mopa, tile := d.toNat, p := 1, fa := p.toNat, fb := q.toNat, neg := n == 1 }, b),
       (.mopa2 d a b n q p, { kind := .mopa, tile := d.toNat, p := 2, fa := p.toNat, fb := q.toNat, neg := n == 1 }, b),
       (.mopa4 d a b n q p, { kind := .mopa, tile := d.toNat, p := 4, fa := p.toNat, fb := q.toNat, neg := n == 1 }, b),
       (.mops d a n p, { kind := .mops, tile := d.toNat, p := 1, fa := p.toNat, fb := 0, neg := n == 1 }, 0),
       (.mopg d a b n q p, { kind := .mopg, tile := d.toNat, p := 1, fa := p.toNat, fb := q.toNat, neg := n == 1 }, b),
       (.mopq d a b h, { kind := .mopq, tile := d.toNat, p := 4, fa := 0, fb := h.toNat }, b)]
    ∀ e ∈ ops,
      (s.att = none → Takes e.1 s { cause := 35 })
      ∧ ∀ (t : Attachment) (x : MatIn), s.att = some t → t.rows ≤ 64 → s.matPre e.2.1 t a e.2.2 = .ok () →
          s.matFetch e.2.1 t a e.2.2 s.th.mprog = .ok (u, x) → x.pa = 0 → x.pb = 0 →
          (e.2.1.kind = .mopq → ∀ k < 16, badRaisin x k = none) →
          ∃ r, exec e.1 s = .next r ∧ r.th = { s.th with fflags := r.th.fflags, mprog := 0, pc := s.th.pc + 4, cv := none, reissue := false }
            ∧ KeepsRows s r s.core t.rows d.toNat ∧ r.att = s.att ∧ SameBytes s r
            ∧ let dense : Nat → Nat → Nat → Nat → List Nat × Nat := fun i j k c =>
                let ks := span (k * e.2.1.p) (k * e.2.1.p + e.2.1.p)
                let y := denseElt false e.2.1.neg c (ks.map fun k => some (e.2.1.adec x i k).1) (ks.map fun k => (e.2.1.bdec x k j).1)
                (y.flags :: ks.flatMap fun k => [(e.2.1.adec x i k).2, (e.2.1.bdec x k j).2], y.val)
              let quantised : Nat → Nat → Nat → Nat → List Nat × Nat := fun i j k c =>
                let esc := x.header / 2 ^ 256 % 4
                let code := fun k => elt x.ia 4 (64 * i + k)
                let escaped := fun k => (esc = 1 ∧ code k = 15) ∨ (esc = 2 ∧ 14 ≤ code k)
                let value := fun k => decScaled .bf16 (elt x.header 16 (code k)) (elt x.ia 8 (2048 + 2 * i + k / 32))
                let ks := span (4 * k) (4 * k + 4)
                let y := denseElt true false c (ks.map fun k => if escaped k then none else some (dec .f32 (value k).val))
                  (ks.map fun k => (e.2.1.bdec x k j).1)
                ((raisinEntries x.list).filter fun y => y.1 / 64 == i && y.1 % 64 / 4 == k).foldl (fun z y =>
                  let product := stepRound ((dec .f32 y.2).mul (e.2.1.bdec x (y.1 % 64) j).1).1
                  let sum := stepRound ((dec .f32 z.2).add (dec .f32 product.val) .rne).1
                  (z.1 ++ [product.flags, sum.flags], sum.val))
                  (y.flags :: ks.flatMap fun k => [if escaped k then 0 else (value k).flags, (e.2.1.bdec x k j).2], y.val)
              let one := if e.2.1.kind = .mopq then quantised else dense
              let steps := if e.2.1.kind = .mopq then 16 else s.th.mvl
              let before := fun i j k => (span s.th.mprog k).foldl (fun c k => (one i j k c).2) (elt (s.accRow s.core t.rows d.toNat i) 32 j)
              (∀ i < t.rows, ∀ j < 64, elt (r.accRow s.core t.rows d.toNat i) 32 j = before i j steps)
              ∧ r.th.fflags = ((List.range t.rows).flatMap fun i => (List.range 64).flatMap fun j =>
                  (span s.th.mprog steps).flatMap fun k => (one i j k (before i j k)).1).foldl (· ||| ·) s.th.fflags

/-- 07 R209, R211, R212: MRD and MWR move elements below vl between a vector register and the rows held, bit for bit, 64 to a row; MCBL and MRLL
load a sound codebook or raisin list into its slot and take CBOOK for an unsound one; MSAVE writes the save image and MREST loads a sound
one: mode, slots and rows. Without an attachment, and MRD and MWR with a row that is not held, they take MNOGRANT; that MSAVE and MREST do so before
their address is checked for alignment is the model's choice (log 60). -/
def Obligations.MatrixTransfers : Prop :=
  (∀ (s : State) (d a : BitVec 5) (t : BitVec 2), s.att = none →
    (∀ i ∈ [Instr.mcbl a, .mrll a, .msave a, .mrest a], Takes i s { cause := 35 })
    ∧ (s.start = 0 → s.th.ew = 2 → Takes (.mrd d a t) s { cause := 35 } ∧ Takes (.mwr d a t) s { cause := 35 }))
  ∧ ∀ (s u : State) (d a : BitVec 5) (t : BitVec 2) (o : Attachment) (x : Nat), s.att = some o → o.rows ≤ 64 →
    let base := (s.rd a).toNat
    let tile := base.testBit 63
    let row := fun (z : State) (k i : Nat) => z.accRow s.core o.rows k i
    let goesOn := fun r : State => r.th = { s.th with pc := s.th.pc + 4, cv := none, reissue := false }
    (s.start = 0 → s.th.ew = 2 → s.th.vl ≠ 0 → o.rows ≤ base + (s.th.vl - 1) / 64 →
        Takes (.mrd d a t) s { cause := 35 } ∧ Takes (.mwr d a t) s { cause := 35 })
    ∧ (s.start = 0 → s.th.ew = 2 → (s.th.vl = 0 ∨ base + (s.th.vl - 1) / 64 < o.rows) →
      (∃ r, exec (.mrd d a t) s = .next r ∧ r.th = { s.th with v := r.th.v, pc := s.th.pc + 4, cv := none, reissue := false } ∧ OnlyThread s r ∧ KeepsVectors d s r
        ∧ ∀ j, elt (r.vreg d) 32 j = if j < s.th.vl then elt (row s t.toNat (base + j / 64)) 32 (j % 64) else elt (s.vreg d) 32 j)
      ∧ ∃ r, exec (.mwr d a t) s = .next r ∧ goesOn r ∧ r.att = s.att ∧ SameBytes s r ∧ KeepsRows s r s.core o.rows t.toNat
        ∧ ∀ i < o.rows, ∀ j < 64, elt (row r t.toNat i) 32 j =
            if base ≤ i ∧ (i - base) * 64 + j < s.th.vl then elt (s.vreg d) 32 ((i - base) * 64 + j) else elt (row s t.toNat i) 32 j)
    ∧ (s.hasFeat 1 = true → base % 64 = 0 → s.fetchArea .m tile base 64 2 = .ok (x, u) →
        (∀ k, headerDet x = some k → exec (.mcbl a) s = .next (u.takeTrap { cause := 33, tval := s.rd a, det := k }))
        ∧ (headerDet x = none → ∃ r, exec (.mcbl a) s = .next r ∧ goesOn r ∧ r.att = some { o with codebook := some (x % 2 ^ 259) }
            ∧ (r.unit s.core).acc = (s.unit s.core).acc ∧ SameBytes s r))
    ∧ (s.hasFeat 1 = true → base % 64 = 0 → s.fetchArea .m tile base 576 2 = .ok (x, u) →
        (∀ k, raisinDet x = some k → exec (.mrll a) s = .next (u.takeTrap { cause := 33, tval := s.rd a, det := k }))
        ∧ (raisinDet x = none → ∃ r, exec (.mrll a) s = .next r ∧ goesOn r ∧ r.att = some { o with raisins := some x }
            ∧ (r.unit s.core).acc = (s.unit s.core).acc ∧ SameBytes s r))
    ∧ (∀ l, s.wf = true → base % 64 = 0 → s.area .m s.th.level tile base (0x300 + 1024 * o.rows) .write 2 = .ok (l, u) →
        ∃ r, exec (.msave a) s = .next r ∧ goesOn r ∧ r.att = s.att ∧ (r.unit s.core).acc = (s.unit s.core).acc
          ∧ Scattered s r (List.range l.length) (fun j => (l.getD j (0, .dev 0)).2) 8
              (fun j => s.saveImage s.core o / 2 ^ (64 * lastAt (List.range l.length) (fun j => (l.getD j (0, .dev 0)).2) j) % 2 ^ 64))
    ∧ (base % 64 = 0 → s.fetchArea .m tile base (0x300 + 1024 * o.rows) 2 = .ok (x, u) → imageIllegal x o.rows = false → imageDet x = none →
        ∃ r, exec (.mrest a) s = .next r ∧ goesOn r ∧ SameBytes s r
          ∧ r.att = some { o with
              mode := x / 2 ^ 16 % 4, codebook := if x.testBit 18 then some (x / 2 ^ 512 % 2 ^ 259) else none
              raisins := if x.testBit 19 then some (x / 2 ^ 1024 % 2 ^ 4608) else none }
          ∧ ∀ k < 4, ∀ i < o.rows, row r k i = x / 2 ^ (8 * (0x300 + (k * o.rows + i) * 256)) % 2 ^ 2048)

/-! ## Streams and rings (07 R213 to R224) -/

/-- 07 R213, R219, R221 to R224: SCH claims a channel that is free or the thread's own and idle, and releases one, and waits while its own channel
is busy; SWM and SDRAIN go on once the
watermark is reached or the channels are idle and park before; RCFG makes a ring of an inward channel, RWAIT goes on at the awaited phase and
RFREE arrives at the slot's empty barrier. A channel of another owner (1), an outward channel for a ring (2), a bad range (3, 8), a ring of
another owner or group (9), a slot that does not exist (6) and an RFREE of an empty slot (7) take RINGERR with the number and the reason; that
RCFG reports reason 3 for a misaligned base, a misaligned slot size and a slot size of 0 is the model's choice (log 80). -/
def Obligations.ChannelInstructions : Prop :=
  ∀ (s : State) (d a b : BitVec 5) (r : BitVec 3),
    let core := s.getCore s.core
    let chan := fun c : BitVec 5 => core.channels.get c.toNat {}
    let ringerr := fun (i : Instr) (n reason : Nat) => Takes i s { cause := 20, tval := BitVec.ofNat 64 n, det := reason }
    let put := fun (t : State) (c : Nat) (x : Channel) => OnlyCore s t s.core { core with channels := core.channels.set c x } ∧ SameBytes s t
    let tb := (s.rd a).toNat % 2 ^ 22
    let tl := (s.rd b).toNat
    let geometry := tb % 64 = 0 ∧ tl % 64 = 0 ∧ tl ≠ 0 ∧ tb + tl ≤ s.group.tileSpace
    let free := (chan d).owner = none ∨ (chan d).owner = some s.cur
    (free → (chan d).idle = true → geometry →
      (∃ t, exec (.schIn d a b) s = .next t ∧ GoesOn s t
        ∧ put t d.toNat { owner := some s.cur, outward := false, tb := tb, tl := tl, cursor := tb, wm := tb })
      ∧ ∃ t, exec (.schOut d a b) s = .next t ∧ GoesOn s t
        ∧ put t d.toNat { owner := some s.cur, outward := true, tb := tb, tl := tl, cursor := tb, wm := tb })
    ∧ (¬ free → ringerr (.schIn d a b) d.toNat 1 ∧ ringerr (.schOut d a b) d.toNat 1)
    ∧ (free → (chan d).idle = true → ¬ geometry → ringerr (.schIn d a b) d.toNat 3 ∧ ringerr (.schOut d a b) d.toNat 3)
    ∧ (free → (chan d).idle = false → Parks (.schIn d a b) s (.channelIdle d.toNat) ∧ Parks (.schOut d a b) s (.channelIdle d.toNat))
    ∧ ((chan d).owner = some s.cur → (chan d).idle = true → ∃ t, exec (.schRel d) s = .next t ∧ GoesOn s t ∧ put t d.toNat {})
    ∧ ((chan d).owner = some s.cur → (chan d).idle = false → Parks (.schRel d) s (.channelIdle d.toNat))
    ∧ ((chan d).owner ≠ some s.cur → ringerr (.schRel d) d.toNat 1)
    ∧ ((chan b).owner ≠ some s.cur → ringerr (.swm d a b) b.toNat 1 ∧ ringerr (.sdrain b) b.toNat 1)
    ∧ ((chan b).owner = some s.cur → (chan b).idle = true ∨ tb ≤ (chan b).wm → WritesReg (.swm d a b) s d (BitVec.ofNat 64 (chan b).wm))
    ∧ ((chan b).owner = some s.cur → (chan b).idle = false → (chan b).wm < tb → Parks (.swm d a b) s (.swm d a b))
    ∧ ((chan b).owner = some s.cur → (∀ x ∈ core.channels, x.1 = b.toNat → x.2.owner = some s.cur → x.2.idle = true) →
        exec (.sdrain b) s = .next s.advance)
    ∧ ((chan b).owner = some s.cur → (∃ x ∈ core.channels, x.1 = b.toNat ∧ x.2.owner = some s.cur ∧ x.2.idle = false) →
        Parks (.sdrain b) s (.sdrain (some b.toNat)))
    ∧ ((∀ x ∈ core.channels, x.2.owner = some s.cur → x.2.idle = true) → exec .sdrainAll s = .next s.advance)
    ∧ ((∃ x ∈ core.channels, x.2.owner = some s.cur ∧ x.2.idle = false) → Parks .sdrainAll s (.sdrain none))
    ∧ (let x := (s.rd a).toNat
       let rb := x % 2 ^ 22
       let c := x / 2 ^ 24 % 16
       let ns := x / 2 ^ 32 % 16
       let ch := core.channels.get c {}
       let mine := ch.owner = some s.cur
       let steps := rb % 64 = 0 ∧ tl % 64 = 0 ∧ tl ≠ 0
       let fits := tl < 2 ^ 22 ∧ x / 2 ^ 45 = 0 ∧ x / 2 ^ 36 % 16 = 0 ∧ x / 2 ^ 28 % 16 = 0 ∧ x / 2 ^ 22 % 4 = 0 ∧ ch.tb ≤ rb
         ∧ rb + (ns + 1) * tl ≤ ch.tb + ch.tl
       let unused := ∀ k, core.rings.look r.toNat = some k → k.owner = s.cur
       let bad := fun reason : Nat => ringerr (.rcfg a b r) r.toNat reason
       (¬ mine → bad 1) ∧ (mine → ch.outward = true → bad 2) ∧ (mine → ch.outward = false → ¬ steps → bad 3)
       ∧ (mine → ch.outward = false → steps → ¬ fits → bad 8) ∧ (mine → ch.outward = false → steps → fits → ¬ unused → bad 9)
       ∧ (mine → ch.outward = false → steps → fits → unused → ch.idle = false → Parks (.rcfg a b r) s (.channelIdle c))
       ∧ (mine → ch.outward = false → steps → fits → unused → ch.idle = true →
         ∃ t, exec (.rcfg a b r) s = .next t ∧ GoesOn s t ∧ SameBytes s t
           ∧ (t.getCore s.core).rings.look r.toNat
               = some { owner := s.cur, group := s.th.group, ecnt := x / 2 ^ 40 % 32, ns := ns, ch := c, rb := rb, sb := tl }
           ∧ (t.getCore s.core).channels.look c = some { ch with ring := some r.toNat, cursor := rb, wm := rb }))
    ∧ (core.rings.look r.toNat = none → ringerr (.rwait d a b r) r.toNat 6 ∧ ringerr (.rfree d a r) r.toNat 6)
    ∧ ∀ k, core.rings.look r.toNat = some k →
        let slot := (s.rd a).toNat
        let q := k.slots.get slot {}
        let word := fun (x : RingSlot) => BitVec.ofNat 64 (x.fph.toNat + 2 * x.eph.toNat + 4 * (x.ect % 32) + k.nxt % 16 * 2 ^ 16)
        (k.ns < slot → ringerr (.rwait d a b r) r.toNat 6 ∧ ringerr (.rfree d a r) r.toNat 6)
        ∧ (slot ≤ k.ns → k.group = s.th.group →
            (q.fph = (s.rd b).toNat.testBit 0 → WritesReg (.rwait d a b r) s d (word q))
            ∧ (q.fph ≠ (s.rd b).toNat.testBit 0 → Parks (.rwait d a b r) s (.rwait d a b r)))
        ∧ (slot ≤ k.ns → k.group ≠ s.th.group →
            ringerr (.rwait d a b r) r.toNat 9 ∧ (q.fph ≠ q.eph → ringerr (.rfree d a r) r.toNat 9))
        ∧ (slot ≤ k.ns → k.group = s.th.group → (q.fph = q.eph → ringerr (.rfree d a r) r.toNat 7)
            ∧ (q.fph ≠ q.eph →
                let q' : RingSlot := if q.ect = k.ecnt then { q with eph := !q.eph, ect := 0 } else { q with ect := q.ect + 1 }
                ∃ t, exec (.rfree d a r) s = .next t ∧ Passes s t d (word q') ∧ SameBytes s t
                  ∧ OnlyCore s t s.core { core with rings := core.rings.set r.toNat { k with slots := k.slots.set slot q' } }))

/-- 07 R215 to R217: a transfer instruction on a channel that the thread holds, with a place, the direction of the channel, bytes within its range
(or the slot size of its ring) and every address passing the checks, queues the transfer with its operands as they stand, moves the cursor past
its bytes and goes on; no register and no byte of memory changes. A channel not held, a wrong direction or range takes RINGERR; a ninth transfer
parks. -/
def Obligations.StreamTransfers : Prop :=
  ∀ (s : State) (d a b : BitVec 5) (k : BitVec 3) (held : List Trans),
    let c := d.toNat
    let core := s.getCore s.core
    let ch := core.channels.get c {}
    let ops : List (Instr × Xfer) := [(.sld d a, s.mkXfer .sld c a 0 0), (.sst d a, s.mkXfer .sst c a 0 0), (.sgath d a b k, s.mkXfer .sgath c a b k),
      (.sscat d a b k, s.mkXfer .sscat c a b k), (.sscataInt d a b k, s.mkXfer .sscataInt c a b k),
      (.sscataFloat d a b k, s.mkXfer .sscataFloat c a b k)]
    ∀ e ∈ ops, (e.2.kind = .sscataFloat → s.th.ew ≠ 0 ∧ (s.th.ew = 3 → s.hasFeat 0 = true)) →
      let bytes := e.2.count * 2 ^ s.th.ew
      let reached := match ch.ring with
        | none => ch.cursor + bytes ≤ ch.tb + ch.tl
        | some r => bytes = (core.rings.get r {}).sb
      let cursor := match ch.ring with
        | none => ch.cursor + bytes
        | some r =>
          let g := core.rings.get r {}
          if ch.cursor + bytes = g.rb + (g.ns + 1) * g.sb then g.rb else ch.cursor + bytes
      let ringerr := fun reason : Nat => Takes e.1 s { cause := 20, tval := BitVec.ofNat 64 c, det := reason }
      (ch.owner ≠ some s.cur → ringerr 1)
      ∧ (ch.owner = some s.cur → ch.xfers.length = 8 → Parks e.1 s (.transferSlot c))
      ∧ (ch.owner = some s.cur → ch.xfers.length ≠ 8 → ch.outward = e.2.inward → ringerr 2)
      ∧ (ch.owner = some s.cur → ch.xfers.length ≠ 8 → ch.outward ≠ e.2.inward → ¬ reached → ringerr (if ch.ring = none then 4 else 5))
      ∧ (ch.owner = some s.cur → ch.xfers.length ≠ 8 → ch.outward ≠ e.2.inward → reached → s.issueCheck c e.2 = .ok held →
          ∃ t, exec e.1 s = .next t ∧ GoesOn s t ∧ SameBytes s t
            ∧ OnlyCore s t s.core { core with
                xferSeq := core.xferSeq + 1
                channels := core.channels.set c { ch with
                  xfers := if e.2.count = 0 then ch.xfers else ch.xfers ++ [{ e.2 with held := held }]
                  cursor := cursor } })

/-- 13 R293 to R295, R309, 07 R216, R218: the next strip of a channel that nothing holds up is moved whole: where its source bytes and
destination bytes are apart, each destination element has the bytes of its source, and one that SGATH masks off is zero; the watermark
passes what is moved as far as it is contiguous, and the transfer's last strip ends it. Where the schedule has chosen that some elements
move ahead (log 14) the others, and those above one of them at its address, are left for later. A strip that lacks a translation walks again
and keeps what it finds, or stops with the fault that it meets. TLBINV_COMPLETE, with no strip under way, counts one TLBINV of the thread as
done. -/
def Obligations.StreamEngineSteps : Prop :=
  (∀ (s : State) (core c h : Nat) (x : Xfer) (l : List (Nat × Option Loc)), s.stripReady core c = some (h, x, l) → core = h / 4 → s.wf = true →
      (l.map (·.1)).Nodup → (x.inward = false → ∀ p ∈ l, p.2.isSome = true) →
      let ch := (s.getCore core).channels.get c {}
      let u := s.switchTo h
      let tile := fun e => u.tileLoc core (x.cursor + e * 2 ^ x.ew)
      let js := l.map (·.1)
      let far := fun e => (l.find? fun p => p.1 == e).bind (·.2)
      let dest := fun e => if x.inward then tile e else (far e).getD (.dev 0)
      let source := fun e => if x.inward then far e else some (tile e)
      let left := fun e => match s.ahead with
        | none => false
        | some m => !m.testBit (e - x.strip * x.vl)
      let late := if x.kind = .sscataInt ∨ x.kind = .sscataFloat then []
        else l.filter fun p => left p.1 || (p.2.isSome && l.any fun q => decide (q.1 < p.1) && left q.1 && q.2.isSome && x.ext q.1 == x.ext p.1)
      let moves := ch.ring.isSome = true ∨ x.pending.1 = ch.wm
      let end_ := x.cursor + (x.strip + 1) * x.vl * 2 ^ x.ew
      ∃ t, exec (.stripComplete core c) s = .next t ∧ t.cur = s.cur ∧ t.ahead = none
        ∧ (∀ k, (t.getTh k).g = (s.getTh k).g ∧ (t.getTh k).v = (s.getTh k).v ∧ (t.getTh k).pc = (s.getTh k).pc)
        ∧ (∀ p q, late = p :: q → (t.getCore core).channels.get c {}
            = { ch with wm := if moves then x.cursor + p.1 * 2 ^ x.ew else ch.wm, xfers := { x with begun := some late } :: ch.xfers.tail })
        ∧ (late = [] →
            ((t.getCore core).channels.get c {}).xfers
              = (if x.strip + 1 = x.strips then ch.xfers.tail else { x with strip := x.strip + 1, begun := none } :: ch.xfers.tail)
            ∧ ((t.getCore core).channels.get c {}).wm = if moves then end_ else ch.wm)
        ∧ (x.kind ≠ .sscataInt → x.kind ≠ .sscataFloat →
            (∀ i ∈ js, ∀ j ∈ js, i ≠ j → ∀ m : Loc, m.within (dest i) (2 ^ x.ew) → ¬ m.within (dest j) (2 ^ x.ew)) →
            (∀ i ∈ js, ∀ j ∈ js, ∀ p, source i = some p → ∀ m : Loc, m.within p (2 ^ x.ew) → ¬ m.within (dest j) (2 ^ x.ew)) → s.migrations = [] →
            ∀ e ∈ js, ¬ s.dropped (dest e) → ∀ i < 2 ^ x.ew, t.readLoc ((dest e).add i) 1 =
              if e ∈ late.map (·.1) then s.readLoc ((dest e).add i) 1
              else match source e with
                | some p => s.readLoc (p.add i) 1
                | none => 0))
  ∧ (∀ (s : State) (core c h : Nat) (x : Xfer) (r : List Xfer),
      let ch := (s.getCore core).channels.get c {}
      let walked := (s.switchTo h).xlateAll x x.stripElts x.held
      ch.owner = some h → ch.xfers = x :: r → x.stopped = false → x.begun = none → (∃ e ∈ x.stripElts, x.serving (x.ext e) = none) →
      ((∀ e ∈ walked.2, ∃ a b w, e = (a, b, .error (.wait w))) →
        ∃ t, exec (.streamRetranslation core c) s = .next t ∧ OthersKept s t h ∧ t.getTh h = s.getTh h ∧ SameBytes s t
          ∧ ((t.getCore core).channels.get c {}).xfers = { x with held := walked.1 } :: r)
      ∧ ∀ p, firstErr AErr.isProt walked.2 = some p →
        ∃ t, exec (.streamRetranslation core c) s = .next t ∧ OthersKept s t h ∧ SameBytes s t
          ∧ t.getTh h = { s.getTh h with
              streamFaults := (s.getTh h).streamFaults ++ [{ ch := c, seq := x.seq, prot := true, addr := p.2.1, elem := p.1 }] }
          ∧ ((t.getCore core).channels.get c {}).xfers = { x with stopped := true } :: r)
  ∧ ∀ (s : State) (h : Nat), (s.stripUnderWay = true → exec (.tlbinvComplete h) s = .next s)
    ∧ (s.stripUnderWay = false → ∃ t, exec (.tlbinvComplete h) s = .next t ∧ OthersKept s t h
      ∧ t.getTh h = { s.getTh h with tlbinvs := (s.getTh h).tlbinvs - 1 } ∧ SameBytes s t)

/-! ## Chains and tasks (07 R225 to R232) -/

/-- 07 R225, R226, R228, 02 R68, R72: CHCFG of an image that is read and whose frames pass every check joins the claimant queue of every
bank that its ports name at the tail, or waits for a place there behind those that wait already; with every place it configures the slot and
binds its queues; without one it parks with its image, still in every queue; a count outside 1 to 64 or a misaligned address, and a frame
that fails, take BADFRAME. RUN starts the elements of a configured slot whose checks pass, CHWAIT returns the count of a RUN that is over
and parks during one, and CHBRK ends a chain without a RUN and breaks one with a RUN. Both order the RUN's stores before the thread's
younger accesses, so that nothing is read late any more (log 94); what CHBRK returns is what the compute stages and ports have completed
spatially. That the CHBRK then completes only with the finish, and at once where it is issued above the RUN's level or before a restored
context is resumed, is the model's reading (log 86), as is what a CHCFG that waits keeps (log 63). -/
def Obligations.ChainInstructions : Prop :=
  ∀ (s u : State) (d a b : BitVec 5) (k : BitVec 2),
    let ch := (s.cur, k.toNat)
    let n := (s.rd b).toNat
    let addr := s.rd a
    let slots := fun t : State => t.th = { s.th with slots := t.th.slots, pc := s.th.pc + 4, cv := none, reissue := false }
    (∀ img, s.fetchArea .v false (addr.toNat / 8 * 8) (imageBytes addr.toNat n) 5 = .ok (img, u) →
        (n = 0 ∨ 64 < n ∨ addr.toNat % 32 ≠ 0 → exec (.chcfg a b k) s = .next (u.takeTrap { cause := 6, tval := addr, det := 8 }))
        ∧ (1 ≤ n → n ≤ 64 → addr.toNat % 32 = 0 →
            (∀ x, u.checkImage ch false addr img n = .error x → exec (.chcfg a b k) s = .next (u.takeTrap x))
            ∧ ∀ fs, u.checkImage ch false addr img n = .ok fs →
                let e := u.endChain ch
                let v := e.joinClaims ch s.th.group fs
                (∀ c ∈ e.namedBanks s.th.group fs,
                  let l := e.claimants c.1 s.th.group c.2
                  let w := e.waiters c.1 s.th.group c.2
                  v.claimants c.1 s.th.group c.2 = (if l.length < 4 then l ++ [ch] else l)
                    ∧ v.waiters c.1 s.th.group c.2 = if l.length < 4 then w else w ++ [ch])
                ∧ (v.joinWaits ch s.th.group = false → ∃ t x, exec (.chcfg a b k) s = .next t ∧ slots t ∧ SameBytes s t
                  ∧ t.slotAt ch = some x ∧ x.image = addr ∧ x.nframes = n ∧ x.frames = fs ∧ x.run = none ∧ x.recorded = false
                  ∧ ∀ q ∈ fs.flatMap Frame.binds,
                      (q.2.2 = true → (t.queue q.1 q.2.1).prod = some ch) ∧ (q.2.2 = false → (t.queue q.1 q.2.1).cons = some ch))
                ∧ (v.joinWaits ch s.th.group = true →
                    ∃ t, exec (.chcfg a b k) s = .next t ∧ t.th.status = .parked (.chcfgClaim k addr img n) ∧ t.th.pc = s.th.pc ∧ t.cores = v.cores)))
    ∧ (∀ x, s.fetchArea .v false (addr.toNat / 8 * 8) (imageBytes addr.toNat n) 5 = .error (.trap x u) →
        exec (.chcfg a b k) s = .next (u.takeTrap x))
    ∧ (s.slotAt ch = none → IsIllegal (.run a k) s ∧ WritesReg (.chwait d k) s d 0 ∧ WritesReg (.chbrk d k) s d 0)
    ∧ ∀ x, s.slotAt ch = some x →
        ((x.recorded = true ∨ 2 ^ 32 ≤ addr.toNat) → IsIllegal (.run a k) s)
        ∧ (x.recorded = false → addr.toNat < 2 ^ 32 → (∀ y, s.runCheck x.frames addr.toNat = some y → Takes (.run a k) s y)
            ∧ (s.runCheck x.frames addr.toNat = none →
                (addr ≠ 0 → ∃ t y, exec (.run a k) s = .next t ∧ slots t ∧ SameBytes s t ∧ t.slotAt ch = some y ∧ y.frames = x.frames
                  ∧ y.run = some { n := addr.toNat, g := s.th.g, level := s.th.level, progress := x.frames.map fun _ => {} })
                ∧ (addr = 0 → ∃ t y, exec (.run a k) s = .next t ∧ slots t ∧ SameBytes s t ∧ t.slotAt ch = some y ∧ y.run = none ∧ y.lastN = 0)))
        ∧ (x.run = none →
            (∃ t, exec (.chwait d k) s = .next t ∧ Holds d (BitVec.ofNat 64 x.lastN) t ∧ KeepsRegs d s t ∧ OnlyThread s t
              ∧ t.th = { s.th with g := t.th.g, pc := s.th.pc + 4, cv := none, reissue := false, unseen := [] })
            ∧ ((s.th.slots.map (·.1)).Pairwise (· < ·) → ∃ t, exec (.chbrk d k) s = .next t ∧ Holds d 0 t ∧ KeepsRegs d s t ∧ t.th.pc = s.th.pc + 4
                ∧ t.slotAt ch = none ∧ t.th.unseen = [] ∧ SameBytes s t))
        ∧ ∀ r, x.run = some r → Parks (.chwait d k) s (.chwait d k.toNat)
            ∧ (let broken : Run := { r with phase := if r.phase = .streaming then .draining else r.phase, endAfter := true }
              (r.level.num < s.th.level.num ∨ s.th.restored ≠ none → ∃ t, exec (.chbrk d k) s = .next t ∧ Holds d (BitVec.ofNat 64 (leastDone (s.framesOf x) r)) t ∧ KeepsRegs d s t
                ∧ t.th.pc = s.th.pc + 4 ∧ SameBytes s t ∧ t.slotAt ch = some { x with run := some { broken with chbrk := none } })
              ∧ (s.th.level.num ≤ r.level.num → s.th.restored = none → ∃ t, exec (.chbrk d k) s = .next t ∧ t.th = { s.th with slots := t.th.slots } ∧ SameBytes s t
                ∧ t.slotAt ch = some { x with run := some { broken with chbrk := some (d, leastDone (s.framesOf x) r, s.th.pc) } }))

/-- 07 R229 to R232, 05 R141, 15 R326, R341: QWR appends to and QRD takes from a queue that no chain binds there, and each parks at a full
or an empty one; HWPUB raises `HW` of a status word whose stream goes on and may end it; TKPUSH puts an entry on the deque and TKPOP takes
the launch's youngest, or, where there is none, makes one probe round (15 R343): each level that `SCOPE` allows and that has candidates
steps the generator, and the first victim with entries of the launch gives up the oldest half of them; LAUNCH queues a sound record that
fits, refuses one with a reason by its completion word, and notes a discarded one in lerr. The model's choices: the root and the level of
the launch unit's accesses (log 21), that g[D] keeps its value with a discarded record and takes 0 with a refused one (log 23), and that a
probe finds at a later core of a gang that core's own, empty deque (log 100). -/
def Obligations.TaskInstructions : Prop :=
  ∀ (s u : State) (d a b : BitVec 5) (e : BitVec 1),
    let core := s.getCore s.core
    let q := fun r : BitVec 5 => core.queues.get r.toNat {}
    let put := fun (t : State) (r : BitVec 5) (l : List W32) =>
      OnlyCore s t s.core { core with queues := core.queues.set r.toNat { q r with entries := l } } ∧ SameBytes s t
    let mine := fun o : Option (Nat × Nat) => o = none ∨ ∃ k, o = some (s.cur, k)
    let others := fun level : Nat => (List.range 320).filter fun c => c != s.core && s.coreLive c &&
      (if level = 0 then clusterOf c == clusterOf s.core
       else if level = 1 then dieOf c == dieOf s.core && clusterOf c != clusterOf s.core
       else s.part.clusters.contains (clusterOf c) && dieOf c != dieOf s.core)
    let noted := ∃ t, exec (.launch d a) s = .next t ∧ GoesOn s t ∧ SameBytes s t ∧ (t.getCluster (clusterOf s.core)).lerrV = true
      ∧ (t.getCluster (clusterOf s.core)).lerrAddr = (s.rd a).toNat
    ((q d).prod = none → mine (q d).cons → (q d).entries.length < 64 →
      ∃ t, exec (.qwr d a) s = .next t ∧ GoesOn s t ∧ put t d ((q d).entries ++ [(s.rd a).setWidth 32]))
    ∧ ((q d).prod = none → mine (q d).cons → 64 ≤ (q d).entries.length → Parks (.qwr d a) s (.qwr d a))
    ∧ ((q d).prod ≠ none ∨ ¬ mine (q d).cons → IsIllegal (.qwr d a) s)
    ∧ ((q a).cons = none → mine (q a).prod → (q a).entries = [] → Parks (.qrd d a) s (.qrd d a))
    ∧ (∀ x l, (q a).cons = none → mine (q a).prod → (q a).entries = x :: l →
        ∃ t, exec (.qrd d a) s = .next t ∧ Passes s t d (x.setWidth 64) ∧ put t a l)
    ∧ ((q a).cons ≠ none ∨ ¬ mine (q a).prod → IsIllegal (.qrd d a) s)
    ∧ (∀ l, s.wf = true → s.space0 (s.rd a) 8 .update = .ok (l, u) →
        let w := s.bytesAt l 8
        let hw := max ((s.rd b).toNat % 2 ^ 32) (w % 2 ^ 32)
        let x := if w < 2 ^ 62 then w - w % 2 ^ 32 + hw + e.toNat * 2 ^ 62 else w
        ∃ t, exec (.hwpub d a b e) s = .next t ∧ Passes s t d (BitVec.ofNat 64 w) ∧ (x = w → SameBytes s t) ∧ (x ≠ w → Stored s t l 8 x))
    ∧ ((s.rd a).toNat % 64 ≠ 0 → Takes (.tkpush d a) s { cause := 4, tval := s.rd a } ∧ Takes (.launch d a) s { cause := 4, tval := s.rd a })
    ∧ ((s.rd a).toNat % 64 = 0 → 64 ≤ core.deque.length → WritesReg (.tkpush d a) s d 0)
    ∧ ((s.rd a).toNat % 64 = 0 → core.deque.length < 64 → ∃ t, exec (.tkpush d a) s = .next t ∧ Passes s t d 1 ∧ SameBytes s t
        ∧ OnlyCore s t s.core { core with deque := core.deque ++ [(s.rd a, s.group.launch)] })
    ∧ (∃ t x, exec (.tkpop d) s = .next t ∧ t.th = { s.th with g := t.th.g, tkcur := x, pc := s.th.pc + 4, cv := none, reissue := false } ∧ Holds d x t ∧ KeepsRegs d s t
        ∧ SameBytes s t
        ∧ (∀ l y r, core.deque = l ++ (y, s.group.launch) :: r → (∀ z ∈ r, z.2 ≠ s.group.launch) →
            x = y ∧ OnlyCore s t s.core { core with deque := l ++ r })
        ∧ let scope := (s.getCluster (clusterOf s.core)).stealctl
          let levels := [0, 1, 2].filter fun k => decide (k < scope) && !(others k).isEmpty
          let gen := fun j => Nat.repeat (fun g => g / 2 ^^^ (if g % 2 = 1 then 0xB400 else 0)) j core.stealGen
          let victim := fun j => (others (levels.getD j 0)).getD (gen (j + 1) % (others (levels.getD j 0)).length) 0
          let mine := fun j => (s.getCore (victim j)).deque.filter fun z => z.2 == s.group.launch
          (∀ z ∈ core.deque, z.2 ≠ s.group.launch) →
            ((∀ j < levels.length, mine j = []) → x = 0 ∧ OnlyCore s t s.core { core with stealGen := gen levels.length })
            ∧ ∀ j < levels.length, (∀ i < j, mine i = []) → ∀ y r, mine j = y :: r →
                let moved := r.take (Nat.min (Nat.max 1 ((r.length + 1) / 2) - 1) (64 - core.deque.length))
                let v := s.getCore (victim j)
                x = y.1 ∧ t = { s with th := t.th, cores := t.cores }
                ∧ t.getCore s.core = { core with stealGen := gen (j + 1), deque := moved ++ core.deque }
                ∧ t.getCore (victim j) = { v with deque := withoutOldest s.group.launch (moved.length + 1) v.deque }
                ∧ ∀ c, c ≠ s.core → c ≠ victim j → t.getCore c = s.getCore c)
    ∧ (∀ r, (s.rd a).toNat % 64 = 0 → (s.rd a).toNat < 2 ^ 57 →
        s.hubRead s.launch.part (s.vis.get s.launch.vi {}).env.root (s.rd a).toNat 64 = .ok (r, u) →
        let l : Launch := { record := r, part := s.launch.part, vi := s.launch.vi }
        let p := u.parts.get s.launch.part {}
        let sound := l.compl % 8 = 0 ∧ l.compl < 2 ^ 57
        (sound → l.det = none → (l.def_ = false → u.fits s.launch.part l l.recShape = true) →
          ∀ n, p.queueFor 0xFE l.prio = some n →
            ((p.queues.get n {}).items.length < 64 → ∃ t, exec (.launch d a) s = .next t ∧ Passes s t d 0 ∧ SameBytes s t
              ∧ t.launches.look u.nextLaunch = some { l with qprio := (p.queues.get n {}).prio, qwt := (p.queues.get n {}).wt }
              ∧ ((t.parts.get s.launch.part {}).queues.get n {}).items = (p.queues.get n {}).items ++ [u.nextLaunch])
            ∧ (64 ≤ (p.queues.get n {}).items.length → ∃ t, exec (.launch d a) s = .next t ∧ Passes s t d 1 ∧ t.launches = u.launches ∧ SameBytes s t))
        ∧ (sound → s.wf = true → ∀ k loc, l.det = some k →
            u.hubLoc s.launch.part (s.vis.get s.launch.vi {}).env.root l.compl 8 .write = .ok loc → ¬ s.dropped loc →
            ∃ t, exec (.launch d a) s = .next t ∧ Passes s t d 0 ∧ Stored s t loc 8 (k % 256 * 2 ^ 48 + 4 * 2 ^ 60))
        ∧ (¬ sound → noted))
    ∧ (∀ x, (s.rd a).toNat % 64 = 0 → (s.rd a).toNat < 2 ^ 57 →
        s.hubRead s.launch.part (s.vis.get s.launch.vi {}).env.root (s.rd a).toNat 64 = .error x → x.waits = false → noted)

/-! ## Wakes (09 R260) -/

/-- 05 R140, 06 R190, 07 R217, R219, R224, R225, R228, R229, 04 R129: a thread that is not parked at what a wake is for is left as it is; one that is,
and whose wait is over, completes its instruction, or issues it again where it waited before its checks. VWAIT and SETVLW read again only once a line
that they watch has changed. A wake that completes a wait for
memory, a watermark, a ring slot or transfers leaves nothing to be read late (log 94). A CHCFG that waited for a place among the claimants waits
on while it lacks one, and then goes on with the image that it read, checked anew (the model's reading, log 63). -/
def Obligations.Wakes : Prop :=
  ∀ (s : State) (h : Nat),
    let u := s.switchTo h
    let core := u.getCore u.core
    let at_ := fun w : Wait => (s.getTh h).status = .parked w
    let caught := s.setTh h { s.getTh h with unseen := [] }
    let woken := fun (i : Instr) (d : BitVec 5) (x : Word) => ∃ t, exec i s = .next t ∧ Woken caught t h d x ∧ SameBytes s t
    let again := fun i : Instr => ∃ t, exec i s = .next t ∧ OthersKept s t h ∧ t.getTh h = { s.getTh h with status := .issuing } ∧ SameBytes s t
    ((∀ w, ¬ at_ w) → ∀ i ∈ [Instr.vwaitWake h, .setvlwWake h, .rwaitWake h, .swmWake h, .sdrainWake h, .qwrWake h, .qrdWake h, .chwaitWake h,
        .tlbsyncWake h, .chcfgClaimWake h, .transferSlotWake h, .runWaitWake h], exec i s = .next s)
    ∧ (∀ d a b, at_ (.swm d a b) → let c := core.channels.get b.toNat {}
        c.owner = some h → (c.idle = true ∨ (u.rd a).toNat % 2 ^ 22 ≤ c.wm) → woken (.swmWake h) d (BitVec.ofNat 64 c.wm))
    ∧ (at_ (.sdrain none) → (∀ x ∈ core.channels, x.2.owner = some h → x.2.idle = true) → woken (.sdrainWake h) 0 0)
    ∧ (∀ c, at_ (.sdrain (some c)) → (core.channels.get c {}).owner = some h →
        (∀ x ∈ core.channels, x.1 = c → x.2.owner = some h → x.2.idle = true) → woken (.sdrainWake h) 0 0)
    ∧ (∀ d a b r k, at_ (.rwait d a b r) → core.rings.look r.toNat = some k → (u.rd a).toNat ≤ k.ns → k.group = u.th.group →
        (k.slots.get (u.rd a).toNat {}).fph = (u.rd b).toNat.testBit 0 →
        woken (.rwaitWake h) d (BitVec.ofNat 64 (k.status (u.rd a).toNat)))
    ∧ (∀ d a, at_ (.qwr d a) → let q := core.queues.get d.toNat {}
        q.prod = none → q.cons = none → q.entries.length < 64 → ∃ t, exec (.qwrWake h) s = .next t ∧ Woken s t h 0 0 ∧ SameBytes s t
          ∧ ((t.getCore u.core).queues.get d.toNat {}).entries = q.entries ++ [(u.rd a).setWidth 32])
    ∧ (∀ d a x l, at_ (.qrd d a) → let q := core.queues.get a.toNat {}
        q.prod = none → q.cons = none → q.entries = x :: l → ∃ t, exec (.qrdWake h) s = .next t ∧ Woken s t h d (x.setWidth 64) ∧ SameBytes s t
          ∧ ((t.getCore u.core).queues.get a.toNat {}).entries = l)
    ∧ (∀ d k x, at_ (.chwait d k) → u.slotAt (h, k) = some x → x.run = none →
        woken (.chwaitWake h) d (BitVec.ofNat 64 x.lastN))
    ∧ (at_ .tlbsync → (s.getTh h).tlbinvs = 0 → ∃ t, exec (.tlbsyncWake h) s = .next t ∧ Woken s t h 0 0 ∧ SameBytes s t)
    ∧ (∀ c, at_ (.transferSlot c) → (core.channels.get c {}).xfers.length < 8 → again (.transferSlotWake h))
    ∧ (at_ .runWait → u.runHolds = false → again (.runWaitWake h))
    ∧ (∀ d a y k z q done seen, at_ (.vwait d a y k z q done seen) → s.stirred seen = false → exec (.vwaitWake h) s = .next s)
    ∧ (∀ d a b e seen, at_ (.setvlw d a b e seen) → s.stirred seen = false → exec (.setvlwWake h) s = .next s)
    ∧ (∀ (v : State) (d a y : BitVec 5) (k : BitVec 3) (z : BitVec 1) (q : BitVec 3) (done : Nat) (seen : List (Loc × Nat)) (loc : Nat → Loc),
        at_ (.vwait d a y k z q done seen) → s.stirred seen = true →
        let n := if z = 0 then 4 else 8
        let base := (u.rd a).toNat
        let js := ((List.range u.th.vl).filter (u.active k)).filter fun i => !done.testBit i
        u.Reaches (base.testBit 63) n .read true js (fun j => u.idxAddr (base % 2 ^ 63) n y j) loc v →
        (∀ j ∈ js, waitCond q.toNat (BitVec.ofNat (8 * n) (s.bytesAt (loc j) n)) (BitVec.ofNat (8 * n) (elt (u.vreg d) (8 * n) j)) = true) →
        woken (.vwaitWake h) 0 0)
    ∧ (∀ (v : State) (d a b : BitVec 5) (e : BitVec 2) (seen : List (Loc × Nat)) (old : VConf) (l : Loc), at_ (.setvlw d a b e seen) →
        s.stirred seen = true → u.th.old = some old → u.space0 (u.rd b) 8 .read = .ok (l, v) →
        let x := s.bytesAt l 8
        let p := (u.rd a).toNat
        x < 2 ^ 63 → p < x % 2 ^ 32 → ∃ t, exec (.setvlwWake h) s = .next t ∧ OthersKept s t h ∧ (t.getTh h).status = .issuing
          ∧ (t.getTh h).pc = (s.getTh h).pc + 4 ∧ (t.getTh h).vl = Nat.min (x % 2 ^ 32 - p) (s.getTh h).vlmax
          ∧ (t.switchTo h).rd d = (if d = 0 then 0 else BitVec.ofNat 64 (Nat.min (x % 2 ^ 32 - p) (s.getTh h).vlmax)) ∧ SameBytes s t)
    ∧ (∀ (k : BitVec 2) (addr : Word) (img n : Nat), at_ (.chcfgClaim k addr img n) →
        let v : State := { u with th := { u.th with status := .issuing } }
        (v.joinWaits (h, k.toNat) u.th.group = true →
          ∃ t, exec (.chcfgClaimWake h) s = .next t ∧ OthersKept s t h ∧ t.getTh h = s.getTh h ∧ SameBytes s t)
        ∧ (v.joinWaits (h, k.toNat) u.th.group = false → ∀ x, v.checkImage (h, k.toNat) true addr img n = .error x →
          exec (.chcfgClaimWake h) s = .next (((v.leaveClaims (h, k.toNat)).takeTrap x).switchTo s.cur))
        ∧ ∀ fs, v.joinWaits (h, k.toNat) u.th.group = false → v.checkImage (h, k.toNat) true addr img n = .ok fs →
          ∃ t x, exec (.chcfgClaimWake h) s = .next t ∧ (t.getTh h).status = .issuing ∧ (t.getTh h).pc = (s.getTh h).pc + 4
            ∧ t.slotAt (h, k.toNat) = some x ∧ x.image = addr ∧ x.nframes = n ∧ x.frames = fs ∧ x.run = none ∧ SameBytes s t)

/-! ## Device steps: chains and threads (17 R353 to R360, 19 R389 to R404, 07 R214, 15 R345) -/

/-- 17 R353 to R358, 02 R68, R70, 19 R398 to R404: an address generator whose address passes the checks of its `SIZE`, a VADD stage, a local load
and store port that holds the token of the bank, an MRD and an MWR stage each process the next element of a streaming RUN when their entries and
room are there, and an address that fails its checks breaks the chain; a switch moves its oldest entry over links that are full, and waits for a
wake; a RUN whose nodes are done completes; a broken one drains, with the entries of a matrix element in progress back in their queue, and its
finish performs elements, parks with none ready, traps with `FIN`, and completes. The order of a finish among the restored and the recorded
slots, and the CHBRK that completes with it, are the model's reading (log 86), as are the check of a port by the larger of its size and the `SIZE`
of the generator that feeds it (85), that a generator holds a RUN open while its queue has room (65), that element 0 stands for any where vlmax is 0
(69), the entries that a matrix stage has taken and gives back (67), that each step of the finish performs one element (15), and that a port's store
is noted until a CHWAIT, a CHBRK or a younger access of the thread orders it (94). -/
def Obligations.ChainSteps : Prop :=
  (∀ (s : State) (h slot n : Nat) (x : Slot) (r : Run), s.slotAt (h, slot) = some x → x.run = some r →
    let u := s.switchTo h
    let moves := fun (v : State) (i : Instr) (p : Progress) (t : State) => exec i s = .next t ∧ ThreadsKept v t
      ∧ ∃ y q, t.slotAt (h, slot) = some y ∧ y.frames = x.frames ∧ y.run = some q ∧ q.progress = r.progress.set n p ∧ q.n = r.n
    let moved := moves s
    let noted := fun (l : Loc) (n : Nat) =>
      s.setTh h { s.getTh h with unseen := (slot, l, n, s.readLoc l n) :: (s.getTh h).unseen }
    let entries := fun (t : State) (c : Nat) (q : Nat) => (t.queue c q).entries
    (r.phase ≠ .streaming → exec (.chainNodeElement h slot n) s = .next s ∧ exec (.switchEntryMove h slot n) s = .next s
      ∧ exec (.runComplete h slot) s = .next s)
    ∧ (r.phase = .streaming → ∀ f, x.frames[n]? = some f →
        let pr := r.at_ n
        let i := pr.done
        let j := if u.th.vlmax = 0 then 0 else i % u.th.vlmax
        let node := Instr.chainNodeElement h slot n
        let next : Progress := { done := i + 1 }
        let broken := exec node s = .next (s.breakChain (h, slot))
        (i < r.n → f.isGen = true →
          (f.binding 222 = none → ∃ t, moved node next t ∧ SameBytes s t ∧ ∀ c q, t.queue c q = s.queue c q)
          ∧ ∀ b, f.binding 222 = some b → (entries s f.core b.1).length < 64 →
            let a := f.genAddr r i
            let off := a % 2 ^ 22
            let sz := 2 ^ bits f.word 232 2
            (off % sz ≠ 0 ∨ bits a 22 41 ≠ 0 ∨ (s.alloc f.core u.th.group).size < off + sz → broken)
            ∧ (off % sz = 0 → bits a 22 41 = 0 → off + sz ≤ (s.alloc f.core u.th.group).size →
              ∃ t, moved node next t ∧ SameBytes s t ∧ entries t f.core b.1 = entries s f.core b.1 ++ [BitVec.ofNat 32 off]))
        ∧ (∀ (d a b : BitVec 5) (c : BitVec 1) (p q : Nat) (e : W32) (l : List W32), i < r.n → f.isVecStage = true → f.nins = 0 → f.ew = 2 →
            insOf (f.ins 0) = some (.vadd d a b 0 c) → f.binding 214 = some (q, a.toNat) → f.binding 204 = none → f.binding 194 = none →
            f.binding 184 = some (p, d.toNat) → f.binding 174 = none → p ≠ q → entries s f.core q = e :: l → (entries s f.core p).length < 64 →
            ∃ t, moved node next t ∧ SameBytes s t ∧ entries t f.core q = l
              ∧ entries t f.core p = entries s f.core p
                  ++ [BitVec.ofNat 32 (e.toNat + if b = a then e.toNat else elt (u.vreg b) 32 j)])
        ∧ (∀ (p : PortIns) (b : Nat × Nat) (l : Loc), i < r.n → f.isPort = true → f.port = some p → p.k = 0 → p.form < 2 → p.size ≤ 2 →
            f.binding 210 = none → f.binding 220 = some b → f.arcs = [] →
            let a := f.portAddr x.frames r p i 0
            let off := a % 2 ^ 22
            let sz := 2 ^ p.size
            let cs := f.checkSize x.frames p
            let ready := if p.load = true then (entries s f.core b.1).length < 64 else entries s f.core b.1 ≠ []
            (ready → off % cs ≠ 0 ∨ bits a 22 41 ≠ 0 ∨ (s.alloc f.core u.th.group).size < off + cs → broken)
            ∧ (off % cs = 0 → off / 2 ^ 19 = bits f.word 237 3 → bitOf f.tokb (off / 65536) = true → (off + sz - 1) / 65536 = off / 65536 →
              (u.claimants f.core u.th.group (off / 65536)).head? = some (h, slot) →
              (p.load = true → u.nodeTile f.core a cs .read = .ok l → s.poisonedLoc l sz = false → (entries s f.core b.1).length < 64 →
                ∃ t, moved node next t ∧ SameBytes s t
                  ∧ entries t f.core b.1 = entries s f.core b.1 ++ [BitVec.ofNat 32 (s.bytesAt l sz)])
              ∧ (∀ e m, p.load = false → s.wf = true → u.nodeTile f.core a cs .write = .ok l → entries s f.core b.1 = e :: m →
                ∃ t, moves (noted l sz) node next t ∧ Stored s t l sz e.toNat ∧ entries t f.core b.1 = m)))
        ∧ (∀ (d a : BitVec 5) (k : Nat) (o : Attachment) (b : Nat × Nat), i < r.n → f.isMatStage = true → u.stageAtt f.core = some o →
            let row := r.regN a + i / 64
            row < o.rows →
            (f.mat = some (.mrd d a k) → f.binding 184 = some b → (entries s f.core b.1).length < 64 →
              ∃ t, moved node next t ∧ SameBytes s t
                ∧ entries t f.core b.1 = entries s f.core b.1 ++ [BitVec.ofNat 32 (elt (s.accRow f.core o.rows k row) 32 (i % 64))])
            ∧ (∀ e l, f.mat = some (.mwr d a k) → f.binding 214 = some b → entries s f.core b.1 = e :: l →
              ∃ t, moved node next t ∧ SameBytes s t ∧ entries t f.core b.1 = l
                ∧ ∀ m, elt (t.accRow f.core o.rows k row) 32 m = if m = i % 64 then e.toNat else elt (s.accRow f.core o.rows k row) 32 m))
        ∧ (f.isSwitch = true →
            let path := if bits f.word 236 4 = 0 then [] else u.pathLinks f.core (bits f.word 236 4) 1
            let move := Instr.switchEntryMove h slot n
            let open_ := ∀ k ∈ path, (s.linkSt k).power = .full ∧ (s.linkSt k).waking = false
            let into := (f.core, f.inq)
            let out := (f.outCore, f.outq)
            (∀ e l, entries s f.core f.inq = e :: l → (entries s f.outCore f.outq).length < 64 → open_ → into ≠ out →
              (f.cpq = none → ∃ t, moved move { pr with moved := pr.moved + 1 } t ∧ SameBytes s t ∧ entries t f.core f.inq = l
                ∧ entries t f.outCore f.outq = entries s f.outCore f.outq ++ [e])
              ∧ (∀ c, f.cpq = some c → (f.core, c) ≠ into → (f.core, c) ≠ out → (entries s f.core c).length < 64 →
                ∃ t, moved move { pr with moved := pr.moved + 1 } t ∧ SameBytes s t ∧ entries t f.core f.inq = l
                  ∧ entries t f.outCore f.outq = entries s f.outCore f.outq ++ [e] ∧ entries t f.core c = entries s f.core c ++ [e]))
            ∧ ((∃ k ∈ path, (s.linkSt k).waking = true) → ∃ t, exec move s = .next t ∧ ∀ c q, t.queue c q = s.queue c q)))
    ∧ (r.phase = .streaming → s.runDone x r = true → ∃ t y, exec (.runComplete h slot) s = .next t ∧ ThreadsKept s t ∧ SameBytes s t
        ∧ t.slotAt (h, slot) = some y ∧ y.run = none ∧ y.lastN = r.n ∧ y.frames = x.frames)
    ∧ (s.runDone x r = false → exec (.runComplete h slot) s = .next s)
    ∧ (let drains := fun i : Instr => ∃ t y, exec i s = .next t ∧ ThreadsKept s t ∧ SameBytes s t ∧ t.slotAt (h, slot) = some y
        ∧ y.run = some { r with phase := .drained, spatial := some (leastDone x.frames r), progress := r.progress.map fun p => { done := p.done, steps := p.steps } }
        ∧ ((∀ p ∈ r.progress, p.in0 = [] ∧ p.in1 = [] ∧ p.in2 = []) → ∀ c q, t.queue c q = s.queue c q)
        ∧ ∀ f b, x.frames = [f] → f.isMatStage = true → f.binding 214 = some b → f.binding 204 = none → f.binding 194 = none →
          entries t f.core b.1 = (r.at_ 0).in0 ++ entries s f.core b.1
      (r.phase = .draining → drains (.chainDrainComplete h slot))
      ∧ ((s.getTh h).unprepared = [] → (s.getTh h).finishing = some slot →
          (r.phase = .draining → drains (.chainFinish h))
          ∧ (r.phase = .drained → u.finishOver x r = false →
              (∀ m p v, u.firstReady slot x r x.frames.zipIdx = some (m, .ok (v, p)) → ∃ t y q, exec (.chainFinish h) s = .next t
                ∧ t.slotAt (h, slot) = some y ∧ y.run = some q ∧ q.progress = r.progress.set m p ∧ q.phase = .drained
                ∧ ∀ f, x.frames[m]? = some f → f.isMatStage = true → (t.getTh h).mprog = p.steps)
              ∧ (u.firstReady slot x r x.frames.zipIdx = none → u.th.status = .issuing → ∃ t, exec (.chainFinish h) s = .next t
                ∧ OthersKept s t h ∧ t.getTh h = { s.getTh h with status := .parked .finish } ∧ SameBytes s t)
              ∧ ∀ m y v, u.firstReady slot x r x.frames.zipIdx = some (m, .error (.trap y v)) → exec (.chainFinish h) s
                  = .next (((u.stageProg x.frames[m]? (r.at_ m)).takeTrap (y.inFinish slot m (r.at_ m).done)).switchTo s.cur))
          ∧ (r.phase = .drained → u.finishOver x r = true →
              (∃ k z q, k ≠ slot ∧ (s.getTh h).slots.look k = some z ∧ z.run = some q ∧ q.phase ≠ .streaming) →
              (r.endAfter = false →
                ∃ t y, exec (.chainFinish h) s = .next t ∧ t.slotAt (h, slot) = some y ∧ y.run = none ∧ y.lastN = r.n ∧ SameBytes s t)
              ∧ ∀ d least pc, r.endAfter = true → r.chbrk = some (d, least, pc) → (s.getTh h).pc = pc →
                ∃ t, exec (.chainFinish h) s = .next t ∧ (t.getTh h).pc = pc + 4 ∧ SameBytes s t
                  ∧ (t.switchTo h).rd d = if d = 0 then 0 else BitVec.ofNat 64 least))))
  ∧ ∀ (s : State) (h : Nat), (s.getTh h).finishPending = false → exec (.chainFinish h) s = .next s

/-- 09 R251, R254, 19 R389, R415, R416, 07 R214, 15 R330, R345: a convoy retires past its members with estart 0; a pending asynchronous
cause is taken at a boundary, the highest first, PREEMPT breaking the running chains and PROT abandoning its transfer; the convoy that uses
up a grace makes the posting of RMSUSP the next step; a terminated thread is settled, its task marked as failed and its group ended with it,
unless the task's record waits for the link or the migration unit; and an ended thread ends its chains once its RUNs are over and gives up
all it holds once its transfers are, the last one of a group ending the group. That each convoy member is a step and which points are
boundaries is the model's reading (logs 8 and 10), as are what a memory instruction that has started, a SETVLW that waits and a CHCFG that
waits leave when they are interrupted (10, 59 and 63), the order of several CHBREAKs (52) and the root through which the task's record is
reached (22). -/
def Obligations.ThreadSteps : Prop :=
  ∀ (s : State) (h : Nat),
    let th := s.getTh h
    let u := s.switchTo h
    (∀ c, th.cv = some c → c.last = true → c.resumed = false →
      let left := if th.rmvAck = th.rmvCur then th.rmLeft else th.rmLeft - 1
      ∃ t, exec (.convoyRetire h) s = .next t ∧ OthersKept s t h ∧ SameBytes s t
        ∧ t.getTh h = { th with estart := 0, pc := th.pc + BitVec.ofNat 64 (4 * c.idx), cv := none, rmLeft := left, rmDue := (t.getTh h).rmDue }
        ∧ ((t.getTh h).rmDue = true ↔ th.rmDue = true ∨ (th.rmvAck ≠ th.rmvCur ∧ th.rmLeft ≠ 0 ∧ left = 0))
        ∧ t.agenda = if th.rmvAck ≠ th.rmvCur ∧ th.rmLeft ≠ 0 ∧ left = 0 then .rmgraceExpire h :: s.agenda else s.agenda)
    ∧ ((∀ c, th.cv = some c → c.last = true → c.resumed = true) → exec (.convoyRetire h) s = .next s)
    ∧ (th.boundary = false ∨ th.asyncReady = false → exec (.takeAsyncCause h) s = .next s)
    ∧ (th.boundary = true → th.asyncReady = true → (∃ b ∈ [1, 2, 3, 4, 5], th.spend.testBit b = true) ∨ th.chbreaks ≠ [] ∨ th.streamFaults ≠ [] →
        let stopped := match u.th.old with
          | some x => u.setvlwUndo x
          | none => u.stopStarted.leaveWaiting
        (th.cv = none → (∀ k, th.status ≠ .parked (.stall k)) → (∀ l va, th.status ≠ .parked (.migrate l va)) →
          (∀ b, th.status ≠ .parked (.link b)) → (∀ a n, th.status ≠ .parked (.reply a n)) →
          (∀ k a i n, th.status ≠ .parked (.chcfgClaim k a i n)) → stopped = u)
        ∧ ∃ (c : Trap) (v : Thread),
          let w : State := { stopped with th := v }
          exec (.takeAsyncCause h) s
              = .next (((if c.cause = 40 then w.breakAll h else if c.cause = 17 then w.abandon (th.streamFaults.headD {}) else w).takeTrap c).switchTo s.cur)
          ∧ c.async = true
          ∧ v = { stopped.th with spend := v.spend, uncorrs := v.uncorrs, uncorr := v.uncorr, chbreaks := v.chbreaks, streamFaults := v.streamFaults }
          ∧ c.cause = if th.spend.testBit 5 then 57 else if th.spend.testBit 4 then 56 else if th.spend.testBit 3 then 42
              else if th.spend.testBit 2 then 41 else if th.spend.testBit 1 then 40 else if th.chbreaks ≠ [] then 43
              else if (th.streamFaults.headD {}).prot then 17 else 16)
    ∧ (th.rmDue = true → ∃ t, exec (.rmgraceExpire h) s = .next t ∧ OthersKept s t h ∧ SameBytes s t
        ∧ t.getTh h = { th with rmDue := false, spend := if th.rmvAck ≠ th.rmvCur ∧ th.status ≠ .absent then th.spend ||| 8 else th.spend })
    ∧ (th.rmDue = false → exec (.rmgraceExpire h) s = .next s)
    ∧ (th.status = .ending true ∨ th.status = .stopped →
        let part := (s.launches.get (s.groups.get th.group {}).launch {}).part
        let whole := ∀ c ∈ (s.getCore (h / 4)).channels, c.2.owner = some h → ∀ x ∈ c.2.xfers, x.begun = none
        (∀ e, s.settleWait h = some e → exec (.threadTermination h) s = .next (s.hubAsk part e))
        ∧ (th.tkcur = 0 → whole → ∃ t, exec (.threadTermination h) s = .next t ∧ SameBytes s t ∧ (t.getTh h).status = .settled ∧ (t.getTh h).g = th.g
          ∧ (∀ c ∈ (t.getCore (h / 4)).channels, c.2.owner = some h → c.2.xfers = []) ∧ (∀ x ∈ t.tags, x.h ≠ h)
          ∧ ∀ k, k ≠ h →
              let o := s.getTh k
              (t.getTh k).status = if o.status ≠ .absent ∧ o.group = th.group ∧ o.status ≠ .settled ∧ o.status ≠ .stopped then .ending true
                else o.status)
        ∧ ∀ stw v l, th.tkcur ≠ 0 → whole → s.wf = true → s.hubRead part th.ptroot (th.tkcur.toNat + 8) 8 = .ok (stw, v) →
            v.hubLoc part th.ptroot stw 8 .update = .ok l → s.poisonedLoc l 8 = false → s.bytesAt l 8 < 2 ^ 62 →
            ∃ t, exec (.threadTermination h) s = .next t ∧ (t.getTh h).status = .settled ∧ Stored s t l 8 (s.bytesAt l 8 + 2 ^ 63))
    ∧ (th.status ≠ .ending true → th.status ≠ .stopped → exec (.threadTermination h) s = .next s)
    ∧ (let ended := th.status = .settled ∨ (th.status = .ending false ∧ (∀ x ∈ th.slots, x.2.run = none)
          ∧ ∀ c ∈ (s.getCore (h / 4)).channels, c.2.owner = some h → c.2.idle = true)
       let g := s.groups.get th.group {}
       let failed := g.failed || decide (th.status = .settled)
       let runsOver := th.status = .ending false ∧ ∀ x ∈ th.slots, x.2.run = none
       (ended → ∃ t, exec (.threadEnd h) s = .next t ∧ t.getTh h = {} ∧ (∀ c ∈ (t.getCore (h / 4)).channels, c.2.owner ≠ some h)
          ∧ (∀ k, k ≠ h → (t.getTh k).g = (s.getTh k).g ∧ (t.getTh k).pc = (s.getTh k).pc ∧ (t.getTh k).v = (s.getTh k).v)
          ∧ (g.ended + 1 ≠ g.threads → t.groups.get th.group {} = { g with ended := g.ended + 1, failed := failed } ∧ SameBytes s t)
          ∧ (g.ended + 1 = g.threads →
              let l := s.launches.get g.launch {}
              t.launches.look g.launch
                = some { l with gdone := l.gdone + (if failed then 0 else 1), gfail := l.gfail + (if failed then 1 else 0) }))
       ∧ (¬ ended → runsOver → (th.slots.map (·.1)).Pairwise (· < ·) →
            ∃ t, exec (.threadEnd h) s = .next t ∧ t.getTh h = { th with slots := [] } ∧ SameBytes s t)
       ∧ (¬ ended → ¬ runsOver → exec (.threadEnd h) s = .next s))

/-! ## Device steps: launches and migration (15 R323 to R345, 13 R312 to R317) -/

/-- 15 R326 to R335, 01 R32: a launch message queues a sound record that fits, with the queue's configuration, is answered where its
interface is disabled, its address misaligned, its record discarded or its queue full, and is kept while another of its interface waits,
which 20 R421 has performed before it, or while its record cannot be read yet; image selection keeps what a pair of object and partition has
selected, which every later launch of the pair uses, and refuses an object of another magic number; a dispatch step places a group or
refuses the head; a group start makes the threads of a unit resident with the registers of 01 R32, as far as 09 R244 holds; and a launch
that is over writes its completion word. The root and level of the launch unit's own accesses are the model's reading (log 21), as are what
the loader keeps (26) and a refusal after some groups were placed (27). -/
def Obligations.LaunchSteps : Prop :=
  ∀ (s u : State),
    (∀ (vi : Nat) (tag : BitVec 16) (addr : Word),
      let i := Instr.lmsg vi tag addr
      let v := s.vis.get vi {}
      let nak := fun type stat : Nat => mkTransaction type 0 stat vi tag.toNat addr.toNat []
      (v.part = none → Sends i s s (nak 3 5))
      ∧ ∀ part, v.part = some part →
          (addr.toNat % 64 ≠ 0 → Sends i s s (nak 0x11 2))
          ∧ (let held := mkTransaction 0x10 0 0 vi tag.toNat addr.toNat []
             (addr.toNat % 64 = 0 → s.hostBehind vi = true → exec i s = .next (s.holdHost held))
             ∧ ∀ e, addr.toNat % 64 = 0 → s.hostBehind vi = false → s.hubRead part v.env.root addr.toNat 64 = .error e →
               if e.waits then exec i s = .next ((s.hubAsk part e).holdHost held) else Sends i s s (nak 0x11 2))
          ∧ ∀ r n, addr.toNat % 64 = 0 → s.hostBehind vi = false → s.hubRead part v.env.root addr.toNat 64 = .ok (r, u) →
              let l : Launch := { record := r, part := part, vi := vi }
              let p := u.parts.get part {}
              ((l.compl % 8 ≠ 0 ∨ 2 ^ 57 ≤ l.compl) → Sends i s u (nak 0x11 2)) ∧
              (l.compl % 8 = 0 → l.compl < 2 ^ 57 → l.det = none →
              (l.def_ = false → u.fits part l l.recShape = true) →
              p.queueFor vi l.prio = some n →
              ((p.queues.get n {}).items.length < 64 → ∃ t, exec i s = .next t ∧ SameBytes s t ∧ t.th = s.th ∧ t.others = s.others
                ∧ t.launches.look u.nextLaunch = some { l with qprio := (p.queues.get n {}).prio, qwt := (p.queues.get n {}).wt }
                ∧ ((t.parts.get part {}).queues.get n {}).items = (p.queues.get n {}).items ++ [u.nextLaunch])
              ∧ (64 ≤ (p.queues.get n {}).items.length → Sends i s u (nak 0x11 6))))
    ∧ (∀ part queue : Nat,
        let i := Instr.imageSelection part queue
        let p := s.parts.get part {}
        (((p.queues.get queue {}).items = []) → exec i s = .next s)
        ∧ ∀ n r, (p.queues.get queue {}).items = n :: r →
            let l := s.launches.get n {}
            let obj := BitVec.ofNat 64 l.code
            (l.sel ≠ none → exec i s = .next s)
            ∧ (∀ y x, l.sel = none → p.images.find? (fun z => z.1 == obj) = some (y, x) →
                exec i s = .next { s with launches := s.launches.set n { l with sel := some x } })
            ∧ (l.sel = none → p.images.find? (fun z => z.1 == obj) = none →
                (∀ x, s.selectImage part (s.vis.get l.vi {}).env.root obj l.spaceOf = .ok (x, u) → ∃ t, exec i s = .next t
                  ∧ t.launches.look n = some { l with sel := some x } ∧ SameBytes u t ∧ t.th = u.th)
                ∧ ∀ b, s.hubBytes part (s.vis.get l.vi {}).env.root obj.toNat 64 = .ok (b, u) → natOf b % 2 ^ 32 ≠ 0x4C484B4A →
                    ∃ t, exec i s = .next t ∧ t.launches.look n = some { l with sel := some (.refused 6 1) }))
    ∧ (∀ part : Nat,
        let i := Instr.dispatchStep part
        let a := s.adopt part
        let p := s.parts.get part {}
        (∀ k q n r y x, p.queues.find? (fun z => z.1 == k) = some (k, q) → q.items = n :: r → (s.launches.get n {}).sel = none →
          p.images.find? (fun z => z.1 == BitVec.ofNat 64 (s.launches.get n {}).code) = some (y, x) → (a.launches.get n {}).sel = some x)
        ∧ (a.toServe part = none → exec i s = .next (a.askHeads part))
        ∧ (∀ q x n st det loc, a.toServe part = some (q, x, n, .refuse st det) → s.wf = true →
            let l := a.launches.get n {}
            s.hubLoc l.part (s.vis.get l.vi {}).env.root l.compl 8 .write = .ok loc → ¬ s.dropped loc →
            ∃ t, exec i s = .next t ∧ Stored s t loc 8 (det % 256 * 2 ^ 48 + st * 2 ^ 60)
              ∧ ((t.parts.get part {}).queues.get q {}).items = ((s.parts.get part {}).queues.get q {}).items.drop 1)
        ∧ ∀ q x n c fs y, a.toServe part = some (q, x, n, .place [(c, fs)]) → (a.launches.get n {}).image = some y → s.clusterEmpty c = false →
            let l := a.launches.get n {}
            let h := l.shape y
            ∃ t, exec i s = .next t ∧ t.nextGroup = s.nextGroup + 1 ∧ (t.launches.get n {}).placed = l.placed + 1 ∧ t.th = s.th
              ∧ t.groups.look s.nextGroup = some {
                  launch := n, idx := l.placed, cluster := c, firsts := fs, gang := h.gang, perUnit := h.perUnit
                  threads := h.threads, lanes := h.lanes, tile := h.alloc, tagSlots := l.tagSlots
                  entry := bits (y.kernel (bits l.record 64 16)) 256 32 }
              ∧ ∀ f ∈ fs, ∀ j < 2 ^ h.gang, (t.getCore (f + j)).allocs.look s.nextGroup = some { size := h.alloc, tagSlots := l.tagSlots })
    ∧ (∀ (n f : Nat) (g : Group), s.groups.look n = some g →
        let l := s.launches.get g.launch {}
        let e := (s.vis.get l.vi {}).env
        let idle := (List.range 4).filter fun t => decide ((s.getTh (4 * f + t)).status = .absent)
        let k := Nat.min g.perUnit g.threads
        (g.started = true ∨ g.swapped = true ∨ s.startable g = false → exec (.groupStart n) s = .next s)
        ∧ (g.started = false → g.swapped = false → s.startable g = true → g.firsts = [f] → k ≤ idle.length → s.wf = true → ∃ t, exec (.groupStart n) s = .next t
            ∧ t.groups.look n = some { g with started := true } ∧ t.cur = s.cur
            ∧ (∀ i < k,
                let h := 4 * f + idle.getD i 0
                let x := t.getTh h
                x.status = .issuing ∧ x.level = .user ∧ x.em = false ∧ x.group = n ∧ x.pc = BitVec.ofNat 64 g.entry ∧ x.vl = 0
                ∧ x.ptroot = e.root &&& 0x00FFFFFFFFFFFFFF ∧ x.fbarea = e.fb + BitVec.ofNat 64 (256 * h) ∧ x.slots = [] ∧ x.srseed = 1
                ∧ ∀ r : Fin 32, x.g[r] = if r = 1 then 0xFFFFFFFFFFFFFFFC else if r = 2 then e.stk + BitVec.ofNat 64 (e.stkSz * (h + 1))
                    else if r = 3 then BitVec.ofNat 64 (l.record / 2 ^ 192) else if r = 4 then BitVec.ofNat 64 i else 0)
            ∧ (g.gang = 0 → ∀ y i b, l.image = some y → y.tile[i]? = some b → t.readLoc (.tile f n i) 1 = b.toNat)))
    ∧ ∀ n : Nat,
        let l := s.launches.get n {}
        (s.launchOver n = false → exec (.launchCompletion n) s = .next s)
        ∧ (∀ e, s.launchOver n = true → s.completeWait n = some e → exec (.launchCompletion n) s = .next (s.hubAsk l.part e))
        ∧ ∀ loc, s.launchOver n = true → s.dequeOf n = [] → l.aborted = false → l.reported = false → s.wf = true →
            s.hubLoc l.part (s.vis.get l.vi {}).env.root l.compl 8 .write = .ok loc → ¬ s.dropped loc →
            ∃ t, exec (.launchCompletion n) s = .next t
              ∧ Stored s t loc 8 (l.gdone % 2 ^ 16 + l.gfail % 2 ^ 16 * 2 ^ 16 + (if l.gfail = 0 then 1 else 2) * 2 ^ 60)
              ∧ ((s.launches.map (·.1)).Pairwise (· < ·) → t.launches.look n = none)

/-- 13 R312 to R317, 20 R420: the migration unit takes a request for a host page that is not being migrated: the page is copied to a frame
of the pool and enters splice. A request that loses clears `M` in the leaf and its waiters go on. The end of the copy swaps the leaf that
still holds its value and drops the old translations, else abandons the migration; the end of the invalidation, for which no strip may be
under way, begins the hold interval, frees the old frame, leaves no link tag on the page and tells the host; a host request that loses gets
a window. Requests for one page are decided in the order of their arrival. What needs the host waits while the link retrains. The model's
choices (log 30): the copy is made whole at acceptance, with the writes that follow forked, so that a page moves to or from host memory only
while the link is up; MIGDONE has `TAG` 0 and the page's address; a host request is walked under its interface's root, with CPL `STAT` 2
where no walk finds the page; and MMAP carries `STAT` 2 and offset 0 where no window covers the page. -/
def Obligations.MigrationSteps : Prop :=
  ∀ s : State,
    (∀ (h : Nat) (r : MigRequest), s.migRequests.find? (fun q => q.h == h) = some r → s.wf = true →
      (∀ q ∈ s.migRequests.takeWhile (fun q => q.h != h), q.leaf ≠ r.leaf) →
      let i := Instr.migrationDeviceRequest h
      let e := s.dram.load r.leaf 8
      let old := e / 2 ^ 12 % 2 ^ 40 * 4096
      let wants := e.testBit 0 = true ∧ e.testBit 1 = true ∧ e.testBit 60 = true ∧ e.testBit 59 = true
      let rest := s.migRequests.erase r
      let up := s.ksl.phase ≠ .retraining
      let down := s.ksl.phase = .down
      (¬ up → exec i s = .next s)
      ∧ (up → s.moving r.leaf = true → exec i s = .next { s with migRequests := rest })
      ∧ (∀ f, s.ksl.phase = .up → wants → s.migrations.look r.leaf = none → e.testBit 7 = false → e.testBit 11 = false → s.freeFrame = some f →
          ∃ t m, exec i s = .next t ∧ t.migRequests = rest ∧ t.pool = s.pool.erase f ∧ t.migrations.look r.leaf = some m
            ∧ m = { phase := .splice, entry := e, va := r.va / 4096 * 4096, oldPa := old, oldHost := true, newPa := 4096 * f, newHost := false,
                    vi := m.vi }
            ∧ (∀ k < 4096, t.readLoc (.dev (4096 * f + k)) 1 = s.readLoc (.hostmem (old + k)) 1)
            ∧ (∀ a, a < 4096 * f ∨ 4096 * f + 4096 ≤ a → t.readLoc (.dev a) 1 = s.readLoc (.dev a) 1)
            ∧ (∀ a, t.readLoc (.hostmem a) 1 = s.readLoc (.hostmem a) 1) ∧ t.th = s.th ∧ t.others = s.others)
      ∧ (up → wants → s.moving r.leaf = false → (s.migrations.look r.leaf ≠ none ∨ e.testBit 7 = true ∨ e.testBit 11 = true ∨ s.freeFrame = none ∨ down) →
          ∃ t, exec i s = .next t ∧ t.migRequests = rest ∧ t.pool = s.pool ∧ t.migrations = s.migrations ∧ Stored s t (.dev r.leaf) 8 (e - 2 ^ 59)
            ∧ ∀ k va, (s.getTh k).status = .parked (.migrate r.leaf va) → (t.getTh k).status = .issuing)
      ∧ (up → ¬ wants → s.moving r.leaf = false → ∃ t, exec i s = .next t ∧ t.migRequests = rest ∧ t.migrations = s.migrations ∧ SameBytes s t
          ∧ ∀ k va, (s.getTh k).status = .parked (.migrate r.leaf va) → (t.getTh k).status = .issuing))
    ∧ (∀ (leaf : Nat) (m : Migration), s.migrations.look leaf = some m →
        let phase := fun (t : State) (p : MigPhase) => t.migrations.look leaf = some { m with phase := p }
        let back := fun (host : Bool) (pa : Nat) => if host then s.pool else s.pool ++ [pa / 4096]
        let reached := m.newHost = true → s.ksl.phase = .up
        (m.phase = .splice → m.newHost = true → s.ksl.phase = .retraining → exec (.migrationSwitch leaf) s = .next s)
        ∧ (m.phase = .splice → s.dram.load leaf 8 = m.entry → reached → s.wf = true →
          ∃ t e, exec (.migrationSwitch leaf) s = .next t ∧ phase t .switch ∧ Stored s t (.dev leaf) 8 e
            ∧ e / 2 ^ 12 % 2 ^ 40 = m.newPa / 4096 % 2 ^ 40 ∧ e.testBit 60 = m.newHost ∧ e.testBit 59 = false
            ∧ (∀ k, k < 12 ∨ 52 ≤ k → k ≠ 59 → k ≠ 60 → e.testBit k = m.entry.testBit k)
            ∧ ∀ c ∈ t.cores, ∀ x ∈ c.2.vtlb, x.leaf ≠ leaf)
        ∧ (m.phase = .splice → (s.dram.load leaf 8 ≠ m.entry ∧ (m.newHost = true → s.ksl.phase ≠ .retraining)) ∨ (m.newHost = true ∧ s.ksl.phase = .down) →
            ∃ t, exec (.migrationSwitch leaf) s = .next t ∧ phase t .hold ∧ SameBytes s t ∧ t.pool = back m.newHost m.newPa
              ∧ t.ksl.out = s.ksl.out ++ [mkTransaction 0x21 0 6 m.vi 0 m.va []])
        ∧ (m.phase ≠ .splice → exec (.migrationSwitch leaf) s = .next s)
        ∧ (m.phase = .switch → s.stripUnderWay = false → ∃ t, exec (.migrationInvalidationComplete leaf) s = .next t ∧ phase t .hold ∧ SameBytes s t
            ∧ t.th = s.th.mapLocs m.moved ∧ t.others = (s.others.map fun (y : Nat × Thread) => (y.1, y.2.mapLocs m.moved))
            ∧ t.pool = back m.oldHost m.oldPa ∧ t.ksl.out = s.ksl.out ++ [mkTransaction 0x21 0 0 m.vi 0 m.va []]
            ∧ ∀ x ∈ t.tags, x.tile = none → ¬ (x.host = m.oldHost ∧ x.line * 64 / 4096 = m.oldPa / 4096)
                ∧ ¬ (x.host = m.newHost ∧ x.line * 64 / 4096 = m.newPa / 4096))
        ∧ (m.phase ≠ .switch ∨ s.stripUnderWay = true → exec (.migrationInvalidationComplete leaf) s = .next s)
        ∧ (m.phase = .hold → ∃ t, exec (.migrationHoldExpire leaf) s = .next t ∧ t = { s with migrations := t.migrations }
            ∧ (∀ k, k ≠ leaf → t.migrations.look k = s.migrations.look k)
            ∧ ((s.migrations.map (·.1)).Pairwise (· < ·) → t.migrations.look leaf = none))
        ∧ (m.phase ≠ .hold → exec (.migrationHoldExpire leaf) s = .next s))
    ∧ ∀ (vi : Nat) (tag : BitVec 16) (addr : Word),
        let i := Instr.migreq vi tag addr
        let v := s.vis.get vi {}
        let a := addr.toNat / 4096 * 4096
        let root := v.env.root.toNat
        let tells := fun type stat off : Nat => Sends i s s (mkTransaction type 0 stat vi tag.toNat off [])
        (v.part = none → tells 3 5 addr.toNat)
        ∧ ∀ part, v.part = some part →
            let walk := s.walkFrom (bitOf (s.parts.get part {}).feat 5) (bits root 40 16) a (bits root 0 40) 4
            let waits := s.ksl.phase = .retraining ∨ s.hostBehind vi = true
            (waits → exec i s = .next (s.holdHost (mkTransaction 0x20 0 0 vi tag.toNat addr.toNat [])))
            ∧ (¬ waits → 2 ^ 57 ≤ a → tells 3 2 addr.toNat)
            ∧ (∀ c k, ¬ waits → a < 2 ^ 57 → walk = .error (.page c k) → tells 3 2 addr.toNat)
            ∧ ∀ w, ¬ waits → a < 2 ^ 57 → walk = .ok w → (∀ q ∈ s.migRequests, q.leaf ≠ w.leaf) →
                let e := s.dram.load w.leaf 8
                let loses := s.migrations.look w.leaf ≠ none ∨ e.testBit 7 = true ∨ e.testBit 11 = true ∨ (w.host = true ∧ s.freeFrame = none)
                  ∨ (s.ksl.phase = .down ∧ (w.host = false ∨ e.testBit 60 = true))
                (loses → (∀ off, v.windowOf a = some off → tells 0x22 0 off) ∧ (v.windowOf a = none → tells 0x22 2 0))
                ∧ (¬ loses → s.ksl.phase = .up → ∃ t m, exec i s = .next t ∧ t.migrations.look w.leaf = some m ∧ m.phase = .splice ∧ m.entry = e ∧ m.vi = vi ∧ m.va = a
                    ∧ m.newHost = !w.host ∧ t.th = s.th ∧ t.others = s.others
                    ∧ (w.host = true → m.newPa = 4096 * s.freeFrame.getD 0 ∧ t.pool = s.pool.erase (s.freeFrame.getD 0)))

/-! ## Device steps: links and reductions (20 R417 to R426, 17 R365 to R368) -/

/-- 20 R417 to R426: a flit whose CRC fails or that is out of order is asked for again, one in order delivers its transactions, a retry
request replays from the flit it names or starts retraining, a link that was retraining goes down or comes up; an idle link falls to narrow
and to sleep and a waking one becomes full; and a host write, read or completion is performed and answered as the windows allow. A link that
goes down drops and counts what it held and what the other side has not received, counts the reads that await a completion, and lets what it
held go on. A completion brings its bytes, or poison with a nonzero `STAT`, to the read that awaits it. The credits that a flit returns and
counts are the model's reading (assumption 87), as are the sequence number of a retry flit (72), that a write of the device is performed
with its DWR and undone where that is never delivered, and which bytes of a completion stand (9), the pieces of a host write before one that
fails (73), and that a read request names with `LEN` what it reads and has no data behind its header (32). -/
def Obligations.LinkSteps : Prop :=
  ∀ s : State,
    (∀ (port flit : Nat) (seq : BitVec 16),
      let l := s.linkOf port
      let i := Instr.kslFlitReceive port flit
      let ok := flit / 2 ^ 1984 % 2 ^ 64 = crc64 flit 248
      let kind := flit / 2 ^ 40 % 2 ^ 8
      let n := flit % 2 ^ 16
      let cred := flit / 2 ^ 32 % 2 ^ 8
      let due := Nat.min l.owed 255
      let puts := fun (x : Link) => exec i s = .next ((s.arrived port).setLinkOf port x)
      let ask := { l with owed := l.owed - due, sent := l.sent ++ [mkFlit l.rxSeq (l.rxSeq + 2 ^ 16 - 1) due 2 []] }
      let back := fun (j : Instr) (v : State) (y : Link) (k : Nat) => exec j s = .next (v.setLinkOf port (
        if l.failSeq = k ∧ 8 ≤ l.fails then { y.flush with phase := .retraining, fails := 0, lostFrom := k }
        else { y with failSeq := k, fails := if l.failSeq = k then l.fails + 1 else 1
                      sent := l.sent ++ l.replay.dropWhile fun f => decide (f % 2 ^ 16 ≠ k) }))
      (port = 12 → s.arrived port = s)
      ∧ (l.phase ≠ .up → exec i s = .next (s.arrived port))
      ∧ (l.phase = .up → ¬ ok → puts ask)
      ∧ (l.phase = .up → ok → kind = 0 → n ≠ l.rxSeq → (n + 2 ^ 16 - l.rxSeq) % 2 ^ 16 < 2 ^ 15 → puts ask)
      ∧ (l.phase = .up → ok → kind = 0 → n ≠ l.rxSeq → 2 ^ 15 ≤ (n + 2 ^ 16 - l.rxSeq) % 2 ^ 16 → exec i s = .next (s.arrived port))
      ∧ (l.phase = .up → ok → kind = 2 → back i (s.arrived port) { l with credits := l.credits + cred } n)
      ∧ (l.phase = .up → ok → kind = 3 → puts { l.flush with phase := .retraining, fails := 0, lostFrom := l.txSeq })
      ∧ (l.phase = .up → ok → kind ∉ [0, 2, 3] → puts { l with credits := l.credits + cred })
      ∧ (l.phase = .up → back (.kslRetryRequest port seq) (s.arrived port) l seq.toNat)
      ∧ (∀ h d, port = 12 → l.phase = .up → ok → kind = 0 → n = l.rxSeq → l.partialUnits = [] → d.length ≤ 14 →
          flitUnits flit = h :: d ++ List.replicate (14 - d.length) 0 → d.length = unitsAfter h →
          let vi := h / 2 ^ 32 % 2 ^ 6
          let tag := BitVec.ofNat 16 (h / 2 ^ 48)
          let addr := BitVec.ofNat 64 (h / 2 ^ 64)
          let data := d.flatMap fun x => bytesOf 16 x
          let starts := fun j : Instr => exec i s = .next { s with
            ksl := { l with rxSeq := (l.rxSeq + 1) % 2 ^ 16, owed := l.owed + 1, credits := l.credits + cred }, agenda := j :: s.agenda }
          (h % 2 ^ 8 = 1 → starts (.hwr vi tag addr data))
          ∧ (h % 2 ^ 8 = 2 → starts (.hrd vi tag addr (16 * (h / 2 ^ 40 % 2 ^ 8))))
          ∧ (h % 2 ^ 8 = 3 → starts (.cpl tag (BitVec.ofNat 8 (h / 2 ^ 24)) data))
          ∧ (h % 2 ^ 8 = 0x10 → starts (.lmsg vi tag addr))
          ∧ (h % 2 ^ 8 = 0x20 → starts (.migreq vi tag addr)))
      ∧ (l.phase ≠ .retraining → exec (.kslLinkDown port) s = .next s ∧ exec (.linkRetrainComplete port) s = .next s)
      ∧ (l.phase = .retraining →
          let goesOn := fun (down : Prop) (t : State) => ∀ k,
            let st := (s.getTh k).status
            ((∃ b, st = .parked (.link b)) ∨ (down ∧ ∃ a n, st = .parked (.reply a n)) → t.getTh k = { s.getTh k with status := .issuing })
            ∧ ((∀ b, st ≠ .parked (.link b)) → ¬ (down ∧ ∃ a n, st = .parked (.reply a n)) → t.getTh k = s.getTh k)
          let lost := if port = 12 then l.undelivered else []
          (∃ t, exec (.kslLinkDown port) s = .next t ∧ t.dram = s.dram ∧ (∀ c g o, t.readLoc (.tile c g o) 1 = s.readLoc (.tile c g o) 1)
            ∧ (lost = [] → SameBytes s t)
            ∧ (∀ (w : Transaction) n x, lost = [w] → w.old = some (n, x) →
                let a := w.header / 2 ^ 64 % 2 ^ 64
                t.host = if s.host.load a n = natOf (w.data.take n) then s.host.store a n x else s.host)
            ∧ t.linkOf port = { l with
                phase := .down, out := [], partialUnits := [], held := if port = 12 then [] else l.held
                words := if port = 12 then [] else l.words, writes := if port = 12 then [] else l.writes, inbox := if port = 12 then [] else l.inbox }
            ∧ (port = 12 → t.outstanding = [] ∧ t.answers = []
                ∧ t.mgmt.drops = s.mgmt.drops + (l.held.filter fun w => w.2.isSome).length + lost.length
                ∧ t.mgmt.poisonedReads = s.mgmt.poisonedReads + s.readsHeld ∧ t.mgmt.undelivered = s.mgmt.undelivered ++ l.words
                ∧ t.agenda = l.inbox.flatMap heldStep ++ s.agenda ∧ goesOn True t)
            ∧ (port ≠ 12 → t.rmap.ports.get port 2 = 0 ∧ t.rmap.pending = true ∧ t.th = s.th ∧ t.others = s.others))
          ∧ ∃ t, exec (.linkRetrainComplete port) s = .next t ∧ (t.linkOf port).phase = .up ∧ (port ≠ 12 ∨ l.held = [] → SameBytes s t)
            ∧ (port = 12 ∨ (s.linkSt (.peer port)).power = .full ∧ (s.linkSt (.peer port)).waking = false →
                (t.linkOf port).out = [] ∧ ∃ new, (t.linkOf port).sent = l.sent ++ new
                  ∧ new.length = ((l.out.flatMap Transaction.units).length + 14) / 15)
            ∧ (port ≠ 12 → (s.linkSt (.peer port)).waking = true → t.linkOf port = { l with phase := .up })
            ∧ (port = 12 → goesOn False t ∧ t.ksl.held = [] ∧ t.ksl.inbox = [] ∧ t.agenda = l.inbox.flatMap heldStep ++ s.agenda
                ∧ ∀ p m x, l.held = [(p, some (m, x))] → s.wf = true → m ≤ 8 → ∀ i < m, t.readLoc (.hostmem (p + i)) 1 = x / 256 ^ i % 256)))
    ∧ (∀ k : LinkRef,
        let x := s.linkSt k
        let sets := fun (i : Instr) (y : LinkState) => ∃ t, exec i s = .next t ∧ t = { s with links := t.links } ∧ t.linkSt k = y
          ∧ ∀ m, m ≠ k → t.linkSt m = s.linkSt m
        (x.power = .full → x.waking = false → sets (.linkIdleNarrow k) (if x.raised then { x with raised := false } else { x with power := .narrow }))
        ∧ (x.power ≠ .full ∨ x.waking = true → exec (.linkIdleNarrow k) s = .next s)
        ∧ (x.power = .narrow → x.waking = false → sets (.linkIdleSleep k) { x with power := .sleep })
        ∧ (x.power ≠ .narrow ∨ x.waking = true → exec (.linkIdleSleep k) s = .next s)
        ∧ (x.waking = true → sets (.linkWakeComplete k) { x with waking := false, power := if x.capped then .narrow else .full })
        ∧ (x.waking = false → exec (.linkWakeComplete k) s = .next s))
    ∧ (∀ (tag : BitVec 16) (stat : BitVec 8) (data : List Byte),
        let i := Instr.cpl tag stat data
        (s.outstanding.find? (fun p => p.tag == tag.toNat) = none → exec i s = .next s)
        ∧ ∀ p, s.outstanding.find? (fun p => p.tag == tag.toNat) = some p →
            let ps := piecesOf p.addr p.n
            let st := (s.getTh p.agent).status
            (∃ t, exec i s = .next t ∧ t.outstanding = s.outstanding.erase p ∧ t.answers = s.answers ++ ps.map (fun k => (p.agent, k))
              ∧ OthersKept s t p.agent ∧ t.dram = s.dram ∧ t.agenda = s.ksl.inbox.flatMap heldStep ++ s.agenda
              ∧ ((∃ a n, st = .parked (.reply a n)) → t.getTh p.agent = { s.getTh p.agent with status := .issuing })
              ∧ ((∀ a n, st ≠ .parked (.reply a n)) → t.getTh p.agent = s.getTh p.agent)
              ∧ (stat ≠ 0 ∨ s.host.load p.addr p.n ≠ p.old ∨ natOf (data.take p.n) = p.old → t.host = s.host)
              ∧ (stat = 0 → s.hostPoison = [] → t.hostPoison = [])
              ∧ (stat ≠ 0 → s.migrations = [] → ∀ q, t.poisonedLoc (.hostmem q) 1 = (s.poisonedLoc (.hostmem q) 1 || ps.contains (q / 8))))
            ∧ (stat = 0 → s.wf = true → p.n = 8 → p.addr % 8 = 0 → s.migrations = [] → s.host.load p.addr 8 = p.old →
                natOf (data.take 8) ≠ p.old → ∃ t, exec i s = .next t ∧ Stored s t (.hostmem p.addr) 8 (natOf (data.take 8)))
            ∧ ∀ f, stat ≠ 0 → s.ksl.phase = .up → ps = [p.addr / 8] → p.addr % 8 = 0 → s.forkOf (.hostmem p.addr) = some (.dev f) →
                ∃ t, exec i s = .next t ∧ ∀ q, t.poisonedLoc (.dev q) 1 = (s.poisonedLoc (.dev q) 1 || decide (q / 8 = f / 8)))
    ∧ ∀ (vi len : Nat) (tag : BitVec 16) (addr : Word) (data : List Byte),
        let v := s.vis.get vi {}
        let a := addr.toNat
        let w := Instr.hwr vi tag addr data
        let r := Instr.hrd vi tag addr len
        let cpl := fun (st : Nat) (b : List Byte) => mkTransaction 3 0 st vi tag.toNat a b
        let pieces := fun n : Nat => v.pieces n a n
        let behind := s.hostBehind vi
        let held : Transaction := { header := 2 + vi * 2 ^ 32 + len / 16 % 256 * 2 ^ 40 + tag.toNat * 2 ^ 48 + a * 2 ^ 64 }
        (v.part = none → Sends w s s (cpl 5 []) ∧ Sends r s s (cpl 5 []))
        ∧ ∀ part, v.part = some part →
            (behind = true → exec w s = .next (s.holdHost (mkTransaction 1 0 0 vi tag.toNat a data)))
            ∧ (s.hostWaits vi part (pieces len) = true → exec r s = .next ((s.hostAsks vi part (pieces len)).holdHost held))
            ∧ (behind = true → (∀ p ∈ pieces len, ∀ e, s.hostAt vi part p.1 p.2 .read = .error e → e.waits = false) → s.hostAsks vi part (pieces len) = s)
            ∧ (∀ p q st, behind = false → pieces data.length = p :: q → s.hostLoc vi part p.1 p.2 .write = .error st → Sends w s s (cpl st []))
            ∧ (∀ l m, behind = false → data.length = 16 → pieces 16 = [(a, 8), (a + 8, 8)] → s.wf = true → s.hostLoc vi part a 8 .write = .ok l →
                let x := natOf (data.take 8)
                let u := s.hubPut part l 8 x
                u.hostLoc vi part (a + 8) 8 .write = .ok m →
                ∃ t, exec w s = .next t ∧ Stored s u l 8 x ∧ Stored u t m 8 (natOf (data.drop 8)) ∧ t.th = s.th ∧ t.others = s.others)
            ∧ (∀ win, v.windowAt a = some win → v.windowAt (a + 8) = some win → (win.vbase + (a - win.hostBase)) % 8 = 0 →
                a + 16 ≤ win.hostBase + win.len → pieces 16 = [(a, 8), (a + 8, 8)])
            ∧ (∀ p q st, s.hostWaits vi part (pieces len) = false → pieces len = p :: q → s.hostLoc vi part p.1 p.2 .read = .error st →
                Sends r s s (cpl st []))
            ∧ ∀ loc : Nat → Loc, behind = false → (∀ p ∈ pieces len, s.hostLoc vi part p.1 p.2 .read = .ok (loc p.1)) →
                let v := s.hostNotes vi part (pieces len)
                ((∀ p ∈ pieces len, ∀ a, loc p.1 ≠ .hostmem a) → v = s)
                ∧ (∀ p a, pieces len = [p] → loc p.1 = .hostmem a → s.ksl.phase = .up → s.answers = [] →
                    v = s.send part 4 0 0 a (List.replicate p.2 0))
                ∧ ((∀ p ∈ pieces len, s.poisonedLoc (loc p.1) p.2 = false) →
                  Sends r s v (cpl 0 ((pieces len).flatMap fun p => bytesOf p.2 (s.bytesAt (loc p.1) p.2))))
                ∧ ((∃ p ∈ pieces len, s.poisonedLoc (loc p.1) p.2 = true) → Sends r s v (cpl 4 (List.replicate len 0)))

/-- 17 R366 to R368, 20 R425: a token that arrives on a port that is not down waits there; an armed node whose local token is ready, and that has
one from upstream unless it is rank 0, sends the combination downstream and goes on to the next token, done at the last; rank 0 also writes its
output and publishes its `HW` as HWPUB would, the last time with the end of the stream. A node that fails marks its output as failed, writes
`NST` 3 and sends the failure downstream. It is the model's reading that a node's addresses are those of the interface that armed it
(assumption 31), and that `OUTSTW` is published as HWPUB publishes a word, so that one whose `STATE` is not 0 is left alone, and that a node
waits for a retraining link and for the migration unit (assumption 82). -/
def Obligations.ReductionSteps : Prop :=
  ∀ s : State,
    (∀ (port : Nat) (tag : BitVec 16) (failed : Bool) (data : List Byte),
      let l := s.peer port
      (l.phase = .down → exec (.rtok port tag failed data) s = .next s)
      ∧ (l.phase ≠ .down → exec (.rtok port tag failed data) s
          = .next ((s.setPeer port { l with inbox := l.inbox ++ [mkTransaction 0x40 0 failed.toNat 0 tag.toNat 0 data] }).carried port)))
    ∧ ∀ node : Nat,
        let n := s.nodes.get node {}
        let sent := fun (t : State) (x : Transaction) => n.dport ≠ 15 → (t.peer n.dport).out = (s.peer n.dport).out ++ [x]
        let vi := s.lowestVi (s.nodeRoot n).1
        let nst := fun (v : State) (x : Nat) => match v.redLoc n (n.desc + 56) 1 .write with | .ok m => v.storeLoc m 1 x | .error _ => v
        (s.tokenReady n = false → exec (.reductionToken node) s = .next (s.nodeAsk n))
        ∧ (n.state ≠ .armed ∨ s.nodeWait n = none → s.nodeAsk n = s)
        ∧ (s.nodeWait n ≠ none → s.tokenReady n = false)
        ∧ (∀ x, s.tokenReady n = true → s.redGet n (n.inbuf + 64 * n.next) 64 = .ok x →
            ∃ t r, exec (.reductionToken node) s = .next t ∧ t.th = s.th ∧ t.others = s.others
              ∧ t.nodes.get node {} = { n with next := n.next + 1, state := if n.next + 1 = n.ntok then .done else .armed }
              ∧ sent t (mkTransaction 0x40 0 0 vi n.next 0 (bytesOf 64 r))
              ∧ (n.uport = 15 → r = if n.fmt ≤ 1 then x else x % 2 ^ 264)
              ∧ (n.uport ≠ 15 → ∃ q l, (s.peer n.uport).inbox = q :: l ∧ (t.peer n.uport).inbox = l
                  ∧ let p := natOf q.data
                    (n.fmt = 0 → ∀ k < 16, elt r 32 k = (fpAdd .f32 .rne 0 (dec .f32 (elt p 32 k)) (dec .f32 (elt x 32 k))).val % 2 ^ 32)
                    ∧ (n.fmt = 1 → ∀ k < 32, elt r 16 k = (fpAdd .bf16 .rne 0 (dec .bf16 (elt p 16 k)) (dec .bf16 (elt x 16 k))).val % 2 ^ 16)
                    ∧ ∀ f ∈ [(2, Fmt.e4m3), (3, Fmt.e5m2), (4, Fmt.mxi8)], n.fmt = f.1 →
                        let ep := elt p 8 32
                        let ex := elt x 8 32
                        let eo := Nat.max ep ex
                        let part := fun y e k : Nat => (dec f.2 (elt y 8 k)).scale ((e : Int) - eo)
                        (eo = 0xFF → r = 0xFF * 2 ^ 256)
                        ∧ (eo ≠ 0xFF → r / 2 ^ 256 = eo ∧ ∀ k < 32, elt r 8 k = (fpAdd f.2 .rne 0 (part p ep k) (part x ex k)).val % 256))
              ∧ (∀ l, n.uport = 15 → n.next + 1 < 2 ^ 32 → s.wf = true → s.redLoc n (n.outbuf + 64 * n.next) 64 .write = .ok l →
                  let v := s.storeLoc l 64 r
                  ∀ m, v.redLoc n n.outstw 8 .update = .ok m →
                    let w := v.bytesAt m 8
                    let done := if n.next + 1 = n.ntok then 2 ^ 62 else 0
                    let p := if w < 2 ^ 62 then w - w % 2 ^ 32 + Nat.max (n.next + 1) (w % 2 ^ 32) + done else w
                    let u := if p = w then v else v.storeLoc m 8 p
                    SameBytes (if n.next + 1 = n.ntok then nst u 2 else u) t))
        ∧ (s.nodeFails n = false ∨ s.nodeWait n ≠ none → exec (.reductionNodeFail node) s = .next (s.nodeAsk n))
        ∧ (s.nodeFails n = true → s.nodeWait n = none → ∃ t, exec (.reductionNodeFail node) s = .next t ∧ (t.nodes.get node {}) = { n with state := .failed }
            ∧ t.th = s.th ∧ t.others = s.others ∧ sent t (mkTransaction 0x40 0 1 vi n.next 0 [])
            ∧ ∀ l, s.redLoc n n.outstw 8 .update = .ok l → s.wf = true →
                (s.bytesAt l 8 < 2 ^ 62 → SameBytes (nst (s.storeLoc l 8 (s.bytesAt l 8 + 2 ^ 63)) 3) t)
                ∧ (2 ^ 62 ≤ s.bytesAt l 8 → SameBytes (nst s 3) t))

/-! ## Management, power, errors and boot (20 R427 to R440, 19 R406 to R415) -/

/-- 20 R427 to R429, R433, R440: each of the thirteen requests of the managing interface, when it is sound, has its effect and is answered with
`STAT` 0; another interface, or the managing one where it is disabled, is answered with `STAT` 5, a request that must wait for boot with 6, one out
of range with 5; a frame of the management port that is not authentic is counted and ignored, and one with an old `SEQ` is ignored. The layouts of
requests and of the status data are the model's own (assumptions 34 and 35), as are one feature mask for each partition (88), the refusals of a
request that cannot be served (43), what a swap keeps (44) and that an armed node is refused (45). -/
def Obligations.ManagementRequests : Prop :=
  ∀ (s : State) (vi : BitVec 6) (tag : BitVec 16),
    let q := MgmtSrc.link vi tag
    let manager := vi.toNat = s.mgmt.managing ∧ (s.vis.get vi.toNat {}).part ≠ none
    let turns := fun (i : Instr) (code st : Nat) => Sends i s s (mkTransaction 0x31 code st vi.toNat tag.toNat 0 [])
    let answers := fun (i : Instr) (code : Nat) (data : List Byte) (t : State) => exec i s = .next t
      ∧ ∃ ps : List (List Byte), ps.flatten = data ∧ (∀ p ∈ ps, p.length ≤ 256)
        ∧ t.ksl.out = s.ksl.out ++ ps.map fun p => mkTransaction 0x31 code 0 vi.toNat tag.toNat 0 p
    (∀ (part k node c v win group n : Nat) (clusters vis : List Nat) (feat : BitVec 6) (e h l b : Word) (z : BitVec 16) (o : Option Nat)
        (g : CapReg) (w : Option Word) (add : Bool) (nonce payload : List Byte) (env : Env) (num : BitVec 32) (mac : BitVec 128),
      let requests := fun r : MgmtSrc => [(1, Instr.mgmtPartition r part clusters vis feat), (2, .mgmtQueueConfiguration r part k e),
        (3, .mgmtWindow r v win h l b z), (4, .mgmtPreempt r c k), (5, .mgmtSwap r group o), (6, .mgmtArmNode r node e), (7, .mgmtHold r n),
        (8, .mgmtThreshold r n), (9, .mgmtCap r g w), (10, .mgmtPool r add n), (11, .mgmtAttest r nonce), (12, .mgmtStatus r),
        (13, .mgmtLaunchEnvironment r v env)]
      (∀ i ∈ requests q, (¬ manager → turns i.2 i.1 5)
        ∧ (manager → s.sec.phase ≠ .running → i.1 ≠ 12 → turns i.2 i.1 6))
      ∧ ∀ i ∈ requests (.port num payload mac),
          (requestFrameOk payload mac = false → exec i.2 s = .next { s with mgmt := { s.mgmt with ignored := s.mgmt.ignored + 1 } })
          ∧ (∀ m, requestFrameOk payload mac = true → s.mgmt.seq = some m → num.toNat ≤ m → exec i.2 s = .next s))
    ∧ (∀ (num : BitVec 32) (payload : List Byte) (mac : BitVec 128) (n : Nat), s.sec.phase = .running → requestFrameOk payload mac = true →
        num.toNat = field payload 4 4 → (∀ m, s.mgmt.seq = some m → m < num.toNat) → field payload 9 1 = 7 → 1000 ≤ n → n ≤ 10 ^ 9 →
        let hdr := field payload 8 16
        exec (.mgmtHold (.port num payload mac) n) s = .next { s with
          holdNanos := n
          mgmt := { s.mgmt with seq := some num.toNat, responses := s.mgmt.responses
            ++ [responseFrame num.toNat (mkTransaction 0x31 7 0 (hdr / 2 ^ 32 % 2 ^ 6) (hdr / 2 ^ 48 % 2 ^ 16) 0 [])] } })
    ∧ (manager → ∃ t, answers (.mgmtStatus q) 12
        (Config.statusData s.mgmt.stopped s.rmap.withdrawn s.linkPhases s.mgmt.undelivered s.mgmt.drops s.mgmt.poisonedReads
          s.mgmt.ignored) t
        ∧ t = { s with ksl := t.ksl })
    ∧ (manager → s.sec.phase = .running →
        let grants := fun (i : Instr) (u : State) (code : Nat) (data : List Byte) => Grants i s u vi tag code data
        (∀ (part : Nat) (clusters vis : List Nat) (feat : BitVec 6), s.parts.look part = none → part < 8 → clusters ≠ [] → clusters.Nodup →
          vis.Nodup → (∀ c ∈ clusters, c < 40 ∧ ∀ p ∈ s.parts, c ∉ p.2.clusters) → (∀ v ∈ vis, v < 64 ∧ (s.vis.get v {}).part = none) →
          ∃ t p, exec (.mgmtPartition q part clusters vis feat) s = .next t ∧ t.parts.look part = some p ∧ (∀ c, c ∈ p.clusters ↔ c ∈ clusters)
            ∧ p.feat = feat.toNat ∧ (∀ k < 4, p.queues.get k {} = { owner := vis.foldl Nat.min 63, prio := k })
            ∧ (∀ k < 4, p.queues.get (k + 4) {} = { owner := 0xFE, prio := k }) ∧ (∀ v ∈ vis, (t.vis.get v {}).part = some part)
            ∧ t.rmap.pending = true ∧ t.ksl.out = s.ksl.out ++ [mkTransaction 0x31 1 0 vi.toNat tag.toNat 0 []])
        ∧ (∀ part p feat, s.parts.look part = some p → part < 8 →
            (s.abortWaits part ≠ [] → Sends (.mgmtPartition q part [] [] feat) s (s.abortAsk part)
              (mkTransaction 0x31 1 6 vi.toNat tag.toNat 0 []))
            ∧ (s.abortWaits part = [] → ∃ t, exec (.mgmtPartition q part [] [] feat) s = .next t
              ∧ (∀ v ∈ t.vis, v.2.part ≠ some part) ∧ ((s.parts.map (·.1)).Pairwise (· < ·) → t.parts.look part = none)))
        ∧ (∀ part k p (e : Word), s.parts.look part = some p → k < 8 → e.toNat < 2 ^ 16 → e.toNat / 4 % 4 = 0 →
            let o := e.toNat / 2 ^ 8
            let x : LQueue := { p.queues.get k {} with
              owner := if o < 64 ∨ o = 0xFE then o else 0xFF, wt := Nat.max 1 (e.toNat / 16 % 16), prio := e.toNat % 4 }
            grants (.mgmtQueueConfiguration q part k e) { s with parts := s.parts.set part { p with queues := p.queues.set k x } } 2 [])
        ∧ (∀ (v win : Nat) (h l b : Word) (z : BitVec 16), v < 64 → (s.vis.get v {}).part ≠ none → win < 16 → b.toNat + l.toNat ≤ 2 ^ 57 →
            h.toNat + l.toNat ≤ 2 ^ 64 →
            let y := s.vis.get v {}
            let x : Window := { hostBase := h.toNat, len := l.toNat, vbase := b.toNat, asid := z.toNat }
            grants (.mgmtWindow q v win h l b z) { s with vis := s.vis.set v { y with windows := y.windows.set win x } } 3 [])
        ∧ (∀ core thr, core < 320 → thr < 4 →
            let k := 4 * core + thr
            ((s.getTh k).status = .absent → turns (.mgmtPreempt q core thr) 4 5)
            ∧ ((s.getTh k).status ≠ .absent → ∃ t, exec (.mgmtPreempt q core thr) s = .next t ∧ OthersKept s t k
                ∧ t.getTh k = { s.getTh k with spend := (s.getTh k).spend ||| 2 } ∧ SameBytes s t))
        ∧ (∀ gid g, s.groups.look gid = some g →
            (g.started = true → g.swapped = false → (∀ k, (s.getTh k).status ≠ .absent → (s.getTh k).group = gid → s.savedAndFree k = true) →
              ∃ t g', exec (.mgmtSwap q gid none) s = .next t ∧ t.groups.look gid = some g' ∧ g'.swapped = true ∧ g'.firsts = []
                ∧ ∀ k, (s.getTh k).status ≠ .absent → (s.getTh k).group = gid → t.getTh k = {}
                    ∧ (g.firsts.idxOf (k / 4), k % 4, s.getTh k) ∈ g'.savedThreads)
            ∧ (∀ c fs, g.swapped = true → c ∈ (s.parts.get (s.launches.get g.launch {}).part {}).clusters →
                s.lowestRun g.shape g.tagSlots (s.launches.get g.launch {}) c = some fs →
                (s.launches.get g.launch {}).image ≠ none → s.clusterEmpty c = false → ∃ t, exec (.mgmtSwap q gid (some c)) s = .next t
                  ∧ t.groups.look gid
                      = some { g with cluster := c, firsts := fs, swapped := false, savedAllocs := [], savedThreads := [] }))
        ∧ (∀ (node : Nat) (desc : Word) (u : State),
            (64 ≤ node → turns (.mgmtArmNode q node desc) 6 5)
            ∧ (node < 64 → (s.nodes.get node {}).state = .armed → turns (.mgmtArmNode q node desc) 6 6)
            ∧ (node < 64 → (s.nodes.get node {}).state ≠ .armed → s.arm node vi.toNat desc.toNat = some u → grants (.mgmtArmNode q node desc) u 6 []
                ∧ (u.nodes.get node {}).state = .armed ∧ (u.nodes.get node {}).desc = desc.toNat ∧ (u.nodes.get node {}).next = 0))
        ∧ (∀ n, (1000 ≤ n ∧ n ≤ 10 ^ 9 → grants (.mgmtHold q n) { s with holdNanos := n } 7 [])
            ∧ (n < 1000 ∨ 10 ^ 9 < n → turns (.mgmtHold q n) 7 5))
        ∧ (∀ n, (1 ≤ n → n ≤ 65535 → ∃ t, exec (.mgmtThreshold q n) s = .next t ∧ t.mgmt = { s.mgmt with threshold := n } ∧ SameBytes s t)
            ∧ (n = 0 ∨ 65535 < n → turns (.mgmtThreshold q n) 8 5))
        ∧ (∀ x : Word, grants (.mgmtCap q .mcap none) s 9 (bytesOf 8 s.power.mcap)
            ∧ (x.toNat < 2 ^ 16 → grants (.mgmtCap q .mcap (some x)) { s with power := { s.power with mcap := Nat.min x.toNat 3200 } } 9 [])
            ∧ (2 ^ 16 ≤ x.toNat → turns (.mgmtCap q .mcap (some x)) 9 5)
            ∧ ∀ k p, s.parts.look k = some p →
                grants (.mgmtCap q (.pcap k) none) s 9 (bytesOf 8 (p.cap + p.rank * 2 ^ 48))
                ∧ (x.toNat / 2 ^ 16 % 2 ^ 32 = 0 → x.toNat < 2 ^ 51 → grants (.mgmtCap q (.pcap k) (some x))
                    { s with parts := s.parts.set k { p with cap := x.toNat % 2 ^ 16, rank := x.toNat / 2 ^ 48 } } 9 [])
                ∧ grants (.mgmtCap q (.pthr k) none) s 9 (bytesOf 8 (s.pthr k p)) ∧ turns (.mgmtCap q (.pthr k) (some x)) 9 5)
        ∧ (∀ f, f < 768 * 2 ^ 30 / 4096 →
            (f ∉ s.pool → grants (.mgmtPool q true f) { s with pool := s.pool ++ [f] } 10 [] ∧ turns (.mgmtPool q false f) 10 5)
            ∧ (f ∈ s.pool → grants (.mgmtPool q false f) { s with pool := s.pool.erase f } 10 [] ∧ turns (.mgmtPool q true f) 10 5))
        ∧ (∀ nonce, (nonce.length ≠ 32 → turns (.mgmtAttest q nonce) 11 5)
            ∧ (nonce.length = 32 → ∃ t data, answers (.mgmtAttest q nonce) 11 data t ∧ (data.drop 8).take 32 = nonce ∧ data.length = 0x1B8 + 96 + 1740
                ∧ t = { s with ksl := t.ksl, sec := t.sec }
                ∧ (s.sec.reports + 1 < 2 ^ 20 → t.sec = { s.sec with reports := s.sec.reports + 1 })
                ∧ (s.sec.reports + 1 = 2 ^ 20 → t.sec = { s.sec with
                    reports := 0, attKey := s.sec.attKey + 1, attCert := some (attestationCert (s.sec.attKey + 1)) })))
        ∧ ∀ v env, (v < 64 → envOk env = true →
              grants (.mgmtLaunchEnvironment q v env) { s with vis := s.vis.set v { s.vis.get v {} with env := env } } 13 [])
            ∧ (64 ≤ v ∨ envOk env = false → turns (.mgmtLaunchEnvironment q v env) 13 5))

/-- 20 R430 to R433, R436, R437, 19 R406, R407, R412, R413: a cap frame sets the limit and sheds partitions by rank; at an estimate the
ranks of PCAP take effect, and it steps a partition over its cap, and releases undo the last step; alarms lower clocks, the map's with them,
and issue; errors are counted, poison memory or post UNCORR; a new version of the resource map is written and delivered; and boot measures
and runs accepted images. The estimates and the rest of the throttle's order are the model's own (assumptions 6, 38 and 39), as are the
map's clocks under a thermal alarm (81), the 250 MHz step of that alarm with its floor and its undoing (37), the places of the views (51),
whom UNCORR is posted to (75), that a change applies at its publication (61), and which measurement register a stage extends (36). -/
def Obligations.PowerAndErrors : Prop :=
  ∀ s : State,
    let partOf := fun h : Nat => (s.launches.get (s.groups.get (s.getTh h).group {}).launch {}).part
    let resident := fun h : Nat => (s.getTh h).status ≠ .absent
    (∀ b : List Byte,
      let i := Instr.capFrame b
      let n := field b 4 4
      let shed := field b 12 1
      (capFrameOk b = false → exec i s = .next { s with mgmt := { s.mgmt with ignored := s.mgmt.ignored + 1 } })
      ∧ (∀ m, capFrameOk b = true → s.mgmt.capSeq = some m → n ≤ m → exec i s = .next s)
      ∧ (capFrameOk b = true → (∀ m, s.mgmt.capSeq = some m → m < n) → (s.parts.map (·.1)).Pairwise (· < ·) →
          ∃ t, exec i s = .next t ∧ t.mgmt = { s.mgmt with capSeq := some n } ∧ t.power = { s.power with limit := field b 8 4, shed := shed }
            ∧ SameBytes s t
            ∧ ∀ k p, s.parts.look k = some p →
                let on := shed ≠ 0xFF ∧ p.rankNow ≤ shed
                t.parts.look k = some { p with shed := decide on }
                ∧ ∀ h, resident h → partOf h = k →
                    t.getTh h = (if on then { s.getTh h with spend := (s.getTh h).spend ||| 32, shed := shed } else s.getTh h)))
    ∧ (let u : State := { s with
         power := { s.power with estimates := s.power.estimates + 1 }
         parts := s.parts.map fun p => (p.1, { p.2 with rankNow := p.2.rank }) }
       ((∀ k p, (k, p) ∈ s.parts → p.cap = 0 ∨ u.partPower k ≤ p.cap) → u.modulePower ≤ u.moduleLimit → exec .powerEstimate s = .next u)
       ∧ ∀ k p, s.parts.look k = some p → p.cap ≠ 0 → p.cap < u.partPower k → p.steps < 10 →
           ∃ t, exec .powerEstimate s = .next t ∧ p.steps < (t.parts.get k {}).steps ∧ SameBytes s t
             ∧ (t.parts.get k {}).rankNow = p.rank ∧ (t.parts.get k {}).rank = p.rank)
    ∧ (s.power.history = [] → exec .throttleRelease s = .next s)
    ∧ (s.powerLow = false → exec .throttleRelease s = .next s)
    ∧ (∀ l k c, s.power.history = l ++ [(k, c)] → s.powerLow = true →
        let p := s.parts.get k {}
        ∃ t, exec .throttleRelease s = .next t ∧ t.power.history = l ∧ t.th = s.th ∧ t.others = s.others ∧ SameBytes s t
          ∧ (c = 4 → t.power.thermal.get k 0 = s.power.thermal.get k 0 - 250 ∧ t.parts = s.parts)
          ∧ (c = 5 → t.parts.get k {} = { p with alarm := false })
          ∧ (c ≠ 4 → c ≠ 5 → t.parts.get k {} = { p with steps := p.steps - 1 }))
    ∧ (∀ die,
        let low := s.power.thermal.get die 0
        (8 ≤ die ∨ 1500 ≤ low → exec (.thermalAlarm die) s = .next s)
        ∧ (die < 8 → low < 1500 → ∃ t, exec (.thermalAlarm die) s = .next t ∧ SameBytes s t
            ∧ t.power = { s.power with thermal := s.power.thermal.set die (low + 250), history := s.power.history ++ [(die, 4)] }
            ∧ t.rmap.pending = true ∧ (∀ c < 40, t.rmap.clk.get c 2500
                = if dieOf (coreAt c 0) = die then Nat.max 1000 (2500 - (low + 250)) else s.rmap.clk.get c 2500)
            ∧ ∀ h, t.getTh h = { s.getTh h with
                thrcause := if resident h ∧ partOf h ∈ s.partsOnDie die then 4 else (s.getTh h).thrcause }))
    ∧ (∀ k,
        (s.parts.look k = none → exec (.currentAlarm k) s = .next s)
        ∧ ∀ p, s.parts.look k = some p →
            (p.alarm = true → exec (.currentAlarm k) s = .next s)
            ∧ (p.alarm = false → ∃ t, exec (.currentAlarm k) s = .next t ∧ SameBytes s t
                ∧ t.parts.look k = some { p with alarm := true, cause := 5 } ∧ t.power.history = s.power.history ++ [(k, 5)]
                ∧ ∀ h, t.getTh h = { s.getTh h with
                    thrcause := if resident h ∧ partOf h = k then 5 else (s.getTh h).thrcause }))
    ∧ (∀ x : UnitRef, ∃ t, exec (.correctedError x) s = .next t ∧ SameBytes s t ∧ t.errorsOf x = s.errorsOf x + 1
        ∧ (∀ y, y ≠ x → t.errorsOf y = s.errorsOf y)
        ∧ (s.errorsOf x + 1 < s.mgmt.threshold → t.rmap.waiting = s.rmap.waiting ∧ t.th = s.th ∧ t.others = s.others)
        ∧ (s.mgmt.threshold ≤ s.errorsOf x + 1 → x ∉ s.rmap.waiting → x ∉ s.rmap.withdrawn → (∀ n lg, x ≠ .laneGroup n lg) →
            t.rmap.waiting = s.rmap.waiting ++ [x]))
    ∧ (∀ k, (8 * k + 8 ≤ 768 * 2 ^ 30 → ∃ t, exec (.uncorrectableError (.devicePiece k)) s = .next t ∧ SameBytes s t
          ∧ t.poisonedLoc (.dev (8 * k)) 8 = true ∧ t = { s with dramPoison := t.dramPoison })
        ∧ (768 * 2 ^ 30 < 8 * k + 8 → exec (.uncorrectableError (.devicePiece k)) s = .next s))
    ∧ (∀ g c k, (8 * k + 8 ≤ (s.alloc c g).size → ∃ t, exec (.uncorrectableError (.tilePiece g c k)) s = .next t ∧ SameBytes s t
          ∧ t.poisonedLoc (.tile c g (8 * k)) 8 = true ∧ t.th = s.th)
        ∧ ((s.alloc c g).size < 8 * k + 8 → exec (.uncorrectableError (.tilePiece g c k)) s = .next s))
    ∧ (let posted := fun (i : LostState) (h n : Nat) => ∃ t, exec (.uncorrectableError i) s = .next t ∧ OthersKept s t h
          ∧ t.getTh h = { s.getTh h with spend := (s.getTh h).spend ||| 16, uncorrs := (s.getTh h).uncorrs ++ [n] } ∧ SameBytes s t
       ∀ h, resident h → posted (.scalarRegs h) h 1 ∧ posted (.vectorRegs h) h 2 ∧ posted (.latticeEntries h) h 6 ∧ posted (.contextMove h) h 7
         ∧ (∀ c q k, (s.queue c q).prod = some (h, k) → (s.queue c q).cons = none → posted (.queueEntries c q) h 3)
         ∧ (∀ n a, (s.units.get n {}).even = some a → (s.units.get n {}).odd = none → a.h = h → posted (.accumulators n) h 4)
         ∧ ∀ c o, c < 40 → o < 8 → h / 4 = coreAt c o → ∃ t, exec (.uncorrectableError (.codeLines c)) s = .next t
             ∧ t.getTh h = { s.getTh h with spend := (s.getTh h).spend ||| 16, uncorrs := (s.getTh h).uncorrs ++ [5] })
    ∧ (s.rmap.pending = false → s.rmap.waiting = [] → exec .resourceMapPublish s = .next s)
    ∧ (s.rmap.pending = true → s.rmap.waiting = [] → s.rmap.ver + 1 < 2 ^ 32 → s.threadIds.Nodup → ∃ t, exec .resourceMapPublish s = .next t
        ∧ t.rmap = { s.rmap with ver := s.rmap.ver + 1, sel := !s.rmap.sel, pending := false }
        ∧ (∀ h, resident h → t.getTh h = { s.getTh h with
            rmvCur := s.rmap.ver + 1, spend := (s.getTh h).spend ||| 4
            rmLeft := if (s.getTh h).rmvAck = (s.getTh h).rmvCur then (s.getTh h).rmAllow else (s.getTh h).rmLeft })
        ∧ ∀ k p, s.parts = [(k, p)] → k < 8 → s.migrations = [] → s.wf = true →
            t.bytesAt (.dev (viewBase k)) 8 = 0x4D524B4A + 2 ^ 32 + k * 2 ^ 48
            ∧ t.bytesAt (.dev (viewBase k + 8)) 8 = s.rmap.ver + 1 + (!s.rmap.sel).toNat * 2 ^ 32
            ∧ t.bytesAt (.dev (viewBase k + 16)) 8 = 0x31E0)
    ∧ (∀ m, s.rmap.waiting = [.matrixUnit m] → s.rmap.ver + 1 < 2 ^ 32 → ∃ t, exec .resourceMapPublish s = .next t ∧ t.rmap.waiting = []
        ∧ t.rmap.ver = s.rmap.ver + 1 ∧ t.rmap.deadUnits = s.rmap.deadUnits ++ [m] ∧ t.rmap.withdrawn = s.rmap.withdrawn ++ [.matrixUnit m])
    ∧ (s.sec.phase ≠ .reset → exec .boot s = .next s)
    ∧ (s.sec.phase = .reset →
        (s.sec.flash = [] → ∃ t, exec .boot s = .next t ∧ t.sec.phase = .recovery ∧ t.rmap = s.rmap)
        ∧ ∀ b r, s.sec.flash = b :: r →
            let accepted := fun b => Config.ecdsaVerifies b = true ∧ Config.lmsVerifies b = true ∧ Config.fusedCounter ≤ Config.imageVersion b
            (¬ accepted b → ∃ t, exec .boot s = .next t ∧ t.sec.phase = .recovery ∧ t.rmap = s.rmap ∧ t.sec.measure = s.sec.measure)
            ∧ (accepted b → r = [] → ∃ t, exec .boot s = .next t ∧ t.sec.phase = .running ∧ t.rmap = { s.rmap with ver := 1 }
                ∧ t.sec.version = Config.imageVersion b ∧ t.sec.keys = Config.identityKeys
                ∧ t.sec.identity = some identityCert ∧ t.sec.attCert = some (attestationCert s.sec.attKey)
                ∧ t.sec.measure[0] = Config.sha384 (bytesOf 48 s.sec.measure[0].toNat ++ bytesOf 48 (Config.sha384 b).toNat)
                ∧ (∀ k : Fin 8, k ≠ 0 → t.sec.measure[k] = s.sec.measure[k]) ∧ t = { s with sec := t.sec, rmap := t.rmap }))

/-! ## The step, the encoding and the reset -/

/-- 02 R46 to R57, 09 R251 to R255, R262: in a thread's turn the words at the program counter are fetched, and the member at which the
convoy stands is executed: member 0 of a new convoy, the recorded member of one that resumes (09 R257), the next member of one in progress,
and then the retirement. An entry of the agenda goes first, and thread and device take turns (assumption 3), with an entry that is no device
step dropped (78); each convoy member is a step (8), and a cut stops an instruction within itself (10); in the device's turn a step that is
due is performed, after the host's own next change of its memory (9), and where none changes anything the state stays. A read that the
schedule has chosen to be late (assumption 94) reads the bytes from before the stores of a chain that no edge orders before it, and after
any other access, or any instruction that acquires, none is late. A first word outside the windows takes CODEWIN, one above the level PRIV,
one that is no instruction ILLEGAL. -/
def Obligations.StepRunsDecodedInstruction : Prop :=
  ∀ s : State,
    (∀ i r, s.agenda = i :: r →
      step s = if deviceStep i then exec i { s with agenda := r } else .next { s with agenda := r })
    ∧ (s.agenda = [] → s.turn = .thread → s.th.boundary = true → s.th.asyncReady = true →
        step s = exec (.takeAsyncCause s.cur) { s with turn := .engine })
    ∧ (s.agenda = [] → s.turn = .thread → s.th.boundary = true ∨ s.th.breaking = true → ¬ (s.th.boundary = true ∧ s.th.asyncReady = true) →
        s.th.finishPending = true → step s = exec (.chainFinish s.cur) { s with turn := .engine })
    ∧ (s.agenda = [] → s.turn = .thread → s.th.status = .issuing → (s.th.asyncReady = false ∧ s.th.finishPending = false) →
        let runs := fun (u : State) (i : Instr) =>
          let goes := fun v : State =>
            (s.lag = false ∨ lateReader i = false → step s = exec i (v.caughtUp i))
            ∧ (s.lag = true → lateReader i = true → step s = v.afterLate (exec i v.stale))
            ∧ (s.th.unseen = [] → s.th.fills = [] → v.caughtUp i = v)
            ∧ (∃ f, v.caughtUp i = v ∨ v.caughtUp i = v.upd fun t => { t with unseen := [], fills := f })
            ∧ (deviceStep i = false → quiet i v.word.toNat = false → (v.caughtUp i).th.unseen = [])
          (s.cut = none → goes u)
          ∧ ∀ c, s.cut = some c →
              (∀ t, ({ u with cut := none } : State).stopWithin c i = some t → step s = .next t)
              ∧ (({ u with cut := none } : State).stopWithin c i = none → goes { u with cut := none })
        (∀ (ws : List W32) (is : List Instr) (m e0 : Nat), ws.length = is.length → m < ws.length → ws.length ≤ 4 →
          ((s.th.cv = none ∧ m = 0 ∧ e0 = s.th.estart) ∨ ∃ c, s.th.cv = some c ∧ c.resumed = true ∧ m = c.idx ∧ e0 = c.e0) →
          (∀ k w i, ws[k]? = some w → is[k]? = some i →
            let off := s.th.pc.toNat + 4 * k
            s.codeWord s.core off = w ∧ s.inWindow s.th.level s.core off = true ∧ wordPriv s.th.level w.toNat = false
              ∧ decode w = .ok i ∧ joined w.toNat = decide (k + 1 < ws.length)
              ∧ (1 < ws.length → convoyEligible w.toNat = true)
              ∧ (convoyEligible w.toNat = true → m = 0 → memberReady s.ectx (s.hasFeat 1) e0 i = true)) →
          s.runHolds = false →
          ∀ w i, ws[m]? = some w → is[m]? = some i →
            runs { s with turn := .engine, th := { s.th with cv := if convoyEligible w.toNat then s.th.cv else none } } i)
        ∧ (∀ c i, s.th.cv = some c → c.resumed = false → c.last = false → decode s.word = .ok i →
            runs { s with turn := .engine } i)
        ∧ (∀ c, s.th.cv = some c → c.resumed = false → c.last = true →
            step s = exec (.convoyRetire s.cur) { s with turn := .engine })
        ∧ (let w := s.codeWord s.core s.th.pc.toNat
           let visible := s.inWindow s.th.level s.core s.th.pc.toNat
           let traps := fun cause tval => ∃ t, step s = .next t ∧ Entered { s with turn := .engine } t (s.taker cause)
             { cause := cause, tval := tval, epc := some s.th.pc, fpc := some s.th.pc, fresh := true }
           (s.th.cv = none → s.canTake (s.taker 5) → visible = false → traps 5 s.th.pc)
           ∧ (s.th.cv = none → s.canTake (s.taker 3) → visible = true → joined w.toNat = false → wordPriv s.th.level w.toNat = true →
               traps 3 (w.setWidth 64))
           ∧ (s.th.cv = none → s.canTake (s.taker 2) → visible = true → joined w.toNat = false → wordPriv s.th.level w.toNat = false →
               (∀ i, decode w ≠ .ok i) → traps 2 (w.setWidth 64))))
    ∧ (s.agenda = [] → s.turn = .engine →
        let u := ({ s with turn := .thread } : State).takeNews.flushLinks.pickNext
        ((∀ j ∈ u.internalSteps, exec j u = .next u) → step s = .next u)
        ∧ (∀ i t, i ∈ u.internalSteps → exec i u = .next t → t ≠ u → (∀ j ∈ u.internalSteps, j ≠ i → exec j u = .next u) →
            step s = .next { t with rot := u.rot + 1 }))

/-- 02 R46, R47, R55: words that the manual writes out decode to the instructions that it writes beside them (04 R104, 08, 09 R255, 10, 12,
14 to 16, 18). -/
def Obligations.DecodeWords : Prop :=
  decode 0x12344509 = .ok (.lih 5 0x91A2) ∧ decode 0x59E0A502 = .ok (.addi 5 5 0x1678)
  ∧ decode 0x1818A1C1 = .ok (.vlds 1 5 6 0 0 3 0 1) ∧ decode 0x4C504322 = .ok (.vclmulScalar 3 2 20 0 0)
  ∧ decode 0xFFC41D0E = .ok (.bne 29 0 0x3FF1) ∧ decode 0x198022AC = .ok (.vconf 2 1 3 1)
  ∧ decode 0x0441AE20 = .ok (.setvl 14 13 16 1) ∧ decode 0xC018C44A = .ok (.vamoWAdd 4 6 6 0 3)
  ∧ decode 0x38690B1E = .ok (.amoAdd 11 8 26 1 3) ∧ decode 0xB0350C4C = .ok (.vwait 12 8 13 0 1 5)
  ∧ decode 0x00E5A160 = .ok (.schOut 1 13 25) ∧ decode 0x04028767 = .ok (.rfree 7 20 0)
  ∧ decode 0x00900073 = .ok (.fence 4 1) ∧ decode 0x00250075 = .ok (.crwr 0 8 9)
  ∧ decode 0x0055E056 = .ok (.mopq 0 15 21 0) ∧ decode 0x00EAC068 = .ok (.chcfg 22 26 1)

/-- 02 R46, R47, R55: every well-formed instruction that is no step of the device has a word, and its word decodes to that instruction, whatever
its operands. -/
def Obligations.EncodeDecode : Prop :=
  ∀ i : Instr, i.wellFormed = true →
    (deviceStep i = false → ∃ w, encode i = some w ∧ decode w = .ok i) ∧ ∀ w, encode i = some w → decode w = .ok i

/-- Every step keeps every byte memory of the module in its canonical form. -/
def Obligations.MemoryStaysCanonical : Prop :=
  ∀ s t : State, s.wf = true → step s = .next t → t.wf = true

/-- What reset leaves: 01 R23 and 19 R378, R382 (the registers as at thread start, which the model takes for reset too, assumption 5),
07 R215, 13 R315, 15 R337, R343, 17 R365, 19 R406 and 20 R433; memory reads as zero (assumption 1) and is canonical, and nothing is
resident. -/
def Obligations.ResetState : Prop :=
  let s := State.reset
  s.wf = true
  ∧ (∀ h, let t := s.getTh h
      t.status = .absent ∧ t.vl = 0 ∧ t.ew = 2 ∧ t.vlmax = 0 ∧ t.vrlen = 0 ∧ t.estart = 0 ∧ t.fmask = 0 ∧ t.fflags = 0 ∧ t.frm = 0
      ∧ t.srseed = 1 ∧ t.qthr = 0x7F800000 ∧ t.mvl = 64 ∧ t.mgrant = 0 ∧ t.mprog = 0 ∧ t.thrcause = 0 ∧ t.hwfail = 0 ∧ t.tkcur = 0
      ∧ t.emvec = 0 ∧ t.empc = 0 ∧ t.eminst = 0 ∧ t.em = false ∧ (∀ k, t.cdim.get k 0 = 0)
      ∧ (∀ l, let r := t.regs l
          r.cause = 0 ∧ r.epc = 0 ∧ r.fpc = 0 ∧ r.tval = 0 ∧ r.info = 0 ∧ r.scratch = 0 ∧ r.aie = false ∧ r.paie = false ∧ r.tih = false)
      ∧ t.spend = 0 ∧ t.slots = [])
  ∧ (∀ c, (s.getCluster c).stealctl = 3 ∧ (s.getCluster c).obj = 0 ∧ (s.getCluster c).lerrV = false ∧ (s.getCluster c).lerrAddr = 0)
  ∧ (∀ c, (s.getCore c).stealGen = c + 1 ∧ (s.getCore c).deque = [] ∧ ∀ o, ((s.getCore c).channels.get o {}).owner = none)
  ∧ (∀ n, (s.nodes.get n {}).state = .idle)
  ∧ s.holdNanos = 1000000 ∧ s.mgmt.threshold = 16 ∧ s.mgmt.managing = 0 ∧ s.power.mcap = 3200
  ∧ (∀ p, (s.parts.get p {}).cap = 0 ∧ (s.parts.get p {}).rank = 0)
  ∧ (∀ l : Loc, s.readLoc l 1 = 0)
end

