-- ==== Sys2Proof/Laws/Memory.lean ====
section
/-! SUPPORT. The laws of byte memories: a read after a write, what a write leaves, and that every memory operation keeps the canonical
form. -/
namespace Sys2Proof.Machine

/-! ## One byte -/

theorem Memory.read_low (m : Memory) (lo a : Nat) (h : Memory.wfFrom lo m = true) (ha : a < lo) : m.read a = Memory.fill := by
  induction m generalizing lo with
  | nil => rfl
  | cons p r ih =>
    obtain ⟨k, b⟩ := p
    simp only [Memory.wfFrom, Bool.and_eq_true, decide_eq_true_eq] at h
    simp only [Memory.read]
    rw [if_neg (by omega)]
    exact ih (k + 1) h.2 (by omega)

theorem Memory.read_insert (m : Memory) (a j : Nat) (b : Byte) : (m.insert a b).read j = if j = a then b else m.read j := by
  induction m with
  | nil => simp only [Memory.insert, Memory.read, eq_comm]
  | cons p r ih =>
    obtain ⟨k, c⟩ := p
    simp only [Memory.insert]
    split
    · simp only [Memory.read, eq_comm]
    · split
      · rename_i h2; subst h2; simp only [Memory.read]
        by_cases h : j = k
        · rw [if_pos h.symm, if_pos h]
        · rw [if_neg (fun e => h e.symm), if_neg h, if_neg (fun e => h e.symm)]
      · simp only [Memory.read, ih]
        by_cases h : k = j
        · subst h; simp; omega
        · simp [h]

theorem Memory.read_erase (m : Memory) (lo a j : Nat) (h : Memory.wfFrom lo m = true) :
    (m.erase a).read j = if j = a then Memory.fill else m.read j := by
  induction m generalizing lo with
  | nil => simp [Memory.erase, Memory.read]
  | cons p r ih =>
    obtain ⟨k, c⟩ := p
    have h2 := h
    simp only [Memory.wfFrom, Bool.and_eq_true, decide_eq_true_eq] at h2
    simp only [Memory.erase]
    split
    · rename_i e; subst e
      by_cases hj : j = k
      · subst hj; simpa using Memory.read_low r (j + 1) j h2.2 (by omega)
      · simp only [if_neg hj, Memory.read]; rw [if_neg (fun x => hj x.symm)]
    · simp only [Memory.read, ih (k + 1) h2.2]
      by_cases hk : k = j
      · subst hk; simp; omega
      · simp [hk]

/-- A read after a write of one byte of a canonical memory. -/
theorem Memory.read_write (m : Memory) (a j : Nat) (b : Byte) (h : m.wf = true) :
    (m.write a b).read j = if j = a then b else m.read j := by
  unfold Memory.write
  split
  · rename_i e; rw [Memory.read_erase m 0 a j h, e]
  · exact Memory.read_insert m a j b

theorem Memory.wf_erase (m : Memory) (lo a : Nat) (h : Memory.wfFrom lo m = true) : Memory.wfFrom lo (m.erase a) = true := by
  induction m generalizing lo with
  | nil => rfl
  | cons p r ih =>
    obtain ⟨k, c⟩ := p
    simp only [Memory.wfFrom, Bool.and_eq_true, decide_eq_true_eq] at h
    simp only [Memory.erase]
    split
    · rename_i e; subst e
      revert h; generalize hk : k + 1 = n; intro h
      have : ∀ (m : Memory) (n lo : Nat), lo ≤ n → Memory.wfFrom n m = true → Memory.wfFrom lo m = true := by
        intro m n lo hle hm
        cases m with
        | nil => rfl
        | cons q t =>
          obtain ⟨i, d⟩ := q
          simp only [Memory.wfFrom, Bool.and_eq_true, decide_eq_true_eq] at hm ⊢
          exact ⟨⟨by omega, hm.1.2⟩, hm.2⟩
      exact this r n lo (by omega) h.2
    · simp only [Memory.wfFrom, Bool.and_eq_true, decide_eq_true_eq]
      exact ⟨h.1, ih (k + 1) h.2⟩

theorem Memory.wf_insert (m : Memory) (lo a : Nat) (b : Byte) (hb : b ≠ Memory.fill) (hlo : lo ≤ a)
    (h : Memory.wfFrom lo m = true) : Memory.wfFrom lo (m.insert a b) = true := by
  induction m generalizing lo with
  | nil => simp [Memory.insert, Memory.wfFrom, hb, hlo]
  | cons p r ih =>
    obtain ⟨k, c⟩ := p
    simp only [Memory.wfFrom, Bool.and_eq_true, decide_eq_true_eq] at h
    simp only [Memory.insert]
    split
    · simp only [Memory.wfFrom, Bool.and_eq_true, decide_eq_true_eq]
      exact ⟨⟨hlo, by simpa using hb⟩, ⟨by omega, h.1.2⟩, h.2⟩
    · split
      · rename_i e; subst e
        simp only [Memory.wfFrom, Bool.and_eq_true, decide_eq_true_eq]
        exact ⟨⟨hlo, by simpa using hb⟩, h.2⟩
      · simp only [Memory.wfFrom, Bool.and_eq_true, decide_eq_true_eq]
        exact ⟨h.1, ih (k + 1) (by omega) h.2⟩

/-- A write keeps the canonical form. -/
theorem Memory.wf_write (m : Memory) (a : Nat) (b : Byte) (h : m.wf = true) : (m.write a b).wf = true := by
  unfold Memory.write
  split
  · exact Memory.wf_erase m 0 a h
  · rename_i e; exact Memory.wf_insert m 0 a b e (Nat.zero_le _) h

/-! ## Several bytes -/

/-- A store keeps the canonical form. -/
theorem Memory.wf_store (n : Nat) (m : Memory) (a x : Nat) (h : m.wf = true) : (m.store a n x).wf = true := by
  induction n generalizing m a x with
  | zero => exact h
  | succ n ih => exact ih (m.write a (BitVec.ofNat 8 x)) (a + 1) (x / 256) (Memory.wf_write m a _ h)

/-- The byte at an address after a store: one of the stored bytes, or what was there before. -/
theorem Memory.read_store (n : Nat) (m : Memory) (a x j : Nat) (h : m.wf = true) :
    (m.store a n x).read j = if a ≤ j ∧ j < a + n then BitVec.ofNat 8 (x / 256 ^ (j - a)) else m.read j := by
  induction n generalizing m a x with
  | zero => simp [Memory.store]
  | succ n ih =>
    simp only [Memory.store]
    rw [ih _ _ _ (Memory.wf_write m a _ h), Memory.read_write m a j _ h]
    by_cases h1 : j = a
    · subst h1; rw [if_neg (by omega), if_pos rfl, if_pos (by omega)]; simp
    · by_cases h2 : a + 1 ≤ j ∧ j < a + 1 + n
      · rw [if_pos h2, if_pos (by omega), Nat.div_div_eq_div_mul, show j - a = (j - (a + 1)) + 1 by omega, Nat.pow_succ']
      · rw [if_neg h2, if_neg h1, if_neg (by omega)]

@[simp] theorem Memory.load_one (m : Memory) (a : Nat) : m.load a 1 = (m.read a).toNat := by simp [Memory.load]

end Sys2Proof.Machine
end

