-- ==== Sys2Proof/Laws/State.lean ====
section
/-! SUPPORT. What each update of the state leaves: one lemma for each field and update, and the tables. -/
namespace Sys2Proof.Machine

/-! ## Tables -/

@[simp] theorem SMap.look_set_same {α : Type} (m : SMap α) (k : Nat) (a : α) : (SMap.set m k a).look k = some a := by
  induction m with
  | nil => simp [SMap.set, SMap.look]
  | cons p r ih =>
    obtain ⟨j, b⟩ := p
    simp only [SMap.set]
    split
    · simp [SMap.look]
    · split
      · simp [SMap.look]
      · simp [SMap.look, *]

theorem SMap.look_set_ne {α : Type} (m : SMap α) (k j : Nat) (a : α) (h : j ≠ k) : (SMap.set m k a).look j = m.look j := by
  induction m with
  | nil => simp [SMap.set, SMap.look]; omega
  | cons p r ih =>
    obtain ⟨i, b⟩ := p
    simp only [SMap.set]
    split
    · simp only [SMap.look]; rw [if_neg (by omega)]
    · split
      · rename_i h2; subst h2; simp only [SMap.look]; rw [if_neg (by omega), if_neg (by omega)]
      · simp only [SMap.look]; split
        · rfl
        · exact ih

@[simp] theorem SMap.get_set_same {α : Type} (m : SMap α) (k : Nat) (a d : α) : (SMap.set m k a).get k d = a := by
  simp [SMap.get]
theorem SMap.get_set_ne {α : Type} (m : SMap α) (k j : Nat) (a d : α) (h : j ≠ k) : (SMap.set m k a).get j d = m.get j d := by
  simp [SMap.get, SMap.look_set_ne m k j a h]

/-! ## Fields of the state after each update -/

@[simp] theorem State.upd_cur (s : State) (f : Thread → Thread) : (s.upd f).cur = s.cur := rfl
@[simp] theorem State.upd_others (s : State) (f : Thread → Thread) : (s.upd f).others = s.others := rfl
@[simp] theorem State.upd_cores (s : State) (f : Thread → Thread) : (s.upd f).cores = s.cores := rfl
@[simp] theorem State.upd_units (s : State) (f : Thread → Thread) : (s.upd f).units = s.units := rfl
@[simp] theorem State.upd_clusters (s : State) (f : Thread → Thread) : (s.upd f).clusters = s.clusters := rfl
@[simp] theorem State.upd_dram (s : State) (f : Thread → Thread) : (s.upd f).dram = s.dram := rfl
@[simp] theorem State.upd_dramPoison (s : State) (f : Thread → Thread) : (s.upd f).dramPoison = s.dramPoison := rfl
@[simp] theorem State.upd_host (s : State) (f : Thread → Thread) : (s.upd f).host = s.host := rfl
@[simp] theorem State.upd_hostPoison (s : State) (f : Thread → Thread) : (s.upd f).hostPoison = s.hostPoison := rfl
@[simp] theorem State.upd_tags (s : State) (f : Thread → Thread) : (s.upd f).tags = s.tags := rfl
@[simp] theorem State.upd_groups (s : State) (f : Thread → Thread) : (s.upd f).groups = s.groups := rfl
@[simp] theorem State.upd_launches (s : State) (f : Thread → Thread) : (s.upd f).launches = s.launches := rfl
@[simp] theorem State.upd_parts (s : State) (f : Thread → Thread) : (s.upd f).parts = s.parts := rfl
@[simp] theorem State.upd_vis (s : State) (f : Thread → Thread) : (s.upd f).vis = s.vis := rfl
@[simp] theorem State.upd_nextLaunch (s : State) (f : Thread → Thread) : (s.upd f).nextLaunch = s.nextLaunch := rfl
@[simp] theorem State.upd_nextGroup (s : State) (f : Thread → Thread) : (s.upd f).nextGroup = s.nextGroup := rfl
@[simp] theorem State.upd_migrations (s : State) (f : Thread → Thread) : (s.upd f).migrations = s.migrations := rfl
@[simp] theorem State.upd_migRequests (s : State) (f : Thread → Thread) : (s.upd f).migRequests = s.migRequests := rfl
@[simp] theorem State.upd_pool (s : State) (f : Thread → Thread) : (s.upd f).pool = s.pool := rfl
@[simp] theorem State.upd_holdNanos (s : State) (f : Thread → Thread) : (s.upd f).holdNanos = s.holdNanos := rfl
@[simp] theorem State.upd_nodes (s : State) (f : Thread → Thread) : (s.upd f).nodes = s.nodes := rfl
@[simp] theorem State.upd_ksl (s : State) (f : Thread → Thread) : (s.upd f).ksl = s.ksl := rfl
@[simp] theorem State.upd_peers (s : State) (f : Thread → Thread) : (s.upd f).peers = s.peers := rfl
@[simp] theorem State.upd_links (s : State) (f : Thread → Thread) : (s.upd f).links = s.links := rfl
@[simp] theorem State.upd_outstanding (s : State) (f : Thread → Thread) : (s.upd f).outstanding = s.outstanding := rfl
@[simp] theorem State.upd_answers (s : State) (f : Thread → Thread) : (s.upd f).answers = s.answers := rfl
@[simp] theorem State.upd_nextTag (s : State) (f : Thread → Thread) : (s.upd f).nextTag = s.nextTag := rfl
@[simp] theorem State.upd_mgmt (s : State) (f : Thread → Thread) : (s.upd f).mgmt = s.mgmt := rfl
@[simp] theorem State.upd_power (s : State) (f : Thread → Thread) : (s.upd f).power = s.power := rfl
@[simp] theorem State.upd_rmap (s : State) (f : Thread → Thread) : (s.upd f).rmap = s.rmap := rfl
@[simp] theorem State.upd_sec (s : State) (f : Thread → Thread) : (s.upd f).sec = s.sec := rfl
@[simp] theorem State.upd_agenda (s : State) (f : Thread → Thread) : (s.upd f).agenda = s.agenda := rfl
@[simp] theorem State.upd_turn (s : State) (f : Thread → Thread) : (s.upd f).turn = s.turn := rfl
@[simp] theorem State.upd_cut (s : State) (f : Thread → Thread) : (s.upd f).cut = s.cut := rfl
@[simp] theorem State.upd_lag (s : State) (f : Thread → Thread) : (s.upd f).lag = s.lag := rfl
@[simp] theorem State.upd_older (s : State) (f : Thread → Thread) : (s.upd f).older = s.older := rfl
@[simp] theorem State.upd_hostNews (s : State) (f : Thread → Thread) : (s.upd f).hostNews = s.hostNews := rfl
@[simp] theorem State.upd_slow (s : State) (f : Thread → Thread) : (s.upd f).slow = s.slow := rfl
@[simp] theorem State.upd_ahead (s : State) (f : Thread → Thread) : (s.upd f).ahead = s.ahead := rfl
@[simp] theorem State.upd_rot (s : State) (f : Thread → Thread) : (s.upd f).rot = s.rot := rfl
@[simp] theorem State.upd_free (s : State) (f : Thread → Thread) : (s.upd f).free = s.free := rfl

@[simp] theorem State.upd_th (s : State) (f : Thread → Thread) : (s.upd f).th = f s.th := rfl
@[simp] theorem State.setTh_cur (s : State) (h : Nat) (t : Thread) : (s.setTh h t).cur = s.cur := by
  unfold State.setTh; split <;> rfl
@[simp] theorem State.setTh_cores (s : State) (h : Nat) (t : Thread) : (s.setTh h t).cores = s.cores := by
  unfold State.setTh; split <;> rfl
@[simp] theorem State.setTh_units (s : State) (h : Nat) (t : Thread) : (s.setTh h t).units = s.units := by
  unfold State.setTh; split <;> rfl
@[simp] theorem State.setTh_clusters (s : State) (h : Nat) (t : Thread) : (s.setTh h t).clusters = s.clusters := by
  unfold State.setTh; split <;> rfl
@[simp] theorem State.setTh_dram (s : State) (h : Nat) (t : Thread) : (s.setTh h t).dram = s.dram := by
  unfold State.setTh; split <;> rfl
@[simp] theorem State.setTh_dramPoison (s : State) (h : Nat) (t : Thread) : (s.setTh h t).dramPoison = s.dramPoison := by
  unfold State.setTh; split <;> rfl
@[simp] theorem State.setTh_host (s : State) (h : Nat) (t : Thread) : (s.setTh h t).host = s.host := by
  unfold State.setTh; split <;> rfl
@[simp] theorem State.setTh_hostPoison (s : State) (h : Nat) (t : Thread) : (s.setTh h t).hostPoison = s.hostPoison := by
  unfold State.setTh; split <;> rfl
@[simp] theorem State.setTh_tags (s : State) (h : Nat) (t : Thread) : (s.setTh h t).tags = s.tags := by
  unfold State.setTh; split <;> rfl
@[simp] theorem State.setTh_groups (s : State) (h : Nat) (t : Thread) : (s.setTh h t).groups = s.groups := by
  unfold State.setTh; split <;> rfl
@[simp] theorem State.setTh_launches (s : State) (h : Nat) (t : Thread) : (s.setTh h t).launches = s.launches := by
  unfold State.setTh; split <;> rfl
@[simp] theorem State.setTh_parts (s : State) (h : Nat) (t : Thread) : (s.setTh h t).parts = s.parts := by
  unfold State.setTh; split <;> rfl
@[simp] theorem State.setTh_vis (s : State) (h : Nat) (t : Thread) : (s.setTh h t).vis = s.vis := by
  unfold State.setTh; split <;> rfl
@[simp] theorem State.setTh_nextLaunch (s : State) (h : Nat) (t : Thread) : (s.setTh h t).nextLaunch = s.nextLaunch := by
  unfold State.setTh; split <;> rfl
@[simp] theorem State.setTh_nextGroup (s : State) (h : Nat) (t : Thread) : (s.setTh h t).nextGroup = s.nextGroup := by
  unfold State.setTh; split <;> rfl
@[simp] theorem State.setTh_migrations (s : State) (h : Nat) (t : Thread) : (s.setTh h t).migrations = s.migrations := by
  unfold State.setTh; split <;> rfl
@[simp] theorem State.setTh_migRequests (s : State) (h : Nat) (t : Thread) : (s.setTh h t).migRequests = s.migRequests := by
  unfold State.setTh; split <;> rfl
@[simp] theorem State.setTh_pool (s : State) (h : Nat) (t : Thread) : (s.setTh h t).pool = s.pool := by
  unfold State.setTh; split <;> rfl
@[simp] theorem State.setTh_holdNanos (s : State) (h : Nat) (t : Thread) : (s.setTh h t).holdNanos = s.holdNanos := by
  unfold State.setTh; split <;> rfl
@[simp] theorem State.setTh_nodes (s : State) (h : Nat) (t : Thread) : (s.setTh h t).nodes = s.nodes := by
  unfold State.setTh; split <;> rfl
@[simp] theorem State.setTh_ksl (s : State) (h : Nat) (t : Thread) : (s.setTh h t).ksl = s.ksl := by
  unfold State.setTh; split <;> rfl
@[simp] theorem State.setTh_peers (s : State) (h : Nat) (t : Thread) : (s.setTh h t).peers = s.peers := by
  unfold State.setTh; split <;> rfl
@[simp] theorem State.setTh_links (s : State) (h : Nat) (t : Thread) : (s.setTh h t).links = s.links := by
  unfold State.setTh; split <;> rfl
@[simp] theorem State.setTh_outstanding (s : State) (h : Nat) (t : Thread) : (s.setTh h t).outstanding = s.outstanding := by
  unfold State.setTh; split <;> rfl
@[simp] theorem State.setTh_answers (s : State) (h : Nat) (t : Thread) : (s.setTh h t).answers = s.answers := by
  unfold State.setTh; split <;> rfl
@[simp] theorem State.setTh_nextTag (s : State) (h : Nat) (t : Thread) : (s.setTh h t).nextTag = s.nextTag := by
  unfold State.setTh; split <;> rfl
@[simp] theorem State.setTh_mgmt (s : State) (h : Nat) (t : Thread) : (s.setTh h t).mgmt = s.mgmt := by
  unfold State.setTh; split <;> rfl
@[simp] theorem State.setTh_power (s : State) (h : Nat) (t : Thread) : (s.setTh h t).power = s.power := by
  unfold State.setTh; split <;> rfl
@[simp] theorem State.setTh_rmap (s : State) (h : Nat) (t : Thread) : (s.setTh h t).rmap = s.rmap := by
  unfold State.setTh; split <;> rfl
@[simp] theorem State.setTh_sec (s : State) (h : Nat) (t : Thread) : (s.setTh h t).sec = s.sec := by
  unfold State.setTh; split <;> rfl
@[simp] theorem State.setTh_agenda (s : State) (h : Nat) (t : Thread) : (s.setTh h t).agenda = s.agenda := by
  unfold State.setTh; split <;> rfl
@[simp] theorem State.setTh_turn (s : State) (h : Nat) (t : Thread) : (s.setTh h t).turn = s.turn := by
  unfold State.setTh; split <;> rfl
@[simp] theorem State.setTh_cut (s : State) (h : Nat) (t : Thread) : (s.setTh h t).cut = s.cut := by
  unfold State.setTh; split <;> rfl
@[simp] theorem State.setTh_lag (s : State) (h : Nat) (t : Thread) : (s.setTh h t).lag = s.lag := by
  unfold State.setTh; split <;> rfl
@[simp] theorem State.setTh_older (s : State) (h : Nat) (t : Thread) : (s.setTh h t).older = s.older := by
  unfold State.setTh; split <;> rfl
@[simp] theorem State.setTh_hostNews (s : State) (h : Nat) (t : Thread) : (s.setTh h t).hostNews = s.hostNews := by
  unfold State.setTh; split <;> rfl
@[simp] theorem State.setTh_slow (s : State) (h : Nat) (t : Thread) : (s.setTh h t).slow = s.slow := by
  unfold State.setTh; split <;> rfl
@[simp] theorem State.setTh_ahead (s : State) (h : Nat) (t : Thread) : (s.setTh h t).ahead = s.ahead := by
  unfold State.setTh; split <;> rfl
@[simp] theorem State.setTh_rot (s : State) (h : Nat) (t : Thread) : (s.setTh h t).rot = s.rot := by
  unfold State.setTh; split <;> rfl
@[simp] theorem State.setTh_free (s : State) (h : Nat) (t : Thread) : (s.setTh h t).free = s.free := by
  unfold State.setTh; split <;> rfl

@[simp] theorem State.setCore_cur (s : State) (n : Nat) (c : Core) : (s.setCore n c).cur = s.cur := rfl
@[simp] theorem State.setCore_th (s : State) (n : Nat) (c : Core) : (s.setCore n c).th = s.th := rfl
@[simp] theorem State.setCore_others (s : State) (n : Nat) (c : Core) : (s.setCore n c).others = s.others := rfl
@[simp] theorem State.setCore_units (s : State) (n : Nat) (c : Core) : (s.setCore n c).units = s.units := rfl
@[simp] theorem State.setCore_clusters (s : State) (n : Nat) (c : Core) : (s.setCore n c).clusters = s.clusters := rfl
@[simp] theorem State.setCore_dram (s : State) (n : Nat) (c : Core) : (s.setCore n c).dram = s.dram := rfl
@[simp] theorem State.setCore_dramPoison (s : State) (n : Nat) (c : Core) : (s.setCore n c).dramPoison = s.dramPoison := rfl
@[simp] theorem State.setCore_host (s : State) (n : Nat) (c : Core) : (s.setCore n c).host = s.host := rfl
@[simp] theorem State.setCore_hostPoison (s : State) (n : Nat) (c : Core) : (s.setCore n c).hostPoison = s.hostPoison := rfl
@[simp] theorem State.setCore_tags (s : State) (n : Nat) (c : Core) : (s.setCore n c).tags = s.tags := rfl
@[simp] theorem State.setCore_groups (s : State) (n : Nat) (c : Core) : (s.setCore n c).groups = s.groups := rfl
@[simp] theorem State.setCore_launches (s : State) (n : Nat) (c : Core) : (s.setCore n c).launches = s.launches := rfl
@[simp] theorem State.setCore_parts (s : State) (n : Nat) (c : Core) : (s.setCore n c).parts = s.parts := rfl
@[simp] theorem State.setCore_vis (s : State) (n : Nat) (c : Core) : (s.setCore n c).vis = s.vis := rfl
@[simp] theorem State.setCore_nextLaunch (s : State) (n : Nat) (c : Core) : (s.setCore n c).nextLaunch = s.nextLaunch := rfl
@[simp] theorem State.setCore_nextGroup (s : State) (n : Nat) (c : Core) : (s.setCore n c).nextGroup = s.nextGroup := rfl
@[simp] theorem State.setCore_migrations (s : State) (n : Nat) (c : Core) : (s.setCore n c).migrations = s.migrations := rfl
@[simp] theorem State.setCore_migRequests (s : State) (n : Nat) (c : Core) : (s.setCore n c).migRequests = s.migRequests := rfl
@[simp] theorem State.setCore_pool (s : State) (n : Nat) (c : Core) : (s.setCore n c).pool = s.pool := rfl
@[simp] theorem State.setCore_holdNanos (s : State) (n : Nat) (c : Core) : (s.setCore n c).holdNanos = s.holdNanos := rfl
@[simp] theorem State.setCore_nodes (s : State) (n : Nat) (c : Core) : (s.setCore n c).nodes = s.nodes := rfl
@[simp] theorem State.setCore_ksl (s : State) (n : Nat) (c : Core) : (s.setCore n c).ksl = s.ksl := rfl
@[simp] theorem State.setCore_peers (s : State) (n : Nat) (c : Core) : (s.setCore n c).peers = s.peers := rfl
@[simp] theorem State.setCore_links (s : State) (n : Nat) (c : Core) : (s.setCore n c).links = s.links := rfl
@[simp] theorem State.setCore_outstanding (s : State) (n : Nat) (c : Core) : (s.setCore n c).outstanding = s.outstanding := rfl
@[simp] theorem State.setCore_answers (s : State) (n : Nat) (c : Core) : (s.setCore n c).answers = s.answers := rfl
@[simp] theorem State.setCore_nextTag (s : State) (n : Nat) (c : Core) : (s.setCore n c).nextTag = s.nextTag := rfl
@[simp] theorem State.setCore_mgmt (s : State) (n : Nat) (c : Core) : (s.setCore n c).mgmt = s.mgmt := rfl
@[simp] theorem State.setCore_power (s : State) (n : Nat) (c : Core) : (s.setCore n c).power = s.power := rfl
@[simp] theorem State.setCore_rmap (s : State) (n : Nat) (c : Core) : (s.setCore n c).rmap = s.rmap := rfl
@[simp] theorem State.setCore_sec (s : State) (n : Nat) (c : Core) : (s.setCore n c).sec = s.sec := rfl
@[simp] theorem State.setCore_agenda (s : State) (n : Nat) (c : Core) : (s.setCore n c).agenda = s.agenda := rfl
@[simp] theorem State.setCore_turn (s : State) (n : Nat) (c : Core) : (s.setCore n c).turn = s.turn := rfl
@[simp] theorem State.setCore_cut (s : State) (n : Nat) (c : Core) : (s.setCore n c).cut = s.cut := rfl
@[simp] theorem State.setCore_lag (s : State) (n : Nat) (c : Core) : (s.setCore n c).lag = s.lag := rfl
@[simp] theorem State.setCore_older (s : State) (n : Nat) (c : Core) : (s.setCore n c).older = s.older := rfl
@[simp] theorem State.setCore_hostNews (s : State) (n : Nat) (c : Core) : (s.setCore n c).hostNews = s.hostNews := rfl
@[simp] theorem State.setCore_slow (s : State) (n : Nat) (c : Core) : (s.setCore n c).slow = s.slow := rfl
@[simp] theorem State.setCore_ahead (s : State) (n : Nat) (c : Core) : (s.setCore n c).ahead = s.ahead := rfl
@[simp] theorem State.setCore_rot (s : State) (n : Nat) (c : Core) : (s.setCore n c).rot = s.rot := rfl
@[simp] theorem State.setCore_free (s : State) (n : Nat) (c : Core) : (s.setCore n c).free = s.free := rfl

@[simp] theorem State.updCore_cur (s : State) (n : Nat) (f : Core → Core) : (s.updCore n f).cur = s.cur := rfl
@[simp] theorem State.updCore_th (s : State) (n : Nat) (f : Core → Core) : (s.updCore n f).th = s.th := rfl
@[simp] theorem State.updCore_others (s : State) (n : Nat) (f : Core → Core) : (s.updCore n f).others = s.others := rfl
@[simp] theorem State.updCore_units (s : State) (n : Nat) (f : Core → Core) : (s.updCore n f).units = s.units := rfl
@[simp] theorem State.updCore_clusters (s : State) (n : Nat) (f : Core → Core) : (s.updCore n f).clusters = s.clusters := rfl
@[simp] theorem State.updCore_dram (s : State) (n : Nat) (f : Core → Core) : (s.updCore n f).dram = s.dram := rfl
@[simp] theorem State.updCore_dramPoison (s : State) (n : Nat) (f : Core → Core) : (s.updCore n f).dramPoison = s.dramPoison := rfl
@[simp] theorem State.updCore_host (s : State) (n : Nat) (f : Core → Core) : (s.updCore n f).host = s.host := rfl
@[simp] theorem State.updCore_hostPoison (s : State) (n : Nat) (f : Core → Core) : (s.updCore n f).hostPoison = s.hostPoison := rfl
@[simp] theorem State.updCore_tags (s : State) (n : Nat) (f : Core → Core) : (s.updCore n f).tags = s.tags := rfl
@[simp] theorem State.updCore_groups (s : State) (n : Nat) (f : Core → Core) : (s.updCore n f).groups = s.groups := rfl
@[simp] theorem State.updCore_launches (s : State) (n : Nat) (f : Core → Core) : (s.updCore n f).launches = s.launches := rfl
@[simp] theorem State.updCore_parts (s : State) (n : Nat) (f : Core → Core) : (s.updCore n f).parts = s.parts := rfl
@[simp] theorem State.updCore_vis (s : State) (n : Nat) (f : Core → Core) : (s.updCore n f).vis = s.vis := rfl
@[simp] theorem State.updCore_nextLaunch (s : State) (n : Nat) (f : Core → Core) : (s.updCore n f).nextLaunch = s.nextLaunch := rfl
@[simp] theorem State.updCore_nextGroup (s : State) (n : Nat) (f : Core → Core) : (s.updCore n f).nextGroup = s.nextGroup := rfl
@[simp] theorem State.updCore_migrations (s : State) (n : Nat) (f : Core → Core) : (s.updCore n f).migrations = s.migrations := rfl
@[simp] theorem State.updCore_migRequests (s : State) (n : Nat) (f : Core → Core) : (s.updCore n f).migRequests = s.migRequests := rfl
@[simp] theorem State.updCore_pool (s : State) (n : Nat) (f : Core → Core) : (s.updCore n f).pool = s.pool := rfl
@[simp] theorem State.updCore_holdNanos (s : State) (n : Nat) (f : Core → Core) : (s.updCore n f).holdNanos = s.holdNanos := rfl
@[simp] theorem State.updCore_nodes (s : State) (n : Nat) (f : Core → Core) : (s.updCore n f).nodes = s.nodes := rfl
@[simp] theorem State.updCore_ksl (s : State) (n : Nat) (f : Core → Core) : (s.updCore n f).ksl = s.ksl := rfl
@[simp] theorem State.updCore_peers (s : State) (n : Nat) (f : Core → Core) : (s.updCore n f).peers = s.peers := rfl
@[simp] theorem State.updCore_links (s : State) (n : Nat) (f : Core → Core) : (s.updCore n f).links = s.links := rfl
@[simp] theorem State.updCore_outstanding (s : State) (n : Nat) (f : Core → Core) : (s.updCore n f).outstanding = s.outstanding := rfl
@[simp] theorem State.updCore_answers (s : State) (n : Nat) (f : Core → Core) : (s.updCore n f).answers = s.answers := rfl
@[simp] theorem State.updCore_nextTag (s : State) (n : Nat) (f : Core → Core) : (s.updCore n f).nextTag = s.nextTag := rfl
@[simp] theorem State.updCore_mgmt (s : State) (n : Nat) (f : Core → Core) : (s.updCore n f).mgmt = s.mgmt := rfl
@[simp] theorem State.updCore_power (s : State) (n : Nat) (f : Core → Core) : (s.updCore n f).power = s.power := rfl
@[simp] theorem State.updCore_rmap (s : State) (n : Nat) (f : Core → Core) : (s.updCore n f).rmap = s.rmap := rfl
@[simp] theorem State.updCore_sec (s : State) (n : Nat) (f : Core → Core) : (s.updCore n f).sec = s.sec := rfl
@[simp] theorem State.updCore_agenda (s : State) (n : Nat) (f : Core → Core) : (s.updCore n f).agenda = s.agenda := rfl
@[simp] theorem State.updCore_turn (s : State) (n : Nat) (f : Core → Core) : (s.updCore n f).turn = s.turn := rfl
@[simp] theorem State.updCore_cut (s : State) (n : Nat) (f : Core → Core) : (s.updCore n f).cut = s.cut := rfl
@[simp] theorem State.updCore_lag (s : State) (n : Nat) (f : Core → Core) : (s.updCore n f).lag = s.lag := rfl
@[simp] theorem State.updCore_older (s : State) (n : Nat) (f : Core → Core) : (s.updCore n f).older = s.older := rfl
@[simp] theorem State.updCore_hostNews (s : State) (n : Nat) (f : Core → Core) : (s.updCore n f).hostNews = s.hostNews := rfl
@[simp] theorem State.updCore_slow (s : State) (n : Nat) (f : Core → Core) : (s.updCore n f).slow = s.slow := rfl
@[simp] theorem State.updCore_ahead (s : State) (n : Nat) (f : Core → Core) : (s.updCore n f).ahead = s.ahead := rfl
@[simp] theorem State.updCore_rot (s : State) (n : Nat) (f : Core → Core) : (s.updCore n f).rot = s.rot := rfl
@[simp] theorem State.updCore_free (s : State) (n : Nat) (f : Core → Core) : (s.updCore n f).free = s.free := rfl

@[simp] theorem State.setCluster_cur (s : State) (n : Nat) (c : Cluster) : (s.setCluster n c).cur = s.cur := rfl
@[simp] theorem State.setCluster_th (s : State) (n : Nat) (c : Cluster) : (s.setCluster n c).th = s.th := rfl
@[simp] theorem State.setCluster_others (s : State) (n : Nat) (c : Cluster) : (s.setCluster n c).others = s.others := rfl
@[simp] theorem State.setCluster_cores (s : State) (n : Nat) (c : Cluster) : (s.setCluster n c).cores = s.cores := rfl
@[simp] theorem State.setCluster_units (s : State) (n : Nat) (c : Cluster) : (s.setCluster n c).units = s.units := rfl
@[simp] theorem State.setCluster_dram (s : State) (n : Nat) (c : Cluster) : (s.setCluster n c).dram = s.dram := rfl
@[simp] theorem State.setCluster_dramPoison (s : State) (n : Nat) (c : Cluster) : (s.setCluster n c).dramPoison = s.dramPoison := rfl
@[simp] theorem State.setCluster_host (s : State) (n : Nat) (c : Cluster) : (s.setCluster n c).host = s.host := rfl
@[simp] theorem State.setCluster_hostPoison (s : State) (n : Nat) (c : Cluster) : (s.setCluster n c).hostPoison = s.hostPoison := rfl
@[simp] theorem State.setCluster_tags (s : State) (n : Nat) (c : Cluster) : (s.setCluster n c).tags = s.tags := rfl
@[simp] theorem State.setCluster_groups (s : State) (n : Nat) (c : Cluster) : (s.setCluster n c).groups = s.groups := rfl
@[simp] theorem State.setCluster_launches (s : State) (n : Nat) (c : Cluster) : (s.setCluster n c).launches = s.launches := rfl
@[simp] theorem State.setCluster_parts (s : State) (n : Nat) (c : Cluster) : (s.setCluster n c).parts = s.parts := rfl
@[simp] theorem State.setCluster_vis (s : State) (n : Nat) (c : Cluster) : (s.setCluster n c).vis = s.vis := rfl
@[simp] theorem State.setCluster_nextLaunch (s : State) (n : Nat) (c : Cluster) : (s.setCluster n c).nextLaunch = s.nextLaunch := rfl
@[simp] theorem State.setCluster_nextGroup (s : State) (n : Nat) (c : Cluster) : (s.setCluster n c).nextGroup = s.nextGroup := rfl
@[simp] theorem State.setCluster_migrations (s : State) (n : Nat) (c : Cluster) : (s.setCluster n c).migrations = s.migrations := rfl
@[simp] theorem State.setCluster_migRequests (s : State) (n : Nat) (c : Cluster) : (s.setCluster n c).migRequests = s.migRequests := rfl
@[simp] theorem State.setCluster_pool (s : State) (n : Nat) (c : Cluster) : (s.setCluster n c).pool = s.pool := rfl
@[simp] theorem State.setCluster_holdNanos (s : State) (n : Nat) (c : Cluster) : (s.setCluster n c).holdNanos = s.holdNanos := rfl
@[simp] theorem State.setCluster_nodes (s : State) (n : Nat) (c : Cluster) : (s.setCluster n c).nodes = s.nodes := rfl
@[simp] theorem State.setCluster_ksl (s : State) (n : Nat) (c : Cluster) : (s.setCluster n c).ksl = s.ksl := rfl
@[simp] theorem State.setCluster_peers (s : State) (n : Nat) (c : Cluster) : (s.setCluster n c).peers = s.peers := rfl
@[simp] theorem State.setCluster_links (s : State) (n : Nat) (c : Cluster) : (s.setCluster n c).links = s.links := rfl
@[simp] theorem State.setCluster_outstanding (s : State) (n : Nat) (c : Cluster) : (s.setCluster n c).outstanding = s.outstanding := rfl
@[simp] theorem State.setCluster_answers (s : State) (n : Nat) (c : Cluster) : (s.setCluster n c).answers = s.answers := rfl
@[simp] theorem State.setCluster_nextTag (s : State) (n : Nat) (c : Cluster) : (s.setCluster n c).nextTag = s.nextTag := rfl
@[simp] theorem State.setCluster_mgmt (s : State) (n : Nat) (c : Cluster) : (s.setCluster n c).mgmt = s.mgmt := rfl
@[simp] theorem State.setCluster_power (s : State) (n : Nat) (c : Cluster) : (s.setCluster n c).power = s.power := rfl
@[simp] theorem State.setCluster_rmap (s : State) (n : Nat) (c : Cluster) : (s.setCluster n c).rmap = s.rmap := rfl
@[simp] theorem State.setCluster_sec (s : State) (n : Nat) (c : Cluster) : (s.setCluster n c).sec = s.sec := rfl
@[simp] theorem State.setCluster_agenda (s : State) (n : Nat) (c : Cluster) : (s.setCluster n c).agenda = s.agenda := rfl
@[simp] theorem State.setCluster_turn (s : State) (n : Nat) (c : Cluster) : (s.setCluster n c).turn = s.turn := rfl
@[simp] theorem State.setCluster_cut (s : State) (n : Nat) (c : Cluster) : (s.setCluster n c).cut = s.cut := rfl
@[simp] theorem State.setCluster_lag (s : State) (n : Nat) (c : Cluster) : (s.setCluster n c).lag = s.lag := rfl
@[simp] theorem State.setCluster_older (s : State) (n : Nat) (c : Cluster) : (s.setCluster n c).older = s.older := rfl
@[simp] theorem State.setCluster_hostNews (s : State) (n : Nat) (c : Cluster) : (s.setCluster n c).hostNews = s.hostNews := rfl
@[simp] theorem State.setCluster_slow (s : State) (n : Nat) (c : Cluster) : (s.setCluster n c).slow = s.slow := rfl
@[simp] theorem State.setCluster_ahead (s : State) (n : Nat) (c : Cluster) : (s.setCluster n c).ahead = s.ahead := rfl
@[simp] theorem State.setCluster_rot (s : State) (n : Nat) (c : Cluster) : (s.setCluster n c).rot = s.rot := rfl
@[simp] theorem State.setCluster_free (s : State) (n : Nat) (c : Cluster) : (s.setCluster n c).free = s.free := rfl

@[simp] theorem State.setAlloc_cur (s : State) (c g : Nat) (a : Alloc) : (s.setAlloc c g a).cur = s.cur := rfl
@[simp] theorem State.setAlloc_th (s : State) (c g : Nat) (a : Alloc) : (s.setAlloc c g a).th = s.th := rfl
@[simp] theorem State.setAlloc_others (s : State) (c g : Nat) (a : Alloc) : (s.setAlloc c g a).others = s.others := rfl
@[simp] theorem State.setAlloc_units (s : State) (c g : Nat) (a : Alloc) : (s.setAlloc c g a).units = s.units := rfl
@[simp] theorem State.setAlloc_clusters (s : State) (c g : Nat) (a : Alloc) : (s.setAlloc c g a).clusters = s.clusters := rfl
@[simp] theorem State.setAlloc_dram (s : State) (c g : Nat) (a : Alloc) : (s.setAlloc c g a).dram = s.dram := rfl
@[simp] theorem State.setAlloc_dramPoison (s : State) (c g : Nat) (a : Alloc) : (s.setAlloc c g a).dramPoison = s.dramPoison := rfl
@[simp] theorem State.setAlloc_host (s : State) (c g : Nat) (a : Alloc) : (s.setAlloc c g a).host = s.host := rfl
@[simp] theorem State.setAlloc_hostPoison (s : State) (c g : Nat) (a : Alloc) : (s.setAlloc c g a).hostPoison = s.hostPoison := rfl
@[simp] theorem State.setAlloc_tags (s : State) (c g : Nat) (a : Alloc) : (s.setAlloc c g a).tags = s.tags := rfl
@[simp] theorem State.setAlloc_groups (s : State) (c g : Nat) (a : Alloc) : (s.setAlloc c g a).groups = s.groups := rfl
@[simp] theorem State.setAlloc_launches (s : State) (c g : Nat) (a : Alloc) : (s.setAlloc c g a).launches = s.launches := rfl
@[simp] theorem State.setAlloc_parts (s : State) (c g : Nat) (a : Alloc) : (s.setAlloc c g a).parts = s.parts := rfl
@[simp] theorem State.setAlloc_vis (s : State) (c g : Nat) (a : Alloc) : (s.setAlloc c g a).vis = s.vis := rfl
@[simp] theorem State.setAlloc_nextLaunch (s : State) (c g : Nat) (a : Alloc) : (s.setAlloc c g a).nextLaunch = s.nextLaunch := rfl
@[simp] theorem State.setAlloc_nextGroup (s : State) (c g : Nat) (a : Alloc) : (s.setAlloc c g a).nextGroup = s.nextGroup := rfl
@[simp] theorem State.setAlloc_migrations (s : State) (c g : Nat) (a : Alloc) : (s.setAlloc c g a).migrations = s.migrations := rfl
@[simp] theorem State.setAlloc_migRequests (s : State) (c g : Nat) (a : Alloc) : (s.setAlloc c g a).migRequests = s.migRequests := rfl
@[simp] theorem State.setAlloc_pool (s : State) (c g : Nat) (a : Alloc) : (s.setAlloc c g a).pool = s.pool := rfl
@[simp] theorem State.setAlloc_holdNanos (s : State) (c g : Nat) (a : Alloc) : (s.setAlloc c g a).holdNanos = s.holdNanos := rfl
@[simp] theorem State.setAlloc_nodes (s : State) (c g : Nat) (a : Alloc) : (s.setAlloc c g a).nodes = s.nodes := rfl
@[simp] theorem State.setAlloc_ksl (s : State) (c g : Nat) (a : Alloc) : (s.setAlloc c g a).ksl = s.ksl := rfl
@[simp] theorem State.setAlloc_peers (s : State) (c g : Nat) (a : Alloc) : (s.setAlloc c g a).peers = s.peers := rfl
@[simp] theorem State.setAlloc_links (s : State) (c g : Nat) (a : Alloc) : (s.setAlloc c g a).links = s.links := rfl
@[simp] theorem State.setAlloc_outstanding (s : State) (c g : Nat) (a : Alloc) : (s.setAlloc c g a).outstanding = s.outstanding := rfl
@[simp] theorem State.setAlloc_answers (s : State) (c g : Nat) (a : Alloc) : (s.setAlloc c g a).answers = s.answers := rfl
@[simp] theorem State.setAlloc_nextTag (s : State) (c g : Nat) (a : Alloc) : (s.setAlloc c g a).nextTag = s.nextTag := rfl
@[simp] theorem State.setAlloc_mgmt (s : State) (c g : Nat) (a : Alloc) : (s.setAlloc c g a).mgmt = s.mgmt := rfl
@[simp] theorem State.setAlloc_power (s : State) (c g : Nat) (a : Alloc) : (s.setAlloc c g a).power = s.power := rfl
@[simp] theorem State.setAlloc_rmap (s : State) (c g : Nat) (a : Alloc) : (s.setAlloc c g a).rmap = s.rmap := rfl
@[simp] theorem State.setAlloc_sec (s : State) (c g : Nat) (a : Alloc) : (s.setAlloc c g a).sec = s.sec := rfl
@[simp] theorem State.setAlloc_agenda (s : State) (c g : Nat) (a : Alloc) : (s.setAlloc c g a).agenda = s.agenda := rfl
@[simp] theorem State.setAlloc_turn (s : State) (c g : Nat) (a : Alloc) : (s.setAlloc c g a).turn = s.turn := rfl
@[simp] theorem State.setAlloc_cut (s : State) (c g : Nat) (a : Alloc) : (s.setAlloc c g a).cut = s.cut := rfl
@[simp] theorem State.setAlloc_lag (s : State) (c g : Nat) (a : Alloc) : (s.setAlloc c g a).lag = s.lag := rfl
@[simp] theorem State.setAlloc_older (s : State) (c g : Nat) (a : Alloc) : (s.setAlloc c g a).older = s.older := rfl
@[simp] theorem State.setAlloc_hostNews (s : State) (c g : Nat) (a : Alloc) : (s.setAlloc c g a).hostNews = s.hostNews := rfl
@[simp] theorem State.setAlloc_slow (s : State) (c g : Nat) (a : Alloc) : (s.setAlloc c g a).slow = s.slow := rfl
@[simp] theorem State.setAlloc_ahead (s : State) (c g : Nat) (a : Alloc) : (s.setAlloc c g a).ahead = s.ahead := rfl
@[simp] theorem State.setAlloc_rot (s : State) (c g : Nat) (a : Alloc) : (s.setAlloc c g a).rot = s.rot := rfl
@[simp] theorem State.setAlloc_free (s : State) (c g : Nat) (a : Alloc) : (s.setAlloc c g a).free = s.free := rfl

@[simp] theorem State.wr_cur (s : State) (r : BitVec 5) (x : Word) : (s.wr r x).cur = s.cur := by
  unfold State.wr; split <;> rfl
@[simp] theorem State.wr_others (s : State) (r : BitVec 5) (x : Word) : (s.wr r x).others = s.others := by
  unfold State.wr; split <;> rfl
@[simp] theorem State.wr_cores (s : State) (r : BitVec 5) (x : Word) : (s.wr r x).cores = s.cores := by
  unfold State.wr; split <;> rfl
@[simp] theorem State.wr_units (s : State) (r : BitVec 5) (x : Word) : (s.wr r x).units = s.units := by
  unfold State.wr; split <;> rfl
@[simp] theorem State.wr_clusters (s : State) (r : BitVec 5) (x : Word) : (s.wr r x).clusters = s.clusters := by
  unfold State.wr; split <;> rfl
@[simp] theorem State.wr_dram (s : State) (r : BitVec 5) (x : Word) : (s.wr r x).dram = s.dram := by
  unfold State.wr; split <;> rfl
@[simp] theorem State.wr_dramPoison (s : State) (r : BitVec 5) (x : Word) : (s.wr r x).dramPoison = s.dramPoison := by
  unfold State.wr; split <;> rfl
@[simp] theorem State.wr_host (s : State) (r : BitVec 5) (x : Word) : (s.wr r x).host = s.host := by
  unfold State.wr; split <;> rfl
@[simp] theorem State.wr_hostPoison (s : State) (r : BitVec 5) (x : Word) : (s.wr r x).hostPoison = s.hostPoison := by
  unfold State.wr; split <;> rfl
@[simp] theorem State.wr_tags (s : State) (r : BitVec 5) (x : Word) : (s.wr r x).tags = s.tags := by
  unfold State.wr; split <;> rfl
@[simp] theorem State.wr_groups (s : State) (r : BitVec 5) (x : Word) : (s.wr r x).groups = s.groups := by
  unfold State.wr; split <;> rfl
@[simp] theorem State.wr_launches (s : State) (r : BitVec 5) (x : Word) : (s.wr r x).launches = s.launches := by
  unfold State.wr; split <;> rfl
@[simp] theorem State.wr_parts (s : State) (r : BitVec 5) (x : Word) : (s.wr r x).parts = s.parts := by
  unfold State.wr; split <;> rfl
@[simp] theorem State.wr_vis (s : State) (r : BitVec 5) (x : Word) : (s.wr r x).vis = s.vis := by
  unfold State.wr; split <;> rfl
@[simp] theorem State.wr_nextLaunch (s : State) (r : BitVec 5) (x : Word) : (s.wr r x).nextLaunch = s.nextLaunch := by
  unfold State.wr; split <;> rfl
@[simp] theorem State.wr_nextGroup (s : State) (r : BitVec 5) (x : Word) : (s.wr r x).nextGroup = s.nextGroup := by
  unfold State.wr; split <;> rfl
@[simp] theorem State.wr_migrations (s : State) (r : BitVec 5) (x : Word) : (s.wr r x).migrations = s.migrations := by
  unfold State.wr; split <;> rfl
@[simp] theorem State.wr_migRequests (s : State) (r : BitVec 5) (x : Word) : (s.wr r x).migRequests = s.migRequests := by
  unfold State.wr; split <;> rfl
@[simp] theorem State.wr_pool (s : State) (r : BitVec 5) (x : Word) : (s.wr r x).pool = s.pool := by
  unfold State.wr; split <;> rfl
@[simp] theorem State.wr_holdNanos (s : State) (r : BitVec 5) (x : Word) : (s.wr r x).holdNanos = s.holdNanos := by
  unfold State.wr; split <;> rfl
@[simp] theorem State.wr_nodes (s : State) (r : BitVec 5) (x : Word) : (s.wr r x).nodes = s.nodes := by
  unfold State.wr; split <;> rfl
@[simp] theorem State.wr_ksl (s : State) (r : BitVec 5) (x : Word) : (s.wr r x).ksl = s.ksl := by
  unfold State.wr; split <;> rfl
@[simp] theorem State.wr_peers (s : State) (r : BitVec 5) (x : Word) : (s.wr r x).peers = s.peers := by
  unfold State.wr; split <;> rfl
@[simp] theorem State.wr_links (s : State) (r : BitVec 5) (x : Word) : (s.wr r x).links = s.links := by
  unfold State.wr; split <;> rfl
@[simp] theorem State.wr_outstanding (s : State) (r : BitVec 5) (x : Word) : (s.wr r x).outstanding = s.outstanding := by
  unfold State.wr; split <;> rfl
@[simp] theorem State.wr_answers (s : State) (r : BitVec 5) (x : Word) : (s.wr r x).answers = s.answers := by
  unfold State.wr; split <;> rfl
@[simp] theorem State.wr_nextTag (s : State) (r : BitVec 5) (x : Word) : (s.wr r x).nextTag = s.nextTag := by
  unfold State.wr; split <;> rfl
@[simp] theorem State.wr_mgmt (s : State) (r : BitVec 5) (x : Word) : (s.wr r x).mgmt = s.mgmt := by
  unfold State.wr; split <;> rfl
@[simp] theorem State.wr_power (s : State) (r : BitVec 5) (x : Word) : (s.wr r x).power = s.power := by
  unfold State.wr; split <;> rfl
@[simp] theorem State.wr_rmap (s : State) (r : BitVec 5) (x : Word) : (s.wr r x).rmap = s.rmap := by
  unfold State.wr; split <;> rfl
@[simp] theorem State.wr_sec (s : State) (r : BitVec 5) (x : Word) : (s.wr r x).sec = s.sec := by
  unfold State.wr; split <;> rfl
@[simp] theorem State.wr_agenda (s : State) (r : BitVec 5) (x : Word) : (s.wr r x).agenda = s.agenda := by
  unfold State.wr; split <;> rfl
@[simp] theorem State.wr_turn (s : State) (r : BitVec 5) (x : Word) : (s.wr r x).turn = s.turn := by
  unfold State.wr; split <;> rfl
@[simp] theorem State.wr_cut (s : State) (r : BitVec 5) (x : Word) : (s.wr r x).cut = s.cut := by
  unfold State.wr; split <;> rfl
@[simp] theorem State.wr_lag (s : State) (r : BitVec 5) (x : Word) : (s.wr r x).lag = s.lag := by
  unfold State.wr; split <;> rfl
@[simp] theorem State.wr_older (s : State) (r : BitVec 5) (x : Word) : (s.wr r x).older = s.older := by
  unfold State.wr; split <;> rfl
@[simp] theorem State.wr_hostNews (s : State) (r : BitVec 5) (x : Word) : (s.wr r x).hostNews = s.hostNews := by
  unfold State.wr; split <;> rfl
@[simp] theorem State.wr_slow (s : State) (r : BitVec 5) (x : Word) : (s.wr r x).slow = s.slow := by
  unfold State.wr; split <;> rfl
@[simp] theorem State.wr_ahead (s : State) (r : BitVec 5) (x : Word) : (s.wr r x).ahead = s.ahead := by
  unfold State.wr; split <;> rfl
@[simp] theorem State.wr_rot (s : State) (r : BitVec 5) (x : Word) : (s.wr r x).rot = s.rot := by
  unfold State.wr; split <;> rfl
@[simp] theorem State.wr_free (s : State) (r : BitVec 5) (x : Word) : (s.wr r x).free = s.free := by
  unfold State.wr; split <;> rfl

@[simp] theorem State.advance_cur (s : State)  : (s.advance).cur = s.cur := rfl
@[simp] theorem State.advance_others (s : State)  : (s.advance).others = s.others := rfl
@[simp] theorem State.advance_cores (s : State)  : (s.advance).cores = s.cores := rfl
@[simp] theorem State.advance_units (s : State)  : (s.advance).units = s.units := rfl
@[simp] theorem State.advance_clusters (s : State)  : (s.advance).clusters = s.clusters := rfl
@[simp] theorem State.advance_dram (s : State)  : (s.advance).dram = s.dram := rfl
@[simp] theorem State.advance_dramPoison (s : State)  : (s.advance).dramPoison = s.dramPoison := rfl
@[simp] theorem State.advance_host (s : State)  : (s.advance).host = s.host := rfl
@[simp] theorem State.advance_hostPoison (s : State)  : (s.advance).hostPoison = s.hostPoison := rfl
@[simp] theorem State.advance_tags (s : State)  : (s.advance).tags = s.tags := rfl
@[simp] theorem State.advance_groups (s : State)  : (s.advance).groups = s.groups := rfl
@[simp] theorem State.advance_launches (s : State)  : (s.advance).launches = s.launches := rfl
@[simp] theorem State.advance_parts (s : State)  : (s.advance).parts = s.parts := rfl
@[simp] theorem State.advance_vis (s : State)  : (s.advance).vis = s.vis := rfl
@[simp] theorem State.advance_nextLaunch (s : State)  : (s.advance).nextLaunch = s.nextLaunch := rfl
@[simp] theorem State.advance_nextGroup (s : State)  : (s.advance).nextGroup = s.nextGroup := rfl
@[simp] theorem State.advance_migrations (s : State)  : (s.advance).migrations = s.migrations := rfl
@[simp] theorem State.advance_migRequests (s : State)  : (s.advance).migRequests = s.migRequests := rfl
@[simp] theorem State.advance_pool (s : State)  : (s.advance).pool = s.pool := rfl
@[simp] theorem State.advance_holdNanos (s : State)  : (s.advance).holdNanos = s.holdNanos := rfl
@[simp] theorem State.advance_nodes (s : State)  : (s.advance).nodes = s.nodes := rfl
@[simp] theorem State.advance_ksl (s : State)  : (s.advance).ksl = s.ksl := rfl
@[simp] theorem State.advance_peers (s : State)  : (s.advance).peers = s.peers := rfl
@[simp] theorem State.advance_links (s : State)  : (s.advance).links = s.links := rfl
@[simp] theorem State.advance_outstanding (s : State)  : (s.advance).outstanding = s.outstanding := rfl
@[simp] theorem State.advance_answers (s : State)  : (s.advance).answers = s.answers := rfl
@[simp] theorem State.advance_nextTag (s : State)  : (s.advance).nextTag = s.nextTag := rfl
@[simp] theorem State.advance_mgmt (s : State)  : (s.advance).mgmt = s.mgmt := rfl
@[simp] theorem State.advance_power (s : State)  : (s.advance).power = s.power := rfl
@[simp] theorem State.advance_rmap (s : State)  : (s.advance).rmap = s.rmap := rfl
@[simp] theorem State.advance_sec (s : State)  : (s.advance).sec = s.sec := rfl
@[simp] theorem State.advance_agenda (s : State)  : (s.advance).agenda = s.agenda := rfl
@[simp] theorem State.advance_turn (s : State)  : (s.advance).turn = s.turn := rfl
@[simp] theorem State.advance_cut (s : State)  : (s.advance).cut = s.cut := rfl
@[simp] theorem State.advance_lag (s : State)  : (s.advance).lag = s.lag := rfl
@[simp] theorem State.advance_older (s : State)  : (s.advance).older = s.older := rfl
@[simp] theorem State.advance_hostNews (s : State)  : (s.advance).hostNews = s.hostNews := rfl
@[simp] theorem State.advance_slow (s : State)  : (s.advance).slow = s.slow := rfl
@[simp] theorem State.advance_ahead (s : State)  : (s.advance).ahead = s.ahead := rfl
@[simp] theorem State.advance_rot (s : State)  : (s.advance).rot = s.rot := rfl
@[simp] theorem State.advance_free (s : State)  : (s.advance).free = s.free := rfl

@[simp] theorem State.wrAdvance_cur (s : State) (d : BitVec 5) (x : Word) : (s.wrAdvance d x).cur = s.cur := by
  simp [State.wrAdvance]
@[simp] theorem State.wrAdvance_others (s : State) (d : BitVec 5) (x : Word) : (s.wrAdvance d x).others = s.others := by
  simp [State.wrAdvance]
@[simp] theorem State.wrAdvance_cores (s : State) (d : BitVec 5) (x : Word) : (s.wrAdvance d x).cores = s.cores := by
  simp [State.wrAdvance]
@[simp] theorem State.wrAdvance_units (s : State) (d : BitVec 5) (x : Word) : (s.wrAdvance d x).units = s.units := by
  simp [State.wrAdvance]
@[simp] theorem State.wrAdvance_clusters (s : State) (d : BitVec 5) (x : Word) : (s.wrAdvance d x).clusters = s.clusters := by
  simp [State.wrAdvance]
@[simp] theorem State.wrAdvance_dram (s : State) (d : BitVec 5) (x : Word) : (s.wrAdvance d x).dram = s.dram := by
  simp [State.wrAdvance]
@[simp] theorem State.wrAdvance_dramPoison (s : State) (d : BitVec 5) (x : Word) : (s.wrAdvance d x).dramPoison = s.dramPoison := by
  simp [State.wrAdvance]
@[simp] theorem State.wrAdvance_host (s : State) (d : BitVec 5) (x : Word) : (s.wrAdvance d x).host = s.host := by
  simp [State.wrAdvance]
@[simp] theorem State.wrAdvance_hostPoison (s : State) (d : BitVec 5) (x : Word) : (s.wrAdvance d x).hostPoison = s.hostPoison := by
  simp [State.wrAdvance]
@[simp] theorem State.wrAdvance_tags (s : State) (d : BitVec 5) (x : Word) : (s.wrAdvance d x).tags = s.tags := by
  simp [State.wrAdvance]
@[simp] theorem State.wrAdvance_groups (s : State) (d : BitVec 5) (x : Word) : (s.wrAdvance d x).groups = s.groups := by
  simp [State.wrAdvance]
@[simp] theorem State.wrAdvance_launches (s : State) (d : BitVec 5) (x : Word) : (s.wrAdvance d x).launches = s.launches := by
  simp [State.wrAdvance]
@[simp] theorem State.wrAdvance_parts (s : State) (d : BitVec 5) (x : Word) : (s.wrAdvance d x).parts = s.parts := by
  simp [State.wrAdvance]
@[simp] theorem State.wrAdvance_vis (s : State) (d : BitVec 5) (x : Word) : (s.wrAdvance d x).vis = s.vis := by
  simp [State.wrAdvance]
@[simp] theorem State.wrAdvance_nextLaunch (s : State) (d : BitVec 5) (x : Word) : (s.wrAdvance d x).nextLaunch = s.nextLaunch := by
  simp [State.wrAdvance]
@[simp] theorem State.wrAdvance_nextGroup (s : State) (d : BitVec 5) (x : Word) : (s.wrAdvance d x).nextGroup = s.nextGroup := by
  simp [State.wrAdvance]
@[simp] theorem State.wrAdvance_migrations (s : State) (d : BitVec 5) (x : Word) : (s.wrAdvance d x).migrations = s.migrations := by
  simp [State.wrAdvance]
@[simp] theorem State.wrAdvance_migRequests (s : State) (d : BitVec 5) (x : Word) : (s.wrAdvance d x).migRequests = s.migRequests := by
  simp [State.wrAdvance]
@[simp] theorem State.wrAdvance_pool (s : State) (d : BitVec 5) (x : Word) : (s.wrAdvance d x).pool = s.pool := by
  simp [State.wrAdvance]
@[simp] theorem State.wrAdvance_holdNanos (s : State) (d : BitVec 5) (x : Word) : (s.wrAdvance d x).holdNanos = s.holdNanos := by
  simp [State.wrAdvance]
@[simp] theorem State.wrAdvance_nodes (s : State) (d : BitVec 5) (x : Word) : (s.wrAdvance d x).nodes = s.nodes := by
  simp [State.wrAdvance]
@[simp] theorem State.wrAdvance_ksl (s : State) (d : BitVec 5) (x : Word) : (s.wrAdvance d x).ksl = s.ksl := by
  simp [State.wrAdvance]
@[simp] theorem State.wrAdvance_peers (s : State) (d : BitVec 5) (x : Word) : (s.wrAdvance d x).peers = s.peers := by
  simp [State.wrAdvance]
@[simp] theorem State.wrAdvance_links (s : State) (d : BitVec 5) (x : Word) : (s.wrAdvance d x).links = s.links := by
  simp [State.wrAdvance]
@[simp] theorem State.wrAdvance_outstanding (s : State) (d : BitVec 5) (x : Word) : (s.wrAdvance d x).outstanding = s.outstanding := by
  simp [State.wrAdvance]
@[simp] theorem State.wrAdvance_answers (s : State) (d : BitVec 5) (x : Word) : (s.wrAdvance d x).answers = s.answers := by
  simp [State.wrAdvance]
@[simp] theorem State.wrAdvance_nextTag (s : State) (d : BitVec 5) (x : Word) : (s.wrAdvance d x).nextTag = s.nextTag := by
  simp [State.wrAdvance]
@[simp] theorem State.wrAdvance_mgmt (s : State) (d : BitVec 5) (x : Word) : (s.wrAdvance d x).mgmt = s.mgmt := by
  simp [State.wrAdvance]
@[simp] theorem State.wrAdvance_power (s : State) (d : BitVec 5) (x : Word) : (s.wrAdvance d x).power = s.power := by
  simp [State.wrAdvance]
@[simp] theorem State.wrAdvance_rmap (s : State) (d : BitVec 5) (x : Word) : (s.wrAdvance d x).rmap = s.rmap := by
  simp [State.wrAdvance]
@[simp] theorem State.wrAdvance_sec (s : State) (d : BitVec 5) (x : Word) : (s.wrAdvance d x).sec = s.sec := by
  simp [State.wrAdvance]
@[simp] theorem State.wrAdvance_agenda (s : State) (d : BitVec 5) (x : Word) : (s.wrAdvance d x).agenda = s.agenda := by
  simp [State.wrAdvance]
@[simp] theorem State.wrAdvance_turn (s : State) (d : BitVec 5) (x : Word) : (s.wrAdvance d x).turn = s.turn := by
  simp [State.wrAdvance]
@[simp] theorem State.wrAdvance_cut (s : State) (d : BitVec 5) (x : Word) : (s.wrAdvance d x).cut = s.cut := by
  simp [State.wrAdvance]
@[simp] theorem State.wrAdvance_lag (s : State) (d : BitVec 5) (x : Word) : (s.wrAdvance d x).lag = s.lag := by
  simp [State.wrAdvance]
@[simp] theorem State.wrAdvance_older (s : State) (d : BitVec 5) (x : Word) : (s.wrAdvance d x).older = s.older := by
  simp [State.wrAdvance]
@[simp] theorem State.wrAdvance_hostNews (s : State) (d : BitVec 5) (x : Word) : (s.wrAdvance d x).hostNews = s.hostNews := by
  simp [State.wrAdvance]
@[simp] theorem State.wrAdvance_slow (s : State) (d : BitVec 5) (x : Word) : (s.wrAdvance d x).slow = s.slow := by
  simp [State.wrAdvance]
@[simp] theorem State.wrAdvance_ahead (s : State) (d : BitVec 5) (x : Word) : (s.wrAdvance d x).ahead = s.ahead := by
  simp [State.wrAdvance]
@[simp] theorem State.wrAdvance_rot (s : State) (d : BitVec 5) (x : Word) : (s.wrAdvance d x).rot = s.rot := by
  simp [State.wrAdvance]
@[simp] theorem State.wrAdvance_free (s : State) (d : BitVec 5) (x : Word) : (s.wrAdvance d x).free = s.free := by
  simp [State.wrAdvance]

@[simp] theorem State.setV_cur (s : State) (r : BitVec 5) (x : Nat) : (s.setV r x).cur = s.cur := rfl
@[simp] theorem State.setV_others (s : State) (r : BitVec 5) (x : Nat) : (s.setV r x).others = s.others := rfl
@[simp] theorem State.setV_cores (s : State) (r : BitVec 5) (x : Nat) : (s.setV r x).cores = s.cores := rfl
@[simp] theorem State.setV_units (s : State) (r : BitVec 5) (x : Nat) : (s.setV r x).units = s.units := rfl
@[simp] theorem State.setV_clusters (s : State) (r : BitVec 5) (x : Nat) : (s.setV r x).clusters = s.clusters := rfl
@[simp] theorem State.setV_dram (s : State) (r : BitVec 5) (x : Nat) : (s.setV r x).dram = s.dram := rfl
@[simp] theorem State.setV_dramPoison (s : State) (r : BitVec 5) (x : Nat) : (s.setV r x).dramPoison = s.dramPoison := rfl
@[simp] theorem State.setV_host (s : State) (r : BitVec 5) (x : Nat) : (s.setV r x).host = s.host := rfl
@[simp] theorem State.setV_hostPoison (s : State) (r : BitVec 5) (x : Nat) : (s.setV r x).hostPoison = s.hostPoison := rfl
@[simp] theorem State.setV_tags (s : State) (r : BitVec 5) (x : Nat) : (s.setV r x).tags = s.tags := rfl
@[simp] theorem State.setV_groups (s : State) (r : BitVec 5) (x : Nat) : (s.setV r x).groups = s.groups := rfl
@[simp] theorem State.setV_launches (s : State) (r : BitVec 5) (x : Nat) : (s.setV r x).launches = s.launches := rfl
@[simp] theorem State.setV_parts (s : State) (r : BitVec 5) (x : Nat) : (s.setV r x).parts = s.parts := rfl
@[simp] theorem State.setV_vis (s : State) (r : BitVec 5) (x : Nat) : (s.setV r x).vis = s.vis := rfl
@[simp] theorem State.setV_nextLaunch (s : State) (r : BitVec 5) (x : Nat) : (s.setV r x).nextLaunch = s.nextLaunch := rfl
@[simp] theorem State.setV_nextGroup (s : State) (r : BitVec 5) (x : Nat) : (s.setV r x).nextGroup = s.nextGroup := rfl
@[simp] theorem State.setV_migrations (s : State) (r : BitVec 5) (x : Nat) : (s.setV r x).migrations = s.migrations := rfl
@[simp] theorem State.setV_migRequests (s : State) (r : BitVec 5) (x : Nat) : (s.setV r x).migRequests = s.migRequests := rfl
@[simp] theorem State.setV_pool (s : State) (r : BitVec 5) (x : Nat) : (s.setV r x).pool = s.pool := rfl
@[simp] theorem State.setV_holdNanos (s : State) (r : BitVec 5) (x : Nat) : (s.setV r x).holdNanos = s.holdNanos := rfl
@[simp] theorem State.setV_nodes (s : State) (r : BitVec 5) (x : Nat) : (s.setV r x).nodes = s.nodes := rfl
@[simp] theorem State.setV_ksl (s : State) (r : BitVec 5) (x : Nat) : (s.setV r x).ksl = s.ksl := rfl
@[simp] theorem State.setV_peers (s : State) (r : BitVec 5) (x : Nat) : (s.setV r x).peers = s.peers := rfl
@[simp] theorem State.setV_links (s : State) (r : BitVec 5) (x : Nat) : (s.setV r x).links = s.links := rfl
@[simp] theorem State.setV_outstanding (s : State) (r : BitVec 5) (x : Nat) : (s.setV r x).outstanding = s.outstanding := rfl
@[simp] theorem State.setV_answers (s : State) (r : BitVec 5) (x : Nat) : (s.setV r x).answers = s.answers := rfl
@[simp] theorem State.setV_nextTag (s : State) (r : BitVec 5) (x : Nat) : (s.setV r x).nextTag = s.nextTag := rfl
@[simp] theorem State.setV_mgmt (s : State) (r : BitVec 5) (x : Nat) : (s.setV r x).mgmt = s.mgmt := rfl
@[simp] theorem State.setV_power (s : State) (r : BitVec 5) (x : Nat) : (s.setV r x).power = s.power := rfl
@[simp] theorem State.setV_rmap (s : State) (r : BitVec 5) (x : Nat) : (s.setV r x).rmap = s.rmap := rfl
@[simp] theorem State.setV_sec (s : State) (r : BitVec 5) (x : Nat) : (s.setV r x).sec = s.sec := rfl
@[simp] theorem State.setV_agenda (s : State) (r : BitVec 5) (x : Nat) : (s.setV r x).agenda = s.agenda := rfl
@[simp] theorem State.setV_turn (s : State) (r : BitVec 5) (x : Nat) : (s.setV r x).turn = s.turn := rfl
@[simp] theorem State.setV_cut (s : State) (r : BitVec 5) (x : Nat) : (s.setV r x).cut = s.cut := rfl
@[simp] theorem State.setV_lag (s : State) (r : BitVec 5) (x : Nat) : (s.setV r x).lag = s.lag := rfl
@[simp] theorem State.setV_older (s : State) (r : BitVec 5) (x : Nat) : (s.setV r x).older = s.older := rfl
@[simp] theorem State.setV_hostNews (s : State) (r : BitVec 5) (x : Nat) : (s.setV r x).hostNews = s.hostNews := rfl
@[simp] theorem State.setV_slow (s : State) (r : BitVec 5) (x : Nat) : (s.setV r x).slow = s.slow := rfl
@[simp] theorem State.setV_ahead (s : State) (r : BitVec 5) (x : Nat) : (s.setV r x).ahead = s.ahead := rfl
@[simp] theorem State.setV_rot (s : State) (r : BitVec 5) (x : Nat) : (s.setV r x).rot = s.rot := rfl
@[simp] theorem State.setV_free (s : State) (r : BitVec 5) (x : Nat) : (s.setV r x).free = s.free := rfl

@[simp] theorem State.setM_cur (s : State) (r x : Nat) : (s.setM r x).cur = s.cur := rfl
@[simp] theorem State.setM_others (s : State) (r x : Nat) : (s.setM r x).others = s.others := rfl
@[simp] theorem State.setM_cores (s : State) (r x : Nat) : (s.setM r x).cores = s.cores := rfl
@[simp] theorem State.setM_units (s : State) (r x : Nat) : (s.setM r x).units = s.units := rfl
@[simp] theorem State.setM_clusters (s : State) (r x : Nat) : (s.setM r x).clusters = s.clusters := rfl
@[simp] theorem State.setM_dram (s : State) (r x : Nat) : (s.setM r x).dram = s.dram := rfl
@[simp] theorem State.setM_dramPoison (s : State) (r x : Nat) : (s.setM r x).dramPoison = s.dramPoison := rfl
@[simp] theorem State.setM_host (s : State) (r x : Nat) : (s.setM r x).host = s.host := rfl
@[simp] theorem State.setM_hostPoison (s : State) (r x : Nat) : (s.setM r x).hostPoison = s.hostPoison := rfl
@[simp] theorem State.setM_tags (s : State) (r x : Nat) : (s.setM r x).tags = s.tags := rfl
@[simp] theorem State.setM_groups (s : State) (r x : Nat) : (s.setM r x).groups = s.groups := rfl
@[simp] theorem State.setM_launches (s : State) (r x : Nat) : (s.setM r x).launches = s.launches := rfl
@[simp] theorem State.setM_parts (s : State) (r x : Nat) : (s.setM r x).parts = s.parts := rfl
@[simp] theorem State.setM_vis (s : State) (r x : Nat) : (s.setM r x).vis = s.vis := rfl
@[simp] theorem State.setM_nextLaunch (s : State) (r x : Nat) : (s.setM r x).nextLaunch = s.nextLaunch := rfl
@[simp] theorem State.setM_nextGroup (s : State) (r x : Nat) : (s.setM r x).nextGroup = s.nextGroup := rfl
@[simp] theorem State.setM_migrations (s : State) (r x : Nat) : (s.setM r x).migrations = s.migrations := rfl
@[simp] theorem State.setM_migRequests (s : State) (r x : Nat) : (s.setM r x).migRequests = s.migRequests := rfl
@[simp] theorem State.setM_pool (s : State) (r x : Nat) : (s.setM r x).pool = s.pool := rfl
@[simp] theorem State.setM_holdNanos (s : State) (r x : Nat) : (s.setM r x).holdNanos = s.holdNanos := rfl
@[simp] theorem State.setM_nodes (s : State) (r x : Nat) : (s.setM r x).nodes = s.nodes := rfl
@[simp] theorem State.setM_ksl (s : State) (r x : Nat) : (s.setM r x).ksl = s.ksl := rfl
@[simp] theorem State.setM_peers (s : State) (r x : Nat) : (s.setM r x).peers = s.peers := rfl
@[simp] theorem State.setM_links (s : State) (r x : Nat) : (s.setM r x).links = s.links := rfl
@[simp] theorem State.setM_outstanding (s : State) (r x : Nat) : (s.setM r x).outstanding = s.outstanding := rfl
@[simp] theorem State.setM_answers (s : State) (r x : Nat) : (s.setM r x).answers = s.answers := rfl
@[simp] theorem State.setM_nextTag (s : State) (r x : Nat) : (s.setM r x).nextTag = s.nextTag := rfl
@[simp] theorem State.setM_mgmt (s : State) (r x : Nat) : (s.setM r x).mgmt = s.mgmt := rfl
@[simp] theorem State.setM_power (s : State) (r x : Nat) : (s.setM r x).power = s.power := rfl
@[simp] theorem State.setM_rmap (s : State) (r x : Nat) : (s.setM r x).rmap = s.rmap := rfl
@[simp] theorem State.setM_sec (s : State) (r x : Nat) : (s.setM r x).sec = s.sec := rfl
@[simp] theorem State.setM_agenda (s : State) (r x : Nat) : (s.setM r x).agenda = s.agenda := rfl
@[simp] theorem State.setM_turn (s : State) (r x : Nat) : (s.setM r x).turn = s.turn := rfl
@[simp] theorem State.setM_cut (s : State) (r x : Nat) : (s.setM r x).cut = s.cut := rfl
@[simp] theorem State.setM_lag (s : State) (r x : Nat) : (s.setM r x).lag = s.lag := rfl
@[simp] theorem State.setM_older (s : State) (r x : Nat) : (s.setM r x).older = s.older := rfl
@[simp] theorem State.setM_hostNews (s : State) (r x : Nat) : (s.setM r x).hostNews = s.hostNews := rfl
@[simp] theorem State.setM_slow (s : State) (r x : Nat) : (s.setM r x).slow = s.slow := rfl
@[simp] theorem State.setM_ahead (s : State) (r x : Nat) : (s.setM r x).ahead = s.ahead := rfl
@[simp] theorem State.setM_rot (s : State) (r x : Nat) : (s.setM r x).rot = s.rot := rfl
@[simp] theorem State.setM_free (s : State) (r x : Nat) : (s.setM r x).free = s.free := rfl

@[simp] theorem State.mark_cur (s : State) (f m : Nat) : (s.mark f m).cur = s.cur := rfl
@[simp] theorem State.mark_others (s : State) (f m : Nat) : (s.mark f m).others = s.others := rfl
@[simp] theorem State.mark_cores (s : State) (f m : Nat) : (s.mark f m).cores = s.cores := rfl
@[simp] theorem State.mark_units (s : State) (f m : Nat) : (s.mark f m).units = s.units := rfl
@[simp] theorem State.mark_clusters (s : State) (f m : Nat) : (s.mark f m).clusters = s.clusters := rfl
@[simp] theorem State.mark_dram (s : State) (f m : Nat) : (s.mark f m).dram = s.dram := rfl
@[simp] theorem State.mark_dramPoison (s : State) (f m : Nat) : (s.mark f m).dramPoison = s.dramPoison := rfl
@[simp] theorem State.mark_host (s : State) (f m : Nat) : (s.mark f m).host = s.host := rfl
@[simp] theorem State.mark_hostPoison (s : State) (f m : Nat) : (s.mark f m).hostPoison = s.hostPoison := rfl
@[simp] theorem State.mark_tags (s : State) (f m : Nat) : (s.mark f m).tags = s.tags := rfl
@[simp] theorem State.mark_groups (s : State) (f m : Nat) : (s.mark f m).groups = s.groups := rfl
@[simp] theorem State.mark_launches (s : State) (f m : Nat) : (s.mark f m).launches = s.launches := rfl
@[simp] theorem State.mark_parts (s : State) (f m : Nat) : (s.mark f m).parts = s.parts := rfl
@[simp] theorem State.mark_vis (s : State) (f m : Nat) : (s.mark f m).vis = s.vis := rfl
@[simp] theorem State.mark_nextLaunch (s : State) (f m : Nat) : (s.mark f m).nextLaunch = s.nextLaunch := rfl
@[simp] theorem State.mark_nextGroup (s : State) (f m : Nat) : (s.mark f m).nextGroup = s.nextGroup := rfl
@[simp] theorem State.mark_migrations (s : State) (f m : Nat) : (s.mark f m).migrations = s.migrations := rfl
@[simp] theorem State.mark_migRequests (s : State) (f m : Nat) : (s.mark f m).migRequests = s.migRequests := rfl
@[simp] theorem State.mark_pool (s : State) (f m : Nat) : (s.mark f m).pool = s.pool := rfl
@[simp] theorem State.mark_holdNanos (s : State) (f m : Nat) : (s.mark f m).holdNanos = s.holdNanos := rfl
@[simp] theorem State.mark_nodes (s : State) (f m : Nat) : (s.mark f m).nodes = s.nodes := rfl
@[simp] theorem State.mark_ksl (s : State) (f m : Nat) : (s.mark f m).ksl = s.ksl := rfl
@[simp] theorem State.mark_peers (s : State) (f m : Nat) : (s.mark f m).peers = s.peers := rfl
@[simp] theorem State.mark_links (s : State) (f m : Nat) : (s.mark f m).links = s.links := rfl
@[simp] theorem State.mark_outstanding (s : State) (f m : Nat) : (s.mark f m).outstanding = s.outstanding := rfl
@[simp] theorem State.mark_answers (s : State) (f m : Nat) : (s.mark f m).answers = s.answers := rfl
@[simp] theorem State.mark_nextTag (s : State) (f m : Nat) : (s.mark f m).nextTag = s.nextTag := rfl
@[simp] theorem State.mark_mgmt (s : State) (f m : Nat) : (s.mark f m).mgmt = s.mgmt := rfl
@[simp] theorem State.mark_power (s : State) (f m : Nat) : (s.mark f m).power = s.power := rfl
@[simp] theorem State.mark_rmap (s : State) (f m : Nat) : (s.mark f m).rmap = s.rmap := rfl
@[simp] theorem State.mark_sec (s : State) (f m : Nat) : (s.mark f m).sec = s.sec := rfl
@[simp] theorem State.mark_agenda (s : State) (f m : Nat) : (s.mark f m).agenda = s.agenda := rfl
@[simp] theorem State.mark_turn (s : State) (f m : Nat) : (s.mark f m).turn = s.turn := rfl
@[simp] theorem State.mark_cut (s : State) (f m : Nat) : (s.mark f m).cut = s.cut := rfl
@[simp] theorem State.mark_lag (s : State) (f m : Nat) : (s.mark f m).lag = s.lag := rfl
@[simp] theorem State.mark_older (s : State) (f m : Nat) : (s.mark f m).older = s.older := rfl
@[simp] theorem State.mark_hostNews (s : State) (f m : Nat) : (s.mark f m).hostNews = s.hostNews := rfl
@[simp] theorem State.mark_slow (s : State) (f m : Nat) : (s.mark f m).slow = s.slow := rfl
@[simp] theorem State.mark_ahead (s : State) (f m : Nat) : (s.mark f m).ahead = s.ahead := rfl
@[simp] theorem State.mark_rot (s : State) (f m : Nat) : (s.mark f m).rot = s.rot := rfl
@[simp] theorem State.mark_free (s : State) (f m : Nat) : (s.mark f m).free = s.free := rfl

@[simp] theorem State.setTlb_cur (s : State) (w : Tlb) (l : List Trans) : (s.setTlb w l).cur = s.cur := by
  cases w <;> rfl
@[simp] theorem State.setTlb_th (s : State) (w : Tlb) (l : List Trans) : (s.setTlb w l).th = s.th := by
  cases w <;> rfl
@[simp] theorem State.setTlb_others (s : State) (w : Tlb) (l : List Trans) : (s.setTlb w l).others = s.others := by
  cases w <;> rfl
@[simp] theorem State.setTlb_clusters (s : State) (w : Tlb) (l : List Trans) : (s.setTlb w l).clusters = s.clusters := by
  cases w <;> rfl
@[simp] theorem State.setTlb_dram (s : State) (w : Tlb) (l : List Trans) : (s.setTlb w l).dram = s.dram := by
  cases w <;> rfl
@[simp] theorem State.setTlb_dramPoison (s : State) (w : Tlb) (l : List Trans) : (s.setTlb w l).dramPoison = s.dramPoison := by
  cases w <;> rfl
@[simp] theorem State.setTlb_host (s : State) (w : Tlb) (l : List Trans) : (s.setTlb w l).host = s.host := by
  cases w <;> rfl
@[simp] theorem State.setTlb_hostPoison (s : State) (w : Tlb) (l : List Trans) : (s.setTlb w l).hostPoison = s.hostPoison := by
  cases w <;> rfl
@[simp] theorem State.setTlb_tags (s : State) (w : Tlb) (l : List Trans) : (s.setTlb w l).tags = s.tags := by
  cases w <;> rfl
@[simp] theorem State.setTlb_groups (s : State) (w : Tlb) (l : List Trans) : (s.setTlb w l).groups = s.groups := by
  cases w <;> rfl
@[simp] theorem State.setTlb_launches (s : State) (w : Tlb) (l : List Trans) : (s.setTlb w l).launches = s.launches := by
  cases w <;> rfl
@[simp] theorem State.setTlb_parts (s : State) (w : Tlb) (l : List Trans) : (s.setTlb w l).parts = s.parts := by
  cases w <;> rfl
@[simp] theorem State.setTlb_vis (s : State) (w : Tlb) (l : List Trans) : (s.setTlb w l).vis = s.vis := by
  cases w <;> rfl
@[simp] theorem State.setTlb_nextLaunch (s : State) (w : Tlb) (l : List Trans) : (s.setTlb w l).nextLaunch = s.nextLaunch := by
  cases w <;> rfl
@[simp] theorem State.setTlb_nextGroup (s : State) (w : Tlb) (l : List Trans) : (s.setTlb w l).nextGroup = s.nextGroup := by
  cases w <;> rfl
@[simp] theorem State.setTlb_migrations (s : State) (w : Tlb) (l : List Trans) : (s.setTlb w l).migrations = s.migrations := by
  cases w <;> rfl
@[simp] theorem State.setTlb_migRequests (s : State) (w : Tlb) (l : List Trans) : (s.setTlb w l).migRequests = s.migRequests := by
  cases w <;> rfl
@[simp] theorem State.setTlb_pool (s : State) (w : Tlb) (l : List Trans) : (s.setTlb w l).pool = s.pool := by
  cases w <;> rfl
@[simp] theorem State.setTlb_holdNanos (s : State) (w : Tlb) (l : List Trans) : (s.setTlb w l).holdNanos = s.holdNanos := by
  cases w <;> rfl
@[simp] theorem State.setTlb_nodes (s : State) (w : Tlb) (l : List Trans) : (s.setTlb w l).nodes = s.nodes := by
  cases w <;> rfl
@[simp] theorem State.setTlb_ksl (s : State) (w : Tlb) (l : List Trans) : (s.setTlb w l).ksl = s.ksl := by
  cases w <;> rfl
@[simp] theorem State.setTlb_peers (s : State) (w : Tlb) (l : List Trans) : (s.setTlb w l).peers = s.peers := by
  cases w <;> rfl
@[simp] theorem State.setTlb_links (s : State) (w : Tlb) (l : List Trans) : (s.setTlb w l).links = s.links := by
  cases w <;> rfl
@[simp] theorem State.setTlb_outstanding (s : State) (w : Tlb) (l : List Trans) : (s.setTlb w l).outstanding = s.outstanding := by
  cases w <;> rfl
@[simp] theorem State.setTlb_answers (s : State) (w : Tlb) (l : List Trans) : (s.setTlb w l).answers = s.answers := by
  cases w <;> rfl
@[simp] theorem State.setTlb_nextTag (s : State) (w : Tlb) (l : List Trans) : (s.setTlb w l).nextTag = s.nextTag := by
  cases w <;> rfl
@[simp] theorem State.setTlb_mgmt (s : State) (w : Tlb) (l : List Trans) : (s.setTlb w l).mgmt = s.mgmt := by
  cases w <;> rfl
@[simp] theorem State.setTlb_power (s : State) (w : Tlb) (l : List Trans) : (s.setTlb w l).power = s.power := by
  cases w <;> rfl
@[simp] theorem State.setTlb_rmap (s : State) (w : Tlb) (l : List Trans) : (s.setTlb w l).rmap = s.rmap := by
  cases w <;> rfl
@[simp] theorem State.setTlb_sec (s : State) (w : Tlb) (l : List Trans) : (s.setTlb w l).sec = s.sec := by
  cases w <;> rfl
@[simp] theorem State.setTlb_agenda (s : State) (w : Tlb) (l : List Trans) : (s.setTlb w l).agenda = s.agenda := by
  cases w <;> rfl
@[simp] theorem State.setTlb_turn (s : State) (w : Tlb) (l : List Trans) : (s.setTlb w l).turn = s.turn := by
  cases w <;> rfl
@[simp] theorem State.setTlb_cut (s : State) (w : Tlb) (l : List Trans) : (s.setTlb w l).cut = s.cut := by
  cases w <;> rfl
@[simp] theorem State.setTlb_lag (s : State) (w : Tlb) (l : List Trans) : (s.setTlb w l).lag = s.lag := by
  cases w <;> rfl
@[simp] theorem State.setTlb_older (s : State) (w : Tlb) (l : List Trans) : (s.setTlb w l).older = s.older := by
  cases w <;> rfl
@[simp] theorem State.setTlb_hostNews (s : State) (w : Tlb) (l : List Trans) : (s.setTlb w l).hostNews = s.hostNews := by
  cases w <;> rfl
@[simp] theorem State.setTlb_slow (s : State) (w : Tlb) (l : List Trans) : (s.setTlb w l).slow = s.slow := by
  cases w <;> rfl
@[simp] theorem State.setTlb_ahead (s : State) (w : Tlb) (l : List Trans) : (s.setTlb w l).ahead = s.ahead := by
  cases w <;> rfl
@[simp] theorem State.setTlb_rot (s : State) (w : Tlb) (l : List Trans) : (s.setTlb w l).rot = s.rot := by
  cases w <;> rfl
@[simp] theorem State.setTlb_free (s : State) (w : Tlb) (l : List Trans) : (s.setTlb w l).free = s.free := by
  cases w <;> rfl

@[simp] theorem State.send_cur (s : State) (p ty op st a : Nat) (d : List Byte) : (s.send p ty op st a d).cur = s.cur := rfl
@[simp] theorem State.send_th (s : State) (p ty op st a : Nat) (d : List Byte) : (s.send p ty op st a d).th = s.th := rfl
@[simp] theorem State.send_others (s : State) (p ty op st a : Nat) (d : List Byte) : (s.send p ty op st a d).others = s.others := rfl
@[simp] theorem State.send_cores (s : State) (p ty op st a : Nat) (d : List Byte) : (s.send p ty op st a d).cores = s.cores := rfl
@[simp] theorem State.send_units (s : State) (p ty op st a : Nat) (d : List Byte) : (s.send p ty op st a d).units = s.units := rfl
@[simp] theorem State.send_clusters (s : State) (p ty op st a : Nat) (d : List Byte) : (s.send p ty op st a d).clusters = s.clusters := rfl
@[simp] theorem State.send_dram (s : State) (p ty op st a : Nat) (d : List Byte) : (s.send p ty op st a d).dram = s.dram := rfl
@[simp] theorem State.send_dramPoison (s : State) (p ty op st a : Nat) (d : List Byte) : (s.send p ty op st a d).dramPoison = s.dramPoison := rfl
@[simp] theorem State.send_host (s : State) (p ty op st a : Nat) (d : List Byte) : (s.send p ty op st a d).host = s.host := rfl
@[simp] theorem State.send_hostPoison (s : State) (p ty op st a : Nat) (d : List Byte) : (s.send p ty op st a d).hostPoison = s.hostPoison := rfl
@[simp] theorem State.send_tags (s : State) (p ty op st a : Nat) (d : List Byte) : (s.send p ty op st a d).tags = s.tags := rfl
@[simp] theorem State.send_groups (s : State) (p ty op st a : Nat) (d : List Byte) : (s.send p ty op st a d).groups = s.groups := rfl
@[simp] theorem State.send_launches (s : State) (p ty op st a : Nat) (d : List Byte) : (s.send p ty op st a d).launches = s.launches := rfl
@[simp] theorem State.send_parts (s : State) (p ty op st a : Nat) (d : List Byte) : (s.send p ty op st a d).parts = s.parts := rfl
@[simp] theorem State.send_vis (s : State) (p ty op st a : Nat) (d : List Byte) : (s.send p ty op st a d).vis = s.vis := rfl
@[simp] theorem State.send_nextLaunch (s : State) (p ty op st a : Nat) (d : List Byte) : (s.send p ty op st a d).nextLaunch = s.nextLaunch := rfl
@[simp] theorem State.send_nextGroup (s : State) (p ty op st a : Nat) (d : List Byte) : (s.send p ty op st a d).nextGroup = s.nextGroup := rfl
@[simp] theorem State.send_migrations (s : State) (p ty op st a : Nat) (d : List Byte) : (s.send p ty op st a d).migrations = s.migrations := rfl
@[simp] theorem State.send_migRequests (s : State) (p ty op st a : Nat) (d : List Byte) : (s.send p ty op st a d).migRequests = s.migRequests := rfl
@[simp] theorem State.send_pool (s : State) (p ty op st a : Nat) (d : List Byte) : (s.send p ty op st a d).pool = s.pool := rfl
@[simp] theorem State.send_holdNanos (s : State) (p ty op st a : Nat) (d : List Byte) : (s.send p ty op st a d).holdNanos = s.holdNanos := rfl
@[simp] theorem State.send_nodes (s : State) (p ty op st a : Nat) (d : List Byte) : (s.send p ty op st a d).nodes = s.nodes := rfl
@[simp] theorem State.send_peers (s : State) (p ty op st a : Nat) (d : List Byte) : (s.send p ty op st a d).peers = s.peers := rfl
@[simp] theorem State.send_links (s : State) (p ty op st a : Nat) (d : List Byte) : (s.send p ty op st a d).links = s.links := rfl
@[simp] theorem State.send_outstanding (s : State) (p ty op st a : Nat) (d : List Byte) : (s.send p ty op st a d).outstanding = s.outstanding := rfl
@[simp] theorem State.send_answers (s : State) (p ty op st a : Nat) (d : List Byte) : (s.send p ty op st a d).answers = s.answers := rfl
@[simp] theorem State.send_mgmt (s : State) (p ty op st a : Nat) (d : List Byte) : (s.send p ty op st a d).mgmt = s.mgmt := rfl
@[simp] theorem State.send_power (s : State) (p ty op st a : Nat) (d : List Byte) : (s.send p ty op st a d).power = s.power := rfl
@[simp] theorem State.send_rmap (s : State) (p ty op st a : Nat) (d : List Byte) : (s.send p ty op st a d).rmap = s.rmap := rfl
@[simp] theorem State.send_sec (s : State) (p ty op st a : Nat) (d : List Byte) : (s.send p ty op st a d).sec = s.sec := rfl
@[simp] theorem State.send_agenda (s : State) (p ty op st a : Nat) (d : List Byte) : (s.send p ty op st a d).agenda = s.agenda := rfl
@[simp] theorem State.send_turn (s : State) (p ty op st a : Nat) (d : List Byte) : (s.send p ty op st a d).turn = s.turn := rfl
@[simp] theorem State.send_cut (s : State) (p ty op st a : Nat) (d : List Byte) : (s.send p ty op st a d).cut = s.cut := rfl
@[simp] theorem State.send_lag (s : State) (p ty op st a : Nat) (d : List Byte) : (s.send p ty op st a d).lag = s.lag := rfl
@[simp] theorem State.send_older (s : State) (p ty op st a : Nat) (d : List Byte) : (s.send p ty op st a d).older = s.older := rfl
@[simp] theorem State.send_hostNews (s : State) (p ty op st a : Nat) (d : List Byte) : (s.send p ty op st a d).hostNews = s.hostNews := rfl
@[simp] theorem State.send_slow (s : State) (p ty op st a : Nat) (d : List Byte) : (s.send p ty op st a d).slow = s.slow := rfl
@[simp] theorem State.send_ahead (s : State) (p ty op st a : Nat) (d : List Byte) : (s.send p ty op st a d).ahead = s.ahead := rfl
@[simp] theorem State.send_rot (s : State) (p ty op st a : Nat) (d : List Byte) : (s.send p ty op st a d).rot = s.rot := rfl
@[simp] theorem State.send_free (s : State) (p ty op st a : Nat) (d : List Byte) : (s.send p ty op st a d).free = s.free := rfl

@[simp] theorem State.noteFor_cur (s : State) (g p ty op a : Nat) (d : List Byte) : (s.noteFor g p ty op a d).cur = s.cur := by
  unfold State.noteFor; repeat' split
  all_goals simp [State.took]
@[simp] theorem State.noteFor_th (s : State) (g p ty op a : Nat) (d : List Byte) : (s.noteFor g p ty op a d).th = s.th := by
  unfold State.noteFor; repeat' split
  all_goals simp [State.took]
@[simp] theorem State.noteFor_others (s : State) (g p ty op a : Nat) (d : List Byte) : (s.noteFor g p ty op a d).others = s.others := by
  unfold State.noteFor; repeat' split
  all_goals simp [State.took]
@[simp] theorem State.noteFor_cores (s : State) (g p ty op a : Nat) (d : List Byte) : (s.noteFor g p ty op a d).cores = s.cores := by
  unfold State.noteFor; repeat' split
  all_goals simp [State.took]
@[simp] theorem State.noteFor_units (s : State) (g p ty op a : Nat) (d : List Byte) : (s.noteFor g p ty op a d).units = s.units := by
  unfold State.noteFor; repeat' split
  all_goals simp [State.took]
@[simp] theorem State.noteFor_clusters (s : State) (g p ty op a : Nat) (d : List Byte) : (s.noteFor g p ty op a d).clusters = s.clusters := by
  unfold State.noteFor; repeat' split
  all_goals simp [State.took]
@[simp] theorem State.noteFor_dram (s : State) (g p ty op a : Nat) (d : List Byte) : (s.noteFor g p ty op a d).dram = s.dram := by
  unfold State.noteFor; repeat' split
  all_goals simp [State.took]
@[simp] theorem State.noteFor_dramPoison (s : State) (g p ty op a : Nat) (d : List Byte) : (s.noteFor g p ty op a d).dramPoison = s.dramPoison := by
  unfold State.noteFor; repeat' split
  all_goals simp [State.took]
@[simp] theorem State.noteFor_host (s : State) (g p ty op a : Nat) (d : List Byte) : (s.noteFor g p ty op a d).host = s.host := by
  unfold State.noteFor; repeat' split
  all_goals simp [State.took]
@[simp] theorem State.noteFor_hostPoison (s : State) (g p ty op a : Nat) (d : List Byte) : (s.noteFor g p ty op a d).hostPoison = s.hostPoison := by
  unfold State.noteFor; repeat' split
  all_goals simp [State.took]
@[simp] theorem State.noteFor_tags (s : State) (g p ty op a : Nat) (d : List Byte) : (s.noteFor g p ty op a d).tags = s.tags := by
  unfold State.noteFor; repeat' split
  all_goals simp [State.took]
@[simp] theorem State.noteFor_groups (s : State) (g p ty op a : Nat) (d : List Byte) : (s.noteFor g p ty op a d).groups = s.groups := by
  unfold State.noteFor; repeat' split
  all_goals simp [State.took]
@[simp] theorem State.noteFor_launches (s : State) (g p ty op a : Nat) (d : List Byte) : (s.noteFor g p ty op a d).launches = s.launches := by
  unfold State.noteFor; repeat' split
  all_goals simp [State.took]
@[simp] theorem State.noteFor_parts (s : State) (g p ty op a : Nat) (d : List Byte) : (s.noteFor g p ty op a d).parts = s.parts := by
  unfold State.noteFor; repeat' split
  all_goals simp [State.took]
@[simp] theorem State.noteFor_vis (s : State) (g p ty op a : Nat) (d : List Byte) : (s.noteFor g p ty op a d).vis = s.vis := by
  unfold State.noteFor; repeat' split
  all_goals simp [State.took]
@[simp] theorem State.noteFor_nextLaunch (s : State) (g p ty op a : Nat) (d : List Byte) : (s.noteFor g p ty op a d).nextLaunch = s.nextLaunch := by
  unfold State.noteFor; repeat' split
  all_goals simp [State.took]
@[simp] theorem State.noteFor_nextGroup (s : State) (g p ty op a : Nat) (d : List Byte) : (s.noteFor g p ty op a d).nextGroup = s.nextGroup := by
  unfold State.noteFor; repeat' split
  all_goals simp [State.took]
@[simp] theorem State.noteFor_migrations (s : State) (g p ty op a : Nat) (d : List Byte) : (s.noteFor g p ty op a d).migrations = s.migrations := by
  unfold State.noteFor; repeat' split
  all_goals simp [State.took]
@[simp] theorem State.noteFor_migRequests (s : State) (g p ty op a : Nat) (d : List Byte) : (s.noteFor g p ty op a d).migRequests = s.migRequests := by
  unfold State.noteFor; repeat' split
  all_goals simp [State.took]
@[simp] theorem State.noteFor_pool (s : State) (g p ty op a : Nat) (d : List Byte) : (s.noteFor g p ty op a d).pool = s.pool := by
  unfold State.noteFor; repeat' split
  all_goals simp [State.took]
@[simp] theorem State.noteFor_holdNanos (s : State) (g p ty op a : Nat) (d : List Byte) : (s.noteFor g p ty op a d).holdNanos = s.holdNanos := by
  unfold State.noteFor; repeat' split
  all_goals simp [State.took]
@[simp] theorem State.noteFor_nodes (s : State) (g p ty op a : Nat) (d : List Byte) : (s.noteFor g p ty op a d).nodes = s.nodes := by
  unfold State.noteFor; repeat' split
  all_goals simp [State.took]
@[simp] theorem State.noteFor_peers (s : State) (g p ty op a : Nat) (d : List Byte) : (s.noteFor g p ty op a d).peers = s.peers := by
  unfold State.noteFor; repeat' split
  all_goals simp [State.took]
@[simp] theorem State.noteFor_links (s : State) (g p ty op a : Nat) (d : List Byte) : (s.noteFor g p ty op a d).links = s.links := by
  unfold State.noteFor; repeat' split
  all_goals simp [State.took]
@[simp] theorem State.noteFor_outstanding (s : State) (g p ty op a : Nat) (d : List Byte) : (s.noteFor g p ty op a d).outstanding = s.outstanding := by
  unfold State.noteFor; repeat' split
  all_goals simp [State.took]
@[simp] theorem State.noteFor_mgmt (s : State) (g p ty op a : Nat) (d : List Byte) : (s.noteFor g p ty op a d).mgmt = s.mgmt := by
  unfold State.noteFor; repeat' split
  all_goals simp [State.took]
@[simp] theorem State.noteFor_power (s : State) (g p ty op a : Nat) (d : List Byte) : (s.noteFor g p ty op a d).power = s.power := by
  unfold State.noteFor; repeat' split
  all_goals simp [State.took]
@[simp] theorem State.noteFor_rmap (s : State) (g p ty op a : Nat) (d : List Byte) : (s.noteFor g p ty op a d).rmap = s.rmap := by
  unfold State.noteFor; repeat' split
  all_goals simp [State.took]
@[simp] theorem State.noteFor_sec (s : State) (g p ty op a : Nat) (d : List Byte) : (s.noteFor g p ty op a d).sec = s.sec := by
  unfold State.noteFor; repeat' split
  all_goals simp [State.took]
@[simp] theorem State.noteFor_agenda (s : State) (g p ty op a : Nat) (d : List Byte) : (s.noteFor g p ty op a d).agenda = s.agenda := by
  unfold State.noteFor; repeat' split
  all_goals simp [State.took]
@[simp] theorem State.noteFor_turn (s : State) (g p ty op a : Nat) (d : List Byte) : (s.noteFor g p ty op a d).turn = s.turn := by
  unfold State.noteFor; repeat' split
  all_goals simp [State.took]
@[simp] theorem State.noteFor_cut (s : State) (g p ty op a : Nat) (d : List Byte) : (s.noteFor g p ty op a d).cut = s.cut := by
  unfold State.noteFor; repeat' split
  all_goals simp [State.took]
@[simp] theorem State.noteFor_lag (s : State) (g p ty op a : Nat) (d : List Byte) : (s.noteFor g p ty op a d).lag = s.lag := by
  unfold State.noteFor; repeat' split
  all_goals simp [State.took]
@[simp] theorem State.noteFor_older (s : State) (g p ty op a : Nat) (d : List Byte) : (s.noteFor g p ty op a d).older = s.older := by
  unfold State.noteFor; repeat' split
  all_goals simp [State.took]
@[simp] theorem State.noteFor_hostNews (s : State) (g p ty op a : Nat) (d : List Byte) : (s.noteFor g p ty op a d).hostNews = s.hostNews := by
  unfold State.noteFor; repeat' split
  all_goals simp [State.took]
@[simp] theorem State.noteFor_slow (s : State) (g p ty op a : Nat) (d : List Byte) : (s.noteFor g p ty op a d).slow = s.slow := by
  unfold State.noteFor; repeat' split
  all_goals simp [State.took]
@[simp] theorem State.noteFor_ahead (s : State) (g p ty op a : Nat) (d : List Byte) : (s.noteFor g p ty op a d).ahead = s.ahead := by
  unfold State.noteFor; repeat' split
  all_goals simp [State.took]
@[simp] theorem State.noteFor_rot (s : State) (g p ty op a : Nat) (d : List Byte) : (s.noteFor g p ty op a d).rot = s.rot := by
  unfold State.noteFor; repeat' split
  all_goals simp [State.took]
@[simp] theorem State.noteFor_free (s : State) (g p ty op a : Nat) (d : List Byte) : (s.noteFor g p ty op a d).free = s.free := by
  unfold State.noteFor; repeat' split
  all_goals simp [State.took]

@[simp] theorem State.note_cur (s : State) (ty op : Nat) (l : Loc) (d : List Byte) : (s.note ty op l d).cur = s.cur := by
  unfold State.note; split <;> simp
@[simp] theorem State.note_th (s : State) (ty op : Nat) (l : Loc) (d : List Byte) : (s.note ty op l d).th = s.th := by
  unfold State.note; split <;> simp
@[simp] theorem State.note_others (s : State) (ty op : Nat) (l : Loc) (d : List Byte) : (s.note ty op l d).others = s.others := by
  unfold State.note; split <;> simp
@[simp] theorem State.note_cores (s : State) (ty op : Nat) (l : Loc) (d : List Byte) : (s.note ty op l d).cores = s.cores := by
  unfold State.note; split <;> simp
@[simp] theorem State.note_units (s : State) (ty op : Nat) (l : Loc) (d : List Byte) : (s.note ty op l d).units = s.units := by
  unfold State.note; split <;> simp
@[simp] theorem State.note_clusters (s : State) (ty op : Nat) (l : Loc) (d : List Byte) : (s.note ty op l d).clusters = s.clusters := by
  unfold State.note; split <;> simp
@[simp] theorem State.note_dram (s : State) (ty op : Nat) (l : Loc) (d : List Byte) : (s.note ty op l d).dram = s.dram := by
  unfold State.note; split <;> simp
@[simp] theorem State.note_dramPoison (s : State) (ty op : Nat) (l : Loc) (d : List Byte) : (s.note ty op l d).dramPoison = s.dramPoison := by
  unfold State.note; split <;> simp
@[simp] theorem State.note_host (s : State) (ty op : Nat) (l : Loc) (d : List Byte) : (s.note ty op l d).host = s.host := by
  unfold State.note; split <;> simp
@[simp] theorem State.note_hostPoison (s : State) (ty op : Nat) (l : Loc) (d : List Byte) : (s.note ty op l d).hostPoison = s.hostPoison := by
  unfold State.note; split <;> simp
@[simp] theorem State.note_tags (s : State) (ty op : Nat) (l : Loc) (d : List Byte) : (s.note ty op l d).tags = s.tags := by
  unfold State.note; split <;> simp
@[simp] theorem State.note_groups (s : State) (ty op : Nat) (l : Loc) (d : List Byte) : (s.note ty op l d).groups = s.groups := by
  unfold State.note; split <;> simp
@[simp] theorem State.note_launches (s : State) (ty op : Nat) (l : Loc) (d : List Byte) : (s.note ty op l d).launches = s.launches := by
  unfold State.note; split <;> simp
@[simp] theorem State.note_parts (s : State) (ty op : Nat) (l : Loc) (d : List Byte) : (s.note ty op l d).parts = s.parts := by
  unfold State.note; split <;> simp
@[simp] theorem State.note_vis (s : State) (ty op : Nat) (l : Loc) (d : List Byte) : (s.note ty op l d).vis = s.vis := by
  unfold State.note; split <;> simp
@[simp] theorem State.note_nextLaunch (s : State) (ty op : Nat) (l : Loc) (d : List Byte) : (s.note ty op l d).nextLaunch = s.nextLaunch := by
  unfold State.note; split <;> simp
@[simp] theorem State.note_nextGroup (s : State) (ty op : Nat) (l : Loc) (d : List Byte) : (s.note ty op l d).nextGroup = s.nextGroup := by
  unfold State.note; split <;> simp
@[simp] theorem State.note_migrations (s : State) (ty op : Nat) (l : Loc) (d : List Byte) : (s.note ty op l d).migrations = s.migrations := by
  unfold State.note; split <;> simp
@[simp] theorem State.note_migRequests (s : State) (ty op : Nat) (l : Loc) (d : List Byte) : (s.note ty op l d).migRequests = s.migRequests := by
  unfold State.note; split <;> simp
@[simp] theorem State.note_pool (s : State) (ty op : Nat) (l : Loc) (d : List Byte) : (s.note ty op l d).pool = s.pool := by
  unfold State.note; split <;> simp
@[simp] theorem State.note_holdNanos (s : State) (ty op : Nat) (l : Loc) (d : List Byte) : (s.note ty op l d).holdNanos = s.holdNanos := by
  unfold State.note; split <;> simp
@[simp] theorem State.note_nodes (s : State) (ty op : Nat) (l : Loc) (d : List Byte) : (s.note ty op l d).nodes = s.nodes := by
  unfold State.note; split <;> simp
@[simp] theorem State.note_peers (s : State) (ty op : Nat) (l : Loc) (d : List Byte) : (s.note ty op l d).peers = s.peers := by
  unfold State.note; split <;> simp
@[simp] theorem State.note_links (s : State) (ty op : Nat) (l : Loc) (d : List Byte) : (s.note ty op l d).links = s.links := by
  unfold State.note; split <;> simp
@[simp] theorem State.note_outstanding (s : State) (ty op : Nat) (l : Loc) (d : List Byte) : (s.note ty op l d).outstanding = s.outstanding := by
  unfold State.note; split <;> simp
@[simp] theorem State.note_mgmt (s : State) (ty op : Nat) (l : Loc) (d : List Byte) : (s.note ty op l d).mgmt = s.mgmt := by
  unfold State.note; split <;> simp
@[simp] theorem State.note_power (s : State) (ty op : Nat) (l : Loc) (d : List Byte) : (s.note ty op l d).power = s.power := by
  unfold State.note; split <;> simp
@[simp] theorem State.note_rmap (s : State) (ty op : Nat) (l : Loc) (d : List Byte) : (s.note ty op l d).rmap = s.rmap := by
  unfold State.note; split <;> simp
@[simp] theorem State.note_sec (s : State) (ty op : Nat) (l : Loc) (d : List Byte) : (s.note ty op l d).sec = s.sec := by
  unfold State.note; split <;> simp
@[simp] theorem State.note_agenda (s : State) (ty op : Nat) (l : Loc) (d : List Byte) : (s.note ty op l d).agenda = s.agenda := by
  unfold State.note; split <;> simp
@[simp] theorem State.note_turn (s : State) (ty op : Nat) (l : Loc) (d : List Byte) : (s.note ty op l d).turn = s.turn := by
  unfold State.note; split <;> simp
@[simp] theorem State.note_cut (s : State) (ty op : Nat) (l : Loc) (d : List Byte) : (s.note ty op l d).cut = s.cut := by
  unfold State.note; split <;> simp
@[simp] theorem State.note_lag (s : State) (ty op : Nat) (l : Loc) (d : List Byte) : (s.note ty op l d).lag = s.lag := by
  unfold State.note; split <;> simp
@[simp] theorem State.note_older (s : State) (ty op : Nat) (l : Loc) (d : List Byte) : (s.note ty op l d).older = s.older := by
  unfold State.note; split <;> simp
@[simp] theorem State.note_hostNews (s : State) (ty op : Nat) (l : Loc) (d : List Byte) : (s.note ty op l d).hostNews = s.hostNews := by
  unfold State.note; split <;> simp
@[simp] theorem State.note_slow (s : State) (ty op : Nat) (l : Loc) (d : List Byte) : (s.note ty op l d).slow = s.slow := by
  unfold State.note; split <;> simp
@[simp] theorem State.note_ahead (s : State) (ty op : Nat) (l : Loc) (d : List Byte) : (s.note ty op l d).ahead = s.ahead := by
  unfold State.note; split <;> simp
@[simp] theorem State.note_rot (s : State) (ty op : Nat) (l : Loc) (d : List Byte) : (s.note ty op l d).rot = s.rot := by
  unfold State.note; split <;> simp
@[simp] theorem State.note_free (s : State) (ty op : Nat) (l : Loc) (d : List Byte) : (s.note ty op l d).free = s.free := by
  unfold State.note; split <;> simp

@[simp] theorem State.keepOld_cur (s : State) (l : Loc) (n x : Nat) : (s.keepOld l n x).cur = s.cur := by
  unfold State.keepOld; repeat' split
  all_goals rfl
@[simp] theorem State.keepOld_th (s : State) (l : Loc) (n x : Nat) : (s.keepOld l n x).th = s.th := by
  unfold State.keepOld; repeat' split
  all_goals rfl
@[simp] theorem State.keepOld_others (s : State) (l : Loc) (n x : Nat) : (s.keepOld l n x).others = s.others := by
  unfold State.keepOld; repeat' split
  all_goals rfl
@[simp] theorem State.keepOld_cores (s : State) (l : Loc) (n x : Nat) : (s.keepOld l n x).cores = s.cores := by
  unfold State.keepOld; repeat' split
  all_goals rfl
@[simp] theorem State.keepOld_units (s : State) (l : Loc) (n x : Nat) : (s.keepOld l n x).units = s.units := by
  unfold State.keepOld; repeat' split
  all_goals rfl
@[simp] theorem State.keepOld_clusters (s : State) (l : Loc) (n x : Nat) : (s.keepOld l n x).clusters = s.clusters := by
  unfold State.keepOld; repeat' split
  all_goals rfl
@[simp] theorem State.keepOld_dram (s : State) (l : Loc) (n x : Nat) : (s.keepOld l n x).dram = s.dram := by
  unfold State.keepOld; repeat' split
  all_goals rfl
@[simp] theorem State.keepOld_dramPoison (s : State) (l : Loc) (n x : Nat) : (s.keepOld l n x).dramPoison = s.dramPoison := by
  unfold State.keepOld; repeat' split
  all_goals rfl
@[simp] theorem State.keepOld_host (s : State) (l : Loc) (n x : Nat) : (s.keepOld l n x).host = s.host := by
  unfold State.keepOld; repeat' split
  all_goals rfl
@[simp] theorem State.keepOld_hostPoison (s : State) (l : Loc) (n x : Nat) : (s.keepOld l n x).hostPoison = s.hostPoison := by
  unfold State.keepOld; repeat' split
  all_goals rfl
@[simp] theorem State.keepOld_tags (s : State) (l : Loc) (n x : Nat) : (s.keepOld l n x).tags = s.tags := by
  unfold State.keepOld; repeat' split
  all_goals rfl
@[simp] theorem State.keepOld_groups (s : State) (l : Loc) (n x : Nat) : (s.keepOld l n x).groups = s.groups := by
  unfold State.keepOld; repeat' split
  all_goals rfl
@[simp] theorem State.keepOld_launches (s : State) (l : Loc) (n x : Nat) : (s.keepOld l n x).launches = s.launches := by
  unfold State.keepOld; repeat' split
  all_goals rfl
@[simp] theorem State.keepOld_parts (s : State) (l : Loc) (n x : Nat) : (s.keepOld l n x).parts = s.parts := by
  unfold State.keepOld; repeat' split
  all_goals rfl
@[simp] theorem State.keepOld_vis (s : State) (l : Loc) (n x : Nat) : (s.keepOld l n x).vis = s.vis := by
  unfold State.keepOld; repeat' split
  all_goals rfl
@[simp] theorem State.keepOld_nextLaunch (s : State) (l : Loc) (n x : Nat) : (s.keepOld l n x).nextLaunch = s.nextLaunch := by
  unfold State.keepOld; repeat' split
  all_goals rfl
@[simp] theorem State.keepOld_nextGroup (s : State) (l : Loc) (n x : Nat) : (s.keepOld l n x).nextGroup = s.nextGroup := by
  unfold State.keepOld; repeat' split
  all_goals rfl
@[simp] theorem State.keepOld_migrations (s : State) (l : Loc) (n x : Nat) : (s.keepOld l n x).migrations = s.migrations := by
  unfold State.keepOld; repeat' split
  all_goals rfl
@[simp] theorem State.keepOld_migRequests (s : State) (l : Loc) (n x : Nat) : (s.keepOld l n x).migRequests = s.migRequests := by
  unfold State.keepOld; repeat' split
  all_goals rfl
@[simp] theorem State.keepOld_pool (s : State) (l : Loc) (n x : Nat) : (s.keepOld l n x).pool = s.pool := by
  unfold State.keepOld; repeat' split
  all_goals rfl
@[simp] theorem State.keepOld_holdNanos (s : State) (l : Loc) (n x : Nat) : (s.keepOld l n x).holdNanos = s.holdNanos := by
  unfold State.keepOld; repeat' split
  all_goals rfl
@[simp] theorem State.keepOld_nodes (s : State) (l : Loc) (n x : Nat) : (s.keepOld l n x).nodes = s.nodes := by
  unfold State.keepOld; repeat' split
  all_goals rfl
@[simp] theorem State.keepOld_peers (s : State) (l : Loc) (n x : Nat) : (s.keepOld l n x).peers = s.peers := by
  unfold State.keepOld; repeat' split
  all_goals rfl
@[simp] theorem State.keepOld_links (s : State) (l : Loc) (n x : Nat) : (s.keepOld l n x).links = s.links := by
  unfold State.keepOld; repeat' split
  all_goals rfl
@[simp] theorem State.keepOld_outstanding (s : State) (l : Loc) (n x : Nat) : (s.keepOld l n x).outstanding = s.outstanding := by
  unfold State.keepOld; repeat' split
  all_goals rfl
@[simp] theorem State.keepOld_answers (s : State) (l : Loc) (n x : Nat) : (s.keepOld l n x).answers = s.answers := by
  unfold State.keepOld; repeat' split
  all_goals rfl
@[simp] theorem State.keepOld_nextTag (s : State) (l : Loc) (n x : Nat) : (s.keepOld l n x).nextTag = s.nextTag := by
  unfold State.keepOld; repeat' split
  all_goals rfl
@[simp] theorem State.keepOld_mgmt (s : State) (l : Loc) (n x : Nat) : (s.keepOld l n x).mgmt = s.mgmt := by
  unfold State.keepOld; repeat' split
  all_goals rfl
@[simp] theorem State.keepOld_power (s : State) (l : Loc) (n x : Nat) : (s.keepOld l n x).power = s.power := by
  unfold State.keepOld; repeat' split
  all_goals rfl
@[simp] theorem State.keepOld_rmap (s : State) (l : Loc) (n x : Nat) : (s.keepOld l n x).rmap = s.rmap := by
  unfold State.keepOld; repeat' split
  all_goals rfl
@[simp] theorem State.keepOld_sec (s : State) (l : Loc) (n x : Nat) : (s.keepOld l n x).sec = s.sec := by
  unfold State.keepOld; repeat' split
  all_goals rfl
@[simp] theorem State.keepOld_agenda (s : State) (l : Loc) (n x : Nat) : (s.keepOld l n x).agenda = s.agenda := by
  unfold State.keepOld; repeat' split
  all_goals rfl
@[simp] theorem State.keepOld_turn (s : State) (l : Loc) (n x : Nat) : (s.keepOld l n x).turn = s.turn := by
  unfold State.keepOld; repeat' split
  all_goals rfl
@[simp] theorem State.keepOld_cut (s : State) (l : Loc) (n x : Nat) : (s.keepOld l n x).cut = s.cut := by
  unfold State.keepOld; repeat' split
  all_goals rfl
@[simp] theorem State.keepOld_lag (s : State) (l : Loc) (n x : Nat) : (s.keepOld l n x).lag = s.lag := by
  unfold State.keepOld; repeat' split
  all_goals rfl
@[simp] theorem State.keepOld_older (s : State) (l : Loc) (n x : Nat) : (s.keepOld l n x).older = s.older := by
  unfold State.keepOld; repeat' split
  all_goals rfl
@[simp] theorem State.keepOld_hostNews (s : State) (l : Loc) (n x : Nat) : (s.keepOld l n x).hostNews = s.hostNews := by
  unfold State.keepOld; repeat' split
  all_goals rfl
@[simp] theorem State.keepOld_slow (s : State) (l : Loc) (n x : Nat) : (s.keepOld l n x).slow = s.slow := by
  unfold State.keepOld; repeat' split
  all_goals rfl
@[simp] theorem State.keepOld_ahead (s : State) (l : Loc) (n x : Nat) : (s.keepOld l n x).ahead = s.ahead := by
  unfold State.keepOld; repeat' split
  all_goals rfl
@[simp] theorem State.keepOld_rot (s : State) (l : Loc) (n x : Nat) : (s.keepOld l n x).rot = s.rot := by
  unfold State.keepOld; repeat' split
  all_goals rfl
@[simp] theorem State.keepOld_free (s : State) (l : Loc) (n x : Nat) : (s.keepOld l n x).free = s.free := by
  unfold State.keepOld; repeat' split
  all_goals rfl

@[simp] theorem State.askHost_cur (s : State) (g p a n : Nat) : (s.askHost g p a n).cur = s.cur := by
  unfold State.askHost; split <;> simp
@[simp] theorem State.askHost_th (s : State) (g p a n : Nat) : (s.askHost g p a n).th = s.th := by
  unfold State.askHost; split <;> simp
@[simp] theorem State.askHost_others (s : State) (g p a n : Nat) : (s.askHost g p a n).others = s.others := by
  unfold State.askHost; split <;> simp
@[simp] theorem State.askHost_cores (s : State) (g p a n : Nat) : (s.askHost g p a n).cores = s.cores := by
  unfold State.askHost; split <;> simp
@[simp] theorem State.askHost_units (s : State) (g p a n : Nat) : (s.askHost g p a n).units = s.units := by
  unfold State.askHost; split <;> simp
@[simp] theorem State.askHost_clusters (s : State) (g p a n : Nat) : (s.askHost g p a n).clusters = s.clusters := by
  unfold State.askHost; split <;> simp
@[simp] theorem State.askHost_dram (s : State) (g p a n : Nat) : (s.askHost g p a n).dram = s.dram := by
  unfold State.askHost; split <;> simp
@[simp] theorem State.askHost_dramPoison (s : State) (g p a n : Nat) : (s.askHost g p a n).dramPoison = s.dramPoison := by
  unfold State.askHost; split <;> simp
@[simp] theorem State.askHost_host (s : State) (g p a n : Nat) : (s.askHost g p a n).host = s.host := by
  unfold State.askHost; split <;> simp
@[simp] theorem State.askHost_hostPoison (s : State) (g p a n : Nat) : (s.askHost g p a n).hostPoison = s.hostPoison := by
  unfold State.askHost; split <;> simp
@[simp] theorem State.askHost_tags (s : State) (g p a n : Nat) : (s.askHost g p a n).tags = s.tags := by
  unfold State.askHost; split <;> simp
@[simp] theorem State.askHost_groups (s : State) (g p a n : Nat) : (s.askHost g p a n).groups = s.groups := by
  unfold State.askHost; split <;> simp
@[simp] theorem State.askHost_launches (s : State) (g p a n : Nat) : (s.askHost g p a n).launches = s.launches := by
  unfold State.askHost; split <;> simp
@[simp] theorem State.askHost_parts (s : State) (g p a n : Nat) : (s.askHost g p a n).parts = s.parts := by
  unfold State.askHost; split <;> simp
@[simp] theorem State.askHost_vis (s : State) (g p a n : Nat) : (s.askHost g p a n).vis = s.vis := by
  unfold State.askHost; split <;> simp
@[simp] theorem State.askHost_nextLaunch (s : State) (g p a n : Nat) : (s.askHost g p a n).nextLaunch = s.nextLaunch := by
  unfold State.askHost; split <;> simp
@[simp] theorem State.askHost_nextGroup (s : State) (g p a n : Nat) : (s.askHost g p a n).nextGroup = s.nextGroup := by
  unfold State.askHost; split <;> simp
@[simp] theorem State.askHost_migrations (s : State) (g p a n : Nat) : (s.askHost g p a n).migrations = s.migrations := by
  unfold State.askHost; split <;> simp
@[simp] theorem State.askHost_migRequests (s : State) (g p a n : Nat) : (s.askHost g p a n).migRequests = s.migRequests := by
  unfold State.askHost; split <;> simp
@[simp] theorem State.askHost_pool (s : State) (g p a n : Nat) : (s.askHost g p a n).pool = s.pool := by
  unfold State.askHost; split <;> simp
@[simp] theorem State.askHost_holdNanos (s : State) (g p a n : Nat) : (s.askHost g p a n).holdNanos = s.holdNanos := by
  unfold State.askHost; split <;> simp
@[simp] theorem State.askHost_nodes (s : State) (g p a n : Nat) : (s.askHost g p a n).nodes = s.nodes := by
  unfold State.askHost; split <;> simp
@[simp] theorem State.askHost_peers (s : State) (g p a n : Nat) : (s.askHost g p a n).peers = s.peers := by
  unfold State.askHost; split <;> simp
@[simp] theorem State.askHost_links (s : State) (g p a n : Nat) : (s.askHost g p a n).links = s.links := by
  unfold State.askHost; split <;> simp
@[simp] theorem State.askHost_answers (s : State) (g p a n : Nat) : (s.askHost g p a n).answers = s.answers := by
  unfold State.askHost; split <;> simp
@[simp] theorem State.askHost_mgmt (s : State) (g p a n : Nat) : (s.askHost g p a n).mgmt = s.mgmt := by
  unfold State.askHost; split <;> simp
@[simp] theorem State.askHost_power (s : State) (g p a n : Nat) : (s.askHost g p a n).power = s.power := by
  unfold State.askHost; split <;> simp
@[simp] theorem State.askHost_rmap (s : State) (g p a n : Nat) : (s.askHost g p a n).rmap = s.rmap := by
  unfold State.askHost; split <;> simp
@[simp] theorem State.askHost_sec (s : State) (g p a n : Nat) : (s.askHost g p a n).sec = s.sec := by
  unfold State.askHost; split <;> simp
@[simp] theorem State.askHost_agenda (s : State) (g p a n : Nat) : (s.askHost g p a n).agenda = s.agenda := by
  unfold State.askHost; split <;> simp
@[simp] theorem State.askHost_turn (s : State) (g p a n : Nat) : (s.askHost g p a n).turn = s.turn := by
  unfold State.askHost; split <;> simp
@[simp] theorem State.askHost_cut (s : State) (g p a n : Nat) : (s.askHost g p a n).cut = s.cut := by
  unfold State.askHost; split <;> simp
@[simp] theorem State.askHost_lag (s : State) (g p a n : Nat) : (s.askHost g p a n).lag = s.lag := by
  unfold State.askHost; split <;> simp
@[simp] theorem State.askHost_older (s : State) (g p a n : Nat) : (s.askHost g p a n).older = s.older := by
  unfold State.askHost; split <;> simp
@[simp] theorem State.askHost_hostNews (s : State) (g p a n : Nat) : (s.askHost g p a n).hostNews = s.hostNews := by
  unfold State.askHost; split <;> simp
@[simp] theorem State.askHost_slow (s : State) (g p a n : Nat) : (s.askHost g p a n).slow = s.slow := by
  unfold State.askHost; split <;> simp
@[simp] theorem State.askHost_ahead (s : State) (g p a n : Nat) : (s.askHost g p a n).ahead = s.ahead := by
  unfold State.askHost; split <;> simp
@[simp] theorem State.askHost_rot (s : State) (g p a n : Nat) : (s.askHost g p a n).rot = s.rot := by
  unfold State.askHost; split <;> simp
@[simp] theorem State.askHost_free (s : State) (g p a n : Nat) : (s.askHost g p a n).free = s.free := by
  unfold State.askHost; split <;> simp

@[simp] theorem State.put_cur (s : State) (l : Loc) (n x : Nat) : (s.put l n x).cur = s.cur := by
  unfold State.put; split
  · rfl
  · repeat' split
    all_goals rfl
  · simp
@[simp] theorem State.put_th (s : State) (l : Loc) (n x : Nat) : (s.put l n x).th = s.th := by
  unfold State.put; split
  · rfl
  · repeat' split
    all_goals rfl
  · simp
@[simp] theorem State.put_others (s : State) (l : Loc) (n x : Nat) : (s.put l n x).others = s.others := by
  unfold State.put; split
  · rfl
  · repeat' split
    all_goals rfl
  · simp
@[simp] theorem State.put_units (s : State) (l : Loc) (n x : Nat) : (s.put l n x).units = s.units := by
  unfold State.put; split
  · rfl
  · repeat' split
    all_goals rfl
  · simp
@[simp] theorem State.put_clusters (s : State) (l : Loc) (n x : Nat) : (s.put l n x).clusters = s.clusters := by
  unfold State.put; split
  · rfl
  · repeat' split
    all_goals rfl
  · simp
@[simp] theorem State.put_tags (s : State) (l : Loc) (n x : Nat) : (s.put l n x).tags = s.tags := by
  unfold State.put; split
  · rfl
  · repeat' split
    all_goals rfl
  · simp
@[simp] theorem State.put_groups (s : State) (l : Loc) (n x : Nat) : (s.put l n x).groups = s.groups := by
  unfold State.put; split
  · rfl
  · repeat' split
    all_goals rfl
  · simp
@[simp] theorem State.put_launches (s : State) (l : Loc) (n x : Nat) : (s.put l n x).launches = s.launches := by
  unfold State.put; split
  · rfl
  · repeat' split
    all_goals rfl
  · simp
@[simp] theorem State.put_parts (s : State) (l : Loc) (n x : Nat) : (s.put l n x).parts = s.parts := by
  unfold State.put; split
  · rfl
  · repeat' split
    all_goals rfl
  · simp
@[simp] theorem State.put_vis (s : State) (l : Loc) (n x : Nat) : (s.put l n x).vis = s.vis := by
  unfold State.put; split
  · rfl
  · repeat' split
    all_goals rfl
  · simp
@[simp] theorem State.put_nextLaunch (s : State) (l : Loc) (n x : Nat) : (s.put l n x).nextLaunch = s.nextLaunch := by
  unfold State.put; split
  · rfl
  · repeat' split
    all_goals rfl
  · simp
@[simp] theorem State.put_nextGroup (s : State) (l : Loc) (n x : Nat) : (s.put l n x).nextGroup = s.nextGroup := by
  unfold State.put; split
  · rfl
  · repeat' split
    all_goals rfl
  · simp
@[simp] theorem State.put_migrations (s : State) (l : Loc) (n x : Nat) : (s.put l n x).migrations = s.migrations := by
  unfold State.put; split
  · rfl
  · repeat' split
    all_goals rfl
  · simp
@[simp] theorem State.put_migRequests (s : State) (l : Loc) (n x : Nat) : (s.put l n x).migRequests = s.migRequests := by
  unfold State.put; split
  · rfl
  · repeat' split
    all_goals rfl
  · simp
@[simp] theorem State.put_pool (s : State) (l : Loc) (n x : Nat) : (s.put l n x).pool = s.pool := by
  unfold State.put; split
  · rfl
  · repeat' split
    all_goals rfl
  · simp
@[simp] theorem State.put_holdNanos (s : State) (l : Loc) (n x : Nat) : (s.put l n x).holdNanos = s.holdNanos := by
  unfold State.put; split
  · rfl
  · repeat' split
    all_goals rfl
  · simp
@[simp] theorem State.put_nodes (s : State) (l : Loc) (n x : Nat) : (s.put l n x).nodes = s.nodes := by
  unfold State.put; split
  · rfl
  · repeat' split
    all_goals rfl
  · simp
@[simp] theorem State.put_peers (s : State) (l : Loc) (n x : Nat) : (s.put l n x).peers = s.peers := by
  unfold State.put; split
  · rfl
  · repeat' split
    all_goals rfl
  · simp
@[simp] theorem State.put_links (s : State) (l : Loc) (n x : Nat) : (s.put l n x).links = s.links := by
  unfold State.put; split
  · rfl
  · repeat' split
    all_goals rfl
  · simp
@[simp] theorem State.put_outstanding (s : State) (l : Loc) (n x : Nat) : (s.put l n x).outstanding = s.outstanding := by
  unfold State.put; split
  · rfl
  · repeat' split
    all_goals rfl
  · simp
@[simp] theorem State.put_answers (s : State) (l : Loc) (n x : Nat) : (s.put l n x).answers = s.answers := by
  unfold State.put; split
  · rfl
  · repeat' split
    all_goals rfl
  · simp
@[simp] theorem State.put_nextTag (s : State) (l : Loc) (n x : Nat) : (s.put l n x).nextTag = s.nextTag := by
  unfold State.put; split
  · rfl
  · repeat' split
    all_goals rfl
  · simp
@[simp] theorem State.put_power (s : State) (l : Loc) (n x : Nat) : (s.put l n x).power = s.power := by
  unfold State.put; split
  · rfl
  · repeat' split
    all_goals rfl
  · simp
@[simp] theorem State.put_rmap (s : State) (l : Loc) (n x : Nat) : (s.put l n x).rmap = s.rmap := by
  unfold State.put; split
  · rfl
  · repeat' split
    all_goals rfl
  · simp
@[simp] theorem State.put_sec (s : State) (l : Loc) (n x : Nat) : (s.put l n x).sec = s.sec := by
  unfold State.put; split
  · rfl
  · repeat' split
    all_goals rfl
  · simp
@[simp] theorem State.put_agenda (s : State) (l : Loc) (n x : Nat) : (s.put l n x).agenda = s.agenda := by
  unfold State.put; split
  · rfl
  · repeat' split
    all_goals rfl
  · simp
@[simp] theorem State.put_turn (s : State) (l : Loc) (n x : Nat) : (s.put l n x).turn = s.turn := by
  unfold State.put; split
  · rfl
  · repeat' split
    all_goals rfl
  · simp
@[simp] theorem State.put_cut (s : State) (l : Loc) (n x : Nat) : (s.put l n x).cut = s.cut := by
  unfold State.put; split
  · rfl
  · repeat' split
    all_goals rfl
  · simp
@[simp] theorem State.put_lag (s : State) (l : Loc) (n x : Nat) : (s.put l n x).lag = s.lag := by
  unfold State.put; split
  · rfl
  · repeat' split
    all_goals rfl
  · simp
@[simp] theorem State.put_older (s : State) (l : Loc) (n x : Nat) : (s.put l n x).older = s.older := by
  unfold State.put; split
  · rfl
  · repeat' split
    all_goals rfl
  · simp
@[simp] theorem State.put_hostNews (s : State) (l : Loc) (n x : Nat) : (s.put l n x).hostNews = s.hostNews := by
  unfold State.put; split
  · rfl
  · repeat' split
    all_goals rfl
  · simp
@[simp] theorem State.put_slow (s : State) (l : Loc) (n x : Nat) : (s.put l n x).slow = s.slow := by
  unfold State.put; split
  · rfl
  · repeat' split
    all_goals rfl
  · simp
@[simp] theorem State.put_ahead (s : State) (l : Loc) (n x : Nat) : (s.put l n x).ahead = s.ahead := by
  unfold State.put; split
  · rfl
  · repeat' split
    all_goals rfl
  · simp
@[simp] theorem State.put_rot (s : State) (l : Loc) (n x : Nat) : (s.put l n x).rot = s.rot := by
  unfold State.put; split
  · rfl
  · repeat' split
    all_goals rfl
  · simp
@[simp] theorem State.put_free (s : State) (l : Loc) (n x : Nat) : (s.put l n x).free = s.free := by
  unfold State.put; split
  · rfl
  · repeat' split
    all_goals rfl
  · simp

@[simp] theorem State.putBreak_cur (s : State) (l : Loc) (n x : Nat) : (s.putBreak l n x).cur = s.cur := by
  simp [State.putBreak]
@[simp] theorem State.putBreak_th (s : State) (l : Loc) (n x : Nat) : (s.putBreak l n x).th = s.th := by
  simp [State.putBreak]
@[simp] theorem State.putBreak_others (s : State) (l : Loc) (n x : Nat) : (s.putBreak l n x).others = s.others := by
  simp [State.putBreak]
@[simp] theorem State.putBreak_units (s : State) (l : Loc) (n x : Nat) : (s.putBreak l n x).units = s.units := by
  simp [State.putBreak]
@[simp] theorem State.putBreak_clusters (s : State) (l : Loc) (n x : Nat) : (s.putBreak l n x).clusters = s.clusters := by
  simp [State.putBreak]
@[simp] theorem State.putBreak_groups (s : State) (l : Loc) (n x : Nat) : (s.putBreak l n x).groups = s.groups := by
  simp [State.putBreak]
@[simp] theorem State.putBreak_launches (s : State) (l : Loc) (n x : Nat) : (s.putBreak l n x).launches = s.launches := by
  simp [State.putBreak]
@[simp] theorem State.putBreak_parts (s : State) (l : Loc) (n x : Nat) : (s.putBreak l n x).parts = s.parts := by
  simp [State.putBreak]
@[simp] theorem State.putBreak_vis (s : State) (l : Loc) (n x : Nat) : (s.putBreak l n x).vis = s.vis := by
  simp [State.putBreak]
@[simp] theorem State.putBreak_nextLaunch (s : State) (l : Loc) (n x : Nat) : (s.putBreak l n x).nextLaunch = s.nextLaunch := by
  simp [State.putBreak]
@[simp] theorem State.putBreak_nextGroup (s : State) (l : Loc) (n x : Nat) : (s.putBreak l n x).nextGroup = s.nextGroup := by
  simp [State.putBreak]
@[simp] theorem State.putBreak_migrations (s : State) (l : Loc) (n x : Nat) : (s.putBreak l n x).migrations = s.migrations := by
  simp [State.putBreak]
@[simp] theorem State.putBreak_migRequests (s : State) (l : Loc) (n x : Nat) : (s.putBreak l n x).migRequests = s.migRequests := by
  simp [State.putBreak]
@[simp] theorem State.putBreak_pool (s : State) (l : Loc) (n x : Nat) : (s.putBreak l n x).pool = s.pool := by
  simp [State.putBreak]
@[simp] theorem State.putBreak_holdNanos (s : State) (l : Loc) (n x : Nat) : (s.putBreak l n x).holdNanos = s.holdNanos := by
  simp [State.putBreak]
@[simp] theorem State.putBreak_nodes (s : State) (l : Loc) (n x : Nat) : (s.putBreak l n x).nodes = s.nodes := by
  simp [State.putBreak]
@[simp] theorem State.putBreak_peers (s : State) (l : Loc) (n x : Nat) : (s.putBreak l n x).peers = s.peers := by
  simp [State.putBreak]
@[simp] theorem State.putBreak_links (s : State) (l : Loc) (n x : Nat) : (s.putBreak l n x).links = s.links := by
  simp [State.putBreak]
@[simp] theorem State.putBreak_outstanding (s : State) (l : Loc) (n x : Nat) : (s.putBreak l n x).outstanding = s.outstanding := by
  simp [State.putBreak]
@[simp] theorem State.putBreak_answers (s : State) (l : Loc) (n x : Nat) : (s.putBreak l n x).answers = s.answers := by
  simp [State.putBreak]
@[simp] theorem State.putBreak_nextTag (s : State) (l : Loc) (n x : Nat) : (s.putBreak l n x).nextTag = s.nextTag := by
  simp [State.putBreak]
@[simp] theorem State.putBreak_power (s : State) (l : Loc) (n x : Nat) : (s.putBreak l n x).power = s.power := by
  simp [State.putBreak]
@[simp] theorem State.putBreak_rmap (s : State) (l : Loc) (n x : Nat) : (s.putBreak l n x).rmap = s.rmap := by
  simp [State.putBreak]
@[simp] theorem State.putBreak_sec (s : State) (l : Loc) (n x : Nat) : (s.putBreak l n x).sec = s.sec := by
  simp [State.putBreak]
@[simp] theorem State.putBreak_agenda (s : State) (l : Loc) (n x : Nat) : (s.putBreak l n x).agenda = s.agenda := by
  simp [State.putBreak]
@[simp] theorem State.putBreak_turn (s : State) (l : Loc) (n x : Nat) : (s.putBreak l n x).turn = s.turn := by
  simp [State.putBreak]
@[simp] theorem State.putBreak_cut (s : State) (l : Loc) (n x : Nat) : (s.putBreak l n x).cut = s.cut := by
  simp [State.putBreak]
@[simp] theorem State.putBreak_lag (s : State) (l : Loc) (n x : Nat) : (s.putBreak l n x).lag = s.lag := by
  simp [State.putBreak]
@[simp] theorem State.putBreak_older (s : State) (l : Loc) (n x : Nat) : (s.putBreak l n x).older = s.older := by
  simp [State.putBreak]
@[simp] theorem State.putBreak_hostNews (s : State) (l : Loc) (n x : Nat) : (s.putBreak l n x).hostNews = s.hostNews := by
  simp [State.putBreak]
@[simp] theorem State.putBreak_slow (s : State) (l : Loc) (n x : Nat) : (s.putBreak l n x).slow = s.slow := by
  simp [State.putBreak]
@[simp] theorem State.putBreak_ahead (s : State) (l : Loc) (n x : Nat) : (s.putBreak l n x).ahead = s.ahead := by
  simp [State.putBreak]
@[simp] theorem State.putBreak_rot (s : State) (l : Loc) (n x : Nat) : (s.putBreak l n x).rot = s.rot := by
  simp [State.putBreak]
@[simp] theorem State.putBreak_free (s : State) (l : Loc) (n x : Nat) : (s.putBreak l n x).free = s.free := by
  simp [State.putBreak]

@[simp] theorem State.storeLoc_cur (s : State) (l : Loc) (n x : Nat) : (s.storeLoc l n x).cur = s.cur := by
  unfold State.storeLoc; split <;> simp
@[simp] theorem State.storeLoc_th (s : State) (l : Loc) (n x : Nat) : (s.storeLoc l n x).th = s.th := by
  unfold State.storeLoc; split <;> simp
@[simp] theorem State.storeLoc_others (s : State) (l : Loc) (n x : Nat) : (s.storeLoc l n x).others = s.others := by
  unfold State.storeLoc; split <;> simp
@[simp] theorem State.storeLoc_units (s : State) (l : Loc) (n x : Nat) : (s.storeLoc l n x).units = s.units := by
  unfold State.storeLoc; split <;> simp
@[simp] theorem State.storeLoc_clusters (s : State) (l : Loc) (n x : Nat) : (s.storeLoc l n x).clusters = s.clusters := by
  unfold State.storeLoc; split <;> simp
@[simp] theorem State.storeLoc_groups (s : State) (l : Loc) (n x : Nat) : (s.storeLoc l n x).groups = s.groups := by
  unfold State.storeLoc; split <;> simp
@[simp] theorem State.storeLoc_launches (s : State) (l : Loc) (n x : Nat) : (s.storeLoc l n x).launches = s.launches := by
  unfold State.storeLoc; split <;> simp
@[simp] theorem State.storeLoc_parts (s : State) (l : Loc) (n x : Nat) : (s.storeLoc l n x).parts = s.parts := by
  unfold State.storeLoc; split <;> simp
@[simp] theorem State.storeLoc_vis (s : State) (l : Loc) (n x : Nat) : (s.storeLoc l n x).vis = s.vis := by
  unfold State.storeLoc; split <;> simp
@[simp] theorem State.storeLoc_nextLaunch (s : State) (l : Loc) (n x : Nat) : (s.storeLoc l n x).nextLaunch = s.nextLaunch := by
  unfold State.storeLoc; split <;> simp
@[simp] theorem State.storeLoc_nextGroup (s : State) (l : Loc) (n x : Nat) : (s.storeLoc l n x).nextGroup = s.nextGroup := by
  unfold State.storeLoc; split <;> simp
@[simp] theorem State.storeLoc_migrations (s : State) (l : Loc) (n x : Nat) : (s.storeLoc l n x).migrations = s.migrations := by
  unfold State.storeLoc; split <;> simp
@[simp] theorem State.storeLoc_migRequests (s : State) (l : Loc) (n x : Nat) : (s.storeLoc l n x).migRequests = s.migRequests := by
  unfold State.storeLoc; split <;> simp
@[simp] theorem State.storeLoc_pool (s : State) (l : Loc) (n x : Nat) : (s.storeLoc l n x).pool = s.pool := by
  unfold State.storeLoc; split <;> simp
@[simp] theorem State.storeLoc_holdNanos (s : State) (l : Loc) (n x : Nat) : (s.storeLoc l n x).holdNanos = s.holdNanos := by
  unfold State.storeLoc; split <;> simp
@[simp] theorem State.storeLoc_nodes (s : State) (l : Loc) (n x : Nat) : (s.storeLoc l n x).nodes = s.nodes := by
  unfold State.storeLoc; split <;> simp
@[simp] theorem State.storeLoc_peers (s : State) (l : Loc) (n x : Nat) : (s.storeLoc l n x).peers = s.peers := by
  unfold State.storeLoc; split <;> simp
@[simp] theorem State.storeLoc_links (s : State) (l : Loc) (n x : Nat) : (s.storeLoc l n x).links = s.links := by
  unfold State.storeLoc; split <;> simp
@[simp] theorem State.storeLoc_outstanding (s : State) (l : Loc) (n x : Nat) : (s.storeLoc l n x).outstanding = s.outstanding := by
  unfold State.storeLoc; split <;> simp
@[simp] theorem State.storeLoc_answers (s : State) (l : Loc) (n x : Nat) : (s.storeLoc l n x).answers = s.answers := by
  unfold State.storeLoc; split <;> simp
@[simp] theorem State.storeLoc_nextTag (s : State) (l : Loc) (n x : Nat) : (s.storeLoc l n x).nextTag = s.nextTag := by
  unfold State.storeLoc; split <;> simp
@[simp] theorem State.storeLoc_power (s : State) (l : Loc) (n x : Nat) : (s.storeLoc l n x).power = s.power := by
  unfold State.storeLoc; split <;> simp
@[simp] theorem State.storeLoc_rmap (s : State) (l : Loc) (n x : Nat) : (s.storeLoc l n x).rmap = s.rmap := by
  unfold State.storeLoc; split <;> simp
@[simp] theorem State.storeLoc_sec (s : State) (l : Loc) (n x : Nat) : (s.storeLoc l n x).sec = s.sec := by
  unfold State.storeLoc; split <;> simp
@[simp] theorem State.storeLoc_agenda (s : State) (l : Loc) (n x : Nat) : (s.storeLoc l n x).agenda = s.agenda := by
  unfold State.storeLoc; split <;> simp
@[simp] theorem State.storeLoc_turn (s : State) (l : Loc) (n x : Nat) : (s.storeLoc l n x).turn = s.turn := by
  unfold State.storeLoc; split <;> simp
@[simp] theorem State.storeLoc_cut (s : State) (l : Loc) (n x : Nat) : (s.storeLoc l n x).cut = s.cut := by
  unfold State.storeLoc; split <;> simp
@[simp] theorem State.storeLoc_lag (s : State) (l : Loc) (n x : Nat) : (s.storeLoc l n x).lag = s.lag := by
  unfold State.storeLoc; split <;> simp
@[simp] theorem State.storeLoc_older (s : State) (l : Loc) (n x : Nat) : (s.storeLoc l n x).older = s.older := by
  unfold State.storeLoc; split <;> simp
@[simp] theorem State.storeLoc_hostNews (s : State) (l : Loc) (n x : Nat) : (s.storeLoc l n x).hostNews = s.hostNews := by
  unfold State.storeLoc; split <;> simp
@[simp] theorem State.storeLoc_slow (s : State) (l : Loc) (n x : Nat) : (s.storeLoc l n x).slow = s.slow := by
  unfold State.storeLoc; split <;> simp
@[simp] theorem State.storeLoc_ahead (s : State) (l : Loc) (n x : Nat) : (s.storeLoc l n x).ahead = s.ahead := by
  unfold State.storeLoc; split <;> simp
@[simp] theorem State.storeLoc_rot (s : State) (l : Loc) (n x : Nat) : (s.storeLoc l n x).rot = s.rot := by
  unfold State.storeLoc; split <;> simp
@[simp] theorem State.storeLoc_free (s : State) (l : Loc) (n x : Nat) : (s.storeLoc l n x).free = s.free := by
  unfold State.storeLoc; split <;> simp

@[simp] theorem State.writeLoc_cur (s : State) (l : Loc) (n x : Nat) : (s.writeLoc l n x).cur = s.cur := by
  simp [State.writeLoc]
@[simp] theorem State.writeLoc_th (s : State) (l : Loc) (n x : Nat) : (s.writeLoc l n x).th = s.th := by
  simp [State.writeLoc]
@[simp] theorem State.writeLoc_others (s : State) (l : Loc) (n x : Nat) : (s.writeLoc l n x).others = s.others := by
  simp [State.writeLoc]
@[simp] theorem State.writeLoc_units (s : State) (l : Loc) (n x : Nat) : (s.writeLoc l n x).units = s.units := by
  simp [State.writeLoc]
@[simp] theorem State.writeLoc_clusters (s : State) (l : Loc) (n x : Nat) : (s.writeLoc l n x).clusters = s.clusters := by
  simp [State.writeLoc]
@[simp] theorem State.writeLoc_groups (s : State) (l : Loc) (n x : Nat) : (s.writeLoc l n x).groups = s.groups := by
  simp [State.writeLoc]
@[simp] theorem State.writeLoc_launches (s : State) (l : Loc) (n x : Nat) : (s.writeLoc l n x).launches = s.launches := by
  simp [State.writeLoc]
@[simp] theorem State.writeLoc_parts (s : State) (l : Loc) (n x : Nat) : (s.writeLoc l n x).parts = s.parts := by
  simp [State.writeLoc]
@[simp] theorem State.writeLoc_vis (s : State) (l : Loc) (n x : Nat) : (s.writeLoc l n x).vis = s.vis := by
  simp [State.writeLoc]
@[simp] theorem State.writeLoc_nextLaunch (s : State) (l : Loc) (n x : Nat) : (s.writeLoc l n x).nextLaunch = s.nextLaunch := by
  simp [State.writeLoc]
@[simp] theorem State.writeLoc_nextGroup (s : State) (l : Loc) (n x : Nat) : (s.writeLoc l n x).nextGroup = s.nextGroup := by
  simp [State.writeLoc]
@[simp] theorem State.writeLoc_migrations (s : State) (l : Loc) (n x : Nat) : (s.writeLoc l n x).migrations = s.migrations := by
  simp [State.writeLoc]
@[simp] theorem State.writeLoc_migRequests (s : State) (l : Loc) (n x : Nat) : (s.writeLoc l n x).migRequests = s.migRequests := by
  simp [State.writeLoc]
@[simp] theorem State.writeLoc_pool (s : State) (l : Loc) (n x : Nat) : (s.writeLoc l n x).pool = s.pool := by
  simp [State.writeLoc]
@[simp] theorem State.writeLoc_holdNanos (s : State) (l : Loc) (n x : Nat) : (s.writeLoc l n x).holdNanos = s.holdNanos := by
  simp [State.writeLoc]
@[simp] theorem State.writeLoc_nodes (s : State) (l : Loc) (n x : Nat) : (s.writeLoc l n x).nodes = s.nodes := by
  simp [State.writeLoc]
@[simp] theorem State.writeLoc_peers (s : State) (l : Loc) (n x : Nat) : (s.writeLoc l n x).peers = s.peers := by
  simp [State.writeLoc]
@[simp] theorem State.writeLoc_links (s : State) (l : Loc) (n x : Nat) : (s.writeLoc l n x).links = s.links := by
  simp [State.writeLoc]
@[simp] theorem State.writeLoc_outstanding (s : State) (l : Loc) (n x : Nat) : (s.writeLoc l n x).outstanding = s.outstanding := by
  simp [State.writeLoc]
@[simp] theorem State.writeLoc_power (s : State) (l : Loc) (n x : Nat) : (s.writeLoc l n x).power = s.power := by
  simp [State.writeLoc]
@[simp] theorem State.writeLoc_rmap (s : State) (l : Loc) (n x : Nat) : (s.writeLoc l n x).rmap = s.rmap := by
  simp [State.writeLoc]
@[simp] theorem State.writeLoc_sec (s : State) (l : Loc) (n x : Nat) : (s.writeLoc l n x).sec = s.sec := by
  simp [State.writeLoc]
@[simp] theorem State.writeLoc_agenda (s : State) (l : Loc) (n x : Nat) : (s.writeLoc l n x).agenda = s.agenda := by
  simp [State.writeLoc]
@[simp] theorem State.writeLoc_turn (s : State) (l : Loc) (n x : Nat) : (s.writeLoc l n x).turn = s.turn := by
  simp [State.writeLoc]
@[simp] theorem State.writeLoc_cut (s : State) (l : Loc) (n x : Nat) : (s.writeLoc l n x).cut = s.cut := by
  simp [State.writeLoc]
@[simp] theorem State.writeLoc_lag (s : State) (l : Loc) (n x : Nat) : (s.writeLoc l n x).lag = s.lag := by
  simp [State.writeLoc]
@[simp] theorem State.writeLoc_older (s : State) (l : Loc) (n x : Nat) : (s.writeLoc l n x).older = s.older := by
  simp [State.writeLoc]
@[simp] theorem State.writeLoc_hostNews (s : State) (l : Loc) (n x : Nat) : (s.writeLoc l n x).hostNews = s.hostNews := by
  simp [State.writeLoc]
@[simp] theorem State.writeLoc_slow (s : State) (l : Loc) (n x : Nat) : (s.writeLoc l n x).slow = s.slow := by
  simp [State.writeLoc]
@[simp] theorem State.writeLoc_ahead (s : State) (l : Loc) (n x : Nat) : (s.writeLoc l n x).ahead = s.ahead := by
  simp [State.writeLoc]
@[simp] theorem State.writeLoc_rot (s : State) (l : Loc) (n x : Nat) : (s.writeLoc l n x).rot = s.rot := by
  simp [State.writeLoc]
@[simp] theorem State.writeLoc_free (s : State) (l : Loc) (n x : Nat) : (s.writeLoc l n x).free = s.free := by
  simp [State.writeLoc]

@[simp] theorem State.poisonAt_cur (s : State) (l : Loc) : (s.poisonAt l).cur = s.cur := by
  unfold State.poisonAt; split
  · rfl
  · repeat' split
    all_goals rfl
  · rfl
@[simp] theorem State.poisonAt_th (s : State) (l : Loc) : (s.poisonAt l).th = s.th := by
  unfold State.poisonAt; split
  · rfl
  · repeat' split
    all_goals rfl
  · rfl
@[simp] theorem State.poisonAt_others (s : State) (l : Loc) : (s.poisonAt l).others = s.others := by
  unfold State.poisonAt; split
  · rfl
  · repeat' split
    all_goals rfl
  · rfl
@[simp] theorem State.poisonAt_units (s : State) (l : Loc) : (s.poisonAt l).units = s.units := by
  unfold State.poisonAt; split
  · rfl
  · repeat' split
    all_goals rfl
  · rfl
@[simp] theorem State.poisonAt_clusters (s : State) (l : Loc) : (s.poisonAt l).clusters = s.clusters := by
  unfold State.poisonAt; split
  · rfl
  · repeat' split
    all_goals rfl
  · rfl
@[simp] theorem State.poisonAt_dram (s : State) (l : Loc) : (s.poisonAt l).dram = s.dram := by
  unfold State.poisonAt; split
  · rfl
  · repeat' split
    all_goals rfl
  · rfl
@[simp] theorem State.poisonAt_host (s : State) (l : Loc) : (s.poisonAt l).host = s.host := by
  unfold State.poisonAt; split
  · rfl
  · repeat' split
    all_goals rfl
  · rfl
@[simp] theorem State.poisonAt_tags (s : State) (l : Loc) : (s.poisonAt l).tags = s.tags := by
  unfold State.poisonAt; split
  · rfl
  · repeat' split
    all_goals rfl
  · rfl
@[simp] theorem State.poisonAt_groups (s : State) (l : Loc) : (s.poisonAt l).groups = s.groups := by
  unfold State.poisonAt; split
  · rfl
  · repeat' split
    all_goals rfl
  · rfl
@[simp] theorem State.poisonAt_launches (s : State) (l : Loc) : (s.poisonAt l).launches = s.launches := by
  unfold State.poisonAt; split
  · rfl
  · repeat' split
    all_goals rfl
  · rfl
@[simp] theorem State.poisonAt_parts (s : State) (l : Loc) : (s.poisonAt l).parts = s.parts := by
  unfold State.poisonAt; split
  · rfl
  · repeat' split
    all_goals rfl
  · rfl
@[simp] theorem State.poisonAt_vis (s : State) (l : Loc) : (s.poisonAt l).vis = s.vis := by
  unfold State.poisonAt; split
  · rfl
  · repeat' split
    all_goals rfl
  · rfl
@[simp] theorem State.poisonAt_nextLaunch (s : State) (l : Loc) : (s.poisonAt l).nextLaunch = s.nextLaunch := by
  unfold State.poisonAt; split
  · rfl
  · repeat' split
    all_goals rfl
  · rfl
@[simp] theorem State.poisonAt_nextGroup (s : State) (l : Loc) : (s.poisonAt l).nextGroup = s.nextGroup := by
  unfold State.poisonAt; split
  · rfl
  · repeat' split
    all_goals rfl
  · rfl
@[simp] theorem State.poisonAt_migrations (s : State) (l : Loc) : (s.poisonAt l).migrations = s.migrations := by
  unfold State.poisonAt; split
  · rfl
  · repeat' split
    all_goals rfl
  · rfl
@[simp] theorem State.poisonAt_migRequests (s : State) (l : Loc) : (s.poisonAt l).migRequests = s.migRequests := by
  unfold State.poisonAt; split
  · rfl
  · repeat' split
    all_goals rfl
  · rfl
@[simp] theorem State.poisonAt_pool (s : State) (l : Loc) : (s.poisonAt l).pool = s.pool := by
  unfold State.poisonAt; split
  · rfl
  · repeat' split
    all_goals rfl
  · rfl
@[simp] theorem State.poisonAt_holdNanos (s : State) (l : Loc) : (s.poisonAt l).holdNanos = s.holdNanos := by
  unfold State.poisonAt; split
  · rfl
  · repeat' split
    all_goals rfl
  · rfl
@[simp] theorem State.poisonAt_nodes (s : State) (l : Loc) : (s.poisonAt l).nodes = s.nodes := by
  unfold State.poisonAt; split
  · rfl
  · repeat' split
    all_goals rfl
  · rfl
@[simp] theorem State.poisonAt_peers (s : State) (l : Loc) : (s.poisonAt l).peers = s.peers := by
  unfold State.poisonAt; split
  · rfl
  · repeat' split
    all_goals rfl
  · rfl
@[simp] theorem State.poisonAt_links (s : State) (l : Loc) : (s.poisonAt l).links = s.links := by
  unfold State.poisonAt; split
  · rfl
  · repeat' split
    all_goals rfl
  · rfl
@[simp] theorem State.poisonAt_outstanding (s : State) (l : Loc) : (s.poisonAt l).outstanding = s.outstanding := by
  unfold State.poisonAt; split
  · rfl
  · repeat' split
    all_goals rfl
  · rfl
@[simp] theorem State.poisonAt_answers (s : State) (l : Loc) : (s.poisonAt l).answers = s.answers := by
  unfold State.poisonAt; split
  · rfl
  · repeat' split
    all_goals rfl
  · rfl
@[simp] theorem State.poisonAt_nextTag (s : State) (l : Loc) : (s.poisonAt l).nextTag = s.nextTag := by
  unfold State.poisonAt; split
  · rfl
  · repeat' split
    all_goals rfl
  · rfl
@[simp] theorem State.poisonAt_mgmt (s : State) (l : Loc) : (s.poisonAt l).mgmt = s.mgmt := by
  unfold State.poisonAt; split
  · rfl
  · repeat' split
    all_goals rfl
  · rfl
@[simp] theorem State.poisonAt_power (s : State) (l : Loc) : (s.poisonAt l).power = s.power := by
  unfold State.poisonAt; split
  · rfl
  · repeat' split
    all_goals rfl
  · rfl
@[simp] theorem State.poisonAt_rmap (s : State) (l : Loc) : (s.poisonAt l).rmap = s.rmap := by
  unfold State.poisonAt; split
  · rfl
  · repeat' split
    all_goals rfl
  · rfl
@[simp] theorem State.poisonAt_sec (s : State) (l : Loc) : (s.poisonAt l).sec = s.sec := by
  unfold State.poisonAt; split
  · rfl
  · repeat' split
    all_goals rfl
  · rfl
@[simp] theorem State.poisonAt_agenda (s : State) (l : Loc) : (s.poisonAt l).agenda = s.agenda := by
  unfold State.poisonAt; split
  · rfl
  · repeat' split
    all_goals rfl
  · rfl
@[simp] theorem State.poisonAt_turn (s : State) (l : Loc) : (s.poisonAt l).turn = s.turn := by
  unfold State.poisonAt; split
  · rfl
  · repeat' split
    all_goals rfl
  · rfl
@[simp] theorem State.poisonAt_cut (s : State) (l : Loc) : (s.poisonAt l).cut = s.cut := by
  unfold State.poisonAt; split
  · rfl
  · repeat' split
    all_goals rfl
  · rfl
@[simp] theorem State.poisonAt_lag (s : State) (l : Loc) : (s.poisonAt l).lag = s.lag := by
  unfold State.poisonAt; split
  · rfl
  · repeat' split
    all_goals rfl
  · rfl
@[simp] theorem State.poisonAt_older (s : State) (l : Loc) : (s.poisonAt l).older = s.older := by
  unfold State.poisonAt; split
  · rfl
  · repeat' split
    all_goals rfl
  · rfl
@[simp] theorem State.poisonAt_hostNews (s : State) (l : Loc) : (s.poisonAt l).hostNews = s.hostNews := by
  unfold State.poisonAt; split
  · rfl
  · repeat' split
    all_goals rfl
  · rfl
@[simp] theorem State.poisonAt_slow (s : State) (l : Loc) : (s.poisonAt l).slow = s.slow := by
  unfold State.poisonAt; split
  · rfl
  · repeat' split
    all_goals rfl
  · rfl
@[simp] theorem State.poisonAt_ahead (s : State) (l : Loc) : (s.poisonAt l).ahead = s.ahead := by
  unfold State.poisonAt; split
  · rfl
  · repeat' split
    all_goals rfl
  · rfl
@[simp] theorem State.poisonAt_rot (s : State) (l : Loc) : (s.poisonAt l).rot = s.rot := by
  unfold State.poisonAt; split
  · rfl
  · repeat' split
    all_goals rfl
  · rfl
@[simp] theorem State.poisonAt_free (s : State) (l : Loc) : (s.poisonAt l).free = s.free := by
  unfold State.poisonAt; split
  · rfl
  · repeat' split
    all_goals rfl
  · rfl

@[simp] theorem State.poisonLoc_cur (s : State) (l : Loc) : (s.poisonLoc l).cur = s.cur := by
  unfold State.poisonLoc; split <;> simp
@[simp] theorem State.poisonLoc_th (s : State) (l : Loc) : (s.poisonLoc l).th = s.th := by
  unfold State.poisonLoc; split <;> simp
@[simp] theorem State.poisonLoc_others (s : State) (l : Loc) : (s.poisonLoc l).others = s.others := by
  unfold State.poisonLoc; split <;> simp
@[simp] theorem State.poisonLoc_units (s : State) (l : Loc) : (s.poisonLoc l).units = s.units := by
  unfold State.poisonLoc; split <;> simp
@[simp] theorem State.poisonLoc_clusters (s : State) (l : Loc) : (s.poisonLoc l).clusters = s.clusters := by
  unfold State.poisonLoc; split <;> simp
@[simp] theorem State.poisonLoc_dram (s : State) (l : Loc) : (s.poisonLoc l).dram = s.dram := by
  unfold State.poisonLoc; split <;> simp
@[simp] theorem State.poisonLoc_host (s : State) (l : Loc) : (s.poisonLoc l).host = s.host := by
  unfold State.poisonLoc; split <;> simp
@[simp] theorem State.poisonLoc_tags (s : State) (l : Loc) : (s.poisonLoc l).tags = s.tags := by
  unfold State.poisonLoc; split <;> simp
@[simp] theorem State.poisonLoc_groups (s : State) (l : Loc) : (s.poisonLoc l).groups = s.groups := by
  unfold State.poisonLoc; split <;> simp
@[simp] theorem State.poisonLoc_launches (s : State) (l : Loc) : (s.poisonLoc l).launches = s.launches := by
  unfold State.poisonLoc; split <;> simp
@[simp] theorem State.poisonLoc_parts (s : State) (l : Loc) : (s.poisonLoc l).parts = s.parts := by
  unfold State.poisonLoc; split <;> simp
@[simp] theorem State.poisonLoc_vis (s : State) (l : Loc) : (s.poisonLoc l).vis = s.vis := by
  unfold State.poisonLoc; split <;> simp
@[simp] theorem State.poisonLoc_nextLaunch (s : State) (l : Loc) : (s.poisonLoc l).nextLaunch = s.nextLaunch := by
  unfold State.poisonLoc; split <;> simp
@[simp] theorem State.poisonLoc_nextGroup (s : State) (l : Loc) : (s.poisonLoc l).nextGroup = s.nextGroup := by
  unfold State.poisonLoc; split <;> simp
@[simp] theorem State.poisonLoc_migrations (s : State) (l : Loc) : (s.poisonLoc l).migrations = s.migrations := by
  unfold State.poisonLoc; split <;> simp
@[simp] theorem State.poisonLoc_migRequests (s : State) (l : Loc) : (s.poisonLoc l).migRequests = s.migRequests := by
  unfold State.poisonLoc; split <;> simp
@[simp] theorem State.poisonLoc_pool (s : State) (l : Loc) : (s.poisonLoc l).pool = s.pool := by
  unfold State.poisonLoc; split <;> simp
@[simp] theorem State.poisonLoc_holdNanos (s : State) (l : Loc) : (s.poisonLoc l).holdNanos = s.holdNanos := by
  unfold State.poisonLoc; split <;> simp
@[simp] theorem State.poisonLoc_nodes (s : State) (l : Loc) : (s.poisonLoc l).nodes = s.nodes := by
  unfold State.poisonLoc; split <;> simp
@[simp] theorem State.poisonLoc_peers (s : State) (l : Loc) : (s.poisonLoc l).peers = s.peers := by
  unfold State.poisonLoc; split <;> simp
@[simp] theorem State.poisonLoc_links (s : State) (l : Loc) : (s.poisonLoc l).links = s.links := by
  unfold State.poisonLoc; split <;> simp
@[simp] theorem State.poisonLoc_outstanding (s : State) (l : Loc) : (s.poisonLoc l).outstanding = s.outstanding := by
  unfold State.poisonLoc; split <;> simp
@[simp] theorem State.poisonLoc_answers (s : State) (l : Loc) : (s.poisonLoc l).answers = s.answers := by
  unfold State.poisonLoc; split <;> simp
@[simp] theorem State.poisonLoc_nextTag (s : State) (l : Loc) : (s.poisonLoc l).nextTag = s.nextTag := by
  unfold State.poisonLoc; split <;> simp
@[simp] theorem State.poisonLoc_mgmt (s : State) (l : Loc) : (s.poisonLoc l).mgmt = s.mgmt := by
  unfold State.poisonLoc; split <;> simp
@[simp] theorem State.poisonLoc_power (s : State) (l : Loc) : (s.poisonLoc l).power = s.power := by
  unfold State.poisonLoc; split <;> simp
@[simp] theorem State.poisonLoc_rmap (s : State) (l : Loc) : (s.poisonLoc l).rmap = s.rmap := by
  unfold State.poisonLoc; split <;> simp
@[simp] theorem State.poisonLoc_sec (s : State) (l : Loc) : (s.poisonLoc l).sec = s.sec := by
  unfold State.poisonLoc; split <;> simp
@[simp] theorem State.poisonLoc_agenda (s : State) (l : Loc) : (s.poisonLoc l).agenda = s.agenda := by
  unfold State.poisonLoc; split <;> simp
@[simp] theorem State.poisonLoc_turn (s : State) (l : Loc) : (s.poisonLoc l).turn = s.turn := by
  unfold State.poisonLoc; split <;> simp
@[simp] theorem State.poisonLoc_cut (s : State) (l : Loc) : (s.poisonLoc l).cut = s.cut := by
  unfold State.poisonLoc; split <;> simp
@[simp] theorem State.poisonLoc_lag (s : State) (l : Loc) : (s.poisonLoc l).lag = s.lag := by
  unfold State.poisonLoc; split <;> simp
@[simp] theorem State.poisonLoc_older (s : State) (l : Loc) : (s.poisonLoc l).older = s.older := by
  unfold State.poisonLoc; split <;> simp
@[simp] theorem State.poisonLoc_hostNews (s : State) (l : Loc) : (s.poisonLoc l).hostNews = s.hostNews := by
  unfold State.poisonLoc; split <;> simp
@[simp] theorem State.poisonLoc_slow (s : State) (l : Loc) : (s.poisonLoc l).slow = s.slow := by
  unfold State.poisonLoc; split <;> simp
@[simp] theorem State.poisonLoc_ahead (s : State) (l : Loc) : (s.poisonLoc l).ahead = s.ahead := by
  unfold State.poisonLoc; split <;> simp
@[simp] theorem State.poisonLoc_rot (s : State) (l : Loc) : (s.poisonLoc l).rot = s.rot := by
  unfold State.poisonLoc; split <;> simp
@[simp] theorem State.poisonLoc_free (s : State) (l : Loc) : (s.poisonLoc l).free = s.free := by
  unfold State.poisonLoc; split <;> simp

/-! ## The current thread after each update -/

theorem State.wr_th (s : State) (r : BitVec 5) (x : Word) :
    (s.wr r x).th = if r = 0 then s.th else { s.th with g := s.th.g.set r.toNat x } := by
  unfold State.wr; split <;> rfl
@[simp] theorem State.advance_th (s : State) : s.advance.th = { s.th with pc := s.th.pc + 4, cv := none, reissue := false } := rfl

@[simp] theorem State.wr_th_v (s : State) (r : BitVec 5) (x : Word) : (s.wr r x).th.v = s.th.v := by
  unfold State.wr; split <;> rfl
@[simp] theorem State.wr_th_m (s : State) (r : BitVec 5) (x : Word) : (s.wr r x).th.m = s.th.m := by
  unfold State.wr; split <;> rfl
@[simp] theorem State.wr_th_gens (s : State) (r : BitVec 5) (x : Word) : (s.wr r x).th.gens = s.th.gens := by
  unfold State.wr; split <;> rfl
@[simp] theorem State.wr_th_pc (s : State) (r : BitVec 5) (x : Word) : (s.wr r x).th.pc = s.th.pc := by
  unfold State.wr; split <;> rfl
@[simp] theorem State.wr_th_level (s : State) (r : BitVec 5) (x : Word) : (s.wr r x).th.level = s.th.level := by
  unfold State.wr; split <;> rfl
@[simp] theorem State.wr_th_em (s : State) (r : BitVec 5) (x : Word) : (s.wr r x).th.em = s.th.em := by
  unfold State.wr; split <;> rfl
@[simp] theorem State.wr_th_vl (s : State) (r : BitVec 5) (x : Word) : (s.wr r x).th.vl = s.th.vl := by
  unfold State.wr; split <;> rfl
@[simp] theorem State.wr_th_ew (s : State) (r : BitVec 5) (x : Word) : (s.wr r x).th.ew = s.th.ew := by
  unfold State.wr; split <;> rfl
@[simp] theorem State.wr_th_vlmax (s : State) (r : BitVec 5) (x : Word) : (s.wr r x).th.vlmax = s.th.vlmax := by
  unfold State.wr; split <;> rfl
@[simp] theorem State.wr_th_vrlen (s : State) (r : BitVec 5) (x : Word) : (s.wr r x).th.vrlen = s.th.vrlen := by
  unfold State.wr; split <;> rfl
@[simp] theorem State.wr_th_estart (s : State) (r : BitVec 5) (x : Word) : (s.wr r x).th.estart = s.th.estart := by
  unfold State.wr; split <;> rfl
@[simp] theorem State.wr_th_fmask (s : State) (r : BitVec 5) (x : Word) : (s.wr r x).th.fmask = s.th.fmask := by
  unfold State.wr; split <;> rfl
@[simp] theorem State.wr_th_fflags (s : State) (r : BitVec 5) (x : Word) : (s.wr r x).th.fflags = s.th.fflags := by
  unfold State.wr; split <;> rfl
@[simp] theorem State.wr_th_frm (s : State) (r : BitVec 5) (x : Word) : (s.wr r x).th.frm = s.th.frm := by
  unfold State.wr; split <;> rfl
@[simp] theorem State.wr_th_srseed (s : State) (r : BitVec 5) (x : Word) : (s.wr r x).th.srseed = s.th.srseed := by
  unfold State.wr; split <;> rfl
@[simp] theorem State.wr_th_qthr (s : State) (r : BitVec 5) (x : Word) : (s.wr r x).th.qthr = s.th.qthr := by
  unfold State.wr; split <;> rfl
@[simp] theorem State.wr_th_mvl (s : State) (r : BitVec 5) (x : Word) : (s.wr r x).th.mvl = s.th.mvl := by
  unfold State.wr; split <;> rfl
@[simp] theorem State.wr_th_mgrant (s : State) (r : BitVec 5) (x : Word) : (s.wr r x).th.mgrant = s.th.mgrant := by
  unfold State.wr; split <;> rfl
@[simp] theorem State.wr_th_mprog (s : State) (r : BitVec 5) (x : Word) : (s.wr r x).th.mprog = s.th.mprog := by
  unfold State.wr; split <;> rfl
@[simp] theorem State.wr_th_rmvAck (s : State) (r : BitVec 5) (x : Word) : (s.wr r x).th.rmvAck = s.th.rmvAck := by
  unfold State.wr; split <;> rfl
@[simp] theorem State.wr_th_rmvCur (s : State) (r : BitVec 5) (x : Word) : (s.wr r x).th.rmvCur = s.th.rmvCur := by
  unfold State.wr; split <;> rfl
@[simp] theorem State.wr_th_thrcause (s : State) (r : BitVec 5) (x : Word) : (s.wr r x).th.thrcause = s.th.thrcause := by
  unfold State.wr; split <;> rfl
@[simp] theorem State.wr_th_hwfail (s : State) (r : BitVec 5) (x : Word) : (s.wr r x).th.hwfail = s.th.hwfail := by
  unfold State.wr; split <;> rfl
@[simp] theorem State.wr_th_tkcur (s : State) (r : BitVec 5) (x : Word) : (s.wr r x).th.tkcur = s.th.tkcur := by
  unfold State.wr; split <;> rfl
@[simp] theorem State.wr_th_emvec (s : State) (r : BitVec 5) (x : Word) : (s.wr r x).th.emvec = s.th.emvec := by
  unfold State.wr; split <;> rfl
@[simp] theorem State.wr_th_empc (s : State) (r : BitVec 5) (x : Word) : (s.wr r x).th.empc = s.th.empc := by
  unfold State.wr; split <;> rfl
@[simp] theorem State.wr_th_eminst (s : State) (r : BitVec 5) (x : Word) : (s.wr r x).th.eminst = s.th.eminst := by
  unfold State.wr; split <;> rfl
@[simp] theorem State.wr_th_cdim (s : State) (r : BitVec 5) (x : Word) : (s.wr r x).th.cdim = s.th.cdim := by
  unfold State.wr; split <;> rfl
@[simp] theorem State.wr_th_sup (s : State) (r : BitVec 5) (x : Word) : (s.wr r x).th.sup = s.th.sup := by
  unfold State.wr; split <;> rfl
@[simp] theorem State.wr_th_fw (s : State) (r : BitVec 5) (x : Word) : (s.wr r x).th.fw = s.th.fw := by
  unfold State.wr; split <;> rfl
@[simp] theorem State.wr_th_ptroot (s : State) (r : BitVec 5) (x : Word) : (s.wr r x).th.ptroot = s.th.ptroot := by
  unfold State.wr; split <;> rfl
@[simp] theorem State.wr_th_fbarea (s : State) (r : BitVec 5) (x : Word) : (s.wr r x).th.fbarea = s.th.fbarea := by
  unfold State.wr; split <;> rfl
@[simp] theorem State.wr_th_spend (s : State) (r : BitVec 5) (x : Word) : (s.wr r x).th.spend = s.th.spend := by
  unfold State.wr; split <;> rfl
@[simp] theorem State.wr_th_chbreaks (s : State) (r : BitVec 5) (x : Word) : (s.wr r x).th.chbreaks = s.th.chbreaks := by
  unfold State.wr; split <;> rfl
@[simp] theorem State.wr_th_uncorrs (s : State) (r : BitVec 5) (x : Word) : (s.wr r x).th.uncorrs = s.th.uncorrs := by
  unfold State.wr; split <;> rfl
@[simp] theorem State.wr_th_shed (s : State) (r : BitVec 5) (x : Word) : (s.wr r x).th.shed = s.th.shed := by
  unfold State.wr; split <;> rfl
@[simp] theorem State.wr_th_streamFaults (s : State) (r : BitVec 5) (x : Word) : (s.wr r x).th.streamFaults = s.th.streamFaults := by
  unfold State.wr; split <;> rfl
@[simp] theorem State.wr_th_rmLeft (s : State) (r : BitVec 5) (x : Word) : (s.wr r x).th.rmLeft = s.th.rmLeft := by
  unfold State.wr; split <;> rfl
@[simp] theorem State.wr_th_rmAllow (s : State) (r : BitVec 5) (x : Word) : (s.wr r x).th.rmAllow = s.th.rmAllow := by
  unfold State.wr; split <;> rfl
@[simp] theorem State.wr_th_rmDue (s : State) (r : BitVec 5) (x : Word) : (s.wr r x).th.rmDue = s.th.rmDue := by
  unfold State.wr; split <;> rfl
@[simp] theorem State.wr_th_uncorr (s : State) (r : BitVec 5) (x : Word) : (s.wr r x).th.uncorr = s.th.uncorr := by
  unfold State.wr; split <;> rfl
@[simp] theorem State.wr_th_saved (s : State) (r : BitVec 5) (x : Word) : (s.wr r x).th.saved = s.th.saved := by
  unfold State.wr; split <;> rfl
@[simp] theorem State.wr_th_restored (s : State) (r : BitVec 5) (x : Word) : (s.wr r x).th.restored = s.th.restored := by
  unfold State.wr; split <;> rfl
@[simp] theorem State.wr_th_cv (s : State) (r : BitVec 5) (x : Word) : (s.wr r x).th.cv = s.th.cv := by
  unfold State.wr; split <;> rfl
@[simp] theorem State.wr_th_reissue (s : State) (r : BitVec 5) (x : Word) : (s.wr r x).th.reissue = s.th.reissue := by
  unfold State.wr; split <;> rfl
@[simp] theorem State.wr_th_status (s : State) (r : BitVec 5) (x : Word) : (s.wr r x).th.status = s.th.status := by
  unfold State.wr; split <;> rfl
@[simp] theorem State.wr_th_group (s : State) (r : BitVec 5) (x : Word) : (s.wr r x).th.group = s.th.group := by
  unfold State.wr; split <;> rfl
@[simp] theorem State.wr_th_lanes (s : State) (r : BitVec 5) (x : Word) : (s.wr r x).th.lanes = s.th.lanes := by
  unfold State.wr; split <;> rfl
@[simp] theorem State.wr_th_slots (s : State) (r : BitVec 5) (x : Word) : (s.wr r x).th.slots = s.th.slots := by
  unfold State.wr; split <;> rfl
@[simp] theorem State.wr_th_unseen (s : State) (r : BitVec 5) (x : Word) : (s.wr r x).th.unseen = s.th.unseen := by
  unfold State.wr; split <;> rfl
@[simp] theorem State.wr_th_fills (s : State) (r : BitVec 5) (x : Word) : (s.wr r x).th.fills = s.th.fills := by
  unfold State.wr; split <;> rfl
@[simp] theorem State.wr_th_tlbinvs (s : State) (r : BitVec 5) (x : Word) : (s.wr r x).th.tlbinvs = s.th.tlbinvs := by
  unfold State.wr; split <;> rfl

@[simp] theorem State.setV_th_g (s : State) (r : BitVec 5) (x : Nat) : (s.setV r x).th.g = s.th.g := rfl
@[simp] theorem State.setV_th_m (s : State) (r : BitVec 5) (x : Nat) : (s.setV r x).th.m = s.th.m := rfl
@[simp] theorem State.setV_th_gens (s : State) (r : BitVec 5) (x : Nat) : (s.setV r x).th.gens = s.th.gens := rfl
@[simp] theorem State.setV_th_pc (s : State) (r : BitVec 5) (x : Nat) : (s.setV r x).th.pc = s.th.pc := rfl
@[simp] theorem State.setV_th_level (s : State) (r : BitVec 5) (x : Nat) : (s.setV r x).th.level = s.th.level := rfl
@[simp] theorem State.setV_th_em (s : State) (r : BitVec 5) (x : Nat) : (s.setV r x).th.em = s.th.em := rfl
@[simp] theorem State.setV_th_vl (s : State) (r : BitVec 5) (x : Nat) : (s.setV r x).th.vl = s.th.vl := rfl
@[simp] theorem State.setV_th_ew (s : State) (r : BitVec 5) (x : Nat) : (s.setV r x).th.ew = s.th.ew := rfl
@[simp] theorem State.setV_th_vlmax (s : State) (r : BitVec 5) (x : Nat) : (s.setV r x).th.vlmax = s.th.vlmax := rfl
@[simp] theorem State.setV_th_vrlen (s : State) (r : BitVec 5) (x : Nat) : (s.setV r x).th.vrlen = s.th.vrlen := rfl
@[simp] theorem State.setV_th_estart (s : State) (r : BitVec 5) (x : Nat) : (s.setV r x).th.estart = s.th.estart := rfl
@[simp] theorem State.setV_th_fmask (s : State) (r : BitVec 5) (x : Nat) : (s.setV r x).th.fmask = s.th.fmask := rfl
@[simp] theorem State.setV_th_fflags (s : State) (r : BitVec 5) (x : Nat) : (s.setV r x).th.fflags = s.th.fflags := rfl
@[simp] theorem State.setV_th_frm (s : State) (r : BitVec 5) (x : Nat) : (s.setV r x).th.frm = s.th.frm := rfl
@[simp] theorem State.setV_th_srseed (s : State) (r : BitVec 5) (x : Nat) : (s.setV r x).th.srseed = s.th.srseed := rfl
@[simp] theorem State.setV_th_qthr (s : State) (r : BitVec 5) (x : Nat) : (s.setV r x).th.qthr = s.th.qthr := rfl
@[simp] theorem State.setV_th_mvl (s : State) (r : BitVec 5) (x : Nat) : (s.setV r x).th.mvl = s.th.mvl := rfl
@[simp] theorem State.setV_th_mgrant (s : State) (r : BitVec 5) (x : Nat) : (s.setV r x).th.mgrant = s.th.mgrant := rfl
@[simp] theorem State.setV_th_mprog (s : State) (r : BitVec 5) (x : Nat) : (s.setV r x).th.mprog = s.th.mprog := rfl
@[simp] theorem State.setV_th_rmvAck (s : State) (r : BitVec 5) (x : Nat) : (s.setV r x).th.rmvAck = s.th.rmvAck := rfl
@[simp] theorem State.setV_th_rmvCur (s : State) (r : BitVec 5) (x : Nat) : (s.setV r x).th.rmvCur = s.th.rmvCur := rfl
@[simp] theorem State.setV_th_thrcause (s : State) (r : BitVec 5) (x : Nat) : (s.setV r x).th.thrcause = s.th.thrcause := rfl
@[simp] theorem State.setV_th_hwfail (s : State) (r : BitVec 5) (x : Nat) : (s.setV r x).th.hwfail = s.th.hwfail := rfl
@[simp] theorem State.setV_th_tkcur (s : State) (r : BitVec 5) (x : Nat) : (s.setV r x).th.tkcur = s.th.tkcur := rfl
@[simp] theorem State.setV_th_emvec (s : State) (r : BitVec 5) (x : Nat) : (s.setV r x).th.emvec = s.th.emvec := rfl
@[simp] theorem State.setV_th_empc (s : State) (r : BitVec 5) (x : Nat) : (s.setV r x).th.empc = s.th.empc := rfl
@[simp] theorem State.setV_th_eminst (s : State) (r : BitVec 5) (x : Nat) : (s.setV r x).th.eminst = s.th.eminst := rfl
@[simp] theorem State.setV_th_cdim (s : State) (r : BitVec 5) (x : Nat) : (s.setV r x).th.cdim = s.th.cdim := rfl
@[simp] theorem State.setV_th_sup (s : State) (r : BitVec 5) (x : Nat) : (s.setV r x).th.sup = s.th.sup := rfl
@[simp] theorem State.setV_th_fw (s : State) (r : BitVec 5) (x : Nat) : (s.setV r x).th.fw = s.th.fw := rfl
@[simp] theorem State.setV_th_ptroot (s : State) (r : BitVec 5) (x : Nat) : (s.setV r x).th.ptroot = s.th.ptroot := rfl
@[simp] theorem State.setV_th_fbarea (s : State) (r : BitVec 5) (x : Nat) : (s.setV r x).th.fbarea = s.th.fbarea := rfl
@[simp] theorem State.setV_th_spend (s : State) (r : BitVec 5) (x : Nat) : (s.setV r x).th.spend = s.th.spend := rfl
@[simp] theorem State.setV_th_chbreaks (s : State) (r : BitVec 5) (x : Nat) : (s.setV r x).th.chbreaks = s.th.chbreaks := rfl
@[simp] theorem State.setV_th_uncorrs (s : State) (r : BitVec 5) (x : Nat) : (s.setV r x).th.uncorrs = s.th.uncorrs := rfl
@[simp] theorem State.setV_th_shed (s : State) (r : BitVec 5) (x : Nat) : (s.setV r x).th.shed = s.th.shed := rfl
@[simp] theorem State.setV_th_streamFaults (s : State) (r : BitVec 5) (x : Nat) : (s.setV r x).th.streamFaults = s.th.streamFaults := rfl
@[simp] theorem State.setV_th_rmLeft (s : State) (r : BitVec 5) (x : Nat) : (s.setV r x).th.rmLeft = s.th.rmLeft := rfl
@[simp] theorem State.setV_th_rmAllow (s : State) (r : BitVec 5) (x : Nat) : (s.setV r x).th.rmAllow = s.th.rmAllow := rfl
@[simp] theorem State.setV_th_rmDue (s : State) (r : BitVec 5) (x : Nat) : (s.setV r x).th.rmDue = s.th.rmDue := rfl
@[simp] theorem State.setV_th_uncorr (s : State) (r : BitVec 5) (x : Nat) : (s.setV r x).th.uncorr = s.th.uncorr := rfl
@[simp] theorem State.setV_th_saved (s : State) (r : BitVec 5) (x : Nat) : (s.setV r x).th.saved = s.th.saved := rfl
@[simp] theorem State.setV_th_restored (s : State) (r : BitVec 5) (x : Nat) : (s.setV r x).th.restored = s.th.restored := rfl
@[simp] theorem State.setV_th_cv (s : State) (r : BitVec 5) (x : Nat) : (s.setV r x).th.cv = s.th.cv := rfl
@[simp] theorem State.setV_th_reissue (s : State) (r : BitVec 5) (x : Nat) : (s.setV r x).th.reissue = s.th.reissue := rfl
@[simp] theorem State.setV_th_status (s : State) (r : BitVec 5) (x : Nat) : (s.setV r x).th.status = s.th.status := rfl
@[simp] theorem State.setV_th_group (s : State) (r : BitVec 5) (x : Nat) : (s.setV r x).th.group = s.th.group := rfl
@[simp] theorem State.setV_th_lanes (s : State) (r : BitVec 5) (x : Nat) : (s.setV r x).th.lanes = s.th.lanes := rfl
@[simp] theorem State.setV_th_slots (s : State) (r : BitVec 5) (x : Nat) : (s.setV r x).th.slots = s.th.slots := rfl
@[simp] theorem State.setV_th_unseen (s : State) (r : BitVec 5) (x : Nat) : (s.setV r x).th.unseen = s.th.unseen := rfl
@[simp] theorem State.setV_th_fills (s : State) (r : BitVec 5) (x : Nat) : (s.setV r x).th.fills = s.th.fills := rfl
@[simp] theorem State.setV_th_tlbinvs (s : State) (r : BitVec 5) (x : Nat) : (s.setV r x).th.tlbinvs = s.th.tlbinvs := rfl

@[simp] theorem State.setM_th_g (s : State) (r x : Nat) : (s.setM r x).th.g = s.th.g := rfl
@[simp] theorem State.setM_th_v (s : State) (r x : Nat) : (s.setM r x).th.v = s.th.v := rfl
@[simp] theorem State.setM_th_gens (s : State) (r x : Nat) : (s.setM r x).th.gens = s.th.gens := rfl
@[simp] theorem State.setM_th_pc (s : State) (r x : Nat) : (s.setM r x).th.pc = s.th.pc := rfl
@[simp] theorem State.setM_th_level (s : State) (r x : Nat) : (s.setM r x).th.level = s.th.level := rfl
@[simp] theorem State.setM_th_em (s : State) (r x : Nat) : (s.setM r x).th.em = s.th.em := rfl
@[simp] theorem State.setM_th_vl (s : State) (r x : Nat) : (s.setM r x).th.vl = s.th.vl := rfl
@[simp] theorem State.setM_th_ew (s : State) (r x : Nat) : (s.setM r x).th.ew = s.th.ew := rfl
@[simp] theorem State.setM_th_vlmax (s : State) (r x : Nat) : (s.setM r x).th.vlmax = s.th.vlmax := rfl
@[simp] theorem State.setM_th_vrlen (s : State) (r x : Nat) : (s.setM r x).th.vrlen = s.th.vrlen := rfl
@[simp] theorem State.setM_th_estart (s : State) (r x : Nat) : (s.setM r x).th.estart = s.th.estart := rfl
@[simp] theorem State.setM_th_fmask (s : State) (r x : Nat) : (s.setM r x).th.fmask = s.th.fmask := rfl
@[simp] theorem State.setM_th_fflags (s : State) (r x : Nat) : (s.setM r x).th.fflags = s.th.fflags := rfl
@[simp] theorem State.setM_th_frm (s : State) (r x : Nat) : (s.setM r x).th.frm = s.th.frm := rfl
@[simp] theorem State.setM_th_srseed (s : State) (r x : Nat) : (s.setM r x).th.srseed = s.th.srseed := rfl
@[simp] theorem State.setM_th_qthr (s : State) (r x : Nat) : (s.setM r x).th.qthr = s.th.qthr := rfl
@[simp] theorem State.setM_th_mvl (s : State) (r x : Nat) : (s.setM r x).th.mvl = s.th.mvl := rfl
@[simp] theorem State.setM_th_mgrant (s : State) (r x : Nat) : (s.setM r x).th.mgrant = s.th.mgrant := rfl
@[simp] theorem State.setM_th_mprog (s : State) (r x : Nat) : (s.setM r x).th.mprog = s.th.mprog := rfl
@[simp] theorem State.setM_th_rmvAck (s : State) (r x : Nat) : (s.setM r x).th.rmvAck = s.th.rmvAck := rfl
@[simp] theorem State.setM_th_rmvCur (s : State) (r x : Nat) : (s.setM r x).th.rmvCur = s.th.rmvCur := rfl
@[simp] theorem State.setM_th_thrcause (s : State) (r x : Nat) : (s.setM r x).th.thrcause = s.th.thrcause := rfl
@[simp] theorem State.setM_th_hwfail (s : State) (r x : Nat) : (s.setM r x).th.hwfail = s.th.hwfail := rfl
@[simp] theorem State.setM_th_tkcur (s : State) (r x : Nat) : (s.setM r x).th.tkcur = s.th.tkcur := rfl
@[simp] theorem State.setM_th_emvec (s : State) (r x : Nat) : (s.setM r x).th.emvec = s.th.emvec := rfl
@[simp] theorem State.setM_th_empc (s : State) (r x : Nat) : (s.setM r x).th.empc = s.th.empc := rfl
@[simp] theorem State.setM_th_eminst (s : State) (r x : Nat) : (s.setM r x).th.eminst = s.th.eminst := rfl
@[simp] theorem State.setM_th_cdim (s : State) (r x : Nat) : (s.setM r x).th.cdim = s.th.cdim := rfl
@[simp] theorem State.setM_th_sup (s : State) (r x : Nat) : (s.setM r x).th.sup = s.th.sup := rfl
@[simp] theorem State.setM_th_fw (s : State) (r x : Nat) : (s.setM r x).th.fw = s.th.fw := rfl
@[simp] theorem State.setM_th_ptroot (s : State) (r x : Nat) : (s.setM r x).th.ptroot = s.th.ptroot := rfl
@[simp] theorem State.setM_th_fbarea (s : State) (r x : Nat) : (s.setM r x).th.fbarea = s.th.fbarea := rfl
@[simp] theorem State.setM_th_spend (s : State) (r x : Nat) : (s.setM r x).th.spend = s.th.spend := rfl
@[simp] theorem State.setM_th_chbreaks (s : State) (r x : Nat) : (s.setM r x).th.chbreaks = s.th.chbreaks := rfl
@[simp] theorem State.setM_th_uncorrs (s : State) (r x : Nat) : (s.setM r x).th.uncorrs = s.th.uncorrs := rfl
@[simp] theorem State.setM_th_shed (s : State) (r x : Nat) : (s.setM r x).th.shed = s.th.shed := rfl
@[simp] theorem State.setM_th_streamFaults (s : State) (r x : Nat) : (s.setM r x).th.streamFaults = s.th.streamFaults := rfl
@[simp] theorem State.setM_th_rmLeft (s : State) (r x : Nat) : (s.setM r x).th.rmLeft = s.th.rmLeft := rfl
@[simp] theorem State.setM_th_rmAllow (s : State) (r x : Nat) : (s.setM r x).th.rmAllow = s.th.rmAllow := rfl
@[simp] theorem State.setM_th_rmDue (s : State) (r x : Nat) : (s.setM r x).th.rmDue = s.th.rmDue := rfl
@[simp] theorem State.setM_th_uncorr (s : State) (r x : Nat) : (s.setM r x).th.uncorr = s.th.uncorr := rfl
@[simp] theorem State.setM_th_saved (s : State) (r x : Nat) : (s.setM r x).th.saved = s.th.saved := rfl
@[simp] theorem State.setM_th_restored (s : State) (r x : Nat) : (s.setM r x).th.restored = s.th.restored := rfl
@[simp] theorem State.setM_th_cv (s : State) (r x : Nat) : (s.setM r x).th.cv = s.th.cv := rfl
@[simp] theorem State.setM_th_reissue (s : State) (r x : Nat) : (s.setM r x).th.reissue = s.th.reissue := rfl
@[simp] theorem State.setM_th_status (s : State) (r x : Nat) : (s.setM r x).th.status = s.th.status := rfl
@[simp] theorem State.setM_th_group (s : State) (r x : Nat) : (s.setM r x).th.group = s.th.group := rfl
@[simp] theorem State.setM_th_lanes (s : State) (r x : Nat) : (s.setM r x).th.lanes = s.th.lanes := rfl
@[simp] theorem State.setM_th_slots (s : State) (r x : Nat) : (s.setM r x).th.slots = s.th.slots := rfl
@[simp] theorem State.setM_th_unseen (s : State) (r x : Nat) : (s.setM r x).th.unseen = s.th.unseen := rfl
@[simp] theorem State.setM_th_fills (s : State) (r x : Nat) : (s.setM r x).th.fills = s.th.fills := rfl
@[simp] theorem State.setM_th_tlbinvs (s : State) (r x : Nat) : (s.setM r x).th.tlbinvs = s.th.tlbinvs := rfl

@[simp] theorem State.mark_th_g (s : State) (a b : Nat) : (s.mark a b).th.g = s.th.g := rfl
@[simp] theorem State.mark_th_v (s : State) (a b : Nat) : (s.mark a b).th.v = s.th.v := rfl
@[simp] theorem State.mark_th_gens (s : State) (a b : Nat) : (s.mark a b).th.gens = s.th.gens := rfl
@[simp] theorem State.mark_th_pc (s : State) (a b : Nat) : (s.mark a b).th.pc = s.th.pc := rfl
@[simp] theorem State.mark_th_level (s : State) (a b : Nat) : (s.mark a b).th.level = s.th.level := rfl
@[simp] theorem State.mark_th_em (s : State) (a b : Nat) : (s.mark a b).th.em = s.th.em := rfl
@[simp] theorem State.mark_th_vl (s : State) (a b : Nat) : (s.mark a b).th.vl = s.th.vl := rfl
@[simp] theorem State.mark_th_ew (s : State) (a b : Nat) : (s.mark a b).th.ew = s.th.ew := rfl
@[simp] theorem State.mark_th_vlmax (s : State) (a b : Nat) : (s.mark a b).th.vlmax = s.th.vlmax := rfl
@[simp] theorem State.mark_th_vrlen (s : State) (a b : Nat) : (s.mark a b).th.vrlen = s.th.vrlen := rfl
@[simp] theorem State.mark_th_estart (s : State) (a b : Nat) : (s.mark a b).th.estart = s.th.estart := rfl
@[simp] theorem State.mark_th_fmask (s : State) (a b : Nat) : (s.mark a b).th.fmask = s.th.fmask := rfl
@[simp] theorem State.mark_th_frm (s : State) (a b : Nat) : (s.mark a b).th.frm = s.th.frm := rfl
@[simp] theorem State.mark_th_srseed (s : State) (a b : Nat) : (s.mark a b).th.srseed = s.th.srseed := rfl
@[simp] theorem State.mark_th_qthr (s : State) (a b : Nat) : (s.mark a b).th.qthr = s.th.qthr := rfl
@[simp] theorem State.mark_th_mvl (s : State) (a b : Nat) : (s.mark a b).th.mvl = s.th.mvl := rfl
@[simp] theorem State.mark_th_mgrant (s : State) (a b : Nat) : (s.mark a b).th.mgrant = s.th.mgrant := rfl
@[simp] theorem State.mark_th_mprog (s : State) (a b : Nat) : (s.mark a b).th.mprog = s.th.mprog := rfl
@[simp] theorem State.mark_th_rmvAck (s : State) (a b : Nat) : (s.mark a b).th.rmvAck = s.th.rmvAck := rfl
@[simp] theorem State.mark_th_rmvCur (s : State) (a b : Nat) : (s.mark a b).th.rmvCur = s.th.rmvCur := rfl
@[simp] theorem State.mark_th_thrcause (s : State) (a b : Nat) : (s.mark a b).th.thrcause = s.th.thrcause := rfl
@[simp] theorem State.mark_th_hwfail (s : State) (a b : Nat) : (s.mark a b).th.hwfail = s.th.hwfail := rfl
@[simp] theorem State.mark_th_tkcur (s : State) (a b : Nat) : (s.mark a b).th.tkcur = s.th.tkcur := rfl
@[simp] theorem State.mark_th_emvec (s : State) (a b : Nat) : (s.mark a b).th.emvec = s.th.emvec := rfl
@[simp] theorem State.mark_th_empc (s : State) (a b : Nat) : (s.mark a b).th.empc = s.th.empc := rfl
@[simp] theorem State.mark_th_eminst (s : State) (a b : Nat) : (s.mark a b).th.eminst = s.th.eminst := rfl
@[simp] theorem State.mark_th_cdim (s : State) (a b : Nat) : (s.mark a b).th.cdim = s.th.cdim := rfl
@[simp] theorem State.mark_th_sup (s : State) (a b : Nat) : (s.mark a b).th.sup = s.th.sup := rfl
@[simp] theorem State.mark_th_fw (s : State) (a b : Nat) : (s.mark a b).th.fw = s.th.fw := rfl
@[simp] theorem State.mark_th_ptroot (s : State) (a b : Nat) : (s.mark a b).th.ptroot = s.th.ptroot := rfl
@[simp] theorem State.mark_th_fbarea (s : State) (a b : Nat) : (s.mark a b).th.fbarea = s.th.fbarea := rfl
@[simp] theorem State.mark_th_spend (s : State) (a b : Nat) : (s.mark a b).th.spend = s.th.spend := rfl
@[simp] theorem State.mark_th_chbreaks (s : State) (a b : Nat) : (s.mark a b).th.chbreaks = s.th.chbreaks := rfl
@[simp] theorem State.mark_th_uncorrs (s : State) (a b : Nat) : (s.mark a b).th.uncorrs = s.th.uncorrs := rfl
@[simp] theorem State.mark_th_shed (s : State) (a b : Nat) : (s.mark a b).th.shed = s.th.shed := rfl
@[simp] theorem State.mark_th_streamFaults (s : State) (a b : Nat) : (s.mark a b).th.streamFaults = s.th.streamFaults := rfl
@[simp] theorem State.mark_th_rmLeft (s : State) (a b : Nat) : (s.mark a b).th.rmLeft = s.th.rmLeft := rfl
@[simp] theorem State.mark_th_rmAllow (s : State) (a b : Nat) : (s.mark a b).th.rmAllow = s.th.rmAllow := rfl
@[simp] theorem State.mark_th_rmDue (s : State) (a b : Nat) : (s.mark a b).th.rmDue = s.th.rmDue := rfl
@[simp] theorem State.mark_th_uncorr (s : State) (a b : Nat) : (s.mark a b).th.uncorr = s.th.uncorr := rfl
@[simp] theorem State.mark_th_saved (s : State) (a b : Nat) : (s.mark a b).th.saved = s.th.saved := rfl
@[simp] theorem State.mark_th_restored (s : State) (a b : Nat) : (s.mark a b).th.restored = s.th.restored := rfl
@[simp] theorem State.mark_th_cv (s : State) (a b : Nat) : (s.mark a b).th.cv = s.th.cv := rfl
@[simp] theorem State.mark_th_reissue (s : State) (a b : Nat) : (s.mark a b).th.reissue = s.th.reissue := rfl
@[simp] theorem State.mark_th_status (s : State) (a b : Nat) : (s.mark a b).th.status = s.th.status := rfl
@[simp] theorem State.mark_th_group (s : State) (a b : Nat) : (s.mark a b).th.group = s.th.group := rfl
@[simp] theorem State.mark_th_lanes (s : State) (a b : Nat) : (s.mark a b).th.lanes = s.th.lanes := rfl
@[simp] theorem State.mark_th_slots (s : State) (a b : Nat) : (s.mark a b).th.slots = s.th.slots := rfl
@[simp] theorem State.mark_th_unseen (s : State) (a b : Nat) : (s.mark a b).th.unseen = s.th.unseen := rfl
@[simp] theorem State.mark_th_fills (s : State) (a b : Nat) : (s.mark a b).th.fills = s.th.fills := rfl
@[simp] theorem State.mark_th_tlbinvs (s : State) (a b : Nat) : (s.mark a b).th.tlbinvs = s.th.tlbinvs := rfl

/-! ## Registers -/

@[simp] theorem State.rd_zero (s : State) : s.rd 0 = 0 := by simp [State.rd]
/-- A register written reads as what was written; g0 reads as zero (01 R13). -/
theorem State.rd_wr_same (s : State) (r : BitVec 5) (x : Word) : (s.wr r x).rd r = if r = 0 then 0 else x := by
  unfold State.rd State.wr
  split
  · rfl
  · simp
/-- A write of one register leaves every other. -/
theorem State.rd_wr_ne (s : State) (r q : BitVec 5) (x : Word) (h : q ≠ r) : (s.wr r x).rd q = s.rd q := by
  unfold State.rd State.wr
  have hn : r.toNat ≠ q.toNat := fun e => h (BitVec.eq_of_toNat_eq e).symm
  split
  · rfl
  · split
    · rfl
    · simp [Vector.getElem_set_ne, hn]
@[simp] theorem State.rd_advance (s : State) (r : BitVec 5) : s.advance.rd r = s.rd r := rfl

end Sys2Proof.Machine
end

