-- ==== Sys2Proof/Laws/Ops.lean ====
section
/-! SUPPORT. What the shared operations can do: registers and the program counter, the outcome of an instruction, memory through locations, and
the invariant of sound memory. -/
namespace Sys2Proof.Machine

/-! ## Registers and control -/

/-- g[r] after g[d] is written and execution goes on (01 R13, 04 R99). -/
theorem State.rd_wrAdvance (s : State) (d r : BitVec 5) (x : Word) :
    (s.wrAdvance d x).rd r = if r = d then (if d = 0 then 0 else x) else s.rd r := by
  unfold State.wrAdvance State.wr State.advance State.rd
  by_cases hd : d = 0
  · subst hd
    by_cases hr : r = 0
    · simp [hr]
    · simp only [if_true, hr, if_false]
  · simp only [hd, if_false]
    by_cases hr : r = 0
    · subst hr; simp only [if_true, Ne.symm hd, if_false]
    · by_cases h : r = d
      · subst h; simp only [hr, if_false, if_true, Vector.getElem_set_self]
      · have : d.toNat ≠ r.toNat := fun e => h (BitVec.eq_of_toNat_eq e.symm)
        simp only [hr, h, if_false]
        rw [Vector.getElem_set_ne]
        exact this
/-- Memory does not depend on the current thread's context. -/
theorem State.readLoc_th (s : State) (th : Thread) (l : Loc) (n : Nat) : ({ s with th := th } : State).readLoc l n = s.readLoc l n := by
  cases l <;> rfl
/-- An instruction that writes g[d] and a target to the program counter does nothing else. -/
theorem goesTo_of_exec (i : Instr) (s : State) (d : BitVec 5) (x p : Word)
    (h : exec i s = .next { s.wr d x with th := { (s.wr d x).th with pc := p, cv := none, reissue := false } }) : GoesTo i s d x p := by
  have e : ∀ r, ({ s.wr d x with th := { (s.wr d x).th with pc := p, cv := none, reissue := false } } : State).rd r = (s.wrAdvance d x).rd r := fun _ => rfl
  refine ⟨_, h, ?_, fun r hr => ?_, rfl, ?_, ?_, fun l => ?_⟩
  · rw [Holds, e, State.rd_wrAdvance, if_pos rfl]
  · rw [e, State.rd_wrAdvance, if_neg hr]
  all_goals unfold State.wr
  · unfold OnlyScalars; split <;> rfl
  · unfold OnlyThread; split <;> rfl
  · split <;> exact State.readLoc_th ..
/-- An instruction that writes g[d] and goes on does nothing else. -/
theorem writesReg_of_exec (i : Instr) (s : State) (d : BitVec 5) (x : Word) (h : exec i s = .next (s.wrAdvance d x)) : WritesReg i s d x := by
  refine goesTo_of_exec i s d x _ (h.trans ?_)
  unfold State.wrAdvance State.wr State.advance
  split <;> rfl

/-! ## Outcomes -/

@[simp] theorem finish_ok (s : State) : finish (.ok s) = .next s := rfl
@[simp] theorem finish_trap (t : Trap) (s : State) : finish (.error (.trap t s)) = .next (s.takeTrap t) := rfl
@[simp] theorem finish_park (w : Wait) (s : State) :
    finish (.error (.park w s)) = .next { s with th := { s.th with status := .parked w } } := rfl
@[simp] theorem finish_fault (f : Fault) : finish (.error (.fault f)) = .fault f := rfl
/-- An instruction answers a next state unless an access meets a frame that does not exist. -/
theorem finish_next (r : M State) (h : ∀ f, r ≠ .error (.fault f)) : ∃ t, finish r = .next t := by
  cases r with
  | ok s => exact ⟨s, rfl⟩
  | error e =>
    cases e with
    | trap t s => exact ⟨_, rfl⟩
    | park w s => exact ⟨_, rfl⟩
    | fault f => exact absurd rfl (h f)

/-! ## Memory through locations -/

/-- The location of the k-th byte after the j-th. -/
theorem Loc.add_add (l : Loc) (j k : Nat) : (l.add j).add k = l.add (j + k) := by
  cases l <;> simp [Loc.add, Nat.add_assoc]

theorem State.alloc_setAlloc (s : State) (c g c' g' : Nat) (a : Alloc) :
    (s.setAlloc c g a).alloc c' g' = if c' = c ∧ g' = g then a else s.alloc c' g' := by
  unfold State.setAlloc State.updCore State.setCore State.alloc State.getCore
  by_cases hc : c' = c
  · subst hc
    rw [SMap.get_set_same]
    by_cases hg : g' = g
    · subst hg; simp
    · rw [SMap.get_set_ne _ _ _ _ _ hg, if_neg (by simp [hg])]
  · rw [SMap.get_set_ne _ _ _ _ _ hc, if_neg (by simp [hc])]

/-- The entry of a table under a key that satisfies what all entries and the default satisfy. -/
theorem SMap.get_all {α : Type} (m : SMap α) (k : Nat) (d : α) (p : α → Bool) (h : (m.all fun x => p x.2) = true) (hd : p d = true) :
    p (m.get k d) = true := by
  induction m with
  | nil => simpa [SMap.get, SMap.look] using hd
  | cons x r ih =>
    obtain ⟨j, a⟩ := x
    simp only [List.all_cons, Bool.and_eq_true] at h
    simp only [SMap.get, SMap.look] at ih ⊢
    split
    · simpa using h.1
    · exact ih h.2
/-- A table after an entry is set. -/
theorem SMap.set_all {α : Type} (m : SMap α) (k : Nat) (a : α) (p : α → Bool) (h : (m.all fun x => p x.2) = true) (ha : p a = true) :
    ((SMap.set m k a).all fun x => p x.2) = true := by
  induction m with
  | nil => simpa [SMap.set] using ha
  | cons x r ih =>
    obtain ⟨j, b⟩ := x
    simp only [List.all_cons, Bool.and_eq_true] at h
    simp only [SMap.set]
    split
    · simp [ha, h.1, h.2]
    · split
      · simp [ha, h.2]
      · simp [h.1, ih h.2]

/-- The parts of the invariant that memory operations may touch. -/
theorem State.wf_iff (s : State) : s.wf = true ↔ s.dram.wf = true ∧ s.host.wf = true ∧ (s.clusters.all fun c => c.2.code.wf) = true
    ∧ (s.cores.all fun c => c.2.allocs.all fun a => a.2.mem.wf) = true ∧ (s.groups.all fun g => g.2.savedAllocs.all fun a => a.mem.wf) = true := by
  simp only [State.wf, Bool.and_eq_true, and_assoc]
/-- The allocation of a sound state is sound. -/
theorem State.wf_alloc (s : State) (c g : Nat) (h : s.wf = true) : (s.alloc c g).mem.wf = true := by
  have h := ((State.wf_iff s).1 h).2.2.2.1
  refine SMap.get_all (s.getCore c).allocs g {} (fun a => a.mem.wf) ?_ rfl
  exact SMap.get_all s.cores c (Core.init c) (fun k => k.allocs.all fun a => a.2.mem.wf) h rfl
/-- A sound allocation keeps the state sound. -/
theorem State.wf_setAlloc (s : State) (c g : Nat) (a : Alloc) (h : s.wf = true) (ha : a.mem.wf = true) : (s.setAlloc c g a).wf = true := by
  rw [State.wf_iff] at h ⊢
  refine ⟨h.1, h.2.1, h.2.2.1, ?_, h.2.2.2.2⟩
  refine SMap.set_all s.cores c _ (fun k => k.allocs.all fun a => a.2.mem.wf) h.2.2.2.1 ?_
  refine SMap.set_all (s.getCore c).allocs g a (fun a => a.mem.wf) ?_ ha
  exact SMap.get_all s.cores c (Core.init c) (fun k => k.allocs.all fun a => a.2.mem.wf) h.2.2.2.1 rfl
/-- A write at a location keeps the state sound. -/
theorem State.wf_put (s : State) (l : Loc) (n x : Nat) (h : s.wf = true) : (s.put l n x).wf = true := by
  have w := (State.wf_iff s).1 h
  cases l with
  | dev p => exact (State.wf_iff _).2 ⟨Memory.wf_store n _ _ _ w.1, w.2⟩
  | hostmem p =>
    simp only [State.put]
    split
    · exact h
    · split
      · exact h
      · exact (State.wf_iff _).2 ⟨w.1, Memory.wf_store n _ _ _ w.2.1, w.2.2⟩
  | tile c g o => exact State.wf_setAlloc _ _ _ _ h (Memory.wf_store n _ _ _ (State.wf_alloc s c g h))
/-- So does a write with the fork of a migration. -/
theorem State.wf_storeLoc (s : State) (l : Loc) (n x : Nat) (h : s.wf = true) : (s.storeLoc l n x).wf = true := by
  unfold State.storeLoc
  split
  · exact State.wf_put _ _ _ _ (State.wf_put s l n x h)
  · exact State.wf_put s l n x h
/-- Transactions towards the host do not touch memory. -/
theorem State.wf_note (s : State) (ty op : Nat) (l : Loc) (d : List Byte) : (s.note ty op l d).wf = s.wf := by
  simp only [State.wf, State.note_dram, State.note_host, State.note_clusters, State.note_cores, State.note_groups]
theorem State.wf_keepOld (s : State) (l : Loc) (n x : Nat) : (s.keepOld l n x).wf = s.wf := by
  simp only [State.wf, State.keepOld_dram, State.keepOld_host, State.keepOld_clusters, State.keepOld_cores, State.keepOld_groups]
/-- A plain write keeps the state sound. -/
theorem State.wf_writeLoc (s : State) (l : Loc) (n x : Nat) (h : s.wf = true) : (s.writeLoc l n x).wf = true := by
  rw [State.writeLoc, State.wf_keepOld, State.wf_note]; exact State.wf_storeLoc s l n x h
/-- So does a write of poison. -/
theorem State.wf_poisonAt (s : State) (l : Loc) (h : s.wf = true) : (s.poisonAt l).wf = true := by
  cases l with
  | dev p => exact h
  | hostmem p =>
    simp only [State.poisonAt]
    split
    · exact h
    · split <;> exact h
  | tile c g o => exact State.wf_setAlloc _ _ _ _ h (State.wf_alloc s c g h)
theorem State.wf_poisonLoc (s : State) (l : Loc) (h : s.wf = true) : (s.poisonLoc l).wf = true := by
  unfold State.poisonLoc
  split
  · exact State.wf_poisonAt _ _ (State.wf_poisonAt s l h)
  · exact State.wf_poisonAt s l h
/-- So do the records of a fault batch. -/
theorem State.wf_putRecords (s : State) (l : Loc) (r : List FaultRecord) (h : s.wf = true) : (putRecords s l r).wf = true := by
  induction r generalizing s l with
  | nil => exact h
  | cons x r ih => exact ih _ _ (State.wf_writeLoc s l 16 x h)
/-- Memory right after reset is sound. -/
theorem State.reset_wf : State.reset.wf = true := rfl

/-- A byte after a write at a location. -/
theorem State.readLoc_put (s : State) (l m : Loc) (n x : Nat) (h : s.wf = true) (up : ¬ s.dropped l) :
    (∀ i < n, (s.put l n x).readLoc (l.add i) 1 = x / 256 ^ i % 256) ∧ (¬ m.within l n → (s.put l n x).readLoc m 1 = s.readLoc m 1) := by
  have w := (State.wf_iff s).1 h
  have inside : ∀ (k : Memory) (a i : Nat), k.wf = true → i < n → (k.store a n x).load (a + i) 1 = x / 256 ^ i % 256 := by
    intro k a i hk hi
    rw [Memory.load_one, Memory.read_store n k a x _ hk, if_pos (by omega), Nat.add_sub_cancel_left, BitVec.toNat_ofNat]
  have outside : ∀ (k : Memory) (a b : Nat), k.wf = true → ¬ (∃ i < n, b = a + i) → (k.store a n x).load b 1 = k.load b 1 := by
    intro k a b hk hb
    rw [Memory.load_one, Memory.load_one, Memory.read_store n k a x _ hk, if_neg]
    rintro ⟨h1, h2⟩
    exact hb ⟨b - a, by omega, by omega⟩
  cases l with
  | dev p =>
    refine ⟨fun i hi => inside s.dram p i w.1 hi, fun hm => ?_⟩
    cases m with
    | dev q => exact outside s.dram p q w.1 fun ⟨i, hi, e⟩ => hm ⟨i, hi, by rw [e]; rfl⟩
    | hostmem q => rfl
    | tile c g o => rfl
  | hostmem p =>
    have hp : s.ksl.phase = .up := Classical.byContradiction fun hd => up ⟨hd, p, rfl⟩
    simp only [State.put, hp, reduceCtorEq, if_false]
    refine ⟨fun i hi => inside s.host p i w.2.1 hi, fun hm => ?_⟩
    cases m with
    | dev q => rfl
    | hostmem q => exact outside s.host p q w.2.1 fun ⟨i, hi, e⟩ => hm ⟨i, hi, by rw [e]; rfl⟩
    | tile c g o => rfl
  | tile c g o =>
    have wa := State.wf_alloc s c g h
    refine ⟨fun i hi => ?_, fun hm => ?_⟩
    · simp only [State.put, State.readLoc, Loc.add, State.alloc_setAlloc, and_self, if_true]
      exact inside _ o i wa hi
    · cases m with
      | dev q => rfl
      | hostmem q => rfl
      | tile c' g' o' =>
        simp only [State.put, State.readLoc, State.alloc_setAlloc]
        split
        · rename_i e
          obtain ⟨rfl, rfl⟩ := e
          exact outside _ o o' wa fun ⟨i, hi, e⟩ => hm ⟨i, hi, by rw [e]; rfl⟩
        · rfl
/-- A write to host memory behind a link that is not up changes no byte (20 R418). -/
theorem State.readLoc_put_dropped (s : State) (l m : Loc) (n x k : Nat) (d : s.dropped l) : (s.put l n x).readLoc m k = s.readLoc m k := by
  obtain ⟨hd, p, rfl⟩ := d
  simp only [State.put]
  split
  · cases m <;> rfl
  · split
    · cases m <;> rfl
    · rename_i h1 h2
      exact absurd (by cases hp : s.ksl.phase <;> simp_all) hd
/-- What a write that breaks links leaves in memory. -/
theorem State.readLoc_putBreak (s : State) (l : Loc) (n x : Nat) (m : Loc) (k : Nat) :
    (s.putBreak l n x).readLoc m k = (s.put l n x).readLoc m k := by cases m <;> rfl
/-- A write of one location leaves every byte outside it. -/
theorem State.readLoc_putBreak_ne (s : State) (l m : Loc) (n x : Nat) (h : s.wf = true) (hm : ¬ m.within l n) :
    (s.putBreak l n x).readLoc m 1 = s.readLoc m 1 := by
  rw [State.readLoc_putBreak]
  by_cases up : s.dropped l
  · exact s.readLoc_put_dropped l m n x 1 up
  · exact (s.readLoc_put l m n x h up).2 hm
theorem State.wf_putBreak (s : State) (l : Loc) (n x : Nat) (h : s.wf = true) : (s.putBreak l n x).wf = true := s.wf_put l n x h
/-- What a write with the fork of a migration leaves (13 R313). -/
theorem State.stored_storeLoc (s : State) (l : Loc) (n x : Nat) (h : s.wf = true) : Stored s (s.storeLoc l n x) l n x := by
  have wu := s.wf_putBreak l n x h
  unfold Stored State.storeLoc
  split
  · rename_i k e
    simp only [e, Option.some.injEq, forall_eq']
    refine ⟨fun up apart i hi => ?_, fun m h1 h2 => ?_⟩
    · rw [State.readLoc_putBreak_ne _ _ _ _ _ wu (fun w => apart _ w ⟨i, hi, rfl⟩), State.readLoc_putBreak]
      exact (s.readLoc_put l l n x h up).1 i hi
    · rw [State.readLoc_putBreak_ne _ _ _ _ _ wu h2, s.readLoc_putBreak_ne l m n x h h1]
  · refine ⟨fun up _ i hi => ?_, fun m h1 _ => s.readLoc_putBreak_ne l m n x h h1⟩
    rw [State.readLoc_putBreak]
    exact (s.readLoc_put l l n x h up).1 i hi
/-- A transaction towards the host changes no byte. -/
theorem State.readLoc_note (s : State) (ty op : Nat) (l m : Loc) (d : List Byte) (k : Nat) : (s.note ty op l d).readLoc m k = s.readLoc m k := by
  cases m <;> simp [State.readLoc, State.alloc, State.getCore]
theorem State.readLoc_keepOld (s : State) (l m : Loc) (n x k : Nat) : (s.keepOld l n x).readLoc m k = s.readLoc m k := by
  cases m <;> simp [State.readLoc, State.alloc, State.getCore]
/-- What a plain write leaves. -/
theorem State.stored_writeLoc (s : State) (l : Loc) (n x : Nat) (h : s.wf = true) : Stored s (s.writeLoc l n x) l n x := by
  have w := s.stored_storeLoc l n x h
  unfold State.writeLoc
  exact ⟨fun a b i hi => by rw [State.readLoc_keepOld, State.readLoc_note]; exact w.1 a b i hi,
    fun m a b => by rw [State.readLoc_keepOld, State.readLoc_note]; exact w.2 m a b⟩

/-! ## The shared writes keep memory canonical -/

/-- What does not touch memory keeps it sound. -/
theorem State.wf_of_same (s t : State) (h : s.wf = true) (d : t.dram = s.dram) (b : t.host = s.host) (c : t.clusters = s.clusters)
    (k : t.cores = s.cores) (g : t.groups = s.groups) : t.wf = true := by
  rw [State.wf] at h ⊢; rw [d, b, c, k, g]; exact h
/-- A write of the hub die. -/
theorem State.wf_hubPut (s : State) (part : Nat) (l : Loc) (n x : Nat) (h : s.wf = true) : (s.hubPut part l n x).wf = true := by
  have w := s.wf_storeLoc l n x h
  unfold State.hubPut State.hubNote
  split <;> exact State.wf_of_same _ _ w (by simp) (by simp) (by simp) (by simp) (by simp)
/-- The write of an area. -/
theorem State.wf_writeArea (s : State) (l : List (Nat × Loc)) (x : Nat) (h : s.wf = true) : (s.writeArea l x).wf = true := by
  induction l generalizing s x with
  | nil => exact h
  | cons p r ih => exact ih _ _ (s.wf_writeLoc p.2 8 (x % 2 ^ 64) h)
/-- The write of doublewords of device memory. -/
theorem State.wf_putDwords (s : State) (a n x : Nat) (h : s.wf = true) : (s.putDwords a n x).wf = true := by
  induction n generalizing s a x with
  | zero => exact h
  | succ n ih => exact ih _ _ _ (s.wf_storeLoc (.dev a) 8 (x % 2 ^ 64) h)
/-- An update of a core that keeps its allocations. -/
theorem State.wf_updCore (s : State) (n : Nat) (f : Core → Core) (h : s.wf = true) (hf : ∀ k, (f k).allocs = k.allocs) : (s.updCore n f).wf = true := by
  rw [State.wf_iff] at h ⊢
  refine ⟨h.1, h.2.1, h.2.2.1, ?_, h.2.2.2.2⟩
  refine SMap.set_all s.cores n _ (fun k => k.allocs.all fun a => a.2.mem.wf) h.2.2.2.1 ?_
  rw [hf]
  exact SMap.get_all s.cores n (Core.init n) (fun k => k.allocs.all fun a => a.2.mem.wf) h.2.2.2.1 rfl
/-- The translations that a TLB holds. -/
theorem State.wf_setTlb (s : State) (w : Tlb) (l : List Trans) (h : s.wf = true) : (s.setTlb w l).wf = true := by
  cases w with
  | v => exact s.wf_updCore _ _ h fun _ => rfl
  | m => exact State.wf_of_same _ _ h rfl rfl rfl rfl rfl
  | unit n => exact State.wf_of_same _ _ h rfl rfl rfl rfl rfl
/-- A checked address of the current thread: only a TLB may have changed. -/
theorem State.locateAt_state (s u : State) (w : Tlb) (level : Level) (tile : Bool) (a n : Nat) (k : AKind) (l : Loc)
    (h : s.locateAt w level tile a n k = .ok (l, u)) : u = s ∨ ∃ held, u = s.setTlb w held := by
  unfold State.locateAt State.locate1 State.locate0 at h
  split at h
  · cases h
  · split at h
    · dsimp only at h
      split at h
      · cases h
      · split at h
        · cases h
        · cases h; exact .inl rfl
    · split at h
      · cases h
      · split at h
        · cases h
        · split at h
          · split at h
            · cases h
            · cases h; exact .inr ⟨_, rfl⟩
          · cases h
theorem State.wf_locateAt (s u : State) (w : Tlb) (level : Level) (tile : Bool) (a n : Nat) (k : AKind) (l : Loc) (g : s.wf = true)
    (h : s.locateAt w level tile a n k = .ok (l, u)) : u.wf = true := by
  obtain rfl | ⟨held, rfl⟩ := s.locateAt_state u w level tile a n k l h
  · exact g
  · exact s.wf_setTlb w held g
theorem State.wf_asks (s : State) (w : Wait) (h : s.wf = true) : (s.asks w).wf = true := by
  unfold State.asks State.askMigration State.askFrom
  split
  · split <;> exact h
  · exact State.wf_of_same _ _ h (by simp) (by simp) (by simp) (by simp) (by simp)
  · exact h
theorem State.wf_locateNow (s u : State) (level : Level) (a n : Nat) (l : Loc) (g : s.wf = true)
    (h : s.locateNow level a n = .ok (l, u)) : u.wf = true := by
  unfold State.locateNow at h
  split at h
  · split at h
    · cases h
      exact State.wf_asks _ _ (s.wf_setTlb _ _ g)
    · cases h
  · exact s.wf_locateAt _ _ _ _ _ _ _ _ g h
/-- Taking a trap: of memory only the fault batch area may be written (13 R307). -/
theorem State.wf_takeTrap (s : State) (t : Trap) (h : s.wf = true) : (s.takeTrap t).wf = true := by
  have e : ∀ (s : State) (t : Trap) (l : Level), s.wf = true → (s.enterOrEnd t l).wf = true := by
    intro s t l h
    unfold State.enterOrEnd
    split <;> exact State.wf_of_same _ _ h rfl rfl rfl rfl rfl
  have f : ∀ (s : State) (t : Trap), s.wf = true → (s.toFirmware t).wf = true := by
    intro s t h
    unfold State.toFirmware
    split
    · exact State.wf_of_same _ _ h rfl rfl rfl rfl rfl
    · exact e s t _ h
  have b : ∀ (t : Trap) (l : Level) (k : State → State), (∀ s : State, s.wf = true → (k s).wf = true) → (s.withBatch t l k).wf = true := by
    intro t l k hk
    unfold State.withBatch
    split
    · exact hk s h
    · split
      · rename_i e
        have w := s.wf_locateNow _ _ _ _ _ h e
        split
        · exact f s _ h
        · exact hk _ (State.wf_putRecords _ _ _ w)
      · exact f s _ h
  have go : ∀ t : Trap, (match trapLevel t.cause s.th.level with
      | .firmware => if s.th.fw.tih then s.toFirmware t else s.withBatch t .firmware (·.toFirmware t)
      | l => if s.th.sup.tih && !t.async then s.toFirmware t.doubled else s.withBatch t l (·.enterOrEnd t l)).wf = true := by
    intro t
    split
    · split
      · exact f s t h
      · exact b t _ _ fun s hs => f s t hs
    · split
      · exact f s _ h
      · exact b t _ _ fun s hs => e s t _ hs
  unfold State.takeTrap
  split
  · exact State.wf_of_same _ _ h rfl rfl rfl rfl rfl
  · exact go _

end Sys2Proof.Machine
end

