-- ==== Sys2Proof/Laws/PerInstr.lean ====
section
/-! SUPPORT. The families of statements about every instruction, one lemma for each constructor. -/
namespace Sys2Proof.Laws.InWord

/-- The word that the encoding tables give an instruction fits in 32 bits (02 R46). -/
def Statement (i : Instr) : Prop := ∀ n, encodeNat i = some n → n < 2 ^ 32

theorem fmaskClear (d : BitVec 5) (a : BitVec 5) : Statement (.fmaskClear d a) := by
  intro n h; cases h; have := d.isLt; have := a.isLt; omega
theorem srseedWrite (d : BitVec 5) (a : BitVec 5) : Statement (.srseedWrite d a) := by
  intro n h; cases h; have := d.isLt; have := a.isLt; omega
theorem undefinedInstruction (w : BitVec 32) : Statement (.undefinedInstruction w) := by
  intro n h; cases h; have := w.isLt; omega
theorem convoyRetire (h : Nat) : Statement (.convoyRetire h) := nofun
theorem takeAsyncCause (h : Nat) : Statement (.takeAsyncCause h) := nofun
theorem rmgraceExpire (h : Nat) : Statement (.rmgraceExpire h) := nofun
theorem vwaitWake (h : Nat) : Statement (.vwaitWake h) := nofun
theorem setvlwWake (h : Nat) : Statement (.setvlwWake h) := nofun
theorem rwaitWake (h : Nat) : Statement (.rwaitWake h) := nofun
theorem swmWake (h : Nat) : Statement (.swmWake h) := nofun
theorem sdrainWake (h : Nat) : Statement (.sdrainWake h) := nofun
theorem qwrWake (h : Nat) : Statement (.qwrWake h) := nofun
theorem qrdWake (h : Nat) : Statement (.qrdWake h) := nofun
theorem chwaitWake (h : Nat) : Statement (.chwaitWake h) := nofun
theorem tlbsyncWake (h : Nat) : Statement (.tlbsyncWake h) := nofun
theorem chcfgClaimWake (h : Nat) : Statement (.chcfgClaimWake h) := nofun
theorem transferSlotWake (h : Nat) : Statement (.transferSlotWake h) := nofun
theorem runWaitWake (h : Nat) : Statement (.runWaitWake h) := nofun
theorem stripComplete (core : Nat) (ch : Nat) : Statement (.stripComplete core ch) := nofun
theorem streamRetranslation (core : Nat) (ch : Nat) : Statement (.streamRetranslation core ch) := nofun
theorem tlbinvComplete (h : Nat) : Statement (.tlbinvComplete h) := nofun
theorem chainNodeElement (h : Nat) (slot : Nat) (frame : Nat) : Statement (.chainNodeElement h slot frame) := nofun
theorem switchEntryMove (h : Nat) (slot : Nat) (frame : Nat) : Statement (.switchEntryMove h slot frame) := nofun
theorem runComplete (h : Nat) (slot : Nat) : Statement (.runComplete h slot) := nofun
theorem chainDrainComplete (h : Nat) (slot : Nat) : Statement (.chainDrainComplete h slot) := nofun
theorem chainFinish (h : Nat) : Statement (.chainFinish h) := nofun
theorem groupStart (group : Nat) : Statement (.groupStart group) := nofun
theorem threadEnd (h : Nat) : Statement (.threadEnd h) := nofun
theorem threadTermination (h : Nat) : Statement (.threadTermination h) := nofun
theorem launchCompletion (launch : Nat) : Statement (.launchCompletion launch) := nofun
theorem dispatchStep (part : Nat) : Statement (.dispatchStep part) := nofun
theorem imageSelection (part : Nat) (queue : Nat) : Statement (.imageSelection part queue) := nofun
theorem migrationDeviceRequest (h : Nat) : Statement (.migrationDeviceRequest h) := nofun
theorem migrationSwitch (leaf : Nat) : Statement (.migrationSwitch leaf) := nofun
theorem migrationInvalidationComplete (leaf : Nat) : Statement (.migrationInvalidationComplete leaf) := nofun
theorem migrationHoldExpire (leaf : Nat) : Statement (.migrationHoldExpire leaf) := nofun
theorem reductionToken (node : Nat) : Statement (.reductionToken node) := nofun
theorem reductionNodeFail (node : Nat) : Statement (.reductionNodeFail node) := nofun
theorem kslFlitReceive (port : Nat) (flit : Nat) : Statement (.kslFlitReceive port flit) := nofun
theorem kslRetryRequest (port : Nat) (seq : BitVec 16) : Statement (.kslRetryRequest port seq) := nofun
theorem kslLinkDown (port : Nat) : Statement (.kslLinkDown port) := nofun
theorem hwr (vi : Nat) (tag : BitVec 16) (addr : Word) (data : List Byte) : Statement (.hwr vi tag addr data) := nofun
theorem hrd (vi : Nat) (tag : BitVec 16) (addr : Word) (len : Nat) : Statement (.hrd vi tag addr len) := nofun
theorem cpl (tag : BitVec 16) (stat : BitVec 8) (data : List Byte) : Statement (.cpl tag stat data) := nofun
theorem lmsg (vi : Nat) (tag : BitVec 16) (addr : Word) : Statement (.lmsg vi tag addr) := nofun
theorem migreq (vi : Nat) (tag : BitVec 16) (addr : Word) : Statement (.migreq vi tag addr) := nofun
theorem rtok (port : Nat) (tag : BitVec 16) (failed : Bool) (data : List Byte) : Statement (.rtok port tag failed data) := nofun
theorem mgmtPartition (src : MgmtSrc) (part : Nat) (clusters : List Nat) (vis : List Nat) (feat : BitVec 6) : Statement (.mgmtPartition src part clusters vis feat) := nofun
theorem mgmtQueueConfiguration (src : MgmtSrc) (part : Nat) (queue : Nat) (entry : Word) : Statement (.mgmtQueueConfiguration src part queue entry) := nofun
theorem mgmtWindow (src : MgmtSrc) (vi : Nat) (win : Nat) (hostBase : Word) (len : Word) (vbase : Word) (asid : BitVec 16) : Statement (.mgmtWindow src vi win hostBase len vbase asid) := nofun
theorem mgmtPreempt (src : MgmtSrc) (core : Nat) (thr : Nat) : Statement (.mgmtPreempt src core thr) := nofun
theorem mgmtSwap (src : MgmtSrc) (group : Nat) (restoreTo : Option Nat) : Statement (.mgmtSwap src group restoreTo) := nofun
theorem mgmtArmNode (src : MgmtSrc) (node : Nat) (desc : Word) : Statement (.mgmtArmNode src node desc) := nofun
theorem mgmtHold (src : MgmtSrc) (nanos : Nat) : Statement (.mgmtHold src nanos) := nofun
theorem mgmtThreshold (src : MgmtSrc) (count : Nat) : Statement (.mgmtThreshold src count) := nofun
theorem mgmtCap (src : MgmtSrc) (reg : CapReg) (write : Option Word) : Statement (.mgmtCap src reg write) := nofun
theorem mgmtPool (src : MgmtSrc) (add : Bool) (frame : Nat) : Statement (.mgmtPool src add frame) := nofun
theorem mgmtAttest (src : MgmtSrc) (nonce : List Byte) : Statement (.mgmtAttest src nonce) := nofun
theorem mgmtStatus (src : MgmtSrc) : Statement (.mgmtStatus src) := nofun
theorem mgmtLaunchEnvironment (src : MgmtSrc) (vi : Nat) (env : Env) : Statement (.mgmtLaunchEnvironment src vi env) := nofun
theorem capFrame (payload : List Byte) : Statement (.capFrame payload) := nofun
theorem powerEstimate : Statement .powerEstimate := nofun
theorem throttleRelease : Statement .throttleRelease := nofun
theorem thermalAlarm (die : Nat) : Statement (.thermalAlarm die) := nofun
theorem currentAlarm (part : Nat) : Statement (.currentAlarm part) := nofun
theorem linkIdleNarrow (link : LinkRef) : Statement (.linkIdleNarrow link) := nofun
theorem linkIdleSleep (link : LinkRef) : Statement (.linkIdleSleep link) := nofun
theorem linkWakeComplete (link : LinkRef) : Statement (.linkWakeComplete link) := nofun
theorem correctedError (unit : UnitRef) : Statement (.correctedError unit) := nofun
theorem uncorrectableError (lost : LostState) : Statement (.uncorrectableError lost) := nofun
theorem resourceMapPublish : Statement .resourceMapPublish := nofun
theorem boot : Statement .boot := nofun
theorem linkRetrainComplete (port : Nat) : Statement (.linkRetrainComplete port) := nofun
theorem vadd (d : BitVec 5) (a : BitVec 5) (b : BitVec 5) (k : BitVec 3) (c : BitVec 1) : Statement (.vadd d a b k c) := by
  intro n h; cases h; have := d.isLt; have := a.isLt; have := b.isLt; have := k.isLt; have := c.isLt; omega
theorem vsub (d : BitVec 5) (a : BitVec 5) (b : BitVec 5) (k : BitVec 3) (c : BitVec 1) : Statement (.vsub d a b k c) := by
  intro n h; cases h; have := d.isLt; have := a.isLt; have := b.isLt; have := k.isLt; have := c.isLt; omega
theorem vand (d : BitVec 5) (a : BitVec 5) (b : BitVec 5) (k : BitVec 3) (c : BitVec 1) : Statement (.vand d a b k c) := by
  intro n h; cases h; have := d.isLt; have := a.isLt; have := b.isLt; have := k.isLt; have := c.isLt; omega
theorem vor (d : BitVec 5) (a : BitVec 5) (b : BitVec 5) (k : BitVec 3) (c : BitVec 1) : Statement (.vor d a b k c) := by
  intro n h; cases h; have := d.isLt; have := a.isLt; have := b.isLt; have := k.isLt; have := c.isLt; omega
theorem vxor (d : BitVec 5) (a : BitVec 5) (b : BitVec 5) (k : BitVec 3) (c : BitVec 1) : Statement (.vxor d a b k c) := by
  intro n h; cases h; have := d.isLt; have := a.isLt; have := b.isLt; have := k.isLt; have := c.isLt; omega
theorem vsll (d : BitVec 5) (a : BitVec 5) (b : BitVec 5) (k : BitVec 3) (c : BitVec 1) : Statement (.vsll d a b k c) := by
  intro n h; cases h; have := d.isLt; have := a.isLt; have := b.isLt; have := k.isLt; have := c.isLt; omega
theorem vsrl (d : BitVec 5) (a : BitVec 5) (b : BitVec 5) (k : BitVec 3) (c : BitVec 1) : Statement (.vsrl d a b k c) := by
  intro n h; cases h; have := d.isLt; have := a.isLt; have := b.isLt; have := k.isLt; have := c.isLt; omega
theorem vsra (d : BitVec 5) (a : BitVec 5) (b : BitVec 5) (k : BitVec 3) (c : BitVec 1) : Statement (.vsra d a b k c) := by
  intro n h; cases h; have := d.isLt; have := a.isLt; have := b.isLt; have := k.isLt; have := c.isLt; omega
theorem vmul (d : BitVec 5) (a : BitVec 5) (b : BitVec 5) (k : BitVec 3) (c : BitVec 1) : Statement (.vmul d a b k c) := by
  intro n h; cases h; have := d.isLt; have := a.isLt; have := b.isLt; have := k.isLt; have := c.isLt; omega
theorem vmulh (d : BitVec 5) (a : BitVec 5) (b : BitVec 5) (k : BitVec 3) (c : BitVec 1) : Statement (.vmulh d a b k c) := by
  intro n h; cases h; have := d.isLt; have := a.isLt; have := b.isLt; have := k.isLt; have := c.isLt; omega
theorem vmulhn (d : BitVec 5) (a : BitVec 5) (b : BitVec 5) (k : BitVec 3) (c : BitVec 1) : Statement (.vmulhn d a b k c) := by
  intro n h; cases h; have := d.isLt; have := a.isLt; have := b.isLt; have := k.isLt; have := c.isLt; omega
theorem vdiv (d : BitVec 5) (a : BitVec 5) (b : BitVec 5) (k : BitVec 3) (c : BitVec 1) : Statement (.vdiv d a b k c) := by
  intro n h; cases h; have := d.isLt; have := a.isLt; have := b.isLt; have := k.isLt; have := c.isLt; omega
theorem vdivn (d : BitVec 5) (a : BitVec 5) (b : BitVec 5) (k : BitVec 3) (c : BitVec 1) : Statement (.vdivn d a b k c) := by
  intro n h; cases h; have := d.isLt; have := a.isLt; have := b.isLt; have := k.isLt; have := c.isLt; omega
theorem vrem (d : BitVec 5) (a : BitVec 5) (b : BitVec 5) (k : BitVec 3) (c : BitVec 1) : Statement (.vrem d a b k c) := by
  intro n h; cases h; have := d.isLt; have := a.isLt; have := b.isLt; have := k.isLt; have := c.isLt; omega
theorem vremn (d : BitVec 5) (a : BitVec 5) (b : BitVec 5) (k : BitVec 3) (c : BitVec 1) : Statement (.vremn d a b k c) := by
  intro n h; cases h; have := d.isLt; have := a.isLt; have := b.isLt; have := k.isLt; have := c.isLt; omega
theorem vmin (d : BitVec 5) (a : BitVec 5) (b : BitVec 5) (k : BitVec 3) (c : BitVec 1) : Statement (.vmin d a b k c) := by
  intro n h; cases h; have := d.isLt; have := a.isLt; have := b.isLt; have := k.isLt; have := c.isLt; omega
theorem vmax (d : BitVec 5) (a : BitVec 5) (b : BitVec 5) (k : BitVec 3) (c : BitVec 1) : Statement (.vmax d a b k c) := by
  intro n h; cases h; have := d.isLt; have := a.isLt; have := b.isLt; have := k.isLt; have := c.isLt; omega
theorem vminn (d : BitVec 5) (a : BitVec 5) (b : BitVec 5) (k : BitVec 3) (c : BitVec 1) : Statement (.vminn d a b k c) := by
  intro n h; cases h; have := d.isLt; have := a.isLt; have := b.isLt; have := k.isLt; have := c.isLt; omega
theorem vmaxn (d : BitVec 5) (a : BitVec 5) (b : BitVec 5) (k : BitVec 3) (c : BitVec 1) : Statement (.vmaxn d a b k c) := by
  intro n h; cases h; have := d.isLt; have := a.isLt; have := b.isLt; have := k.isLt; have := c.isLt; omega
theorem vclmul (d : BitVec 5) (a : BitVec 5) (b : BitVec 5) (k : BitVec 3) (c : BitVec 1) : Statement (.vclmul d a b k c) := by
  intro n h; cases h; have := d.isLt; have := a.isLt; have := b.isLt; have := k.isLt; have := c.isLt; omega
theorem vclmulh (d : BitVec 5) (a : BitVec 5) (b : BitVec 5) (k : BitVec 3) (c : BitVec 1) : Statement (.vclmulh d a b k c) := by
  intro n h; cases h; have := d.isLt; have := a.isLt; have := b.isLt; have := k.isLt; have := c.isLt; omega
theorem vwid (d : BitVec 5) (a : BitVec 5) (k : BitVec 3) (c : BitVec 1) : Statement (.vwid d a k c) := by
  intro n h; cases h; have := d.isLt; have := a.isLt; have := k.isLt; have := c.isLt; omega
theorem vwidn (d : BitVec 5) (a : BitVec 5) (k : BitVec 3) (c : BitVec 1) : Statement (.vwidn d a k c) := by
  intro n h; cases h; have := d.isLt; have := a.isLt; have := k.isLt; have := c.isLt; omega
theorem vaddScalar (d : BitVec 5) (a : BitVec 5) (b : BitVec 5) (k : BitVec 3) (c : BitVec 1) : Statement (.vaddScalar d a b k c) := by
  intro n h; cases h; have := d.isLt; have := a.isLt; have := b.isLt; have := k.isLt; have := c.isLt; omega
theorem vsubScalar (d : BitVec 5) (a : BitVec 5) (b : BitVec 5) (k : BitVec 3) (c : BitVec 1) : Statement (.vsubScalar d a b k c) := by
  intro n h; cases h; have := d.isLt; have := a.isLt; have := b.isLt; have := k.isLt; have := c.isLt; omega
theorem vandScalar (d : BitVec 5) (a : BitVec 5) (b : BitVec 5) (k : BitVec 3) (c : BitVec 1) : Statement (.vandScalar d a b k c) := by
  intro n h; cases h; have := d.isLt; have := a.isLt; have := b.isLt; have := k.isLt; have := c.isLt; omega
theorem vorScalar (d : BitVec 5) (a : BitVec 5) (b : BitVec 5) (k : BitVec 3) (c : BitVec 1) : Statement (.vorScalar d a b k c) := by
  intro n h; cases h; have := d.isLt; have := a.isLt; have := b.isLt; have := k.isLt; have := c.isLt; omega
theorem vxorScalar (d : BitVec 5) (a : BitVec 5) (b : BitVec 5) (k : BitVec 3) (c : BitVec 1) : Statement (.vxorScalar d a b k c) := by
  intro n h; cases h; have := d.isLt; have := a.isLt; have := b.isLt; have := k.isLt; have := c.isLt; omega
theorem vsllScalar (d : BitVec 5) (a : BitVec 5) (b : BitVec 5) (k : BitVec 3) (c : BitVec 1) : Statement (.vsllScalar d a b k c) := by
  intro n h; cases h; have := d.isLt; have := a.isLt; have := b.isLt; have := k.isLt; have := c.isLt; omega
theorem vsrlScalar (d : BitVec 5) (a : BitVec 5) (b : BitVec 5) (k : BitVec 3) (c : BitVec 1) : Statement (.vsrlScalar d a b k c) := by
  intro n h; cases h; have := d.isLt; have := a.isLt; have := b.isLt; have := k.isLt; have := c.isLt; omega
theorem vsraScalar (d : BitVec 5) (a : BitVec 5) (b : BitVec 5) (k : BitVec 3) (c : BitVec 1) : Statement (.vsraScalar d a b k c) := by
  intro n h; cases h; have := d.isLt; have := a.isLt; have := b.isLt; have := k.isLt; have := c.isLt; omega
theorem vmulScalar (d : BitVec 5) (a : BitVec 5) (b : BitVec 5) (k : BitVec 3) (c : BitVec 1) : Statement (.vmulScalar d a b k c) := by
  intro n h; cases h; have := d.isLt; have := a.isLt; have := b.isLt; have := k.isLt; have := c.isLt; omega
theorem vmulhScalar (d : BitVec 5) (a : BitVec 5) (b : BitVec 5) (k : BitVec 3) (c : BitVec 1) : Statement (.vmulhScalar d a b k c) := by
  intro n h; cases h; have := d.isLt; have := a.isLt; have := b.isLt; have := k.isLt; have := c.isLt; omega
theorem vmulhnScalar (d : BitVec 5) (a : BitVec 5) (b : BitVec 5) (k : BitVec 3) (c : BitVec 1) : Statement (.vmulhnScalar d a b k c) := by
  intro n h; cases h; have := d.isLt; have := a.isLt; have := b.isLt; have := k.isLt; have := c.isLt; omega
theorem vdivScalar (d : BitVec 5) (a : BitVec 5) (b : BitVec 5) (k : BitVec 3) (c : BitVec 1) : Statement (.vdivScalar d a b k c) := by
  intro n h; cases h; have := d.isLt; have := a.isLt; have := b.isLt; have := k.isLt; have := c.isLt; omega
theorem vdivnScalar (d : BitVec 5) (a : BitVec 5) (b : BitVec 5) (k : BitVec 3) (c : BitVec 1) : Statement (.vdivnScalar d a b k c) := by
  intro n h; cases h; have := d.isLt; have := a.isLt; have := b.isLt; have := k.isLt; have := c.isLt; omega
theorem vremScalar (d : BitVec 5) (a : BitVec 5) (b : BitVec 5) (k : BitVec 3) (c : BitVec 1) : Statement (.vremScalar d a b k c) := by
  intro n h; cases h; have := d.isLt; have := a.isLt; have := b.isLt; have := k.isLt; have := c.isLt; omega
theorem vremnScalar (d : BitVec 5) (a : BitVec 5) (b : BitVec 5) (k : BitVec 3) (c : BitVec 1) : Statement (.vremnScalar d a b k c) := by
  intro n h; cases h; have := d.isLt; have := a.isLt; have := b.isLt; have := k.isLt; have := c.isLt; omega
theorem vminScalar (d : BitVec 5) (a : BitVec 5) (b : BitVec 5) (k : BitVec 3) (c : BitVec 1) : Statement (.vminScalar d a b k c) := by
  intro n h; cases h; have := d.isLt; have := a.isLt; have := b.isLt; have := k.isLt; have := c.isLt; omega
theorem vmaxScalar (d : BitVec 5) (a : BitVec 5) (b : BitVec 5) (k : BitVec 3) (c : BitVec 1) : Statement (.vmaxScalar d a b k c) := by
  intro n h; cases h; have := d.isLt; have := a.isLt; have := b.isLt; have := k.isLt; have := c.isLt; omega
theorem vminnScalar (d : BitVec 5) (a : BitVec 5) (b : BitVec 5) (k : BitVec 3) (c : BitVec 1) : Statement (.vminnScalar d a b k c) := by
  intro n h; cases h; have := d.isLt; have := a.isLt; have := b.isLt; have := k.isLt; have := c.isLt; omega
theorem vmaxnScalar (d : BitVec 5) (a : BitVec 5) (b : BitVec 5) (k : BitVec 3) (c : BitVec 1) : Statement (.vmaxnScalar d a b k c) := by
  intro n h; cases h; have := d.isLt; have := a.isLt; have := b.isLt; have := k.isLt; have := c.isLt; omega
theorem vclmulScalar (d : BitVec 5) (a : BitVec 5) (b : BitVec 5) (k : BitVec 3) (c : BitVec 1) : Statement (.vclmulScalar d a b k c) := by
  intro n h; cases h; have := d.isLt; have := a.isLt; have := b.isLt; have := k.isLt; have := c.isLt; omega
theorem vclmulhScalar (d : BitVec 5) (a : BitVec 5) (b : BitVec 5) (k : BitVec 3) (c : BitVec 1) : Statement (.vclmulhScalar d a b k c) := by
  intro n h; cases h; have := d.isLt; have := a.isLt; have := b.isLt; have := k.isLt; have := c.isLt; omega
theorem vsadd (d : BitVec 5) (a : BitVec 5) (b : BitVec 5) (k : BitVec 3) (c : BitVec 1) : Statement (.vsadd d a b k c) := by
  intro n h; cases h; have := d.isLt; have := a.isLt; have := b.isLt; have := k.isLt; have := c.isLt; omega
theorem vssub (d : BitVec 5) (a : BitVec 5) (b : BitVec 5) (k : BitVec 3) (c : BitVec 1) : Statement (.vssub d a b k c) := by
  intro n h; cases h; have := d.isLt; have := a.isLt; have := b.isLt; have := k.isLt; have := c.isLt; omega
theorem vsaddn (d : BitVec 5) (a : BitVec 5) (b : BitVec 5) (k : BitVec 3) (c : BitVec 1) : Statement (.vsaddn d a b k c) := by
  intro n h; cases h; have := d.isLt; have := a.isLt; have := b.isLt; have := k.isLt; have := c.isLt; omega
theorem vssubn (d : BitVec 5) (a : BitVec 5) (b : BitVec 5) (k : BitVec 3) (c : BitVec 1) : Statement (.vssubn d a b k c) := by
  intro n h; cases h; have := d.isLt; have := a.isLt; have := b.isLt; have := k.isLt; have := c.isLt; omega
theorem vnrw (d : BitVec 5) (a : BitVec 5) (k : BitVec 3) (c : BitVec 1) : Statement (.vnrw d a k c) := by
  intro n h; cases h; have := d.isLt; have := a.isLt; have := k.isLt; have := c.isLt; omega
theorem vnrwn (d : BitVec 5) (a : BitVec 5) (k : BitVec 3) (c : BitVec 1) : Statement (.vnrwn d a k c) := by
  intro n h; cases h; have := d.isLt; have := a.isLt; have := k.isLt; have := c.isLt; omega
theorem vnrwsn (d : BitVec 5) (a : BitVec 5) (k : BitVec 3) (c : BitVec 1) : Statement (.vnrwsn d a k c) := by
  intro n h; cases h; have := d.isLt; have := a.isLt; have := k.isLt; have := c.isLt; omega
theorem vsaddScalar (d : BitVec 5) (a : BitVec 5) (b : BitVec 5) (k : BitVec 3) (c : BitVec 1) : Statement (.vsaddScalar d a b k c) := by
  intro n h; cases h; have := d.isLt; have := a.isLt; have := b.isLt; have := k.isLt; have := c.isLt; omega
theorem vssubScalar (d : BitVec 5) (a : BitVec 5) (b : BitVec 5) (k : BitVec 3) (c : BitVec 1) : Statement (.vssubScalar d a b k c) := by
  intro n h; cases h; have := d.isLt; have := a.isLt; have := b.isLt; have := k.isLt; have := c.isLt; omega
theorem vsaddnScalar (d : BitVec 5) (a : BitVec 5) (b : BitVec 5) (k : BitVec 3) (c : BitVec 1) : Statement (.vsaddnScalar d a b k c) := by
  intro n h; cases h; have := d.isLt; have := a.isLt; have := b.isLt; have := k.isLt; have := c.isLt; omega
theorem vssubnScalar (d : BitVec 5) (a : BitVec 5) (b : BitVec 5) (k : BitVec 3) (c : BitVec 1) : Statement (.vssubnScalar d a b k c) := by
  intro n h; cases h; have := d.isLt; have := a.isLt; have := b.isLt; have := k.isLt; have := c.isLt; omega
theorem vfadd (d : BitVec 5) (a : BitVec 5) (b : BitVec 5) (k : BitVec 3) (f : BitVec 1) (c : BitVec 1) : Statement (.vfadd d a b k f c) := by
  intro n h; cases h; have := d.isLt; have := a.isLt; have := b.isLt; have := k.isLt; have := f.isLt; have := c.isLt; omega
theorem vfsub (d : BitVec 5) (a : BitVec 5) (b : BitVec 5) (k : BitVec 3) (f : BitVec 1) (c : BitVec 1) : Statement (.vfsub d a b k f c) := by
  intro n h; cases h; have := d.isLt; have := a.isLt; have := b.isLt; have := k.isLt; have := f.isLt; have := c.isLt; omega
theorem vfmul (d : BitVec 5) (a : BitVec 5) (b : BitVec 5) (k : BitVec 3) (f : BitVec 1) (c : BitVec 1) : Statement (.vfmul d a b k f c) := by
  intro n h; cases h; have := d.isLt; have := a.isLt; have := b.isLt; have := k.isLt; have := f.isLt; have := c.isLt; omega
theorem vfma (d : BitVec 5) (a : BitVec 5) (b : BitVec 5) (k : BitVec 3) (f : BitVec 1) (c : BitVec 1) : Statement (.vfma d a b k f c) := by
  intro n h; cases h; have := d.isLt; have := a.isLt; have := b.isLt; have := k.isLt; have := f.isLt; have := c.isLt; omega
theorem vfms (d : BitVec 5) (a : BitVec 5) (b : BitVec 5) (k : BitVec 3) (f : BitVec 1) (c : BitVec 1) : Statement (.vfms d a b k f c) := by
  intro n h; cases h; have := d.isLt; have := a.isLt; have := b.isLt; have := k.isLt; have := f.isLt; have := c.isLt; omega
theorem vfnma (d : BitVec 5) (a : BitVec 5) (b : BitVec 5) (k : BitVec 3) (f : BitVec 1) (c : BitVec 1) : Statement (.vfnma d a b k f c) := by
  intro n h; cases h; have := d.isLt; have := a.isLt; have := b.isLt; have := k.isLt; have := f.isLt; have := c.isLt; omega
theorem vfdiv (d : BitVec 5) (a : BitVec 5) (b : BitVec 5) (k : BitVec 3) (f : BitVec 1) (c : BitVec 1) : Statement (.vfdiv d a b k f c) := by
  intro n h; cases h; have := d.isLt; have := a.isLt; have := b.isLt; have := k.isLt; have := f.isLt; have := c.isLt; omega
theorem vfsqrt (d : BitVec 5) (a : BitVec 5) (k : BitVec 3) (f : BitVec 1) (c : BitVec 1) : Statement (.vfsqrt d a k f c) := by
  intro n h; cases h; have := d.isLt; have := a.isLt; have := k.isLt; have := f.isLt; have := c.isLt; omega
theorem vfmin (d : BitVec 5) (a : BitVec 5) (b : BitVec 5) (k : BitVec 3) (f : BitVec 1) (c : BitVec 1) : Statement (.vfmin d a b k f c) := by
  intro n h; cases h; have := d.isLt; have := a.isLt; have := b.isLt; have := k.isLt; have := f.isLt; have := c.isLt; omega
theorem vfmax (d : BitVec 5) (a : BitVec 5) (b : BitVec 5) (k : BitVec 3) (f : BitVec 1) (c : BitVec 1) : Statement (.vfmax d a b k f c) := by
  intro n h; cases h; have := d.isLt; have := a.isLt; have := b.isLt; have := k.isLt; have := f.isLt; have := c.isLt; omega
theorem vfrcp (d : BitVec 5) (a : BitVec 5) (k : BitVec 3) (f : BitVec 1) (c : BitVec 1) : Statement (.vfrcp d a k f c) := by
  intro n h; cases h; have := d.isLt; have := a.isLt; have := k.isLt; have := f.isLt; have := c.isLt; omega
theorem vfaddScalar (d : BitVec 5) (a : BitVec 5) (b : BitVec 5) (k : BitVec 3) (f : BitVec 1) (c : BitVec 1) : Statement (.vfaddScalar d a b k f c) := by
  intro n h; cases h; have := d.isLt; have := a.isLt; have := b.isLt; have := k.isLt; have := f.isLt; have := c.isLt; omega
theorem vfsubScalar (d : BitVec 5) (a : BitVec 5) (b : BitVec 5) (k : BitVec 3) (f : BitVec 1) (c : BitVec 1) : Statement (.vfsubScalar d a b k f c) := by
  intro n h; cases h; have := d.isLt; have := a.isLt; have := b.isLt; have := k.isLt; have := f.isLt; have := c.isLt; omega
theorem vfmulScalar (d : BitVec 5) (a : BitVec 5) (b : BitVec 5) (k : BitVec 3) (f : BitVec 1) (c : BitVec 1) : Statement (.vfmulScalar d a b k f c) := by
  intro n h; cases h; have := d.isLt; have := a.isLt; have := b.isLt; have := k.isLt; have := f.isLt; have := c.isLt; omega
theorem vfmaScalar (d : BitVec 5) (a : BitVec 5) (b : BitVec 5) (k : BitVec 3) (f : BitVec 1) (c : BitVec 1) : Statement (.vfmaScalar d a b k f c) := by
  intro n h; cases h; have := d.isLt; have := a.isLt; have := b.isLt; have := k.isLt; have := f.isLt; have := c.isLt; omega
theorem vfmsScalar (d : BitVec 5) (a : BitVec 5) (b : BitVec 5) (k : BitVec 3) (f : BitVec 1) (c : BitVec 1) : Statement (.vfmsScalar d a b k f c) := by
  intro n h; cases h; have := d.isLt; have := a.isLt; have := b.isLt; have := k.isLt; have := f.isLt; have := c.isLt; omega
theorem vfnmaScalar (d : BitVec 5) (a : BitVec 5) (b : BitVec 5) (k : BitVec 3) (f : BitVec 1) (c : BitVec 1) : Statement (.vfnmaScalar d a b k f c) := by
  intro n h; cases h; have := d.isLt; have := a.isLt; have := b.isLt; have := k.isLt; have := f.isLt; have := c.isLt; omega
theorem vfdivScalar (d : BitVec 5) (a : BitVec 5) (b : BitVec 5) (k : BitVec 3) (f : BitVec 1) (c : BitVec 1) : Statement (.vfdivScalar d a b k f c) := by
  intro n h; cases h; have := d.isLt; have := a.isLt; have := b.isLt; have := k.isLt; have := f.isLt; have := c.isLt; omega
theorem vfsqrtScalar (d : BitVec 5) (a : BitVec 5) (k : BitVec 3) (f : BitVec 1) (c : BitVec 1) : Statement (.vfsqrtScalar d a k f c) := by
  intro n h; cases h; have := d.isLt; have := a.isLt; have := k.isLt; have := f.isLt; have := c.isLt; omega
theorem vfminScalar (d : BitVec 5) (a : BitVec 5) (b : BitVec 5) (k : BitVec 3) (f : BitVec 1) (c : BitVec 1) : Statement (.vfminScalar d a b k f c) := by
  intro n h; cases h; have := d.isLt; have := a.isLt; have := b.isLt; have := k.isLt; have := f.isLt; have := c.isLt; omega
theorem vfmaxScalar (d : BitVec 5) (a : BitVec 5) (b : BitVec 5) (k : BitVec 3) (f : BitVec 1) (c : BitVec 1) : Statement (.vfmaxScalar d a b k f c) := by
  intro n h; cases h; have := d.isLt; have := a.isLt; have := b.isLt; have := k.isLt; have := f.isLt; have := c.isLt; omega
theorem vfrcpScalar (d : BitVec 5) (a : BitVec 5) (k : BitVec 3) (f : BitVec 1) (c : BitVec 1) : Statement (.vfrcpScalar d a k f c) := by
  intro n h; cases h; have := d.isLt; have := a.isLt; have := k.isLt; have := f.isLt; have := c.isLt; omega
theorem vcmp (d : BitVec 5) (a : BitVec 5) (b : BitVec 5) (k : BitVec 3) (q : BitVec 6) (c : BitVec 1) : Statement (.vcmp d a b k q c) := by
  intro n h; cases h; have := d.isLt; have := a.isLt; have := b.isLt; have := k.isLt; have := q.isLt; have := c.isLt; omega
theorem vcmps (d : BitVec 5) (a : BitVec 5) (b : BitVec 5) (k : BitVec 3) (q : BitVec 6) (c : BitVec 1) : Statement (.vcmps d a b k q c) := by
  intro n h; cases h; have := d.isLt; have := a.isLt; have := b.isLt; have := k.isLt; have := q.isLt; have := c.isLt; omega
theorem vfcmp (d : BitVec 5) (a : BitVec 5) (b : BitVec 5) (k : BitVec 3) (q : BitVec 3) (f : BitVec 1) (c : BitVec 1) : Statement (.vfcmp d a b k q f c) := by
  intro n h; cases h; have := d.isLt; have := a.isLt; have := b.isLt; have := k.isLt; have := q.isLt; have := f.isLt; have := c.isLt; omega
theorem vfcmps (d : BitVec 5) (a : BitVec 5) (b : BitVec 5) (k : BitVec 3) (q : BitVec 3) (f : BitVec 1) (c : BitVec 1) : Statement (.vfcmps d a b k q f c) := by
  intro n h; cases h; have := d.isLt; have := a.isLt; have := b.isLt; have := k.isLt; have := q.isLt; have := f.isLt; have := c.isLt; omega
theorem vmerge (d : BitVec 5) (a : BitVec 5) (b : BitVec 5) (k : BitVec 3) (c : BitVec 1) : Statement (.vmerge d a b k c) := by
  intro n h; cases h; have := d.isLt; have := a.isLt; have := b.isLt; have := k.isLt; have := c.isLt; omega
theorem vmv (d : BitVec 5) (a : BitVec 5) (k : BitVec 3) (c : BitVec 1) : Statement (.vmv d a k c) := by
  intro n h; cases h; have := d.isLt; have := a.isLt; have := k.isLt; have := c.isLt; omega
theorem vbcast (d : BitVec 5) (a : BitVec 5) (k : BitVec 3) (c : BitVec 1) : Statement (.vbcast d a k c) := by
  intro n h; cases h; have := d.isLt; have := a.isLt; have := k.isLt; have := c.isLt; omega
theorem vextN (d : BitVec 5) (a : BitVec 5) (b : BitVec 5) (c : BitVec 1) : Statement (.vextN d a b c) := by
  intro n h; cases h; have := d.isLt; have := a.isLt; have := b.isLt; have := c.isLt; omega
theorem vextI (d : BitVec 5) (a : BitVec 5) (b : BitVec 5) (c : BitVec 1) : Statement (.vextI d a b c) := by
  intro n h; cases h; have := d.isLt; have := a.isLt; have := b.isLt; have := c.isLt; omega
theorem vslideup (d : BitVec 5) (a : BitVec 5) (b : BitVec 5) (k : BitVec 3) (c : BitVec 1) : Statement (.vslideup d a b k c) := by
  intro n h; cases h; have := d.isLt; have := a.isLt; have := b.isLt; have := k.isLt; have := c.isLt; omega
theorem vslidedn (d : BitVec 5) (a : BitVec 5) (b : BitVec 5) (k : BitVec 3) (c : BitVec 1) : Statement (.vslidedn d a b k c) := by
  intro n h; cases h; have := d.isLt; have := a.isLt; have := b.isLt; have := k.isLt; have := c.isLt; omega
theorem vperm (d : BitVec 5) (a : BitVec 5) (b : BitVec 5) (k : BitVec 3) (c : BitVec 1) : Statement (.vperm d a b k c) := by
  intro n h; cases h; have := d.isLt; have := a.isLt; have := b.isLt; have := k.isLt; have := c.isLt; omega
theorem vcompress (d : BitVec 5) (a : BitVec 5) (k : BitVec 3) (c : BitVec 1) : Statement (.vcompress d a k c) := by
  intro n h; cases h; have := d.isLt; have := a.isLt; have := k.isLt; have := c.isLt; omega
theorem vexpand (d : BitVec 5) (a : BitVec 5) (k : BitVec 3) (c : BitVec 1) : Statement (.vexpand d a k c) := by
  intro n h; cases h; have := d.isLt; have := a.isLt; have := k.isLt; have := c.isLt; omega
theorem viota (d : BitVec 5) (k : BitVec 3) (c : BitVec 1) : Statement (.viota d k c) := by
  intro n h; cases h; have := d.isLt; have := k.isLt; have := c.isLt; omega
theorem vconf (d : BitVec 5) (a : BitVec 5) (k : BitVec 3) (c : BitVec 1) : Statement (.vconf d a k c) := by
  intro n h; cases h; have := d.isLt; have := a.isLt; have := k.isLt; have := c.isLt; omega
theorem vredsum (d : BitVec 5) (a : BitVec 5) (b : BitVec 5) (k : BitVec 3) (c : BitVec 1) : Statement (.vredsum d a b k c) := by
  intro n h; cases h; have := d.isLt; have := a.isLt; have := b.isLt; have := k.isLt; have := c.isLt; omega
theorem vredmaxI (d : BitVec 5) (a : BitVec 5) (b : BitVec 5) (k : BitVec 3) (c : BitVec 1) : Statement (.vredmaxI d a b k c) := by
  intro n h; cases h; have := d.isLt; have := a.isLt; have := b.isLt; have := k.isLt; have := c.isLt; omega
theorem vredmaxN (d : BitVec 5) (a : BitVec 5) (b : BitVec 5) (k : BitVec 3) (c : BitVec 1) : Statement (.vredmaxN d a b k c) := by
  intro n h; cases h; have := d.isLt; have := a.isLt; have := b.isLt; have := k.isLt; have := c.isLt; omega
theorem vredminI (d : BitVec 5) (a : BitVec 5) (b : BitVec 5) (k : BitVec 3) (c : BitVec 1) : Statement (.vredminI d a b k c) := by
  intro n h; cases h; have := d.isLt; have := a.isLt; have := b.isLt; have := k.isLt; have := c.isLt; omega
theorem vredminN (d : BitVec 5) (a : BitVec 5) (b : BitVec 5) (k : BitVec 3) (c : BitVec 1) : Statement (.vredminN d a b k c) := by
  intro n h; cases h; have := d.isLt; have := a.isLt; have := b.isLt; have := k.isLt; have := c.isLt; omega
theorem vfredsum (d : BitVec 5) (a : BitVec 5) (b : BitVec 5) (k : BitVec 3) (f : BitVec 1) (c : BitVec 1) : Statement (.vfredsum d a b k f c) := by
  intro n h; cases h; have := d.isLt; have := a.isLt; have := b.isLt; have := k.isLt; have := f.isLt; have := c.isLt; omega
theorem vredmaxF (d : BitVec 5) (a : BitVec 5) (b : BitVec 5) (k : BitVec 3) (f : BitVec 1) (c : BitVec 1) : Statement (.vredmaxF d a b k f c) := by
  intro n h; cases h; have := d.isLt; have := a.isLt; have := b.isLt; have := k.isLt; have := f.isLt; have := c.isLt; omega
theorem vredminF (d : BitVec 5) (a : BitVec 5) (b : BitVec 5) (k : BitVec 3) (f : BitVec 1) (c : BitVec 1) : Statement (.vredminF d a b k f c) := by
  intro n h; cases h; have := d.isLt; have := a.isLt; have := b.isLt; have := k.isLt; have := f.isLt; have := c.isLt; omega
theorem vcvt (d : BitVec 5) (a : BitVec 5) (t : BitVec 1) (s : BitVec 4) (k : BitVec 3) (r : BitVec 2) (g : BitVec 4) (c : BitVec 1) : Statement (.vcvt d a t s k r g c) := by
  intro n h; cases h; have := d.isLt; have := a.isLt; have := t.isLt; have := s.isLt; have := k.isLt; have := r.isLt; have := g.isLt; have := c.isLt; omega
theorem vqnt (d : BitVec 5) (a : BitVec 5) (b : BitVec 5) (k : BitVec 3) (q : BitVec 1) (c : BitVec 1) : Statement (.vqnt d a b k q c) := by
  intro n h; cases h; have := d.isLt; have := a.isLt; have := b.isLt; have := k.isLt; have := q.isLt; have := c.isLt; omega
theorem vdqnt (d : BitVec 5) (a : BitVec 5) (b : BitVec 5) (k : BitVec 3) (q : BitVec 1) (c : BitVec 1) : Statement (.vdqnt d a b k q c) := by
  intro n h; cases h; have := d.isLt; have := a.isLt; have := b.isLt; have := k.isLt; have := q.isLt; have := c.isLt; omega
theorem mand (d : BitVec 5) (a : BitVec 5) (b : BitVec 5) (k : BitVec 3) (c : BitVec 1) : Statement (.mand d a b k c) := by
  intro n h; cases h; have := d.isLt; have := a.isLt; have := b.isLt; have := k.isLt; have := c.isLt; omega
theorem mor (d : BitVec 5) (a : BitVec 5) (b : BitVec 5) (k : BitVec 3) (c : BitVec 1) : Statement (.mor d a b k c) := by
  intro n h; cases h; have := d.isLt; have := a.isLt; have := b.isLt; have := k.isLt; have := c.isLt; omega
theorem mxor (d : BitVec 5) (a : BitVec 5) (b : BitVec 5) (k : BitVec 3) (c : BitVec 1) : Statement (.mxor d a b k c) := by
  intro n h; cases h; have := d.isLt; have := a.isLt; have := b.isLt; have := k.isLt; have := c.isLt; omega
theorem mnot (d : BitVec 5) (a : BitVec 5) (k : BitVec 3) (c : BitVec 1) : Statement (.mnot d a k c) := by
  intro n h; cases h; have := d.isLt; have := a.isLt; have := k.isLt; have := c.isLt; omega
theorem mpopc (d : BitVec 5) (a : BitVec 5) (k : BitVec 3) (c : BitVec 1) : Statement (.mpopc d a k c) := by
  intro n h; cases h; have := d.isLt; have := a.isLt; have := k.isLt; have := c.isLt; omega
theorem mfirst (d : BitVec 5) (a : BitVec 5) (k : BitVec 3) (c : BitVec 1) : Statement (.mfirst d a k c) := by
  intro n h; cases h; have := d.isLt; have := a.isLt; have := k.isLt; have := c.isLt; omega
theorem mseti (d : BitVec 5) (a : BitVec 5) (c : BitVec 1) : Statement (.mseti d a c) := by
  intro n h; cases h; have := d.isLt; have := a.isLt; have := c.isLt; omega
theorem mvfm (d : BitVec 5) (c : BitVec 1) : Statement (.mvfm d c) := by
  intro n h; cases h; have := d.isLt; have := c.isLt; omega
theorem vld (d : BitVec 5) (b : BitVec 5) (k : BitVec 3) (t : BitVec 1) (s : BitVec 2) (o : BitVec 2) (c : BitVec 1) : Statement (.vld d b k t s o c) := by
  intro n h; cases h; have := d.isLt; have := b.isLt; have := k.isLt; have := t.isLt; have := s.isLt; have := o.isLt; have := c.isLt; omega
theorem vlds (d : BitVec 5) (b : BitVec 5) (x : BitVec 5) (k : BitVec 3) (t : BitVec 1) (s : BitVec 2) (o : BitVec 2) (c : BitVec 1) : Statement (.vlds d b x k t s o c) := by
  intro n h; cases h; have := d.isLt; have := b.isLt; have := x.isLt; have := k.isLt; have := t.isLt; have := s.isLt; have := o.isLt; have := c.isLt; omega
theorem vldx (d : BitVec 5) (b : BitVec 5) (x : BitVec 5) (k : BitVec 3) (t : BitVec 1) (s : BitVec 2) (o : BitVec 2) (c : BitVec 1) : Statement (.vldx d b x k t s o c) := by
  intro n h; cases h; have := d.isLt; have := b.isLt; have := x.isLt; have := k.isLt; have := t.isLt; have := s.isLt; have := o.isLt; have := c.isLt; omega
theorem vldff (d : BitVec 5) (b : BitVec 5) (k : BitVec 3) (t : BitVec 1) (s : BitVec 2) (o : BitVec 2) : Statement (.vldff d b k t s o) := by
  intro n h; cases h; have := d.isLt; have := b.isLt; have := k.isLt; have := t.isLt; have := s.isLt; have := o.isLt; omega
theorem vst (d : BitVec 5) (b : BitVec 5) (k : BitVec 3) (t : BitVec 1) (s : BitVec 2) (o : BitVec 2) (c : BitVec 1) : Statement (.vst d b k t s o c) := by
  intro n h; cases h; have := d.isLt; have := b.isLt; have := k.isLt; have := t.isLt; have := s.isLt; have := o.isLt; have := c.isLt; omega
theorem vsts (d : BitVec 5) (b : BitVec 5) (x : BitVec 5) (k : BitVec 3) (t : BitVec 1) (s : BitVec 2) (o : BitVec 2) (c : BitVec 1) : Statement (.vsts d b x k t s o c) := by
  intro n h; cases h; have := d.isLt; have := b.isLt; have := x.isLt; have := k.isLt; have := t.isLt; have := s.isLt; have := o.isLt; have := c.isLt; omega
theorem vstx (d : BitVec 5) (b : BitVec 5) (x : BitVec 5) (k : BitVec 3) (t : BitVec 1) (s : BitVec 2) (o : BitVec 2) (c : BitVec 1) : Statement (.vstx d b x k t s o c) := by
  intro n h; cases h; have := d.isLt; have := b.isLt; have := x.isLt; have := k.isLt; have := t.isLt; have := s.isLt; have := o.isLt; have := c.isLt; omega
theorem vstxa (d : BitVec 4) (f : BitVec 1) (b : BitVec 5) (x : BitVec 5) (k : BitVec 3) (t : BitVec 1) (s : BitVec 2) (o : BitVec 2) (c : BitVec 1) : Statement (.vstxa d f b x k t s o c) := by
  intro n h; cases h; have := d.isLt; have := f.isLt; have := b.isLt; have := x.isLt; have := k.isLt; have := t.isLt; have := s.isLt; have := o.isLt; have := c.isLt; omega
theorem vgll (d : BitVec 5) (b : BitVec 5) (x : BitVec 5) (k : BitVec 3) (t : BitVec 1) (s : BitVec 2) (o : BitVec 2) (c : BitVec 1) : Statement (.vgll d b x k t s o c) := by
  intro n h; cases h; have := d.isLt; have := b.isLt; have := x.isLt; have := k.isLt; have := t.isLt; have := s.isLt; have := o.isLt; have := c.isLt; omega
theorem vscc (d : BitVec 5) (b : BitVec 5) (x : BitVec 5) (k : BitVec 3) (t : BitVec 1) (s : BitVec 2) (o : BitVec 2) (c : BitVec 1) : Statement (.vscc d b x k t s o c) := by
  intro n h; cases h; have := d.isLt; have := b.isLt; have := x.isLt; have := k.isLt; have := t.isLt; have := s.isLt; have := o.isLt; have := c.isLt; omega
theorem mopa (d : BitVec 5) (a : BitVec 5) (b : BitVec 5) (n : BitVec 1) (q : BitVec 3) (p : BitVec 3) : Statement (.mopa d a b n q p) := by
  intro n h; cases h; have := d.isLt; have := a.isLt; have := b.isLt; have := n.isLt; have := q.isLt; have := p.isLt; omega
theorem mopa2 (d : BitVec 5) (a : BitVec 5) (b : BitVec 5) (n : BitVec 1) (q : BitVec 3) (p : BitVec 3) : Statement (.mopa2 d a b n q p) := by
  intro n h; cases h; have := d.isLt; have := a.isLt; have := b.isLt; have := n.isLt; have := q.isLt; have := p.isLt; omega
theorem mopa4 (d : BitVec 5) (a : BitVec 5) (b : BitVec 5) (n : BitVec 1) (q : BitVec 3) (p : BitVec 3) : Statement (.mopa4 d a b n q p) := by
  intro n h; cases h; have := d.isLt; have := a.isLt; have := b.isLt; have := n.isLt; have := q.isLt; have := p.isLt; omega
theorem mops (d : BitVec 5) (a : BitVec 5) (n : BitVec 1) (p : BitVec 3) : Statement (.mops d a n p) := by
  intro n h; cases h; have := d.isLt; have := a.isLt; have := n.isLt; have := p.isLt; omega
theorem mopg (d : BitVec 5) (a : BitVec 5) (b : BitVec 5) (n : BitVec 1) (q : BitVec 3) (p : BitVec 3) : Statement (.mopg d a b n q p) := by
  intro n h; cases h; have := d.isLt; have := a.isLt; have := b.isLt; have := n.isLt; have := q.isLt; have := p.isLt; omega
theorem mopq (d : BitVec 5) (a : BitVec 5) (b : BitVec 5) (q : BitVec 1) : Statement (.mopq d a b q) := by
  intro n h; cases h; have := d.isLt; have := a.isLt; have := b.isLt; have := q.isLt; omega
theorem mrd (d : BitVec 5) (a : BitVec 5) (t : BitVec 2) : Statement (.mrd d a t) := by
  intro n h; cases h; have := d.isLt; have := a.isLt; have := t.isLt; omega
theorem mwr (d : BitVec 5) (a : BitVec 5) (t : BitVec 2) : Statement (.mwr d a t) := by
  intro n h; cases h; have := d.isLt; have := a.isLt; have := t.isLt; omega
theorem add (d : BitVec 5) (a : BitVec 5) (b : BitVec 5) : Statement (.add d a b) := by
  intro n h; cases h; have := d.isLt; have := a.isLt; have := b.isLt; omega
theorem sub (d : BitVec 5) (a : BitVec 5) (b : BitVec 5) : Statement (.sub d a b) := by
  intro n h; cases h; have := d.isLt; have := a.isLt; have := b.isLt; omega
theorem and (d : BitVec 5) (a : BitVec 5) (b : BitVec 5) : Statement (.and d a b) := by
  intro n h; cases h; have := d.isLt; have := a.isLt; have := b.isLt; omega
theorem or (d : BitVec 5) (a : BitVec 5) (b : BitVec 5) : Statement (.or d a b) := by
  intro n h; cases h; have := d.isLt; have := a.isLt; have := b.isLt; omega
theorem xor (d : BitVec 5) (a : BitVec 5) (b : BitVec 5) : Statement (.xor d a b) := by
  intro n h; cases h; have := d.isLt; have := a.isLt; have := b.isLt; omega
theorem sll (d : BitVec 5) (a : BitVec 5) (b : BitVec 5) : Statement (.sll d a b) := by
  intro n h; cases h; have := d.isLt; have := a.isLt; have := b.isLt; omega
theorem srl (d : BitVec 5) (a : BitVec 5) (b : BitVec 5) : Statement (.srl d a b) := by
  intro n h; cases h; have := d.isLt; have := a.isLt; have := b.isLt; omega
theorem sra (d : BitVec 5) (a : BitVec 5) (b : BitVec 5) : Statement (.sra d a b) := by
  intro n h; cases h; have := d.isLt; have := a.isLt; have := b.isLt; omega
theorem slt (d : BitVec 5) (a : BitVec 5) (b : BitVec 5) : Statement (.slt d a b) := by
  intro n h; cases h; have := d.isLt; have := a.isLt; have := b.isLt; omega
theorem sltn (d : BitVec 5) (a : BitVec 5) (b : BitVec 5) : Statement (.sltn d a b) := by
  intro n h; cases h; have := d.isLt; have := a.isLt; have := b.isLt; omega
theorem mul (d : BitVec 5) (a : BitVec 5) (b : BitVec 5) : Statement (.mul d a b) := by
  intro n h; cases h; have := d.isLt; have := a.isLt; have := b.isLt; omega
theorem mulh (d : BitVec 5) (a : BitVec 5) (b : BitVec 5) : Statement (.mulh d a b) := by
  intro n h; cases h; have := d.isLt; have := a.isLt; have := b.isLt; omega
theorem mulhn (d : BitVec 5) (a : BitVec 5) (b : BitVec 5) : Statement (.mulhn d a b) := by
  intro n h; cases h; have := d.isLt; have := a.isLt; have := b.isLt; omega
theorem div (d : BitVec 5) (a : BitVec 5) (b : BitVec 5) : Statement (.div d a b) := by
  intro n h; cases h; have := d.isLt; have := a.isLt; have := b.isLt; omega
theorem divn (d : BitVec 5) (a : BitVec 5) (b : BitVec 5) : Statement (.divn d a b) := by
  intro n h; cases h; have := d.isLt; have := a.isLt; have := b.isLt; omega
theorem rem (d : BitVec 5) (a : BitVec 5) (b : BitVec 5) : Statement (.rem d a b) := by
  intro n h; cases h; have := d.isLt; have := a.isLt; have := b.isLt; omega
theorem remn (d : BitVec 5) (a : BitVec 5) (b : BitVec 5) : Statement (.remn d a b) := by
  intro n h; cases h; have := d.isLt; have := a.isLt; have := b.isLt; omega
theorem min (d : BitVec 5) (a : BitVec 5) (b : BitVec 5) : Statement (.min d a b) := by
  intro n h; cases h; have := d.isLt; have := a.isLt; have := b.isLt; omega
theorem max (d : BitVec 5) (a : BitVec 5) (b : BitVec 5) : Statement (.max d a b) := by
  intro n h; cases h; have := d.isLt; have := a.isLt; have := b.isLt; omega
theorem minn (d : BitVec 5) (a : BitVec 5) (b : BitVec 5) : Statement (.minn d a b) := by
  intro n h; cases h; have := d.isLt; have := a.isLt; have := b.isLt; omega
theorem maxn (d : BitVec 5) (a : BitVec 5) (b : BitVec 5) : Statement (.maxn d a b) := by
  intro n h; cases h; have := d.isLt; have := a.isLt; have := b.isLt; omega
theorem clz (d : BitVec 5) (a : BitVec 5) : Statement (.clz d a) := by
  intro n h; cases h; have := d.isLt; have := a.isLt; omega
theorem ctz (d : BitVec 5) (a : BitVec 5) : Statement (.ctz d a) := by
  intro n h; cases h; have := d.isLt; have := a.isLt; omega
theorem popc (d : BitVec 5) (a : BitVec 5) : Statement (.popc d a) := by
  intro n h; cases h; have := d.isLt; have := a.isLt; omega
theorem bswap (d : BitVec 5) (a : BitVec 5) : Statement (.bswap d a) := by
  intro n h; cases h; have := d.isLt; have := a.isLt; omega
theorem rotl (d : BitVec 5) (a : BitVec 5) (b : BitVec 5) : Statement (.rotl d a b) := by
  intro n h; cases h; have := d.isLt; have := a.isLt; have := b.isLt; omega
theorem rotr (d : BitVec 5) (a : BitVec 5) (b : BitVec 5) : Statement (.rotr d a b) := by
  intro n h; cases h; have := d.isLt; have := a.isLt; have := b.isLt; omega
theorem sel (d : BitVec 5) (a : BitVec 5) (b : BitVec 5) : Statement (.sel d a b) := by
  intro n h; cases h; have := d.isLt; have := a.isLt; have := b.isLt; omega
theorem addi (d : BitVec 5) (a : BitVec 5) (i : BitVec 14) : Statement (.addi d a i) := by
  intro n h; cases h; have := d.isLt; have := a.isLt; have := i.isLt; omega
theorem andi (d : BitVec 5) (a : BitVec 5) (i : BitVec 14) : Statement (.andi d a i) := by
  intro n h; cases h; have := d.isLt; have := a.isLt; have := i.isLt; omega
theorem ori (d : BitVec 5) (a : BitVec 5) (i : BitVec 14) : Statement (.ori d a i) := by
  intro n h; cases h; have := d.isLt; have := a.isLt; have := i.isLt; omega
theorem xori (d : BitVec 5) (a : BitVec 5) (i : BitVec 14) : Statement (.xori d a i) := by
  intro n h; cases h; have := d.isLt; have := a.isLt; have := i.isLt; omega
theorem slti (d : BitVec 5) (a : BitVec 5) (i : BitVec 14) : Statement (.slti d a i) := by
  intro n h; cases h; have := d.isLt; have := a.isLt; have := i.isLt; omega
theorem sltni (d : BitVec 5) (a : BitVec 5) (i : BitVec 14) : Statement (.sltni d a i) := by
  intro n h; cases h; have := d.isLt; have := a.isLt; have := i.isLt; omega
theorem slli (d : BitVec 5) (a : BitVec 5) (s : BitVec 6) : Statement (.slli d a s) := by
  intro n h; cases h; have := d.isLt; have := a.isLt; have := s.isLt; omega
theorem srli (d : BitVec 5) (a : BitVec 5) (s : BitVec 6) : Statement (.srli d a s) := by
  intro n h; cases h; have := d.isLt; have := a.isLt; have := s.isLt; omega
theorem srai (d : BitVec 5) (a : BitVec 5) (s : BitVec 6) : Statement (.srai d a s) := by
  intro n h; cases h; have := d.isLt; have := a.isLt; have := s.isLt; omega
theorem rotri (d : BitVec 5) (a : BitVec 5) (s : BitVec 6) : Statement (.rotri d a s) := by
  intro n h; cases h; have := d.isLt; have := a.isLt; have := s.isLt; omega
theorem lih (d : BitVec 5) (i : BitVec 19) : Statement (.lih d i) := by
  intro n h; cases h; have := d.isLt; have := i.isLt; omega
theorem addpc (d : BitVec 5) (i : BitVec 19) : Statement (.addpc d i) := by
  intro n h; cases h; have := d.isLt; have := i.isLt; omega
theorem jal (d : BitVec 5) (i : BitVec 19) : Statement (.jal d i) := by
  intro n h; cases h; have := d.isLt; have := i.isLt; omega
theorem jalr (d : BitVec 5) (a : BitVec 5) (i : BitVec 14) : Statement (.jalr d a i) := by
  intro n h; cases h; have := d.isLt; have := a.isLt; have := i.isLt; omega
theorem beq (a : BitVec 5) (b : BitVec 5) (o : BitVec 14) : Statement (.beq a b o) := by
  intro n h; cases h; have := a.isLt; have := b.isLt; have := o.isLt; omega
theorem bne (a : BitVec 5) (b : BitVec 5) (o : BitVec 14) : Statement (.bne a b o) := by
  intro n h; cases h; have := a.isLt; have := b.isLt; have := o.isLt; omega
theorem blt (a : BitVec 5) (b : BitVec 5) (o : BitVec 14) : Statement (.blt a b o) := by
  intro n h; cases h; have := a.isLt; have := b.isLt; have := o.isLt; omega
theorem bge (a : BitVec 5) (b : BitVec 5) (o : BitVec 14) : Statement (.bge a b o) := by
  intro n h; cases h; have := a.isLt; have := b.isLt; have := o.isLt; omega
theorem bltn (a : BitVec 5) (b : BitVec 5) (o : BitVec 14) : Statement (.bltn a b o) := by
  intro n h; cases h; have := a.isLt; have := b.isLt; have := o.isLt; omega
theorem bgen (a : BitVec 5) (b : BitVec 5) (o : BitVec 14) : Statement (.bgen a b o) := by
  intro n h; cases h; have := a.isLt; have := b.isLt; have := o.isLt; omega
theorem ldBS (d : BitVec 5) (a : BitVec 5) (i : BitVec 14) : Statement (.ldBS d a i) := by
  intro n h; cases h; have := d.isLt; have := a.isLt; have := i.isLt; omega
theorem ldBN (d : BitVec 5) (a : BitVec 5) (i : BitVec 14) : Statement (.ldBN d a i) := by
  intro n h; cases h; have := d.isLt; have := a.isLt; have := i.isLt; omega
theorem ldHS (d : BitVec 5) (a : BitVec 5) (i : BitVec 14) : Statement (.ldHS d a i) := by
  intro n h; cases h; have := d.isLt; have := a.isLt; have := i.isLt; omega
theorem ldHN (d : BitVec 5) (a : BitVec 5) (i : BitVec 14) : Statement (.ldHN d a i) := by
  intro n h; cases h; have := d.isLt; have := a.isLt; have := i.isLt; omega
theorem ldWS (d : BitVec 5) (a : BitVec 5) (i : BitVec 14) : Statement (.ldWS d a i) := by
  intro n h; cases h; have := d.isLt; have := a.isLt; have := i.isLt; omega
theorem ldWN (d : BitVec 5) (a : BitVec 5) (i : BitVec 14) : Statement (.ldWN d a i) := by
  intro n h; cases h; have := d.isLt; have := a.isLt; have := i.isLt; omega
theorem ldD (d : BitVec 5) (a : BitVec 5) (i : BitVec 14) : Statement (.ldD d a i) := by
  intro n h; cases h; have := d.isLt; have := a.isLt; have := i.isLt; omega
theorem stB (d : BitVec 5) (a : BitVec 5) (i : BitVec 14) : Statement (.stB d a i) := by
  intro n h; cases h; have := d.isLt; have := a.isLt; have := i.isLt; omega
theorem stH (d : BitVec 5) (a : BitVec 5) (i : BitVec 14) : Statement (.stH d a i) := by
  intro n h; cases h; have := d.isLt; have := a.isLt; have := i.isLt; omega
theorem stW (d : BitVec 5) (a : BitVec 5) (i : BitVec 14) : Statement (.stW d a i) := by
  intro n h; cases h; have := d.isLt; have := a.isLt; have := i.isLt; omega
theorem stD (d : BitVec 5) (a : BitVec 5) (i : BitVec 14) : Statement (.stD d a i) := by
  intro n h; cases h; have := d.isLt; have := a.isLt; have := i.isLt; omega
theorem amoAdd (d : BitVec 5) (a : BitVec 5) (b : BitVec 5) (z : BitVec 1) (o : BitVec 2) : Statement (.amoAdd d a b z o) := by
  intro n h; cases h; have := d.isLt; have := a.isLt; have := b.isLt; have := z.isLt; have := o.isLt; omega
theorem amoAnd (d : BitVec 5) (a : BitVec 5) (b : BitVec 5) (z : BitVec 1) (o : BitVec 2) : Statement (.amoAnd d a b z o) := by
  intro n h; cases h; have := d.isLt; have := a.isLt; have := b.isLt; have := z.isLt; have := o.isLt; omega
theorem amoOr (d : BitVec 5) (a : BitVec 5) (b : BitVec 5) (z : BitVec 1) (o : BitVec 2) : Statement (.amoOr d a b z o) := by
  intro n h; cases h; have := d.isLt; have := a.isLt; have := b.isLt; have := z.isLt; have := o.isLt; omega
theorem amoXor (d : BitVec 5) (a : BitVec 5) (b : BitVec 5) (z : BitVec 1) (o : BitVec 2) : Statement (.amoXor d a b z o) := by
  intro n h; cases h; have := d.isLt; have := a.isLt; have := b.isLt; have := z.isLt; have := o.isLt; omega
theorem amoMin (d : BitVec 5) (a : BitVec 5) (b : BitVec 5) (z : BitVec 1) (o : BitVec 2) : Statement (.amoMin d a b z o) := by
  intro n h; cases h; have := d.isLt; have := a.isLt; have := b.isLt; have := z.isLt; have := o.isLt; omega
theorem amoMax (d : BitVec 5) (a : BitVec 5) (b : BitVec 5) (z : BitVec 1) (o : BitVec 2) : Statement (.amoMax d a b z o) := by
  intro n h; cases h; have := d.isLt; have := a.isLt; have := b.isLt; have := z.isLt; have := o.isLt; omega
theorem amoMinn (d : BitVec 5) (a : BitVec 5) (b : BitVec 5) (z : BitVec 1) (o : BitVec 2) : Statement (.amoMinn d a b z o) := by
  intro n h; cases h; have := d.isLt; have := a.isLt; have := b.isLt; have := z.isLt; have := o.isLt; omega
theorem amoMaxn (d : BitVec 5) (a : BitVec 5) (b : BitVec 5) (z : BitVec 1) (o : BitVec 2) : Statement (.amoMaxn d a b z o) := by
  intro n h; cases h; have := d.isLt; have := a.isLt; have := b.isLt; have := z.isLt; have := o.isLt; omega
theorem amoSwap (d : BitVec 5) (a : BitVec 5) (b : BitVec 5) (z : BitVec 1) (o : BitVec 2) : Statement (.amoSwap d a b z o) := by
  intro n h; cases h; have := d.isLt; have := a.isLt; have := b.isLt; have := z.isLt; have := o.isLt; omega
theorem amoCas (d : BitVec 5) (a : BitVec 5) (b : BitVec 5) (z : BitVec 1) (o : BitVec 2) : Statement (.amoCas d a b z o) := by
  intro n h; cases h; have := d.isLt; have := a.isLt; have := b.isLt; have := z.isLt; have := o.isLt; omega
theorem fadd (d : BitVec 5) (a : BitVec 5) (b : BitVec 5) (f : BitVec 1) (r : BitVec 3) : Statement (.fadd d a b f r) := by
  intro n h; cases h; have := d.isLt; have := a.isLt; have := b.isLt; have := f.isLt; have := r.isLt; omega
theorem fmul (d : BitVec 5) (a : BitVec 5) (b : BitVec 5) (f : BitVec 1) (r : BitVec 3) : Statement (.fmul d a b f r) := by
  intro n h; cases h; have := d.isLt; have := a.isLt; have := b.isLt; have := f.isLt; have := r.isLt; omega
theorem ffma (d : BitVec 5) (a : BitVec 5) (b : BitVec 5) (f : BitVec 1) (r : BitVec 3) : Statement (.ffma d a b f r) := by
  intro n h; cases h; have := d.isLt; have := a.isLt; have := b.isLt; have := f.isLt; have := r.isLt; omega
theorem fcvt (d : BitVec 5) (a : BitVec 5) (k : BitVec 5) (f : BitVec 1) (r : BitVec 3) : Statement (.fcvt d a k f r) := by
  intro n h; cases h; have := d.isLt; have := a.isLt; have := k.isLt; have := f.isLt; have := r.isLt; omega
theorem fcmp (d : BitVec 5) (a : BitVec 5) (b : BitVec 5) (f : BitVec 1) (q : BitVec 2) : Statement (.fcmp d a b f q) := by
  intro n h; cases h; have := d.isLt; have := a.isLt; have := b.isLt; have := f.isLt; have := q.isLt; omega
theorem ecall : Statement .ecall := by
  intro n h; cases h; omega
theorem brk : Statement .brk := by
  intro n h; cases h; omega
theorem tret (r : BitVec 1) : Statement (.tret r) := by
  intro n h; cases h; have := r.isLt; omega
theorem emuret : Statement .emuret := by
  intro n h; cases h; omega
theorem fence (s : BitVec 3) (k : BitVec 2) : Statement (.fence s k) := by
  intro n h; cases h; have := s.isLt; have := k.isLt; omega
theorem lsync : Statement .lsync := by
  intro n h; cases h; omega
theorem crrd (d : BitVec 5) (r : BitVec 12) : Statement (.crrd d r) := by
  intro n h; cases h; have := d.isLt; have := r.isLt; omega
theorem crwr (d : BitVec 5) (a : BitVec 5) (r : BitVec 12) : Statement (.crwr d a r) := by
  intro n h; cases h; have := d.isLt; have := a.isLt; have := r.isLt; omega
theorem crset (d : BitVec 5) (a : BitVec 5) (r : BitVec 12) : Statement (.crset d a r) := by
  intro n h; cases h; have := d.isLt; have := a.isLt; have := r.isLt; omega
theorem crclr (d : BitVec 5) (a : BitVec 5) (r : BitVec 12) : Statement (.crclr d a r) := by
  intro n h; cases h; have := d.isLt; have := a.isLt; have := r.isLt; omega
theorem ctxsv (a : BitVec 5) : Statement (.ctxsv a) := by
  intro n h; cases h; have := a.isLt; omega
theorem ctxld (a : BitVec 5) : Statement (.ctxld a) := by
  intro n h; cases h; have := a.isLt; omega
theorem tlbinv (a : BitVec 5) (b : BitVec 5) (s : BitVec 3) : Statement (.tlbinv a b s) := by
  intro n h; cases h; have := a.isLt; have := b.isLt; have := s.isLt; omega
theorem tlbsync : Statement .tlbsync := by
  intro n h; cases h; omega
theorem rmack (d : BitVec 5) (a : BitVec 5) : Statement (.rmack d a) := by
  intro n h; cases h; have := d.isLt; have := a.isLt; omega
theorem lwake (a : BitVec 5) (s : BitVec 3) : Statement (.lwake a s) := by
  intro n h; cases h; have := a.isLt; have := s.isLt; omega
theorem idle : Statement .idle := by
  intro n h; cases h; omega
theorem setvl (d : BitVec 5) (a : BitVec 5) (b : BitVec 5) (e : BitVec 2) : Statement (.setvl d a b e) := by
  intro n h; cases h; have := d.isLt; have := a.isLt; have := b.isLt; have := e.isLt; omega
theorem setvlw (d : BitVec 5) (a : BitVec 5) (b : BitVec 5) (e : BitVec 2) : Statement (.setvlw d a b e) := by
  intro n h; cases h; have := d.isLt; have := a.isLt; have := b.isLt; have := e.isLt; omega
theorem vamoWAdd (d : BitVec 5) (a : BitVec 5) (x : BitVec 5) (k : BitVec 3) (o : BitVec 2) : Statement (.vamoWAdd d a x k o) := by
  intro n h; cases h; have := d.isLt; have := a.isLt; have := x.isLt; have := k.isLt; have := o.isLt; omega
theorem vamoWAnd (d : BitVec 5) (a : BitVec 5) (x : BitVec 5) (k : BitVec 3) (o : BitVec 2) : Statement (.vamoWAnd d a x k o) := by
  intro n h; cases h; have := d.isLt; have := a.isLt; have := x.isLt; have := k.isLt; have := o.isLt; omega
theorem vamoWOr (d : BitVec 5) (a : BitVec 5) (x : BitVec 5) (k : BitVec 3) (o : BitVec 2) : Statement (.vamoWOr d a x k o) := by
  intro n h; cases h; have := d.isLt; have := a.isLt; have := x.isLt; have := k.isLt; have := o.isLt; omega
theorem vamoWXor (d : BitVec 5) (a : BitVec 5) (x : BitVec 5) (k : BitVec 3) (o : BitVec 2) : Statement (.vamoWXor d a x k o) := by
  intro n h; cases h; have := d.isLt; have := a.isLt; have := x.isLt; have := k.isLt; have := o.isLt; omega
theorem vamoWMin (d : BitVec 5) (a : BitVec 5) (x : BitVec 5) (k : BitVec 3) (o : BitVec 2) : Statement (.vamoWMin d a x k o) := by
  intro n h; cases h; have := d.isLt; have := a.isLt; have := x.isLt; have := k.isLt; have := o.isLt; omega
theorem vamoWMax (d : BitVec 5) (a : BitVec 5) (x : BitVec 5) (k : BitVec 3) (o : BitVec 2) : Statement (.vamoWMax d a x k o) := by
  intro n h; cases h; have := d.isLt; have := a.isLt; have := x.isLt; have := k.isLt; have := o.isLt; omega
theorem vamoWMinn (d : BitVec 5) (a : BitVec 5) (x : BitVec 5) (k : BitVec 3) (o : BitVec 2) : Statement (.vamoWMinn d a x k o) := by
  intro n h; cases h; have := d.isLt; have := a.isLt; have := x.isLt; have := k.isLt; have := o.isLt; omega
theorem vamoWMaxn (d : BitVec 5) (a : BitVec 5) (x : BitVec 5) (k : BitVec 3) (o : BitVec 2) : Statement (.vamoWMaxn d a x k o) := by
  intro n h; cases h; have := d.isLt; have := a.isLt; have := x.isLt; have := k.isLt; have := o.isLt; omega
theorem vamoWSwap (d : BitVec 5) (a : BitVec 5) (x : BitVec 5) (k : BitVec 3) (o : BitVec 2) : Statement (.vamoWSwap d a x k o) := by
  intro n h; cases h; have := d.isLt; have := a.isLt; have := x.isLt; have := k.isLt; have := o.isLt; omega
theorem vamoWCas (d : BitVec 5) (a : BitVec 5) (x : BitVec 5) (k : BitVec 3) (o : BitVec 2) : Statement (.vamoWCas d a x k o) := by
  intro n h; cases h; have := d.isLt; have := a.isLt; have := x.isLt; have := k.isLt; have := o.isLt; omega
theorem vamoDAdd (d : BitVec 5) (a : BitVec 5) (x : BitVec 5) (k : BitVec 3) (o : BitVec 2) : Statement (.vamoDAdd d a x k o) := by
  intro n h; cases h; have := d.isLt; have := a.isLt; have := x.isLt; have := k.isLt; have := o.isLt; omega
theorem vamoDAnd (d : BitVec 5) (a : BitVec 5) (x : BitVec 5) (k : BitVec 3) (o : BitVec 2) : Statement (.vamoDAnd d a x k o) := by
  intro n h; cases h; have := d.isLt; have := a.isLt; have := x.isLt; have := k.isLt; have := o.isLt; omega
theorem vamoDOr (d : BitVec 5) (a : BitVec 5) (x : BitVec 5) (k : BitVec 3) (o : BitVec 2) : Statement (.vamoDOr d a x k o) := by
  intro n h; cases h; have := d.isLt; have := a.isLt; have := x.isLt; have := k.isLt; have := o.isLt; omega
theorem vamoDXor (d : BitVec 5) (a : BitVec 5) (x : BitVec 5) (k : BitVec 3) (o : BitVec 2) : Statement (.vamoDXor d a x k o) := by
  intro n h; cases h; have := d.isLt; have := a.isLt; have := x.isLt; have := k.isLt; have := o.isLt; omega
theorem vamoDMin (d : BitVec 5) (a : BitVec 5) (x : BitVec 5) (k : BitVec 3) (o : BitVec 2) : Statement (.vamoDMin d a x k o) := by
  intro n h; cases h; have := d.isLt; have := a.isLt; have := x.isLt; have := k.isLt; have := o.isLt; omega
theorem vamoDMax (d : BitVec 5) (a : BitVec 5) (x : BitVec 5) (k : BitVec 3) (o : BitVec 2) : Statement (.vamoDMax d a x k o) := by
  intro n h; cases h; have := d.isLt; have := a.isLt; have := x.isLt; have := k.isLt; have := o.isLt; omega
theorem vamoDMinn (d : BitVec 5) (a : BitVec 5) (x : BitVec 5) (k : BitVec 3) (o : BitVec 2) : Statement (.vamoDMinn d a x k o) := by
  intro n h; cases h; have := d.isLt; have := a.isLt; have := x.isLt; have := k.isLt; have := o.isLt; omega
theorem vamoDMaxn (d : BitVec 5) (a : BitVec 5) (x : BitVec 5) (k : BitVec 3) (o : BitVec 2) : Statement (.vamoDMaxn d a x k o) := by
  intro n h; cases h; have := d.isLt; have := a.isLt; have := x.isLt; have := k.isLt; have := o.isLt; omega
theorem vamoDSwap (d : BitVec 5) (a : BitVec 5) (x : BitVec 5) (k : BitVec 3) (o : BitVec 2) : Statement (.vamoDSwap d a x k o) := by
  intro n h; cases h; have := d.isLt; have := a.isLt; have := x.isLt; have := k.isLt; have := o.isLt; omega
theorem vamoDCas (d : BitVec 5) (a : BitVec 5) (x : BitVec 5) (k : BitVec 3) (o : BitVec 2) : Statement (.vamoDCas d a x k o) := by
  intro n h; cases h; have := d.isLt; have := a.isLt; have := x.isLt; have := k.isLt; have := o.isLt; omega
theorem vwait (d : BitVec 5) (a : BitVec 5) (x : BitVec 5) (k : BitVec 3) (z : BitVec 1) (q : BitVec 3) : Statement (.vwait d a x k z q) := by
  intro n h; cases h; have := d.isLt; have := a.isLt; have := x.isLt; have := k.isLt; have := z.isLt; have := q.isLt; omega
theorem tagl (d : BitVec 5) (a : BitVec 5) (k : BitVec 3) : Statement (.tagl d a k) := by
  intro n h; cases h; have := d.isLt; have := a.isLt; have := k.isLt; omega
theorem tagw (a : BitVec 5) (b : BitVec 5) (k : BitVec 3) : Statement (.tagw a b k) := by
  intro n h; cases h; have := a.isLt; have := b.isLt; have := k.isLt; omega
theorem vspill (a : BitVec 5) (b : BitVec 5) (s : BitVec 1) : Statement (.vspill a b s) := by
  intro n h; cases h; have := a.isLt; have := b.isLt; have := s.isLt; omega
theorem vfill (a : BitVec 5) (s : BitVec 1) : Statement (.vfill a s) := by
  intro n h; cases h; have := a.isLt; have := s.isLt; omega
theorem matt (d : BitVec 5) (a : BitVec 5) : Statement (.matt d a) := by
  intro n h; cases h; have := d.isLt; have := a.isLt; omega
theorem mdet : Statement .mdet := by
  intro n h; cases h; omega
theorem mmode (d : BitVec 5) (a : BitVec 5) : Statement (.mmode d a) := by
  intro n h; cases h; have := d.isLt; have := a.isLt; omega
theorem mzero (d : BitVec 5) : Statement (.mzero d) := by
  intro n h; cases h; have := d.isLt; omega
theorem mcbl (a : BitVec 5) : Statement (.mcbl a) := by
  intro n h; cases h; have := a.isLt; omega
theorem mrll (a : BitVec 5) : Statement (.mrll a) := by
  intro n h; cases h; have := a.isLt; omega
theorem msave (a : BitVec 5) : Statement (.msave a) := by
  intro n h; cases h; have := a.isLt; omega
theorem mrest (a : BitVec 5) : Statement (.mrest a) := by
  intro n h; cases h; have := a.isLt; omega
theorem schIn (d : BitVec 5) (a : BitVec 5) (b : BitVec 5) : Statement (.schIn d a b) := by
  intro n h; cases h; have := d.isLt; have := a.isLt; have := b.isLt; omega
theorem schOut (d : BitVec 5) (a : BitVec 5) (b : BitVec 5) : Statement (.schOut d a b) := by
  intro n h; cases h; have := d.isLt; have := a.isLt; have := b.isLt; omega
theorem schRel (d : BitVec 5) : Statement (.schRel d) := by
  intro n h; cases h; have := d.isLt; omega
theorem sld (d : BitVec 5) (a : BitVec 5) : Statement (.sld d a) := by
  intro n h; cases h; have := d.isLt; have := a.isLt; omega
theorem sst (d : BitVec 5) (a : BitVec 5) : Statement (.sst d a) := by
  intro n h; cases h; have := d.isLt; have := a.isLt; omega
theorem sgath (d : BitVec 5) (a : BitVec 5) (b : BitVec 5) (k : BitVec 3) : Statement (.sgath d a b k) := by
  intro n h; cases h; have := d.isLt; have := a.isLt; have := b.isLt; have := k.isLt; omega
theorem sscat (d : BitVec 5) (a : BitVec 5) (b : BitVec 5) (k : BitVec 3) : Statement (.sscat d a b k) := by
  intro n h; cases h; have := d.isLt; have := a.isLt; have := b.isLt; have := k.isLt; omega
theorem sscataInt (d : BitVec 5) (a : BitVec 5) (b : BitVec 5) (k : BitVec 3) : Statement (.sscataInt d a b k) := by
  intro n h; cases h; have := d.isLt; have := a.isLt; have := b.isLt; have := k.isLt; omega
theorem sscataFloat (d : BitVec 5) (a : BitVec 5) (b : BitVec 5) (k : BitVec 3) : Statement (.sscataFloat d a b k) := by
  intro n h; cases h; have := d.isLt; have := a.isLt; have := b.isLt; have := k.isLt; omega
theorem swm (d : BitVec 5) (a : BitVec 5) (b : BitVec 5) : Statement (.swm d a b) := by
  intro n h; cases h; have := d.isLt; have := a.isLt; have := b.isLt; omega
theorem sdrain (b : BitVec 5) : Statement (.sdrain b) := by
  intro n h; cases h; have := b.isLt; omega
theorem sdrainAll : Statement .sdrainAll := by
  intro n h; cases h; omega
theorem rcfg (a : BitVec 5) (b : BitVec 5) (s : BitVec 3) : Statement (.rcfg a b s) := by
  intro n h; cases h; have := a.isLt; have := b.isLt; have := s.isLt; omega
theorem rwait (d : BitVec 5) (a : BitVec 5) (b : BitVec 5) (s : BitVec 3) : Statement (.rwait d a b s) := by
  intro n h; cases h; have := d.isLt; have := a.isLt; have := b.isLt; have := s.isLt; omega
theorem rfree (d : BitVec 5) (a : BitVec 5) (s : BitVec 3) : Statement (.rfree d a s) := by
  intro n h; cases h; have := d.isLt; have := a.isLt; have := s.isLt; omega
theorem chcfg (a : BitVec 5) (b : BitVec 5) (s : BitVec 2) : Statement (.chcfg a b s) := by
  intro n h; cases h; have := a.isLt; have := b.isLt; have := s.isLt; omega
theorem run (a : BitVec 5) (s : BitVec 2) : Statement (.run a s) := by
  intro n h; cases h; have := a.isLt; have := s.isLt; omega
theorem chwait (d : BitVec 5) (s : BitVec 2) : Statement (.chwait d s) := by
  intro n h; cases h; have := d.isLt; have := s.isLt; omega
theorem chbrk (d : BitVec 5) (s : BitVec 2) : Statement (.chbrk d s) := by
  intro n h; cases h; have := d.isLt; have := s.isLt; omega
theorem hwpub (d : BitVec 5) (a : BitVec 5) (b : BitVec 5) (n : BitVec 1) : Statement (.hwpub d a b n) := by
  intro n h; cases h; have := d.isLt; have := a.isLt; have := b.isLt; have := n.isLt; omega
theorem tkpush (d : BitVec 5) (a : BitVec 5) : Statement (.tkpush d a) := by
  intro n h; cases h; have := d.isLt; have := a.isLt; omega
theorem tkpop (d : BitVec 5) : Statement (.tkpop d) := by
  intro n h; cases h; have := d.isLt; omega
theorem qwr (d : BitVec 5) (a : BitVec 5) : Statement (.qwr d a) := by
  intro n h; cases h; have := d.isLt; have := a.isLt; omega
theorem qrd (d : BitVec 5) (a : BitVec 5) : Statement (.qrd d a) := by
  intro n h; cases h; have := d.isLt; have := a.isLt; omega
theorem launch (d : BitVec 5) (a : BitVec 5) : Statement (.launch d a) := by
  intro n h; cases h; have := d.isLt; have := a.isLt; omega

end Sys2Proof.Laws.InWord
end

