-- ==== Sys2Proof/Laws/Vector.lean ====
section
/-! SUPPORT. What the element-wise operation and the whole-vector form of a vector instruction can do. -/
namespace Sys2Proof.Machine

/-! ## Elements of an image -/

theorem testBit_bits (x lo w i : Nat) : (bits x lo w).testBit i = (decide (i < w) && x.testBit (lo + i)) := by
  simp [bits, Nat.testBit_mod_two_pow, Nat.testBit_shiftRight]
theorem testBit_setBits (x lo w y i : Nat) :
    (setBits x lo w y).testBit i = if i < lo then x.testBit i else if i < lo + w then y.testBit (i - lo) else x.testBit i := by
  have e : setBits x lo w y = (x / 2 ^ (lo + w)) <<< (lo + w) ||| ((y % 2 ^ w) <<< lo ||| x % 2 ^ lo) := by
    have h1 : x % 2 ^ lo < 2 ^ lo := Nat.mod_lt _ (Nat.two_pow_pos _)
    have h2 : y % 2 ^ w < 2 ^ w := Nat.mod_lt _ (Nat.two_pow_pos _)
    have h3 : (y % 2 ^ w) * 2 ^ lo + x % 2 ^ lo < 2 ^ (lo + w) := by
      rw [Nat.pow_add, Nat.mul_comm (2 ^ lo)]
      calc (y % 2 ^ w) * 2 ^ lo + x % 2 ^ lo < (y % 2 ^ w) * 2 ^ lo + 1 * 2 ^ lo := by omega
        _ = (y % 2 ^ w + 1) * 2 ^ lo := by rw [← Nat.add_mul]
        _ ≤ 2 ^ w * 2 ^ lo := Nat.mul_le_mul_right _ h2
    rw [← Nat.shiftLeft_add_eq_or_of_lt h1, Nat.shiftLeft_eq (y % 2 ^ w), ← Nat.shiftLeft_add_eq_or_of_lt h3, Nat.shiftLeft_eq]
    unfold setBits; omega
  rw [e]
  simp only [Nat.testBit_or, Nat.testBit_shiftLeft, Nat.testBit_mod_two_pow, Nat.testBit_div_two_pow]
  by_cases a : i < lo
  · simp [a, show ¬ lo ≤ i by omega, show ¬ lo + w ≤ i by omega]
  · by_cases b : i < lo + w
    · simp [a, b, show lo ≤ i by omega, show ¬ lo + w ≤ i by omega, show i - lo < w by omega]
    · simp [a, b, show lo + w ≤ i by omega, show ¬ i - lo < w by omega, show i - (lo + w) + (lo + w) = i by omega]
theorem elt_setElt_same (img w i x : Nat) : elt (setElt img w i x) w i = x % 2 ^ w := by
  apply Nat.eq_of_testBit_eq
  intro k
  simp only [elt, setElt, testBit_bits, testBit_setBits, Nat.testBit_mod_two_pow]
  by_cases h : k < w
  · simp [h]
  · simp [h]
theorem elt_setElt_ne (img w i j x : Nat) (h : j ≠ i) : elt (setElt img w i x) w j = elt img w j := by
  apply Nat.eq_of_testBit_eq
  intro k
  simp only [elt, setElt, testBit_bits, testBit_setBits]
  by_cases hk : k < w
  · rcases Nat.lt_or_gt_of_ne h with g | g
    · have : w * j + w ≤ w * i := by rw [← Nat.mul_succ]; exact Nat.mul_le_mul_left _ g
      simp [show w * j + k < w * i by omega]
    · have : w * i + w ≤ w * j := by rw [← Nat.mul_succ]; exact Nat.mul_le_mul_left _ g
      simp [show ¬ w * j + k < w * i by omega, show ¬ w * j + k < w * i + w by omega]
  · simp [hk]

/-! ## The pass -/

theorem mem_span (a b j : Nat) : j ∈ span a b ↔ a ≤ j ∧ j < b := by
  simp only [span, List.mem_map, List.mem_range]
  constructor
  · rintro ⟨k, h, rfl⟩; omega
  · rintro ⟨h1, h2⟩; exact ⟨j - a, by omega, by omega⟩
theorem nodup_span (a b : Nat) : (span a b).Nodup := by
  unfold span
  exact List.Nodup.map (fun x y h => by simpa using h) List.nodup_range

/-- The pass over a list of elements without stochastic draws, where `g` gives each element's result from the image `img`. -/
theorem elemStep_foldl (s : State) (o : ElemOp) (d : BitVec 5) (w img : Nat) (g : Nat → Rounded) (hd : o.dst = .vec d w) (hn : o.draws = false)
    (hg : ∀ j, o.f { i := j, a := s.srcElt o.a j, b := s.srcElt o.b j, d := elt img w j, sel := (s.mreg o.selMask.toNat).testBit j, word := 0 } = g j)
    (l : List Nat) (nd : l.Nodup) (acc : EAcc) (ha : ∀ j ∈ l, elt acc.out w j = elt img w j) :
    let r := l.foldl (s.elemStep o) acc
    (∀ j, elt r.out w j = if j ∈ l then (g j).val % 2 ^ w else elt acc.out w j) ∧ r.gens = acc.gens
    ∧ (∀ b, r.flags.testBit b = true ↔ acc.flags.testBit b = true ∨ ∃ j ∈ l, (g j).flags.testBit b = true)
    ∧ (∀ b, r.marks.testBit b = (acc.marks.testBit b || (decide (b ∈ l) && (g b).mark))) := by
  induction l generalizing acc with
  | nil => simp
  | cons i l ih =>
    have hi := List.nodup_cons.1 nd
    have st : s.elemStep o acc i = { out := setElt acc.out w i (g i).val, flags := acc.flags ||| (g i).flags
                                     marks := acc.marks ||| (if (g i).mark then 2 ^ i else 0), gens := acc.gens } := by
      have := hg i
      rw [← ha i (List.mem_cons_self ..)] at this
      obtain ⟨a, b, dst, k, sel, dr, f⟩ := o
      simp only at hd hn this
      subst hd hn
      simp only [State.elemStep, Bool.false_eq_true, if_false, dstElt, dstSet, this]
    have ha' : ∀ j ∈ l, elt (s.elemStep o acc i).out w j = elt img w j := by
      intro j hj
      rw [st]
      exact (elt_setElt_ne _ _ _ _ _ fun e => hi.1 (by rw [← e]; exact hj)).trans (ha j (List.mem_cons_of_mem _ hj))
    obtain ⟨h1, h2, h3, h4⟩ := ih hi.2 (s.elemStep o acc i) ha'
    simp only [List.foldl_cons]
    rw [st] at h1 h2 h3 h4 ⊢
    refine ⟨fun j => ?_, h2, fun b => ?_, fun b => ?_⟩
    · rw [h1]
      by_cases hj : j ∈ l
      · simp [hj]
      · by_cases e : j = i
        · subst e; simp [hj, elt_setElt_same]
        · simp [hj, e, elt_setElt_ne]
    · rw [h3]; simp only [Nat.testBit_or, Bool.or_eq_true, List.mem_cons, exists_eq_or_imp, or_assoc]
    · rw [h4]
      simp only [Nat.testBit_or, List.mem_cons]
      by_cases e : b = i
      · subst e
        cases hm : (g b).mark <;> simp
      · cases hm : (g i).mark <;> simp [e, Nat.testBit_two_pow_of_ne (Ne.symm e)]

/-- The pass over the elements of a vector register. -/
theorem elemPass_vec (s : State) (o : ElemOp) (start w : Nat) (d : BitVec 5) (acc : EAcc) (hd : o.dst = .vec d w)
    (ha : ((span start s.th.vl).filter (s.active o.k)).foldl (s.elemStep o) { out := s.vreg d, flags := 0, marks := 0, gens := s.th.gens } = acc) :
    s.elemPass o start = { s with th := { s.th with
      v := s.th.v.set d.toNat acc.out, m := s.th.m.set 0 (s.th.m[0] ||| acc.marks), fflags := s.th.fflags ||| acc.flags, gens := acc.gens } } := by
  obtain ⟨a, b, dst, k, sel, dr, f⟩ := o
  simp only at hd
  subst hd ha
  rfl

/-- A member's start: the state and the element (09 R251, R257). -/
theorem State.begin_eq (s : State) : s.begin.2 = s.start
    ∧ ∃ v : Convoy, s.begin.1 = { s with th := { s.th with cv := some v } } ∧ v.idx = (s.th.cv.getD { e0 := s.th.estart }).idx
      ∧ v.e0 = (s.th.cv.getD { e0 := s.th.estart }).e0 ∧ v.old = (s.th.cv.getD { e0 := s.th.estart }).old := by
  unfold State.begin State.start
  split
  · rename_i h; rw [h]; exact ⟨rfl, { e0 := s.th.estart }, rfl, rfl, rfl, rfl⟩
  · rename_i c h; rw [h]; exact ⟨rfl, c, by rw [← h], rfl, rfl, rfl⟩

/-- What an element-wise instruction without stochastic draws does, where its context allows it (05 R134). -/
theorem elementwise_of_exec (i : Instr) (s : State) (d : BitVec 5) (w : Nat) (k : BitVec 3) (c : BitVec 1) (f : Nat → Rounded) (op : ECtx → Option ElemOp)
    (o : ElemOp) (he : exec i s = finish (runElem op c s)) (ho : op s.ectx = some o) (hd : o.dst = .vec d w) (hk : o.k = k) (hn : o.draws = false)
    (hf : ∀ j, o.f { i := j, a := s.srcElt o.a j, b := s.srcElt o.b j, d := elt (s.vreg d) w j, sel := (s.mreg o.selMask.toNat).testBit j, word := 0 } = f j) :
    Elementwise i s d w k c f := by
  obtain ⟨hs, v, hb, h2, h3, h4⟩ := s.begin_eq
  have hp : ∀ j, s.performs k j = decide (j ∈ (span s.start s.th.vl).filter (s.active k)) := by
    intro j
    simp only [State.performs, List.mem_filter, mem_span, Bool.decide_and, Bool.decide_eq_true]
  obtain ⟨e1, e2, e3, e4⟩ := elemStep_foldl s o d w (s.vreg d) f hd hn hf ((span s.start s.th.vl).filter (s.active k)) ((nodup_span _ _).filter _)
    { out := s.vreg d, flags := 0, marks := 0, gens := s.th.gens } (fun _ _ => rfl)
  generalize hr : ((span s.start s.th.vl).filter (s.active k)).foldl (s.elemStep o) { out := s.vreg d, flags := 0, marks := 0, gens := s.th.gens } = r
    at e1 e2 e3 e4
  have ex : exec i s = .next { s with th := { s.th with
      v := s.th.v.set d.toNat r.out, m := s.th.m.set 0 (s.th.m[0] ||| r.marks), fflags := s.th.fflags ||| r.flags
      cv := s.passed c, estart := s.firstElt, reissue := false } } := by
    rw [he]
    simp only [runElem]
    rw [hb, hs]
    have : ({ s with th := { s.th with cv := some v } } : State).ectx = s.ectx := rfl
    rw [this, ho]
    have pass := elemPass_vec ({ s with th := { s.th with cv := some v } }) o s.start w d r hd (by rw [hk]; exact hr)
    simp only [finish_ok, pass, State.endMember, State.passed, State.firstElt, h2, h3, h4, e2]
  refine ⟨_, ex, ⟨?_, rfl, ?_⟩, rfl, rfl, ?_, fun j => ?_, fun b => ?_, fun j => ?_, ?_⟩
  · rfl
  · intro l; exact State.readLoc_th ..
  · intro r hne
    have : d.toNat ≠ r.toNat := fun e => hne (BitVec.eq_of_toNat_eq e.symm)
    simp only [State.vreg]; rw [Vector.getElem_set_ne]; exact this
  · simp only [State.vreg, Vector.getElem_set_self, e1, hp, decide_eq_true_eq]
  · simp only [Nat.testBit_or, Bool.or_eq_true, e3, hp, decide_eq_true_eq]
    simp
  · simp only [Vector.getElem_set_self, Nat.testBit_or, e4, hp]
    simp
  · intro r hne
    show (s.th.m.set 0 _)[r.val] = _
    rw [Vector.getElem_set_ne]
    · rfl
    · exact Ne.symm hne
/-- The pass over a list of elements of a mask register, without stochastic draws and m0 marks. -/
theorem elemStep_foldl_mask (s : State) (o : ElemOp) (d : Nat) (g : Nat → Rounded) (hd : o.dst = .mask d) (hn : o.draws = false)
    (hg : ∀ j x, o.f { i := j, a := s.srcElt o.a j, b := s.srcElt o.b j, d := x, sel := (s.mreg o.selMask.toNat).testBit j, word := 0 } = g j)
    (hm : ∀ j, (g j).mark = false) (l : List Nat) (acc : EAcc) :
    let r := l.foldl (s.elemStep o) acc
    (∀ j, r.out.testBit j = if j ∈ l then (g j).val.testBit 0 else acc.out.testBit j) ∧ r.gens = acc.gens
    ∧ (∀ b, r.flags.testBit b = true ↔ acc.flags.testBit b = true ∨ ∃ j ∈ l, (g j).flags.testBit b = true) ∧ r.marks = acc.marks := by
  induction l generalizing acc with
  | nil => simp
  | cons i l ih =>
    have st : s.elemStep o acc i = { out := setBits acc.out i 1 (g i).val, flags := acc.flags ||| (g i).flags, marks := acc.marks, gens := acc.gens } := by
      have := hg i (bits acc.out i 1)
      have m := hm i
      obtain ⟨a, b, dst, k, sel, dr, f⟩ := o
      simp only at hd hn this
      subst hd hn
      simp only [State.elemStep, Bool.false_eq_true, if_false, dstElt, dstSet, this, m, Nat.or_zero]
    obtain ⟨h1, h2, h3, h4⟩ := ih (s.elemStep o acc i)
    simp only [List.foldl_cons]
    rw [st] at h1 h2 h3 h4 ⊢
    refine ⟨fun j => ?_, h2, fun b => ?_, h4⟩
    · rw [h1]
      by_cases hj : j ∈ l
      · simp [hj]
      · simp only [hj, if_false, List.mem_cons, or_false, testBit_setBits]
        by_cases e : j = i
        · subst e; simp
        · simp only [e, if_false]
          split
          · rfl
          · rw [if_neg (by omega)]
    · rw [h3]; simp only [Nat.testBit_or, Bool.or_eq_true, List.mem_cons, exists_eq_or_imp, or_assoc]
/-- The pass over the bits of a mask register. -/
theorem elemPass_mask (s : State) (o : ElemOp) (start d : Nat) (acc : EAcc) (hd : o.dst = .mask d)
    (ha : ((span start s.th.vl).filter (s.active o.k)).foldl (s.elemStep o) { out := s.mreg d, flags := 0, marks := 0, gens := s.th.gens } = acc) :
    s.elemPass o start = (({ s.setM d acc.out with th := { (s.setM d acc.out).th with gens := acc.gens } } : State).mark acc.flags acc.marks) := by
  obtain ⟨a, b, dst, k, sel, dr, f⟩ := o
  simp only at hd
  subst hd ha
  rfl
/-- A bit of a mask register after it is written. -/
theorem State.testBit_setM (s : State) (d x j : Nat) (hd : d < 8) (hj : j < s.th.vlmax) : ((s.setM d x).mreg d).testBit j = x.testBit j := by
  simp only [State.mreg, State.setM, Nat.testBit_mod_two_pow, hj, decide_true, Bool.true_and]
  rw [show ((s.th.m.setIfInBounds d _).toArray.getD d 0) = setBits (s.th.m.toArray.getD d 0) 0 s.th.vlmax x by
    simp [Array.getD, hd]]
  rw [testBit_setBits]
  simp [hj]
/-- What an element-wise instruction that writes a mask register does, where its context allows it (05 R134, R150). -/
theorem maskwise_of_exec (i : Instr) (s : State) (d : BitVec 5) (k : BitVec 3) (c : BitVec 1) (f : Nat → Bool) (fl : Nat → Nat) (op : ECtx → Option ElemOp)
    (o : ElemOp) (he : exec i s = finish (runElem op c s)) (ho : op s.ectx = some o) (hd : o.dst = .mask d.toNat) (hk : o.k = k) (hn : o.draws = false)
    (h8 : d.toNat < 8)
    (hf : ∀ j x, o.f { i := j, a := s.srcElt o.a j, b := s.srcElt o.b j, d := x, sel := (s.mreg o.selMask.toNat).testBit j, word := 0 }
      = { val := (f j).toNat, flags := fl j }) : Maskwise i s d k c f fl := by
  obtain ⟨hs, v, hb, h2, h3, h4⟩ := s.begin_eq
  have hp : ∀ j, s.performs k j = decide (j ∈ (span s.start s.th.vl).filter (s.active k)) := by
    intro j
    simp only [State.performs, List.mem_filter, mem_span, Bool.decide_and, Bool.decide_eq_true]
  obtain ⟨e1, e2, e3, e4⟩ := elemStep_foldl_mask s o d.toNat (fun j => { val := (f j).toNat, flags := fl j }) hd hn hf (fun _ => rfl)
    ((span s.start s.th.vl).filter (s.active k)) { out := s.mreg d.toNat, flags := 0, marks := 0, gens := s.th.gens }
  generalize hr : ((span s.start s.th.vl).filter (s.active k)).foldl (s.elemStep o) { out := s.mreg d.toNat, flags := 0, marks := 0, gens := s.th.gens } = r
    at e1 e2 e3 e4
  have ex : exec i s = .next { s.setM d.toNat r.out with th := { (s.setM d.toNat r.out).th with
      fflags := s.th.fflags ||| r.flags, cv := s.passed c, estart := s.firstElt, reissue := false } } := by
    rw [he]
    simp only [runElem]
    rw [hb, hs]
    have : ({ s with th := { s.th with cv := some v } } : State).ectx = s.ectx := rfl
    rw [this, ho]
    have pass := elemPass_mask ({ s with th := { s.th with cv := some v } }) o s.start d.toNat r hd (by rw [hk]; exact hr)
    have z : (s.setM d.toNat r.out).th.m.set 0 ((s.setM d.toNat r.out).th.m[0] ||| 0) = (s.setM d.toNat r.out).th.m := by
      rw [Nat.or_zero]; exact Vector.set_getElem_self ..
    simp only [finish_ok, pass, State.endMember, State.passed, State.firstElt, h2, h3, h4, State.mark, State.setM, e2, e4] at z ⊢
    rw [z]
  refine ⟨_, ex, ⟨rfl, rfl, ?_⟩, rfl, rfl, rfl, ?_, fun j hj => ?_, fun b => ?_⟩
  · intro l; exact State.readLoc_th ..
  · intro x hx
    show (s.th.m.setIfInBounds d.toNat _)[x.val] = _
    rw [Vector.getElem_setIfInBounds_ne]
    · rfl
    · exact Ne.symm hx
  · refine (State.testBit_setM s d.toNat r.out j h8 hj).trans ?_
    rw [e1, hp]
    simp only [decide_eq_true_eq]
    split
    · cases f j <;> rfl
    · rfl
  · simp only [Nat.testBit_or, Bool.or_eq_true, e3, hp, decide_eq_true_eq]
    simp
/-- A trap without records does not depend on whether the convoy position has been recorded (19 R383). -/
theorem State.takeTrap_begin (s : State) (t : Trap) (h : t.records = []) (c : t.cause ≠ 1) : s.begin.1.takeTrap t = s.takeTrap t := by
  obtain ⟨_, v, hb, h2, h3, _⟩ := s.begin_eq
  have pos : ∀ b, ({ s.th with cv := some v } : Thread).position b = s.th.position b := by
    intro b
    unfold Thread.position
    cases hc : s.th.cv with
    | none => rw [hc] at h2 h3; simp only [Option.getD_none] at h2 h3; simp [h2, h3]
    | some q => rw [hc] at h2 h3; simp only [Option.getD_some] at h2 h3; simp [h2, h3]
  have ipc : ({ s.th with cv := some v } : Thread).ipc = s.th.ipc := by
    unfold Thread.ipc
    cases hc : s.th.cv with
    | none => rw [hc] at h2; simp only [Option.getD_none] at h2; simp [h2]
    | some q => rw [hc] at h2; simp only [Option.getD_some] at h2; simp [h2]
  have enter : ∀ (q : Trap) (l : Level), ({ s with th := { s.th with cv := some v } } : State).enter q l = s.enter q l := by
    intro q l
    simp only [State.enter, pos, ipc]
    cases l <;> rfl
  have eoe : ∀ (q : Trap) (l : Level), ({ s with th := { s.th with cv := some v } } : State).enterOrEnd q l = s.enterOrEnd q l := by
    intro q l
    unfold State.enterOrEnd
    rw [enter]
    cases l <;> rfl
  have tf : ∀ q : Trap, ({ s with th := { s.th with cv := some v } } : State).toFirmware q = s.toFirmware q := by
    intro q
    unfold State.toFirmware
    rw [eoe]
  rw [hb]
  simp only [State.takeTrap, State.withBatch, h, List.isEmpty_nil, if_true, Cause.undef, c, false_and, if_false, tf, eoe]
/-- Where the context does not allow it the instruction is ILLEGAL, at the member's word (05 R137). -/
theorem isIllegal_of_begin (i : Instr) (s : State) (h : exec i s = finish (illegal (α := State) s.begin.1)) : IsIllegal i s := by
  have word : s.begin.1.word = s.word := by
    obtain ⟨_, v, hb, h2, _⟩ := s.begin_eq
    rw [hb]
    unfold State.word Thread.ipc
    cases hc : s.th.cv with
    | none => rw [hc] at h2; simp only [Option.getD_none] at h2; simp [h2]; rfl
    | some q => rw [hc] at h2; simp only [Option.getD_some] at h2; simp [h2]; rfl
  unfold IsIllegal
  rw [h, ← State.takeTrap_begin s _ rfl (show (2 : Nat) ≠ 1 by decide), ← word]
  rfl
/-- An element-wise instruction whose context does not allow it is ILLEGAL (05 R137). -/
theorem isIllegal_of_elem (i : Instr) (s : State) (c : BitVec 1) (op : ECtx → Option ElemOp) (h : exec i s = finish (runElem op c s))
    (ho : op s.ectx = none) : IsIllegal i s := by
  refine isIllegal_of_begin i s (h.trans ?_)
  obtain ⟨_, v, hb, _⟩ := s.begin_eq
  simp only [runElem]
  rw [hb]
  have : ({ s with th := { s.th with cv := some v } } : State).ectx = s.ectx := rfl
  rw [this, ho]
/-- A whole-vector instruction at a nonzero start is ILLEGAL (05 R137). -/
theorem isIllegal_of_whole (i : Instr) (s : State) (c : BitVec 1) (pre : ECtx → Bool) (f : State → State) (h : exec i s = finish (runWhole pre f c s))
    (hs : s.start ≠ 0 ∨ pre s.ectx = false) : IsIllegal i s := by
  refine isIllegal_of_begin i s (h.trans ?_)
  obtain ⟨he, v, hb, _⟩ := s.begin_eq
  have : s.begin.1.ectx = s.ectx := by rw [hb]; rfl
  simp only [runWhole]
  rw [he, this, if_pos hs]

end Sys2Proof.Machine
end

