-- ==== Sys2Proof/Tests/Slice0.lean ====
section
/-! SUPPORT. The tests: ill-formed terms that the checks refuse, words decoded as the manual's encodings say, single steps against the
manual's worked cases, and for each statement with hypotheses states and operands that meet them. -/
namespace Sys2Proof.Tests
set_option Elab.async false
open Sys2Proof Sys2Proof.Machine

/-! ## Small states -/

/-- A translation of the first 4096 × 512² bytes to themselves, for every access. -/
def identity : Trans := { size := 4096 * 512 ^ 2, user := true, write := true, leaf := 0x12000 }
/-- The page tables of that translation: frames 0x10, 0x11 and 0x12. -/
def tables : Memory :=
  [(0x10000, 3), (0x10001, 0x10), (0x10002, 1), (0x11000, 3), (0x11001, 0x20), (0x11002, 1), (0x12000, 0x8F)]
/-- Thread 0 of core 0 in a group of one launch of partition 0, which has every cluster and feature: 64 bytes of code, a runtime window of 64
bytes at 4096 with the handlers, and a tile allocation of 64 KiB. -/
def base : State :=
  { th := { status := .issuing, sup := { vec := 4096 }, fw := { vec := 4096 }, gens := srSeedAll 1, ptroot := 0x10 }
    clusters := [(0, { codeLen := 64, rtBase := 4096, rtLen := 64 })]
    cores := [(0, { Core.init 0 with allocs := [(0, { size := 65536, tagSlots := 64 })], vtlb := [identity] })]
    groups := [(0, { firsts := [0], started := true, tile := 65536 })]
    launches := [(0, {})]
    parts := [(0, { clusters := List.range 40, feat := 63 })]
    vis := [(0, { part := some 0, env := { root := 0x10 } })]
    dram := tables
    sec := { phase := .running }
    turn := .thread }
/-- `base` with the context of the current thread changed. -/
def withTh (f : Thread → Thread) : State := { base with th := f base.th }
/-- `s` with a context of the current thread. -/
def asTh (s : State) (f : Thread → Thread) : State := { s with th := f s.th }
/-- The scalar registers with g[1], g[2], … set. -/
def regs (l : List Word) : Vector Word 32 := Vector.ofFn fun i => (0 :: l).getD i.val 0
/-- `base` with scalar registers set. -/
def withRegs (l : List Word) : State := withTh fun t => { t with g := regs l }
/-- The address of tile offset `o`. -/
def tileAt (o : Nat) : Word := BitVec.ofNat 64 (2 ^ 63 + o)
/-- A thread of one lane group with 32-bit elements (width code `ew`), vl = `n` and estart 0. -/
def vectors (ew n : Nat) (t : Thread) : Thread := { t with vrlen := 512, ew := ew, vlmax := 4096 / (8 * 2 ^ ew), vl := n }
/-- The outcome is a next state that passes a test. -/
def nexts (i : Instr) (s : State) (p : State → Bool) : Bool := match exec i s with | .next t => p t | _ => false
/-- The computation answers a value that passes a test. -/
def gives {α : Type} (m : M α) (p : α → Bool) : Bool := match m with | .ok x => p x | .error _ => false
/-- The step answers a next state that passes a test. -/
noncomputable def steps (s : State) (p : State → Bool) : Bool := match step s with | .next t => p t | _ => false

/-! ## Ill-formed terms

Instructions whose fields hold what the entries reserve: the check refuses each, and so does the decoder its word. -/

/-- Whether a term is refused by the check and its word by the decoder. -/
noncomputable def refusedTerm (i : Instr) : Bool :=
  !i.wellFormed && (encode i).any fun w => match decode w with | .ok _ => false | .error _ => true
/-- Reserved ORD, RM, format, condition and system fields (02 R50, 04 R113, R116, R118, 06 R186, 18, 19). -/
theorem test_reserved_fields : ([
    .amoAdd 1 2 3 0 1, .amoCas 1 2 3 1 1, .fadd 1 2 3 0 6, .fmul 1 2 3 1 6, .ffma 1 2 3 0 6, .fcvt 1 2 0 0 6, .fcvt 1 2 5 0 0, .fence 0 0, .fence 6 1,
    .tlbinv 1 2 4, .lwake 1 0, .lwake 1 5, .vcmp 1 2 3 0 10 0, .vcmps 1 2 3 0 15 0, .vfcmp 1 2 3 0 5 0 0,
    .vfcmps 1 2 3 0 7 0 0, .vmerge 1 2 3 0 0, .vwait 1 2 3 0 0 6] : List Instr).all refusedTerm = true := by decide +kernel
/-- Writes of fmask and srseed are operations of their own: no term says them twice (18). -/
theorem test_crwr_reserved : (Instr.crwr 1 0 5).wellFormed = false ∧ (Instr.crwr 1 0 8).wellFormed = false ∧ encode (.crwr 1 0 5) = encode (.fmaskClear 1 0)
    ∧ decode 0x00140175 = .ok (.fmaskClear 1 0) ∧ decode 0x00200175 = .ok (.srseedWrite 1 0) := by
  refine ⟨by decide, by decide, by decide, rfl, rfl⟩
/-- Mask, tile and queue numbers that do not exist (02 R49). -/
theorem test_reserved_registers : ([
    .vcmp 8 2 3 0 0 0, .vfcmp 31 2 3 0 0 0 0, .vconf 8 1 0 0, .mand 8 1 2 0 0, .mor 1 8 2 0 0, .mxor 1 2 8 0 0, .mnot 8 1 0 0, .mnot 1 8 0 0,
    .mpopc 1 8 0 0, .mfirst 1 8 0 0, .mseti 8 0 0, .mvfm 8 1, .mzero 4, .mopa 4 1 2 0 0 0, .mopa2 4 1 2 0 0 0, .mopa4 4 1 2 0 0 0, .mops 4 1 2 0,
    .mopg 4 2 3 0 0 0, .mopg 1 3 4 0 0 0, .mopq 4 1 2 0, .schIn 16 1 2, .schOut 16 1 2, .schRel 16, .sld 16 1, .sst 16 1, .sgath 16 1 2 0,
    .sscat 16 1 2 0, .sscataInt 16 1 2 0, .sscataFloat 16 1 2 0, .swm 1 2 16, .sdrain 16, .qwr 16 1, .qrd 1 16] : List Instr).all refusedTerm = true := by
  decide +kernel
/-- Overlapping registers and reserved combinations (05 R144, R158, R161, 06 R172 to R187). -/
theorem test_reserved_combinations : ([
    .vwid 3 3 0 0, .vwidn 4 4 0 0, .vnrw 3 3 0 0, .vnrwn 3 3 0 0, .vnrwsn 3 3 0 0, .vcvt 1 2 0 0 0 0 12 0, .vcvt 1 2 0 12 0 0 0 0, .vcvt 1 2 0 10 0 0 11 0,
    .vcvt 1 2 0 10 0 0 9 0, .vcvt 1 2 0 0 0 0 9 0, .vcvt 1 2 1 0 0 0 1 0, .vcvt 30 2 1 0 0 0 4 0, .vcvt 2 2 0 0 0 0 1 0, .vqnt 1 2 3 0 0 0,
    .vqnt 1 2 30 0 0 0, .vqnt 4 2 4 0 0 0, .vqnt 5 2 4 0 0 0, .vqnt 2 4 4 0 0 0, .vqnt 2 5 4 0 0 0, .vqnt 30 2 4 0 0 0, .vqnt 2 2 4 0 0 0,
    .vdqnt 2 2 4 0 0 0, .vld 1 2 3 0 0 3 0, .vlds 1 2 3 0 0 0 3 0, .vldx 1 2 3 0 0 0 3 0, .vldff 1 2 3 0 0 1, .vst 1 2 3 0 0 2 0, .vsts 1 2 3 0 0 0 2 0,
    .vstx 1 2 3 0 0 0 2 0, .vstxa 1 0 2 3 0 0 2 1 0, .vstxa 1 1 2 3 0 0 0 0 0, .vgll 1 2 3 0 0 0 1 0, .vscc 1 2 3 0 0 0 0 0, .vscc 1 2 3 1 0 0 1 0,
    .vamoWAdd 3 2 3 0 0, .vamoDXor 1 2 3 0 1, .vamoWCas 31 2 3 0 0, .vamoDCas 2 1 3 0 0] : List Instr).all refusedTerm = true := by decide +kernel

/-! ## Words decoded

Words laid out field by field from the encoding tables of 02 R47 and R55 and the function codes of the entries; each decodes to the instruction
beside it, and that instruction's word is the same. -/

theorem test_decode_scalar_integer_1 : ∀ x ∈ ([
    (0x003F9201, .add 18 28 15), (0x00C51501, .sub 21 8 17), (0x014EA701, .and 7 21 19), (0x01B79401, .or 20 28 13),
    (0x025BED01, .xor 13 31 22), (0x02A99101, .sll 17 12 10), (0x035A1D01, .srl 29 16 22), (0x03A7A101, .sra 1 29 9),
    (0x0411F001, .slt 16 15 4), (0x04D74C01, .sltn 12 26 21), (0x0554E401, .mul 4 7 21), (0x05CFF701, .mulh 23 31 19),
    (0x063BDF01, .mulhn 31 30 14), (0x06DE3D01, .div 29 17 23), (0x071DB501, .divn 21 13 7), (0x07BDD101, .rem 17 14 15),
    (0x08765701, .remn 23 18 29), (0x08CC2401, .min 4 1 19), (0x09395101, .max 17 10 14), (0x09D2E401, .minn 4 23 20),
    (0x0A1FE801, .maxn 8 31 7), (0x0A81EE01, .clz 14 15), (0x0B00FE01, .ctz 30 7), (0x0B806C01, .popc 12 3), (0x0C011101, .bswap 17 8),
    (0x0CC33E01, .rotl 30 25 16), (0x0D230601, .rotr 6 24 8), (0x0DBCDD01, .sel 29 6 15), (0x9B2B8602, .addi 6 28 9930),
    (0x04E34703, .andi 7 26 312), (0x032F8D04, .ori 13 28 203), (0xB94EAB05, .xori 11 21 11859), (0xC454BB06, .slti 27 5 12565),
    (0x41033207, .sltni 18 25 4160), (0x0043B308, .slli 19 29 16), (0x012CEE08, .srli 14 7 11), (0x0283AF08, .srai 15 29 32),
    (0x03FC5008, .rotri 16 2 63), (0x3E725809, .lih 24 127890), (0x4ECF4B0A, .addpc 11 161402)] : List (W32 × Instr)),
    decodeTableWord 32 x.1.toNat = some x.2 ∧ encode x.2 = some x.1 := by decide +kernel

theorem test_decode_scalar_integer_2 : ∀ x ∈ ([
    (0x8879350B, .jal 21 279497), (0x6A4C660C, .jalr 6 3 6803), (0x01CE930D, .beq 19 20 115), (0x5226D00E, .bne 16 22 5257),
    (0x9BBC340F, .blt 20 1 9967)] : List (W32 × Instr)),
    decodeTableWord 32 x.1.toNat = some x.2 ∧ encode x.2 = some x.1 := by decide +kernel

theorem test_decode_scalar_memory_and_float : ∀ x ∈ ([
    (0xB0D2DB10, .bge 27 22 11316), (0xF8C05611, .bltn 22 2 15920), (0xEF7F6712, .bgen 7 27 15327), (0x5CE7E913, .ldBS 9 31 5945),
    (0xC553B114, .ldBN 17 29 12628), (0x62F63C15, .ldHS 28 17 6333), (0x7E305016, .ldHN 16 2 8076), (0x1ED19E17, .ldWS 30 12 1972),
    (0xC5807518, .ldWN 21 3 12640), (0x3C0E2119, .ldD 1 17 3843), (0x4929981A, .stB 24 12 4682), (0x40C6F51B, .stH 21 23 4145),
    (0x44A2E91C, .stW 9 23 4392), (0xB8D28E1D, .stD 14 20 11828), (0x2808261E, .amoAdd 6 1 2 1 2), (0x38B55A1E, .amoAnd 26 10 13 1 3),
    (0x292FF21E, .amoOr 18 31 11 1 2), (0x29CC541E, .amoXor 20 2 19 1 2), (0x3A6BE51E, .amoMin 5 31 26 1 3),
    (0x3AE2EC1E, .amoMax 12 23 24 1 3), (0x2B4FBC1E, .amoMinn 28 29 19 1 2), (0x3BDB581E, .amoMaxn 24 26 22 1 3),
    (0x3C19511E, .amoSwap 17 10 6 1 3), (0x3CDD821E, .amoCas 2 12 23 1 3), (0x3C55421F, .fadd 2 10 21 1 7),
    (0x3C97891F, .fmul 9 28 5 1 7), (0x2D3BD11F, .ffma 17 30 14 1 5), (0x1D8C441F, .fcvt 4 2 3 1 3), (0x46142E1F, .fcmp 14 1 5 1 1)] : List (W32 × Instr)),
    decodeTableWord 32 x.1.toNat = some x.2 ∧ encode x.2 = some x.1 := by decide +kernel

theorem test_decode_vector_integer_1 : ∀ x ∈ ([
    (0x0454A120, .setvl 1 5 21 1), (0x1C597020, .setvlw 16 11 22 3), (0x02B96FA1, .vadd 15 11 14 5 1), (0x073B35A1, .vsub 21 25 14 6 1),
    (0x08DE65A1, .vand 5 19 23 1 1), (0x0F36DDA1, .vor 29 22 13 6 1), (0x11DED2A1, .vxor 18 22 23 3 1), (0x1734BAA1, .vsll 26 5 13 6 1),
    (0x1967ABA1, .vsrl 11 29 25 2 1), (0x1E5A27A1, .vsra 7 17 22 4 1), (0x20C881A1, .vmul 1 4 18 1 1), (0x2657EBA1, .vmulh 11 31 21 4 1),
    (0x2AADA5A1, .vmulhn 5 13 11 5 1), (0x2F44C3A1, .vdiv 3 6 17 6 1), (0x33D993A1, .vdivn 19 12 22 7 1),
    (0x3561FCA1, .vrem 28 15 24 2 1), (0x3AB0A3A1, .vremn 3 5 12 5 1), (0x3F7CAFA1, .vmin 15 5 31 6 1), (0x4166BFA1, .vmax 31 21 25 2 1),
    (0x449914A1, .vminn 20 8 6 1 1), (0x4A692AA1, .vmaxn 10 9 26 4 1), (0x4F10D1A1, .vclmul 17 6 4 6 1),
    (0x50FCFBA1, .vclmulh 27 7 31 1 1), (0x54806BA1, .vwid 11 3 1 1), (0x5A817FA1, .vwidn 31 11 5 1),
    (0x02264AA2, .vaddScalar 10 18 9 4 1), (0x06C0ADA2, .vsubScalar 13 5 16 5 1), (0x0B7B9BA2, .vandScalar 27 28 30 6 1),
    (0x0ED87DA2, .vorScalar 29 3 22 5 1), (0x133E90A2, .vxorScalar 16 20 15 6 1), (0x16A9DDA2, .vsllScalar 29 14 10 5 1),
    (0x18D27AA2, .vsrlScalar 26 19 20 1 1), (0x1EB7EAA2, .vsraScalar 10 31 13 5 1), (0x209FEEA2, .vmulScalar 14 31 7 1 1),
    (0x273FF2A2, .vmulhScalar 18 31 15 6 1), (0x2AC876A2, .vmulhnScalar 22 3 18 5 1), (0x2D08F2A2, .vdivScalar 18 7 2 2 1),
    (0x3133BEA2, .vdivnScalar 30 29 12 2 1), (0x372767A2, .vremScalar 7 27 9 6 1), (0x3A468CA2, .vremnScalar 12 20 17 4 1)] : List (W32 × Instr)),
    decodeTableWord 32 x.1.toNat = some x.2 ∧ encode x.2 = some x.1 := by decide +kernel

theorem test_decode_vector_integer_2 : ∀ x ∈ ([
    (0x3D3994A2, .vminScalar 20 12 14 2 1), (0x4293C2A2, .vmaxScalar 2 30 4 5 1), (0x4595F6A2, .vminnScalar 22 15 5 3 1),
    (0x492E91A2, .vmaxnScalar 17 20 11 2 1), (0x4EEA90A2, .vclmulScalar 16 20 26 5 1), (0x518749A2, .vclmulhScalar 9 26 1 3 1),
    (0x02C10FA3, .vsadd 15 8 16 5 1), (0x057497A3, .vssub 23 4 29 2 1), (0x0A2906A3, .vsaddn 6 8 10 4 1),
    (0x0FE5B0A3, .vssubn 16 13 25 7 1), (0x128297A3, .vnrw 23 20 5 1), (0x1703F6A3, .vnrwn 22 31 6 1), (0x1B8201A3, .vnrwsn 1 16 7 1),
    (0x015AEFA4, .vsaddScalar 15 23 22 2 1), (0x05852CA4, .vssubScalar 12 9 1 3 1), (0x0AF0D4A4, .vsaddnScalar 20 6 28 5 1),
    (0x0D355FA4, .vssubnScalar 31 10 13 2 1)] : List (W32 × Instr)),
    decodeTableWord 32 x.1.toNat = some x.2 ∧ encode x.2 = some x.1 := by decide +kernel

theorem test_decode_vector_float_and_moves : ∀ x ∈ ([
    (0x423986A5, .vfadd 6 12 14 4 1 1), (0x451A9AA5, .vfsub 26 20 6 2 1 1), (0x4B4E8BA5, .vfmul 11 20 19 6 1 1),
    (0x4EFD01A5, .vfma 1 8 31 5 1 1), (0x52B447A5, .vfms 7 2 13 5 1 1), (0x568C5DA5, .vfnma 29 2 3 5 1 1),
    (0x59ED9AA5, .vfdiv 26 12 27 3 1 1), (0x5C82A5A5, .vfsqrt 5 21 1 1 1), (0x63AA74A5, .vfmin 20 19 10 7 1 1),
    (0x66104CA5, .vfmax 12 2 4 4 1 1), (0x6B02C5A5, .vfrcp 5 22 6 1 1), (0x435BE2A6, .vfaddScalar 2 31 22 6 1 1),
    (0x477586A6, .vfsubScalar 6 12 29 6 1 1), (0x4A4172A6, .vfmulScalar 18 11 16 4 1 1), (0x4F0AB2A6, .vfmaScalar 18 21 2 6 1 1),
    (0x50C90BA6, .vfmsScalar 11 8 18 1 1 1), (0x56B797A6, .vfnmaScalar 23 28 13 5 1 1), (0x5AF586A6, .vfdivScalar 6 12 29 5 1 1),
    (0x5E82F2A6, .vfsqrtScalar 18 23 5 1 1), (0x625653A6, .vfminScalar 19 18 21 4 1 1), (0x67EE06A6, .vfmaxScalar 6 16 27 7 1 1),
    (0x6981F9A6, .vfrcpScalar 25 15 3 1 1), (0x221061A7, .vcmp 1 3 4 4 8 1), (0x194525A8, .vcmps 5 9 17 2 6 1),
    (0x519022A9, .vfcmp 2 1 4 3 4 1 1), (0x4DDCA7AA, .vfcmps 7 5 23 3 3 1 1), (0x0211F4AB, .vmerge 20 15 4 4 1),
    (0x0481BBAB, .vmv 27 13 1 1), (0x098355AB, .vbcast 21 26 3 1), (0x0C6629AB, .vextN 9 17 25 1), (0x1029C6AB, .vextI 6 14 10 1),
    (0x02EAD2AC, .vslideup 18 22 26 5 1), (0x07172BAC, .vslidedn 11 25 5 6 1), (0x0B1875AC, .vperm 21 3 6 6 1),
    (0x0E02E1AC, .vcompress 1 23 4 1), (0x13814FAC, .vexpand 15 10 7 1), (0x15801BAC, .viota 27 3 1), (0x1A8022AC, .vconf 2 1 5 1)] : List (W32 × Instr)),
    decodeTableWord 32 x.1.toNat = some x.2 ∧ encode x.2 = some x.1 := by decide +kernel

theorem test_decode_vector_reductions_and_conversions : ∀ x ∈ ([
    (0x037583AD, .vredsum 3 12 29 6 1), (0x059428AD, .vredmaxI 8 1 5 3 1), (0x0A0C24AD, .vredmaxN 4 1 3 4 1),
    (0x0E9DCAAD, .vredminI 10 14 7 5 1), (0x13678DAD, .vredminN 13 28 25 6 1), (0x55A3C7AD, .vfredsum 7 30 8 3 1 1),
    (0x5B06E8AD, .vredmaxF 8 23 1 6 1 1), (0x5E8A36AD, .vredminF 22 17 2 5 1 1), (0x2D0923AE, .vcvt 3 9 0 1 2 3 2 1),
    (0x05E04DAF, .vqnt 13 2 24 3 1 1), (0x06A2D9B0, .vdqnt 25 22 8 5 1 1), (0x008443B1, .mand 3 2 1 1 1), (0x078883B1, .mor 3 4 2 7 1),
    (0x0A8C41B1, .mxor 1 2 3 5 1), (0x0C8082B1, .mnot 2 4 1 1), (0x1180F1B1, .mpopc 17 7 3 1), (0x16802BB1, .mfirst 11 1 5 1),
    (0x180105B1, .mseti 5 8 1), (0x1C0003B1, .mvfm 3 1)] : List (W32 × Instr)),
    decodeTableWord 32 x.1.toNat = some x.2 ∧ encode x.2 = some x.1 := by decide +kernel

theorem test_decode_vector_memory : ∀ x ∈ ([
    (0x5E81CBC0, .vld 11 14 5 1 3 2 1), (0x3DDAE7C1, .vlds 7 23 22 3 1 3 1 1), (0x36E74CC2, .vldx 12 26 25 5 1 2 1 1),
    (0x5D808243, .vldff 2 4 3 1 3 2), (0x7C8327C4, .vst 7 25 1 1 3 3 1), (0x7F1022C5, .vsts 2 1 4 6 1 3 3 1),
    (0x2F09B0C6, .vstx 16 13 2 6 1 1 1 1), (0x771896C7, .vstxa 6 1 4 6 6 1 2 3 1), (0x576F55C8, .vgll 21 26 27 6 1 2 2 1),
    (0x6E1883C9, .vscc 3 4 6 4 1 1 3 1)] : List (W32 × Instr)),
    decodeTableWord 32 x.1.toNat = some x.2 ∧ encode x.2 = some x.1 := by decide +kernel

theorem test_decode_vector_atomics_and_tags : ∀ x ∈ ([
    (0xC310224A, .vamoWAdd 2 1 4 6 3), (0x8788264A, .vamoWAnd 6 1 2 7 2), (0x8B27664A, .vamoWOr 6 27 9 6 2),
    (0xCD32EF4A, .vamoWXor 15 23 12 2 3), (0x9384824A, .vamoWMin 2 4 1 7 2), (0xD570684A, .vamoWMax 8 3 28 2 3),
    (0xDA10234A, .vamoWMinn 3 1 4 4 3), (0x9EE2844A, .vamoWMaxn 4 20 24 5 2), (0xE168B04A, .vamoWSwap 16 5 26 2 3),
    (0xE7627D4A, .vamoWCas 29 19 24 6 3), (0xC34CC24B, .vamoDAdd 2 6 19 6 3), (0x870C244B, .vamoDAnd 4 1 3 6 2),
    (0x8A6F2D4B, .vamoDOr 13 25 27 4 2), (0xCED1274B, .vamoDXor 7 9 20 5 3), (0xD08C414B, .vamoDMin 1 2 3 1 3),
    (0x9493144B, .vamoDMax 20 24 4 1 2), (0xD8A0854B, .vamoDMinn 5 4 8 1 3), (0xDF88934B, .vamoDMaxn 19 4 2 7 3),
    (0xE389F14B, .vamoDSwap 17 15 2 7 3), (0xA63D634B, .vamoDCas 3 11 15 4 2), (0xB0F7814C, .vwait 1 28 29 1 1 5),
    (0x0282954D, .tagl 21 20 5), (0x05C6404D, .tagw 18 17 3), (0x00F0804E, .vspill 4 28 1), (0x0082004F, .vfill 16 1)] : List (W32 × Instr)),
    decodeTableWord 32 x.1.toNat = some x.2 ∧ encode x.2 = some x.1 := by decide +kernel

theorem test_decode_matrix : ∀ x ∈ ([
    (0x00009750, .matt 23 4), (0x04000050, .mdet), (0x08005F50, .mmode 31 2), (0x0C000250, .mzero 2), (0x68906251, .mopa 2 3 4 1 2 3),
    (0xD4D12252, .mopa2 2 9 20 1 5 6), (0x64846253, .mopa4 2 3 1 1 1 3), (0x20802254, .mops 2 1 1 1), (0xE4C28155, .mopg 1 20 16 1 1 7),
    (0x040C4156, .mopq 1 2 3 1), (0x01816857, .mrd 8 11 3), (0x04816F57, .mwr 15 11 1), (0x0002E058, .mcbl 23), (0x00036059, .mrll 27),
    (0x0001405A, .msave 10), (0x0400E05A, .mrest 7)] : List (W32 × Instr)),
    decodeTableWord 32 x.1.toNat = some x.2 ∧ encode x.2 = some x.1 := by decide +kernel

theorem test_decode_streams_and_chains : ∀ x ∈ ([
    (0x00188D60, .schIn 13 4 6), (0x00DA8760, .schOut 7 20 22), (0x01000360, .schRel 3), (0x00004961, .sld 9 2), (0x0002C562, .sst 5 22),
    (0x0221C563, .sgath 5 14 8 4), (0x02BC4B64, .sscat 11 2 15 5), (0x0657E664, .sscataInt 6 31 21 4), (0x0B902364, .sscataFloat 3 1 4 7),
    (0x0026A765, .swm 7 21 9), (0x04180065, .sdrain 6), (0x04800065, .sdrainAll), (0x02952066, .rcfg 9 5 5),
    (0x02BB6C67, .rwait 12 27 14 5), (0x0581A467, .rfree 4 13 3), (0x00C34068, .chcfg 26 16 1), (0x00814069, .run 10 1),
    (0x0180116A, .chwait 17 3), (0x0480026A, .chbrk 2 1), (0x00E5E96B, .hwpub 9 15 25 1), (0x0001D76C, .tkpush 23 14),
    (0x0400046C, .tkpop 4), (0x0000446D, .qwr 4 2), (0x0401E56D, .qrd 5 15), (0x0003286E, .launch 8 25)] : List (W32 × Instr)),
    decodeTableWord 32 x.1.toNat = some x.2 ∧ encode x.2 = some x.1 := by decide +kernel

theorem test_decode_system : ∀ x ∈ ([
    (0x00000070, .ecall), (0x04000070, .brk), (0x00800071, .tret 1), (0x00000072, .emuret), (0x010C0073, .fence 3 2),
    (0x04000073, .lsync), (0x29B40874, .crrd 8 2669), (0x24B7A175, .crwr 1 29 2349), (0x184FCA76, .crset 10 30 1555),
    (0x0C590577, .crclr 5 8 790), (0x00002078, .ctxsv 1), (0x04018078, .ctxld 12), (0x0108C079, .tlbinv 6 2 2), (0x04000079, .tlbsync),
    (0x0000CC7A, .rmack 12 6), (0x0182007B, .lwake 16 3), (0x0000007C, .idle)] : List (W32 × Instr)),
    decodeTableWord 32 x.1.toNat = some x.2 ∧ encode x.2 = some x.1 := by decide +kernel

/-- The permanently undefined words, an unassigned opcode, and a function code that no entry gives (02 R56). -/
theorem test_decode_undefined : decode 0 = .ok (.undefinedInstruction 0) ∧ decode 0xFFFFFFFF = .ok (.undefinedInstruction 0xFFFFFFFF)
    ∧ decode 0x00000032 = .ok (.undefinedInstruction 0x32) ∧ decode 0xFC000001 = .error .reserved := ⟨rfl, rfl, rfl, rfl⟩

/-! ## Single steps

One step each, against a case that the manual works out. -/

/-- The packed elements of a vector register. -/
def vec (w : Nat) (l : List Nat) : Nat := l.foldr (fun x n => x + 2 ^ w * n) 0
/-- A word placed where the state after reset fetches runs as its first instruction (04 R104). -/
theorem test_lih_first : steps (State.reset.withFetchWord 32 0x12344509) (fun t => decide (t.rd 5 = 0x12344000 ∧ t.th.pc = 4)) = true := by
  decide +kernel
/-- The second line of that example. -/
theorem test_addi : nexts (.addi 5 5 0x1678) (withRegs [0, 0, 0, 0, 0x12344000]) (fun t => decide (t.rd 5 = 0x12345678)) = true := by decide +kernel
/-- Division by zero and of the least number by −1 (04 R101). -/
theorem test_div_corners :
    nexts (.div 1 2 3) (withRegs [0, 5]) (fun t => decide (t.rd 1 = -1)) = true
    ∧ nexts (.rem 1 2 3) (withRegs [0, 5]) (fun t => decide (t.rd 1 = 5)) = true
    ∧ nexts (.div 1 2 3) (withRegs [0, 0x8000000000000000, -1]) (fun t => decide (t.rd 1 = 0x8000000000000000)) = true
    ∧ nexts (.rem 1 2 3) (withRegs [0, 0x8000000000000000, -1]) (fun t => decide (t.rd 1 = 0)) = true := by decide +kernel
/-- Writes to g0 are discarded (01 R13). -/
theorem test_g0 : nexts (.addi 0 0 7) base (fun t => decide (t.rd 0 = 0 ∧ t.th.pc = 4)) = true := by decide +kernel
/-- A program counter outside the code window traps CODEWIN at the supervisor's vector (02 R57, 19 R383). -/
theorem test_codewin : steps (withTh fun t => { t with pc := 64 }) (fun t => decide (t.th.level = .supervisor ∧ t.th.pc = 4096 ∧
    t.th.sup.epc = 64 ∧ bits t.th.sup.cause.toNat 0 6 = 5)) = true := by decide +kernel
/-- Carry-less products at eight bits (05 R144). -/
theorem test_clmul :
    let s := withTh fun t => { vectors 0 1 t with v := (t.v.set 1 0x80).set 2 0x03 }
    nexts (.vclmul 3 1 2 0 0) s (fun t => decide (t.vreg 3 = 0x80)) = true
    ∧ nexts (.vclmulh 3 1 2 0 0) s (fun t => decide (t.vreg 3 = 0x01)) = true := by decide +kernel
/-- The first pass of the worked VCONF case. -/
theorem test_vconf : nexts (.vconf 2 1 3 0)
    (withTh fun t => { vectors 0 8 t with v := t.v.set 1 (vec 8 [5, 7, 5, 5, 7, 2, 5, 9]), m := t.m.set 3 0xFF })
    (fun t => decide (t.mreg 2 = 0xA3)) = true := by decide +kernel
/-- Two stochastic conversions of the worked case of 03 R91: the generator's words are 0x0004 and 0x0408. -/
theorem test_stochastic : nexts (.vcvt 2 1 0 1 0 3 2 0) (withTh fun t => { vectors 2 1 t with v := t.v.set 1 0x3F808000 })
    (fun t => decide (elt (t.vreg 2) 16 0 = 0x3F81) && nexts (.vcvt 2 1 0 1 0 3 2 0) { t with th := { t.th with cv := none } }
      fun u => decide (elt (u.vreg 2) 16 0 = 0x3F81 ∧ u.th.gens.headD 0 = 0x04080601)) = true := by decide +kernel
/-- The worked VAMO case of 06 R189. -/
theorem test_vamo : nexts (.vamoWAdd 4 5 6 0 0)
    { withTh (fun t => { vectors 2 4 t with g := regs [0, 0, 0, 0, 0x20000], v := (t.v.set 4 (vec 32 [1, 2, 3, 4])).set 6 (vec 32 [3, 3, 7, 3]) }) with
      dram := Memory.store tables 0x2000C 4 10 }
    (fun t => decide (t.vreg 4 = vec 32 [10, 11, 0, 13] ∧ t.dram.load 0x2000C 4 = 17 ∧ t.dram.load 0x2001C 4 = 3)) = true := by decide +kernel

/-! ## Witnesses

For each statement with hypotheses, states and operands that meet them, at the ends of their ranges. -/

/-! ## Lemmas that the witnesses use -/

/-- The value of the low bytes of a number. -/
theorem natOf_bytesOf (n x : Nat) : natOf (bytesOf n x) = x % 256 ^ n := by
  induction n generalizing x with
  | zero => simp [bytesOf, natOf, Nat.mod_one]
  | succ n ih =>
    show (BitVec.ofNat 8 x).toNat + 256 * natOf (bytesOf n (x / 256)) = _
    rw [ih, BitVec.toNat_ofNat, show 256 ^ (n + 1) = 256 * 256 ^ n from Nat.pow_succ']
    exact (Nat.mod_mul (x := x) (a := 256) (b := 256 ^ n)).symm
theorem crcBit_lt (c : Nat) (h : c < 2 ^ 64) : crcBit c < 2 ^ 64 := by
  unfold crcBit
  split
  · exact Nat.xor_lt_two_pow (Nat.mod_lt _ (by decide)) (by decide)
  · rename_i b
    by_contra hc
    apply b
    simp only [bitOf, Nat.testBit_eq_decide_div_mod_eq]
    simp
    omega
theorem crcByte_lt (c b : Nat) (h : c < 2 ^ 64) (g : b < 2 ^ 8) : crcByte c b < 2 ^ 64 := by
  unfold crcByte
  iterate 8 apply crcBit_lt
  exact Nat.xor_lt_two_pow h (by omega)
theorem crcByte_zero : crcByte 0 0 = 0 := by decide +kernel
/-- The CRC is a number of 64 bits. -/
theorem crc64_lt (x n : Nat) : crc64 x n < 2 ^ 64 := by
  induction n with
  | zero => simp [crc64]
  | succ n ih =>
    simp only [crc64, List.range_succ, List.foldl_append, List.foldl_cons, List.foldl_nil] at *
    exact crcByte_lt _ _ ih (Nat.mod_lt _ (by decide))
/-- The CRC looks at no byte above the low `n`. -/
theorem crc64_low (x c n m : Nat) (h : 8 * n ≤ m) : crc64 (x + c * 2 ^ m) n = crc64 x n := by
  induction n with
  | zero => simp [crc64]
  | succ n ih =>
    have e : bits (x + c * 2 ^ m) (8 * n) 8 = bits x (8 * n) 8 := by
      obtain ⟨k, rfl⟩ := Nat.exists_eq_add_of_le h
      simp only [bits, Nat.shiftRight_eq_div_pow]
      rw [show c * 2 ^ (8 * (n + 1) + k) = 2 ^ (8 * n) * (2 ^ 8 * (c * 2 ^ k)) by
        rw [Nat.pow_add, Nat.mul_add, Nat.pow_add]; ring, Nat.add_mul_div_left _ _ (Nat.two_pow_pos _), Nat.add_mul_mod_self_left]
    have := ih (by omega)
    simp only [crc64, List.range_succ, List.foldl_append, List.foldl_cons, List.foldl_nil] at *
    rw [this, e]
theorem crc64_zero (n : Nat) : crc64 0 n = 0 := by
  induction n with
  | zero => rfl
  | succ n ih =>
    simp only [crc64, List.range_succ, List.foldl_append, List.foldl_cons, List.foldl_nil] at *
    rw [ih]; simp [bits, crcByte_zero]
set_option exponentiation.threshold 3000 in
/-- A flit that the model builds has a sound CRC. -/
theorem mkFlit_sound (seq ack cred kind : Nat) (units : List Nat)
    (h : seq % 2 ^ 16 + ack % 2 ^ 16 * 2 ^ 16 + cred % 2 ^ 8 * 2 ^ 32 + kind * 2 ^ 40 + packElts 128 (units.take 15) * 2 ^ 64 < 2 ^ 1984) :
    mkFlit seq ack cred kind units / 2 ^ 1984 % 2 ^ 64 = crc64 (mkFlit seq ack cred kind units) 248 := by
  simp only [mkFlit]
  generalize seq % 2 ^ 16 + ack % 2 ^ 16 * 2 ^ 16 + cred % 2 ^ 8 * 2 ^ 32 + kind * 2 ^ 40 + packElts 128 (units.take 15) * 2 ^ 64 = x at *
  rw [crc64_low _ _ _ _ (by decide), Nat.add_mul_div_right _ _ (Nat.two_pow_pos _), Nat.div_eq_of_lt h, Nat.zero_add, Nat.mod_eq_of_lt (crc64_lt _ _)]
set_option exponentiation.threshold 3000 in
/-- The fields below a flit's CRC are those of its body. -/
theorem mkFlit_low (seq ack cred kind : Nat) (units : List Nat) : mkFlit seq ack cred kind units % 2 ^ 1984 =
    (seq % 2 ^ 16 + ack % 2 ^ 16 * 2 ^ 16 + cred % 2 ^ 8 * 2 ^ 32 + kind * 2 ^ 40 + packElts 128 (units.take 15) * 2 ^ 64) % 2 ^ 1984 := by
  simp only [mkFlit, Nat.add_mul_mod_self_right]

/-! ## States and operands that meet the hypotheses of the statements -/

/-- A taken and an untaken branch, targets at the last word of the window and just past it, and JALR to each of its targets. -/
theorem witness_ControlTransfers :
    let s := withRegs [1, 2, 60, 61, 64, 0xFFFFFFFFFFFFFFFC]
    let target := fun o : BitVec 14 => (s.th.pc + BitVec.ofInt 64 (o.toInt * 4)).toNat
    s.rd 1 = s.rd 1 ∧ s.rd 1 ≠ s.rd 2 ∧ (s.rd 1).toInt < (s.rd 2).toInt ∧ ¬ (s.rd 2).toInt < (s.rd 1).toInt
    ∧ (s.rd 1).toNat < (s.rd 2).toNat ∧ ¬ (s.rd 2).toNat < (s.rd 1).toNat
    ∧ s.inWindow s.th.level s.core (target 15) = true ∧ s.inWindow s.th.level s.core (target 16) = false
    ∧ s.inWindow s.th.level s.core (target 0x3FFF) = false
    ∧ ((s.rd 3).toNat % 4 = 0 ∧ s.rd 3 ≠ exitAddress ∧ s.inWindow s.th.level s.core (s.rd 3).toNat = true)
    ∧ (s.rd 4).toNat % 4 ≠ 0
    ∧ ((s.rd 5).toNat % 4 = 0 ∧ s.rd 5 ≠ exitAddress ∧ s.inWindow s.th.level s.core (s.rd 5).toNat = false)
    ∧ s.rd 6 = 0xFFFFFFFFFFFFFFFC := by decide +kernel

/-- Loads of each width from the last bytes of the tile allocation, and from device memory. -/
theorem witness_ScalarLoadResults :
    let s := withRegs [tileAt 65535, tileAt 65534, tileAt 65532, tileAt 65528, 0x12000]
    s.scalarLoc (s.rd 1 + 0) 1 .read = .ok (.tile 0 0 65535, s) ∧ s.scalarLoc (s.rd 2 + 0) 2 .read = .ok (.tile 0 0 65534, s)
    ∧ s.scalarLoc (s.rd 3 + 0) 4 .read = .ok (.tile 0 0 65532, s) ∧ s.scalarLoc (s.rd 4 + 0) 8 .read = .ok (.tile 0 0 65528, s)
    ∧ s.scalarLoc (s.rd 5 + 0) 8 .read = .ok (.dev 0x12000, s) := by decide +kernel

/-- Stores of each width. -/
theorem witness_ScalarStoreResults :
    let s := withRegs [tileAt 65535, tileAt 65534, tileAt 65532, tileAt 65528, 0x20000]
    s.wf = true
    ∧ s.scalarLoc (s.rd 1 + 0) 1 .write = .ok (.tile 0 0 65535, s) ∧ s.scalarLoc (s.rd 2 + 0) 2 .write = .ok (.tile 0 0 65534, s)
    ∧ s.scalarLoc (s.rd 3 + 0) 4 .write = .ok (.tile 0 0 65532, s) ∧ s.scalarLoc (s.rd 4 + 0) 8 .write = .ok (.tile 0 0 65528, s)
    ∧ s.scalarLoc (s.rd 5 + 0) 8 .write = .ok (.dev 0x20000, s) := by decide +kernel

/-- An AMO of 32 and of 64 bits, with a cas that compares equal and one that does not. -/
theorem witness_AtomicResults :
    let s := withRegs [0x12000, 0x8F, 1]
    s.wf = true ∧ s.scalarLoc (s.rd 1) 4 .rmw = .ok (.dev 0x12000, s) ∧ s.scalarLoc (s.rd 1) 8 .rmw = .ok (.dev 0x12000, s)
    ∧ BitVec.ofNat 32 (s.bytesAt (.dev 0x12000) 4) = BitVec.ofNat 32 (s.rd 2).toNat
    ∧ BitVec.ofNat 64 (s.bytesAt (.dev 0x12000) 8) ≠ BitVec.ofNat 64 (s.rd 3).toNat := by decide +kernel

/-- Accesses of every kind that are misaligned, between the spaces, on a page of the supervisor, on one without write permission and on one that is not
mapped, beyond the allocation, in the reserved address bits, at the last dword of the allocation, and at poisoned data. -/
theorem witness_ScalarAccessChecks :
    let s := withRegs [1, 0x0200000000000000, 0x40000000, tileAt 65536, tileAt (2 ^ 22), tileAt 65528, 0x20000]
    let has := fun (s : State) (r : BitVec 5) (q : ScalarAccess → Bool) => (s.scalarAccesses 1 r 2 0 1 0).any q
    let all := fun (s : State) (r : BitVec 5) (q : ScalarAccess → Bool) => (s.scalarAccesses 1 r 2 0 1 0).all fun p => decide (p.addr.toNat % p.size = 0) && q p
    let found := fun (x : Trans) =>
      let u : State := { s with cores := [(0, { Core.init 0 with vtlb := [x] })] }
      match u.lookup (u.tlb .v) u.th.ptroot (u.rd 7).toNat with | .ok (y, _) => y == x | .error _ => false
    has s 1 (fun p => decide (p.addr.toNat % p.size ≠ 0)) = true
    ∧ all s 2 (fun p => decide (p.addr.toNat < 2 ^ 63 ∧ 2 ^ 57 ≤ p.addr.toNat)) = true
    ∧ (found { identity with user := false } = true ∧ s.th.level = .user ∧ found { identity with write := false } = true
        ∧ has s 7 (fun p => p.kind == .write) = true ∧ has s 7 (fun p => p.kind == .rmw) = true)
    ∧ all s 3 (fun p => match s.lookup (s.tlb .v) s.th.ptroot p.addr.toNat with | .error (.page _ _) => true | _ => false) = true
    ∧ all s 4 (fun p => decide (2 ^ 63 ≤ p.addr.toNat ∧ s.group.tileSpace < p.addr.toNat % 2 ^ 22 + p.size)) = true
    ∧ all s 5 (fun p => decide (2 ^ 63 ≤ p.addr.toNat ∧ p.addr.toNat / 2 ^ 22 % 2 ^ 41 ≠ 0)) = true
    ∧ all s 6 (fun p => decide (2 ^ 63 ≤ p.addr.toNat ∧ p.addr.toNat / 2 ^ 22 % 2 ^ 41 = 0 ∧ p.addr.toNat % 2 ^ 22 + p.size ≤ s.group.tileSpace
        ∧ s.stalledOn s.core (p.addr.toNat % 2 ^ 22) p.size p.kind = none
        ∧ s.poisonedLoc (s.tileLoc s.core (p.addr.toNat % 2 ^ 22)) p.size = false)) = true
    ∧ (let u : State := { s with dramPoison := [0x4000] }
       all u 7 (fun p => match u.locateAt .v u.th.level false p.addr.toNat p.size p.kind with
         | .ok (l, v) => v.poisonedLoc l p.size
         | .error _ => false)) = true := by decide +kernel

/-- The last source of each form, and the mode SR. -/
theorem witness_ScalarFloatCompletes :
    (4 : BitVec 5) = 4 ∧ (0 : BitVec 1) = 0 ∧ (3 : BitVec 2) = 3 ∧ base.fpMode 0 ≠ .sr ∧ (withTh fun t => { t with frm := 5 }).fpMode 7 = .sr := by
  decide +kernel

/-- A trap that the supervisor takes, the highest cause, which firmware takes, and one of firmware level; a trap with a record whose area can be
written, is poisoned and is not mapped; and a thread with an emulation vector and one in emulation mode. -/
theorem witness_TrapEntry :
    let f := withTh fun t => { t with level := .firmware }
    let ok := fun (s : State) (x : Trap) => x.cause < 64 ∧ x.records = []
      ∧ ¬ (x.cause = 1 ∧ s.th.level = .user ∧ (s.th.em = true ∨ s.th.emvec ≠ 0)) ∧ (s.th.regs (s.taker x.cause)).tih = false
      ∧ s.inRuntime s.core (s.th.regs (s.taker x.cause)).vec.toNat = true
    let x : Trap := { cause := 16, records := [5] }
    let area := fun (s : State) (q : State → Loc → Bool) => match s.locateNow (s.taker 16) s.th.fbarea.toNat 256 with | .ok (l, u) => q u l | .error _ => false
    let d := withTh fun t => { t with emvec := 32 }
    let e := withTh fun t => { t with em := true }
    ok base { cause := 2, tval := 5 } ∧ ok base { cause := 50 } ∧ ok f { cause := 63 }
    ∧ base.taker 2 = .supervisor ∧ base.taker 50 = .firmware ∧ f.taker 63 = .firmware
    ∧ (x.cause < 64 ∧ x.cause ≠ 1 ∧ x.records ≠ [] ∧ x.records.length ≤ 16 ∧ base.taker 16 = .supervisor ∧ base.wf = true)
    ∧ area base (fun u l => !u.poisonedLoc l 256) = true ∧ area { base with dramPoison := [0] } (fun u l => u.poisonedLoc l 256) = true
    ∧ (match (withTh fun t => { t with fbarea := 0x40000000 }).locateNow .supervisor 0x40000000 256 with | .ok _ => false | .error _ => true) = true
    ∧ (d.th.level = .user ∧ d.th.em = false ∧ d.th.emvec ≠ 0) ∧ (e.th.level = .user ∧ e.th.em = true) := by decide +kernel

/-- A supervisor that already handles a trap, a firmware that does, and a handler outside the runtime window. -/
theorem witness_TrapNotTaken :
    let s := withTh fun t => { t with level := .supervisor, sup := { t.sup with tih := true } }
    let f := withTh fun t => { t with level := .firmware, fw := { t.fw with tih := true } }
    let o := withTh fun t => { t with sup := { t.sup with vec := 4160 } }
    let x : Trap := { cause := 4 }
    x.async = false ∧ x.records = [] ∧ x.cause ≠ 1 ∧ x.cause < 64
    ∧ (s.taker 4 = .supervisor ∧ s.th.sup.tih = true ∧ s.th.fw.tih = false ∧ s.inRuntime s.core s.th.fw.vec.toNat = true)
    ∧ (f.taker 4 = .firmware ∧ f.th.fw.tih = true)
    ∧ ((o.th.regs (o.taker 4)).tih = false ∧ o.inRuntime o.core (o.th.regs (o.taker 4)).vec.toNat = false) := by decide +kernel

/-- ECALL and BRK at each level. -/
theorem witness_EnvironmentCalls :
    let at_ := fun l : Level => withTh fun t => { t with level := l }
    ∀ l ∈ [Level.user, .supervisor, .firmware], (at_ l).th.cv = none ∧ (at_ l).th.level = l
      ∧ ∀ k ∈ [Level.supervisor, .firmware], ((at_ l).th.regs k).tih = false
          ∧ (at_ l).inRuntime (at_ l).core ((at_ l).th.regs k).vec.toNat = true := by decide +kernel

/-- An undefined word with and without an emulation vector and in emulation mode, and EMURET to both sides of the end of the window, with low bits
that do not count, and outside emulation mode. -/
theorem witness_Emulation :
    let v := withTh fun t => { t with emvec := 32 }
    let e := fun pc => withTh fun t => { t with em := true, empc := pc }
    let back := fun pc => ((e pc).th.empc &&& 0xFFFFFFFFFFFFFFFC).toNat
    (v.th.level = .user ∧ v.th.em = false ∧ v.th.emvec ≠ 0) ∧ (base.th.level = .user ∧ base.th.em = false ∧ base.th.emvec = 0)
    ∧ ((e 63).th.level = .user ∧ (e 63).th.em = true ∧ (e 63).inWindow .user (e 63).core (back 63) = true)
    ∧ ((e 64).th.em = true ∧ (e 64).inWindow .user (e 64).core (back 64) = false)
    ∧ (let k := withTh fun t => { t with level := .supervisor }
       k.th.level ≠ .user ∧ (k.th.regs (k.taker 1)).tih = false ∧ k.inRuntime k.core (k.th.regs (k.taker 1)).vec.toNat = true)
    ∧ base.th.sup.tih = false ∧ base.inRuntime base.core base.th.sup.vec.toNat = true := by decide +kernel

/-- A return from the supervisor to user level and from firmware to itself, the reserved `PLEV` and one above the level, the abort address, and
TRET at user level. -/
theorem witness_ReturnFromTrap :
    let s := fun (plev : Nat) (epc : Word) => withTh fun t =>
      { t with level := .supervisor, sup := { t.sup with cause := BitVec.ofNat 64 (plev * 2 ^ 60), epc := epc } }
    let f := withTh fun t => { t with level := .firmware, uncorr := true, fw := { t.fw with cause := BitVec.ofNat 64 (2 * 2 ^ 60) } }
    let plev := fun s : State => bits (s.th.regs s.th.level).cause.toNat 60 2
    (plev (s 0 8) = Level.user.num ∧ Level.user.num ≤ (s 0 8).th.level.num ∧ ((s 0 8).th.regs (s 0 8).th.level).epc ≠ 0xFFFFFFFFFFFFFFF8
      ∧ (s 0 8).th.uncorr = false ∧ (s 0 8).th.rmvAck = (s 0 8).th.rmvCur)
    ∧ (plev f = Level.firmware.num ∧ f.th.level = .firmware ∧ f.th.uncorr = true ∧ (f.th.regs f.th.level).epc ≠ 0xFFFFFFFFFFFFFFF8)
    ∧ plev (s 3 8) = 3 ∧ (s 2 8).th.level.num < plev (s 2 8)
    ∧ (plev (s 1 0xFFFFFFFFFFFFFFF8) ≤ (s 1 0).th.level.num ∧ (s 1 0xFFFFFFFFFFFFFFF8).th.sup.epc = 0xFFFFFFFFFFFFFFF8)
    ∧ base.th.level = .user := by decide +kernel

/-- Registers that only the supervisor and only firmware read, the last channel and the last core, rounding modes 5 and 6, matrix vector lengths 0,
1, 64 and 65, a `LIM` of 64 and of 65, an `ALLOW` of 0 and of 1, and a fmask written with zero and with one. -/
theorem witness_ControlRegisters :
    let s := withRegs [5, 6, 0, 1, 64, 65]
    (withTh fun t => { t with level := .supervisor }).th.level ≠ .user ∧ (withTh fun t => { t with level := .firmware }).th.level = .firmware
    ∧ 15 < 16 ∧ s.core < 320 ∧ ({ s with cur := 4 * 319 } : State).core < 320
    ∧ (0x01B : BitVec 12).toNat ∈ [0, 1, 2, 3, 0xB, 0xC, 0xD, 0xE, 0x10, 0x1A, 0x1B, 0x800, 0x801, 0x802, 0x803, 0x804, 0x805, 0x806]
    ∧ (0x301 : BitVec 12).toNat ∈ [0x10A, 0x10C, 0x200, 0x201, 0x208, 0x300, 0x301]
    ∧ (let w := withRegs [64 * 2 ^ 24, 65 * 2 ^ 24, 1, 0]
       ((w.rd 1).toNat >>> 24) % 128 ≤ 64 ∧ 64 < ((w.rd 2).toNat >>> 24) % 128 ∧ (w.rd 3).toNat % 2 ^ 21 ≠ 0 ∧ (w.rd 4).toNat % 2 ^ 21 = 0)
    ∧ (s.rd 1).toNat % 8 ≤ 5 ∧ 6 ≤ (s.rd 2).toNat % 8
    ∧ (1 ≤ (s.rd 4).toNat % 128 ∧ (s.rd 5).toNat % 128 ≤ 64) ∧ (s.rd 3).toNat % 128 = 0 ∧ 64 < (s.rd 6).toNat % 128
    ∧ s.rd 3 = 0 ∧ s.rd 4 ≠ 0 := by decide +kernel

/-- The levels, register numbers at the ends of the ranges of the supervisor and of firmware, and numbers next to the assigned ones. -/
theorem witness_PrivilegeChecks :
    let firmwares := fun n : BitVec 12 => (0x180 ≤ n.toNat ∧ n.toNat ≤ 0x186) ∨ n = 0x189
    base.th.level = .user ∧ (withTh fun t => { t with level := .supervisor }).th.level = .supervisor
    ∧ 0x100 ≤ (0x100 : BitVec 12).toNat ∧ (0x3FF : BitVec 12).toNat ≤ 0x3FF ∧ firmwares 0x180 ∧ firmwares 0x189
    ∧ ∀ n ∈ [0x012, 0x017, 0x01C, 0x03F, 0x080, 0x400, 0x7FF, 0x807, (0xFFF : BitVec 12)],
        ¬ (0x100 ≤ n.toNat ∧ n.toNat ≤ 0x3FF) ∧ ¬ n.toNat ≤ 0x11 ∧ ¬ (0x18 ≤ n.toNat ∧ n.toNat ≤ 0x1B) ∧ ¬ (0x40 ≤ n.toNat ∧ n.toNat ≤ 0x7F)
        ∧ ¬ (0x800 ≤ n.toNat ∧ n.toNat ≤ 0x806) := by decide +kernel

/-- A supervisor with and without an outstanding TLBINV, cores that serve its partition and cores that do not, a matrix unit with both its cores, a
version to acknowledge and one beyond `CUR`, and IDLE with and without a pending cause. -/
theorem witness_SystemInstructionResults :
    let s := withTh fun t => { t with level := .supervisor, g := regs [2, 3], rmvAck := 1, rmvCur := 2 }
    let o := withTh fun t => { t with level := .supervisor, tlbinvs := 1 }
    let p := withTh fun t => { t with level := .supervisor, spend := 2, sup := { t.sup with aie := true } }
    let w : State := { base with cores := [(0, Core.init 0), (1, Core.init 1), (1000, Core.init 2)] }
    let far : State := { w with parts := [(0, { clusters := [39] })] }
    s.th.level ≠ .user ∧ s.th.tlbinvs = 0 ∧ o.th.tlbinvs ≠ 0
    ∧ ((∀ c ∈ [0, 1, 1000], (w.cores.look c).isSome = true) ∧ (∀ c < 2, c / 2 = 0) ∧ 0 ∈ coresOf w.part.clusters ∧ 0 ∉ coresOf far.part.clusters
        ∧ clusterOf 0 ∉ far.part.clusters)
    ∧ (s.th.rmvAck ≤ (s.rd 1).toNat % 2 ^ 32 ∧ (s.rd 1).toNat % 2 ^ 32 ≤ s.th.rmvCur) ∧ s.th.rmvCur < (s.rd 2).toNat % 2 ^ 32
    ∧ s.advance.th.asyncReady = false ∧ (p.th.level ≠ .user ∧ p.advance.th.asyncReady = true) := by decide +kernel

/-- A failed producer, status words in each of the states of SETVLW: failed, a strip, the end, and nothing yet, and one that cannot be read;
and the same for one that has waited, whose grant is as before and is not. -/
theorem witness_VectorConfiguration :
    let f := withTh fun t => { t with hwfail := 1 }
    let s := fun w : Nat => { withRegs [4, 0x20000, 0x20001] with dram := Memory.store tables 0x20000 8 w }
    let word := fun w : Nat => gives ((s w).space0 ((s w).rd 2) 8 .read) fun x : Loc × State => decide (x.1 = .dev 0x20000 ∧ (s w).bytesAt x.1 8 = w)
    let o := fun (w : Nat) (n : Nat) => asTh (s w) fun t => { t with cv := some { old := some { lanes := List.replicate n (0, 0) } } }
    f.th.hwfail = 1 ∧ base.th.hwfail ≠ 1 ∧ f.th.old = none ∧ (s 0).th.old = none
    ∧ ((o 5 0).th.old = some {} ∧ (o 5 0).th.vrlen = 512 * ({} : VConf).lanes.length ∧ (o 5 1).th.vrlen ≠ 512 * ((o 5 1).th.old.getD {}).lanes.length)
    ∧ (∀ w ∈ [2 ^ 63, 5, 2 ^ 62 + 4, 4], gives ((o w 0).space0 ((o w 0).rd 2) 8 .read) (fun x => decide (x.1 = .dev 0x20000)) = true)
    ∧ (match (o 0 0).space0 ((o 0 0).rd 3) 8 .read with | .error (.trap _ _) => true | _ => false) = true
    ∧ (match (s 0).space0 ((s 0).rd 3) 8 .read with | .error (.trap _ _) => true | _ => false) = true
    ∧ (word (2 ^ 63) = true ∧ 2 ^ 63 ≤ 2 ^ 63) ∧ (word 5 = true ∧ ((s 5).rd 1).toNat < 5 % 2 ^ 32)
    ∧ (word (2 ^ 62 + 4) = true ∧ (2 ^ 62 + 4) % 2 ^ 32 ≤ ((s 0).rd 1).toNat) ∧ (word 4 = true ∧ 4 % 2 ^ 32 ≤ ((s 4).rd 1).toNat) := by decide +kernel

/-- The supervisor with a save area at 0x30000. -/
def saving : State := withTh fun t => { t with level := .supervisor, g := regs [0x30000, 7, 9] }
/-- The bytes of a save area that are not zero, by offset: `FVER`, `SIZE`, `PC`, g2, g3, `ASID` and root of ptroot, srseed, qthr, mvl, rmgrace, the
directory, and the frame of the vector section with no vector (19 R391 to R396). -/
def areaBytes : List (Nat × Byte) :=
  [(0, 1), (8, 64), (9, 18), (104, 16), (130, 3), (136, 7), (144, 9), (408, 1), (418, 128), (419, 127), (424, 64), (498, 16),
   (513, 16), (520, 64), (528, 64), (529, 16), (544, 64), (545, 16), (553, 2), (560, 64), (561, 18), (576, 64), (577, 18),
   (592, 64), (593, 18), (608, 64), (609, 18), (4096, 1), (4097, 128), (4100, 255), (4101, 255), (4102, 255), (4103, 255), (4104, 255)]
/-- The supervisor about to load that area. -/
def loading : State := { saving with dram := tables ++ areaBytes.map fun x => (0x30000 + x.1, x.2) }
set_option maxRecDepth 20000 in
/-- The context can be saved there. -/
theorem witness_ContextSave :
    saving.th.level ≠ .user ∧ (saving.rd 1).toNat % 4096 = 0 ∧ saving.drainContext.wf = true ∧ (saving.th.slots.map (·.1)).Pairwise (· < ·)
    ∧ gives (saving.drainContext.saveLocs (saving.rd 1).toNat saving.drainContext.areaImage.2 .write) (fun _ => true) = true := by decide +kernel
set_option maxRecDepth 20000 in
/-- The area can be loaded, passes its checks, and every resource that it names is free. -/
theorem witness_ContextLoad :
    loading.th.level ≠ .user ∧ (loading.rd 1).toNat % 4096 = 0
    ∧ gives (loading.loadArea (loading.rd 1).toNat 4096) (fun x =>
        decide (4096 ≤ dword x.1 8) && decide (dword x.1 8 % 64 = 0) && (directory x.1).isSome
        && gives (x.2.loadArea (loading.rd 1).toNat (dword x.1 8)) fun y =>
            match Saved.parse y.1 with
            | some z => (y.2.restored z).isSome
            | none => false) = true := by decide +kernel

/-! The vector statements: eight elements of the width with code `ew`, in the first lane group. -/

/-- Elements of every width, and a member that starts at element 0 and one that starts at 1. -/
theorem witness_VectorStarts :
    let s := fun ew => withTh fun t => vectors ew 8 t
    let m := withTh fun t => { vectors 2 8 t with estart := 1 }
    (s 0).th.ew = 0 ∧ (s 3).th.ew ≠ 0 ∧ (s 2).start = 0 ∧ m.start ≠ 0 ∧ (s 2).th.vl ≠ 0 ∧ base.th.vl = 0 ∧ base.start = 0
    ∧ (s 2).hasFeat 2 = true ∧ (s 2).th.frm ≤ 4 := by decide +kernel

/-- Each of the four formats, under the last rounding mode but SR and under SR, and a reduction of eight elements, a tree of three levels. -/
theorem witness_VectorFloatResults :
    let s := fun ew frm => withTh fun t => { vectors ew 8 t with frm := frm }
    (s 1 4).format 1 .bf16 ∧ (s 1 4).format 0 .f16 ∧ (s 2 4).format 0 .f32 ∧ (s 3 5).format 0 .f64
    ∧ (s 1 4).th.frm ≤ 4 ∧ (s 3 5).th.frm = 5 ∧ (s 3 5).hasFeat 2 = true ∧ (s 3 5).th.gens.length = 128
    ∧ (s 2 5).th.vl ≤ 2 ^ 3 ∧ ∀ h < 3, ¬ (s 2 5).th.vl ≤ 2 ^ h :=
  ⟨.inl ⟨rfl, rfl, rfl⟩, .inr (.inl ⟨rfl, rfl, rfl⟩), .inr (.inr (.inl ⟨rfl, rfl, rfl⟩)),
    .inr (.inr (.inr ⟨rfl, rfl, by decide +kernel, rfl⟩)), by decide +kernel⟩

/-- `base` in a partition without features. -/
def plain : State := { base with parts := [(0, { clusters := List.range 40 })] }
/-- Each reason for which a floating vector operation is ILLEGAL. -/
theorem witness_VectorFloatChecks :
    let s := fun ew frm : Nat => { plain with th := { vectors ew 8 plain.th with frm := frm } }
    ((1 : BitVec 1) = 1 ∧ (s 2 0).th.ew ≠ 1) ∧ (s 0 0).th.ew = 0 ∧ ((s 3 0).th.ew = 3 ∧ (s 3 0).hasFeat 0 = false)
    ∧ ((s 2 5).th.frm = 5 ∧ (s 2 5).hasFeat 2 = false) := by decide +kernel

/-- The last mask register and the last condition codes. -/
theorem witness_VectorComparisons : (7 : BitVec 5).toNat < 8 ∧ (4 : BitVec 3).toNat ≤ 4 := by decide

/-- Conversions from and to an integer and between formats at the width that they ask for, one at another width, one from f64 and one under SR
without the feature. -/
theorem witness_VectorConversions :
    let s := fun ew => withTh fun t => vectors ew 8 t
    let p := fun ew => { plain with th := vectors ew 8 plain.th }
    ((11 : BitVec 4).toNat ≤ 11 ∧ ¬ (10 ≤ (11 : BitVec 4).toNat ∧ 10 ≤ (1 : BitVec 4).toNat))
    ∧ 8 * 2 ^ (s 2).th.ew = 32 ∧ 8 * 2 ^ (s 1).th.ew ≠ 32 ∧ ((s 3).hasFeat 0 = true ∧ 8 * 2 ^ (s 3).th.ew = 64)
    ∧ (p 3).hasFeat 0 = false ∧ (p 2).hasFeat 2 = false ∧ (s 2).hasFeat 2 = true := by decide +kernel

/-- Frames for a strip of eight 16-bit elements in v[8]: sound with `OSAT` = 1, sound with `ESC` = 0, with a full list, which the first elected element
overflows, with a count of 65, and one whose element number leaves no room. -/
theorem witness_Quantisation :
    let s := fun frame : Nat => withTh fun t => { vectors 1 8 t with v := (t.v.set 8 frame).set 1 0x3F80, qthr := 0 }
    let cb : Nat := (List.range 16).foldl (fun x k => x + (0x3C00 + k * 16) * 2 ^ (16 * k)) 0
    let f := fun frame => (s frame).vreg 8 % 2 ^ 512
    let full := cb + 2 ^ 256 + 64 * 2 ^ 288
    ((plain.hasFeat 1 = false ∨ plain.th.ew ≠ 1 + (0 : BitVec 1).toNat) ∧ (s 0).hasFeat 1 = true ∧ (s 0).th.ew = 1 + (0 : BitVec 1).toNat)
    ∧ (frameDet (f (cb + 2 ^ 256 + 2 ^ 258)) 8 = none ∧ (f (cb + 2 ^ 256 + 2 ^ 258)).testBit 258 = true)
    ∧ (frameDet (f cb) 8 = none ∧ f cb / 2 ^ 256 % 4 = 0)
    ∧ (frameDet (f full) 8 = none ∧ (f full).testBit 258 = false ∧ f full / 2 ^ 288 % 2 ^ 8 = 64
        ∧ cb4Quant (f full) (s full).th.qthr (elt ((s full).vreg 30) 8 0) (dec .bf16 (elt ((s full).vreg 1) 16 0)) = none)
    ∧ frameDet (f (cb + 65 * 2 ^ 288)) 8 = some 3 ∧ frameDet (f (cb + 4089 * 2 ^ 272)) 8 = some 7
    ∧ listDet (f cb) 0 0 8 = none ∧ listDet (f (cb + 4089 * 2 ^ 272)) 0 0 8 = some 7 ∧ (s 0).th.frm ≠ 5 ∧ (s 0).th.gens.length = 128 := by
  decide +kernel

/-! Memory: two 32-bit elements at tile offset 64, index vectors in v[2], data in v[1]. -/

/-- Two elements of 32 bits, g[1] naming tile offset 64, g[2] a stride of 8, and v[2] the indices 0 and 1. -/
def memory : State := withTh fun t =>
  { vectors 2 2 t with g := regs [tileAt 64, 8, 64], v := (t.v.set 2 (2 ^ 32)).set 1 (7 + 9 * 2 ^ 32), m := t.m.set 1 3 }
/-- The bytes of element `j`. -/
def place (j : Nat) : Loc := .tile 0 0 (64 + 4 * j)
/-- A page that is not mapped from tile-free address 0x40000000 on: the two elements lie on both sides of it. -/
def pageEnd : State := { memory with th := { memory.th with g := regs [0x3FFFFFFC] } }
/-- Five elements, the third and fourth of which are poisoned, the first of them performed already in `part`. -/
def spoilt (part : Option Nat) : State := { memory with
  th := { memory.th with vl := 5, cv := some { part := part } }
  cores := [(0, { Core.init 0 with allocs := [(0, { size := 65536, tagSlots := 64, poison := [9] })], vtlb := [identity] })] }

/-- Accesses of each form that reach both elements, one of another width, and a first-fault loads whose second element is not mapped and
whose third is poisoned while the last is not. -/
theorem witness_VectorLoadResults :
    memory.Reaches true 4 .read true (memory.left 0) (fun j => ((memory.rd 1).toNat + j * 4) % 2 ^ 64) place memory
    ∧ (2 : BitVec 2).toNat = memory.th.ew ∧ memory.th.reissue = false ∧ (3 : BitVec 2).toNat ≠ memory.th.ew
    ∧ memory.Reaches true 4 .read true (memory.left 0)
        (fun j => ((memory.rd 1).toNat + elt (memory.vreg 2) 32 j * 4) % 2 ^ 64) place memory
    ∧ memory.Reaches true 4 .read true (memory.left 0)
        (fun j => (BitVec.ofNat 64 (memory.rd 1).toNat + BitVec.ofNat 64 j * memory.rd 2).toNat) (fun j => .tile 0 0 (64 + 8 * j)) memory
    ∧ (pageEnd.left 0 = [0] ++ 1 :: []
        ∧ pageEnd.locateAll .v .user false 4 .read ((pageEnd.left 0).map fun i => (i, ((pageEnd.rd 1).toNat + i * 4) % 2 ^ 64))
            = (pageEnd, [(0, 0x3FFFFFFC, .ok (.dev 0x3FFFFFFC)), (1, 0x40000000, .error (.page 0 2))])
        ∧ (AErr.page 0 2).isPage = true ∧ pageEnd.poisonedLoc (.dev 0x3FFFFFFC) 4 = false)
    ∧ ((spoilt none).left 0 = [0, 1] ++ 2 :: [3, 4] ∧ (spoilt (some 3)).left 0 = [] ++ 2 :: [3, 4] ∧ (spoilt (some 3)).partMask ≠ 0
        ∧ (spoilt none).locateAll .v .user true 4 .read (((spoilt none).left 0).map fun i => (i, (((spoilt none).rd 1).toNat + i * 4) % 2 ^ 64))
            = (spoilt none, ((spoilt none).left 0).map fun i => (i, 2 ^ 63 + 64 + i * 4, .ok (place i)))
        ∧ (∀ i ∈ [0, 1, 4], (spoilt none).poisonedLoc (place i) 4 = false) ∧ (spoilt none).poisonedLoc (place 2) 4 = true) :=
  ⟨⟨by decide +kernel, by decide +kernel⟩, by decide +kernel, by decide +kernel, by decide +kernel,
    ⟨by decide +kernel, by decide +kernel⟩, ⟨by decide +kernel, by decide +kernel⟩,
    ⟨by decide +kernel, by decide +kernel, by decide +kernel, by decide +kernel⟩, by decide +kernel⟩

/-- What the checks of accesses of 32 bits say of each element at `addr`. -/
def errs (s : State) (tile : Bool) (addr : Nat → Nat) : List (Option AErr) :=
  (s.locateAll .v s.th.level tile 4 .read ((List.range s.th.vl).map fun j => (j, addr j))).2.map fun x => match x.2.2 with
    | .error e => some e
    | .ok _ => none
/-- `memory` with the page at 0x12000 open to the supervisor alone. -/
def closedPage : State := { memory with cores := [(0, Core.init 0)], dram := [(0x10000, 3), (0x10001, 0x10), (0x10002, 1), (0x11000, 3), (0x11001, 0x20), (0x11002, 1), (0x12000, 0x87)] }
/-- An element of each kind that fails a check: misaligned, beyond the tile allocation, in a page of the supervisor, in a page that is not mapped,
in both classes, and poisoned; with a good one below it, and none; and a reissue of one of two elements, which the ordered class ignores. -/
theorem witness_VectorFaults :
    errs memory true (fun j => 2 ^ 63 + 66 + 4 * j) = [some .misalign, some .misalign]
    ∧ errs memory true (fun j => 2 ^ 63 + 65532 + 4 * j) = [none, some .tilebnd]
    ∧ errs closedPage false (fun j => 0x12000 + 4 * j) = [some .prot, some .prot]
    ∧ errs pageEnd false (fun j => 0x3FFFFFFC + 4 * j) = [none, some (.page 0 2)]
    ∧ errs pageEnd false (fun j => 0x40000000 + 4 * j) = [some (.page 0 2), some (.page 0 2)]
    ∧ (pageEnd.toPerform false 0 = [0, 1] ∧ pageEnd.partMask = 0)
    ∧ (let s := asTh memory fun t => { t with reissue := true, fmask := 2 }
       s.toPerform false 0 = [1] ∧ s.toPerform true 0 = [0, 1]) := by decide +kernel
/-- A frame area that is misaligned, one whose header is in a page that is not mapped, one with a header that is not sound, and one that is poisoned; and
a wait at another width. -/
theorem witness_AreaFaults :
    let p : State := { memory with cores := [(0, { Core.init 0 with allocs := [(0, { size := 65536, poison := [8] })] })] }
    (memory.rd 2).toNat % 64 ≠ 0 ∧ errs (asTh memory fun t => { t with vl := 1 }) false (fun _ => 0x40000000) = [some (.page 0 2)]
    ∧ (memory.start = 0 ∧ (memory.rd 1).toNat % 64 = 0)
    ∧ gives (memory.fetchArea .v true (memory.rd 1).toNat 64 4) (fun x => frameBad x.1 memory.th.ew memory.th.vlmax) = true
    ∧ gives (p.area .v .user true (memory.rd 1).toNat 64 .read 4) (fun x => (x.1.find? fun q => x.2.poisonedLoc q.2 8).isSome) = true
    ∧ memory.th.ew ≠ 3 := by decide +kernel

/-- A store to both elements. -/
theorem witness_VectorStoreResults :
    memory.wf = true
    ∧ memory.Reaches true 4 .write false (memory.left 0) (fun j => ((memory.rd 1).toNat + j * 4) % 2 ^ 64) place memory :=
  ⟨by decide +kernel, by decide +kernel, by decide +kernel⟩

/-- A scattered add of integers and of floating values to distinct addresses, and of both elements to one address. What an AtomicOp finds at a host page
is a free value, so that either side of that clause may hold. -/
theorem witness_ScatterAddResults :
    let one : State := { memory with th := { memory.th with v := memory.th.v.set 2 0 } }
    let addr := fun (s : State) (j : Nat) => ((s.rd 1).toNat + elt (s.vreg 2) 32 j * 4) % 2 ^ 64
    memory.wf = true ∧ (2 : BitVec 2) ≠ 0 ∧ memory.th.reissue = false ∧ memory.hasFeat 0 = true
    ∧ (∀ i ∈ memory.left 0, ∀ j ∈ memory.left 0, addr memory i % 2 ^ 63 = addr memory j % 2 ^ 63 → place i = place j)
    ∧ (∀ i ∈ memory.left 0, ∀ j ∈ memory.left 0, place i = place j → i = j) ∧ (∀ j ∈ memory.left 0, (place j).isHost = false)
    ∧ (one.left 0 = [0, 1] ∧ ∀ j ∈ [0, 1], addr one j = addr one 0)
    ∧ memory.Reaches true 4 .rmw true (memory.left 0) (addr memory) place memory
    ∧ one.Reaches true 4 .rmw true (one.left 0) (addr one) (fun _ => place 0) one := by
  refine ⟨?_, ?_, ?_, ?_, ?_, ?_, ?_, ?_, ⟨?_, ?_⟩, ?_, ?_⟩ <;> decide +kernel

/-- A linked load and a conditional store under m[1] of elements on different lines. -/
theorem witness_LinkedAccessResults :
    let s : State := { memory with th := { memory.th with v := memory.th.v.set 2 (16 * 2 ^ 32) } }
    let at_ := fun j => Loc.tile 0 0 (64 + 64 * j)
    let addr := fun j => ((s.rd 1).toNat + elt (s.vreg 2) 32 j * 4) % 2 ^ 64
    s.Reaches true 4 .read true (s.left 1) addr at_ s ∧ s.Reaches true 4 .write true (s.left 1) addr at_ s
    ∧ s.wf = true ∧ (1 : BitVec 3) ≠ 0 ∧ (∀ j ∈ s.left 1, j < s.th.vlmax) ∧ s.left 1 = [0, 1] ∧ (at_ 0).sameLine (at_ 1) = false
    ∧ (place 0).sameLine (place 1) = true ∧ ∀ i j f, s.forkOf (at_ i) = some f → f.sameLine (at_ j) = false := by
  refine ⟨⟨?_, ?_⟩, ⟨?_, ?_⟩, ?_, ?_, ?_, ?_, ?_, ?_, fun _ _ _ h => nomatch h⟩ <;> decide +kernel

/-- Atomics of 32 bits on two distinct words, and registers whose cas pair exists. -/
theorem witness_VectorAtomicResults :
    memory.th.ew = 2 ∧ memory.th.reissue = false ∧ memory.wf = true ∧ (30 : BitVec 5) ≠ 31
    ∧ memory.Reaches (decide (2 ^ 63 ≤ (memory.rd 1).toNat)) 4 .rmw true (memory.left 0)
        (fun j => ((memory.rd 1).toNat % 2 ^ 63 + elt (memory.vreg 2) 32 j * 4) % 2 ^ 64) place memory
    ∧ (∀ i ∈ memory.left 0, ∀ j ∈ memory.left 0, place i = place j → i = j)
    ∧ memory.Apart (memory.left 0) place 4 := by
  refine ⟨by decide +kernel, by decide +kernel, by decide +kernel, by decide, ⟨by decide +kernel, by decide +kernel⟩, by decide +kernel, ?_⟩
  have hp : memory.left 0 = [0, 1] := by decide +kernel
  have hf : ∀ l, memory.forkOf l = none := fun _ => rfl
  rw [hp]
  intro j hj l hl
  refine ⟨?_, fun f hk => by rw [hf] at hk; cases hk⟩
  by_cases h : j = l
  · exact .inl (by rw [h])
  · right
    rintro m ⟨i, hi, rfl⟩ ⟨k, hk, e⟩
    simp [place, Loc.add] at e hj hl
    omega

/-- A wait on two words: one condition that both meet and one that neither meets, at the last condition code. -/
theorem witness_WaitOnMemory :
    memory.start = 0 ∧ memory.th.cv = none ∧ (5 : BitVec 3).toNat ≤ 5 ∧ memory.th.ew = 2
    ∧ memory.Reaches (decide (2 ^ 63 ≤ (memory.rd 1).toNat)) 4 .read true ((List.range memory.th.vl).filter fun j => memory.active 0 j && !memory.partMask.testBit j)
        (fun j => ((memory.rd 1).toNat % 2 ^ 63 + elt (memory.vreg 2) 32 j * 4) % 2 ^ 64) place memory
    ∧ (∀ j ∈ [0, 1], memory.bytesAt (place j) 4 = elt (memory.vreg 0) 32 j) ∧ ∃ j ∈ [0, 1], memory.bytesAt (place j) 4 ≠ elt (memory.vreg 1) 32 j :=
  ⟨by decide +kernel, by decide +kernel, by decide, by decide +kernel, ⟨by decide +kernel, by decide +kernel⟩, by decide +kernel,
    by decide +kernel⟩

/-- Keys 7 and 9, with key 7 in slot 28 of its set, whose other ways are empty, and the set of key 9 full of other keys; slots 0 and 63, and slot 64,
which is beyond the table. -/
theorem witness_TagTable :
    let s : State := { memory with
      cores := [(0, { Core.init 0 with allocs := [(0, { size := 65536, tagSlots := 64, tags := [(28, 7), (36, 1), (37, 2), (38, 3), (39, 4)] })] })] }
    let slots := fun a b : Nat => a + b * 2 ^ 32
    s.start = 0 ∧ s.th.ew = 2 ∧ s.group.tagSlots = 64
    ∧ (s.tagAlloc.tags.map (·.1)).Pairwise (· < ·)
    ∧ (s.tagAlloc.tags.look (4 * tagSet 7 16) = some 7 ∧ s.tagAlloc.tags.look (4 * tagSet 7 16 + 1) = none)
    ∧ (∀ y < 4, s.tagAlloc.tags.look (4 * tagSet 9 16 + y) ≠ some 9 ∧ s.tagAlloc.tags.look (4 * tagSet 9 16 + y) ≠ none)
    ∧ (∀ y < 4, s.tagAlloc.tags.look (4 * tagSet 8 16 + y) = none)
    ∧ (∀ j < 2, elt (slots 0 63) 32 j % 2 ^ 31 < s.group.tagSlots) ∧ (∃ j < 2, s.group.tagSlots ≤ elt (slots 0 64) 32 j % 2 ^ 31)
    ∧ ∀ i, s.tagAlloc.rotate.get i 0 < 4 := by
  refine ⟨?_, ?_, ?_, ?_, ?_, ?_, ?_, ?_, ?_, fun _ => Nat.zero_lt_succ 3⟩ <;> decide +kernel

/-- A frame of v[1] and m[1] at tile offset 64: the area can be written, and the frame that it then holds is sound. -/
theorem witness_SpillAndFill :
    let area : State := { memory with cores := [(0, { Core.init 0 with
      allocs := [(0, { size := 65536, tagSlots := 64, mem := Memory.store [] 64 12 (1 + 2 * 2 ^ 14 + 2 * 2 ^ 16 + 2 * 2 ^ 32 + 2 * 2 ^ 64) })] })] }
    memory.start = 0 ∧ (memory.rd 1).toNat % 64 = 0 ∧ memory.wf = true ∧ memory.th.ew < 4 ∧ memory.th.vl ≤ 32768
    ∧ ((2 : Nat).testBit (1 : BitVec 5).toNat = true ∧ (2 : Nat).testBit (0 : Fin 8) = false)
    ∧ gives (memory.area .v .user true (memory.rd 1).toNat (frameSize 2 32 2 2) .write 4) (fun _ => true) = true
    ∧ gives (area.fetchArea .v true (area.rd 1).toNat 64 4) (fun x => !frameBad x.1 area.th.ew area.th.vlmax
        && gives (x.2.fetchArea .v true (area.rd 1).toNat
            (frameSize (x.1 / 2 ^ 16 % 2 ^ 16) 32 (x.1 / 2 ^ 32 % 2 ^ 32) (x.1 / 2 ^ 64 % 2 ^ 8)) 4) fun y => decide (y.1 % 2 ^ 512 = x.1)) = true := by
  decide +kernel

/-! The matrix unit: core 0 holds one row. -/

/-- `base` with an attachment of one row, 64 scalars of one step at tile offset 0 for each panel, and 32-bit elements. -/
def attached : State := { (withTh fun t => { vectors 2 1 t with mvl := 1, vrlen := 1024, g := regs [tileAt 0, tileAt 0, 4, 3] }) with
  units := [(0, { even := some { h := 0, rows := 1, codebook := some 0, raisins := some 0 } })] }

/-- No attachment with rows free and with none left, an attachment with no stage on its core, and modes 3 and 4. -/
theorem witness_MatrixAttachment :
    let full : State := { base with units := [(0, { odd := some { h := 4, rows := 64 } })] }
    (base.att = none ∧ base.attOf base.core = none ∧ base.rmap.deadUnits.contains (base.core / 2) = false ∧ base.coreLive base.core = true)
    ∧ (full.att = none ∧ (full.attOf (pairOf full.core)).map (·.rows) = some 64)
    ∧ (attached.att ≠ none ∧ attached.stageOn attached.core = false ∧ (attached.rd 4).toNat < 4 ∧ 4 ≤ (attached.rd 3).toNat) := by
  decide +kernel

/-- An attachment whose step instructions of each kind pass their checks and read their operands without poison. -/
theorem witness_MatrixAccumulate :
    base.att = none
    ∧ ∀ t ∈ attached.att, t.rows ≤ 64
      ∧ ∀ o ∈ [({ kind := .mopa, tile := 3, p := 1 } : MatOp), { kind := .mopa, tile := 0, p := 4 }, { kind := .mops, tile := 0 }, { kind := .mopg, tile := 0 },
          { kind := .mopq, tile := 0, p := 4 }],
        gives (attached.matPre o t 1 2) (fun _ => true) = true
        ∧ gives (attached.matFetch o t 1 2 attached.th.mprog) (fun x => x.2.pa == 0 && x.2.pb == 0
            && (o.kind != .mopq || (List.range 16).all fun k => (badRaisin x.2 k).isNone)) = true := by decide +kernel

/-- The last row that is held, a sound and an unsound codebook and raisin list, and a save image at tile offset 64. -/
theorem witness_MatrixTransfers :
    let s : State := { attached with
      th := { attached.th with g := regs [tileAt 64, 0] }
      cores := [(0, { Core.init 0 with allocs := [(0, { size := 65536, mem := [(64, 1), (65, 1)] })] })] }
    let area := fun n => s.fetchArea .m true (s.rd 1).toNat n 2
    s.start = 0 ∧ s.th.ew = 2 ∧ (s.rd 2).toNat + (s.th.vl - 1) / 64 < 1 ∧ s.hasFeat 1 = true ∧ (s.rd 1).toNat % 64 = 0 ∧ s.wf = true
    ∧ gives (area 64) (fun x => decide (headerDet x.1 = none)) = true ∧ headerDet (3 * 2 ^ 256) = some 1
    ∧ gives (area 576) (fun x => decide (raisinDet x.1 = some 3)) = true ∧ raisinDet 64 = some 4 ∧ raisinDet 1 = none
    ∧ gives (s.area .m .user true (s.rd 1).toNat (0x300 + 1024) .write 2) (fun _ => true) = true
    ∧ gives (area (0x300 + 1024)) (fun x => !imageIllegal x.1 1 && decide (imageDet x.1 = none)) = true := by decide +kernel

/-! Streams and chains. -/

/-- `base` with changes to core 0. -/
def withCore (f : Core → Core) : State := { base with cores := base.cores.map fun c => (c.1, f c.2) }
/-- A channel of thread 0 with the 256 bytes from tile offset 64, and one of its transfers: four 32-bit elements from address 0x12000. -/
def channel (x : List Xfer) : Channel := { owner := some 0, tb := 64, tl := 256, cursor := 64, wm := 64, xfers := x }
/-- That transfer. -/
def transfer : Xfer := { ew := 2, base := 0x12000, vl := 4, cursor := 64, root := 0x10, held := [identity] }

/-- Channels free, held and idle, held and busy, held with bytes of an abandoned transfer, held outward, and another thread's; a geometry at the end of the tile space and one beyond it; a
watermark reached and not reached; and rings that exist, that another group holds and that do not exist, at their last slot and beyond it, with
the awaited phase and without it, and with the slot's phases equal and different. -/
theorem witness_ChannelInstructions :
    let s := asTh (withCore fun c => { c with
      channels := [(0, channel []), (1, channel [transfer]), (2, { owner := some 1 }), (3, { channel [] with outward := true })]
      rings := [(0, { ns := 1, sb := 64, slots := [(1, { fph := true })] }), (2, { owner := 1, group := 7, ns := 1, slots := [(1, { fph := true })] })] })
      fun t => { t with g := regs [65472, 64, 128, 64 + 2 ^ 32, 1, 2, 0, 64 + 1] }
    let core := s.getCore s.core
    let chan := fun c : Nat => core.channels.get c {}
    ((chan 4).owner = none ∧ (chan 4).idle = true ∧ (chan 0).owner = some s.cur ∧ (chan 0).idle = true ∧ (chan 1).owner = some s.cur ∧ (chan 1).idle = false
      ∧ ({ channel [] with lost := [(64, 16)] } : Channel).idle = false
      ∧ (chan 2).owner ≠ none ∧ (chan 2).owner ≠ some s.cur ∧ (chan 3).owner = some s.cur ∧ (chan 3).outward = true)
    ∧ ((s.rd 1).toNat % 2 ^ 22 % 64 = 0 ∧ (s.rd 2).toNat % 64 = 0 ∧ (s.rd 2).toNat ≠ 0 ∧ (s.rd 1).toNat % 2 ^ 22 + (s.rd 2).toNat ≤ s.group.tileSpace)
    ∧ s.group.tileSpace < (s.rd 1).toNat % 2 ^ 22 + (s.rd 3).toNat
    ∧ ((s.rd 2).toNat % 2 ^ 22 ≤ (chan 1).wm ∧ (chan 1).wm < (s.rd 8).toNat % 2 ^ 22)
    ∧ (∀ x ∈ core.channels, x.1 = 0 → x.2.owner = some s.cur → x.2.idle = true)
    ∧ (∃ x ∈ core.channels, x.1 = 1 ∧ x.2.owner = some s.cur ∧ x.2.idle = false)
    ∧ (∀ x ∈ (base.getCore 0).channels, x.2.owner = some base.cur → x.2.idle = true)
    ∧ core.rings.look 1 = none := by
  decide +kernel
/-- RCFG of a ring of two slots on each of those channels, with a slot size of 0, with a reserved bit and for a ring of another thread; and RWAIT and
RFREE. -/
theorem witness_Rings :
    let s := asTh (withCore fun c => { c with
      rings := [(0, { ns := 1, sb := 64, slots := [(1, { fph := true })] }), (2, { owner := 1, group := 7, ns := 1, slots := [(1, { fph := true })] })] })
      fun t => { t with g := regs [64 + 2 ^ 32, 64, 0, 64 + 2 ^ 32 + 2 ^ 36, 1, 2] }
    let rings := (s.getCore s.core).rings
    let steps := fun (x tl : Nat) => x % 2 ^ 22 % 64 = 0 ∧ tl % 64 = 0 ∧ tl ≠ 0
    let fits := fun (x tl : Nat) => tl < 2 ^ 22 ∧ x / 2 ^ 45 = 0 ∧ x / 2 ^ 36 % 16 = 0 ∧ x / 2 ^ 28 % 16 = 0 ∧ x / 2 ^ 22 % 4 = 0
      ∧ (channel []).tb ≤ x % 2 ^ 22 ∧ x % 2 ^ 22 + (x / 2 ^ 32 % 16 + 1) * tl ≤ (channel []).tb + (channel []).tl
    (steps (s.rd 1).toNat (s.rd 2).toNat ∧ fits (s.rd 1).toNat (s.rd 2).toNat ∧ (s.rd 1).toNat / 2 ^ 24 % 16 = 0)
    ∧ ¬ steps (s.rd 1).toNat (s.rd 3).toNat ∧ (steps (s.rd 4).toNat (s.rd 2).toNat ∧ ¬ fits (s.rd 4).toNat (s.rd 2).toNat)
    ∧ (rings.look 1 = none ∧ (rings.look 0).all (fun k => k.owner == s.cur) = true ∧ (rings.look 2).any (fun k => k.owner != s.cur) = true)
    ∧ (rings.look 0).any (fun k => decide (k.ns < (s.rd 6).toNat ∧ (s.rd 5).toNat ≤ k.ns ∧ k.group = s.th.group
        ∧ (k.slots.get 1 {}).fph = (s.rd 5).toNat.testBit 0 ∧ (k.slots.get 1 {}).fph ≠ (s.rd 3).toNat.testBit 0
        ∧ (k.slots.get 1 {}).fph ≠ (k.slots.get 1 {}).eph ∧ (k.slots.get 0 {}).fph = (k.slots.get 0 {}).eph)) = true
    ∧ (rings.look 2).any (fun k => decide (1 ≤ k.ns ∧ k.group ≠ s.th.group ∧ (k.slots.get 1 {}).fph ≠ (k.slots.get 1 {}).eph)) = true := by
  decide +kernel

/-- Transfers of four 32-bit elements onto a channel with room, onto one full of eight, out of one that leads in, and onto one whose range ends
before them. -/
theorem witness_StreamTransfers :
    let s := asTh (withCore fun c => { c with channels := [(0, channel []), (1, channel (List.replicate 8 transfer)), (2, { channel [] with cursor := 308 }),
      (3, { channel [] with outward := true })] }) fun t => { vectors 2 4 t with g := regs [0x12000] }
    let core := s.getCore s.core
    let ch := fun c : Nat => core.channels.get c {}
    let x := fun c => s.mkXfer .sld c 1 0 0
    let y := s.mkXfer .sscataFloat 3 1 2 0
    (ch 4).owner ≠ some s.cur ∧ ((ch 1).owner = some s.cur ∧ (ch 1).xfers.length = 8) ∧ (ch 3).outward = (x 3).inward
    ∧ ((ch 0).owner = some s.cur ∧ (ch 0).xfers.length ≠ 8 ∧ (ch 0).outward ≠ (x 0).inward
        ∧ (ch 0).cursor + (x 0).count * 2 ^ s.th.ew ≤ (ch 0).tb + (ch 0).tl ∧ gives (s.issueCheck 0 (x 0)) (fun _ => true) = true)
    ∧ ((ch 2).tb + (ch 2).tl < (ch 2).cursor + (x 2).count * 2 ^ s.th.ew)
    ∧ (s.th.ew ≠ 0 ∧ (ch 3).outward ≠ y.inward ∧ gives (s.issueCheck 3 y) (fun _ => true) = true) := by decide +kernel

/-- A channel whose next strip is ready, with every element moved now and with the second left for later; transfers that hold no translation, one of
which finds it and one of which finds a page of the supervisor; and a thread with a TLBINV and no strip under way. -/
theorem witness_StreamEngineSteps :
    let s := withCore fun c => { c with channels := [(0, channel [transfer]), (1, channel [{ transfer with held := [] }])] }
    let x := { transfer with held := [] }
    let closed : State := { s with dram := [(0x10000, 3), (0x10001, 0x10), (0x10002, 1), (0x11000, 3), (0x11001, 0x20), (0x11002, 1), (0x12000, 0x87)] }
    (match s.stripReady 0 0 with
      | some (h, y, l) => decide (h / 4 = 0 ∧ y = transfer ∧ (l.map (·.1)).Nodup ∧ y.inward = true ∧ 2 ≤ l.length ∧ l.filter (fun p => !(5 : Nat).testBit p.1) ≠ [])
      | none => false) = true
    ∧ s.wf = true ∧ s.ahead = none ∧ ({ s with ahead := some 5 } : State).ahead = some 5 ∧ s.migrations = [] ∧ s.stripUnderWay = false
    ∧ ((withCore fun c => { c with channels := [(0, channel [{ transfer with begun := some [] }])] }).stripUnderWay = true)
    ∧ (((s.getCore 0).channels.get 1 {}).owner = some 0 ∧ ((s.getCore 0).channels.get 1 {}).xfers = [x] ∧ x.stopped = false ∧ x.begun = none
        ∧ (∃ e ∈ x.stripElts, x.serving (x.ext e) = none) ∧ ((s.switchTo 0).xlateAll x x.stripElts x.held).2 = [])
    ∧ (firstErr AErr.isProt ((closed.switchTo 0).xlateAll x x.stripElts x.held).2).isSome = true := by
  refine ⟨?_, ?_, ?_, ?_, ?_, ?_, ?_, ⟨?_, ?_, ?_, ?_, ?_, ?_⟩, ?_⟩ <;> decide +kernel

/-- The memory port of the manual's lattice (16 R350): it stores v[2] from q1 at tile offset g[21], in bank 0. -/
def storePort : Frame := { word := 0x1402A244 + 1 * 2 ^ 128 + 0x20000000 * 2 ^ 192 + 0x20000022 * 2 ^ 224 }
/-- Its load, into q1. -/
def loadPort : Frame := { word := 0x1402A240 + 1 * 2 ^ 128 + 0x20000000 * 2 ^ 192 + 0x20000022 * 2 ^ 224 }
/-- A slot with frames in which a RUN of `n` elements stands at `p`. -/
def running (fs : List Frame) (n : Nat) (p : RunPhase) : Slot :=
  { image := 0x40000, nframes := fs.length, frames := fs, run := some { n := n, phase := p, progress := fs.map fun _ => {} } }
/-- `base` with slots of the current thread. -/
def withSlots (l : SMap Slot) : State := withTh fun t => { t with slots := l, g := regs [0x40000, 1, 65, 0, 5] }

/-- An image of the sound frame of the manual, with a place among the claimants and without one, an image whose frame has no kind, one that cannot be
read, counts of 0, 1, 64 and 65 frames, and slots that are absent, configured, recorded and running, below the level of a CHBRK and at it. -/
theorem witness_ChainInstructions :
    let s : State := { withSlots [(0, { frames := [storePort] }), (1, { recorded := true }), (2, running [storePort] 5 .streaming)] with
      dram := Memory.store tables 0x40000 32 storePort.word }
    let full : State := { s with cores := [(0, { s.getCore 0 with
      allocs := [(0, { size := 65536, claims := [(0, [(1, 0), (1, 1), (2, 0), (2, 1)])] })] })] }
    let image := fun (s : State) (a : Nat) (p : State → Except Trap (List Frame) → Bool) =>
      gives (s.fetchArea .v false (a / 8 * 8) (imageBytes a 1) 5) fun x => p x.2 (x.2.checkImage (s.cur, 3) false (BitVec.ofNat 64 a) x.1 1)
    ((s.rd 4).toNat = 0 ∧ 64 < (s.rd 3).toNat ∧ 1 ≤ (s.rd 2).toNat ∧ (s.rd 1).toNat % 32 = 0)
    ∧ image s 0x40000 (fun u r => match r with
        | .ok fs => !((u.endChain (s.cur, 3)).joinClaims (s.cur, 3) 0 fs).joinWaits (s.cur, 3) 0 && fs == [storePort]
        | _ => false) = true
    ∧ image full 0x40000 (fun u r => match r with
        | .ok fs => ((u.endChain (s.cur, 3)).joinClaims (s.cur, 3) 0 fs).joinWaits (s.cur, 3) 0
        | _ => false) = true
    ∧ image s 0x40020 (fun _ r => match r with | .error x => x.cause == 6 && x.det == 2 | _ => false) = true
    ∧ image s 0x40001 (fun _ _ => true) = true
    ∧ (match s.fetchArea .v false 0x40000000 (imageBytes 0x40000000 1) 5 with | .error (.trap _ _) => true | _ => false) = true
    ∧ s.slotAt (s.cur, 3) = none
    ∧ (s.slotAt (s.cur, 0)).any (fun x => decide (x.recorded = false ∧ x.run = none ∧ s.runCheck x.frames 5 = none ∧ (s.rd 5).toNat < 2 ^ 32 ∧ s.rd 5 ≠ 0)) = true
    ∧ (s.slotAt (s.cur, 1)).any (·.recorded) = true
    ∧ ((s.slotAt (s.cur, 2)).bind (·.run)).any (fun r => decide (s.th.level.num ≤ r.level.num ∧ r.level.num < Level.supervisor.num)) = true
    ∧ (s.th.restored = none ∧ (asTh s fun t => { t with restored := some .user }).th.restored ≠ none)
    ∧ (s.th.slots.map (·.1)).Pairwise (· < ·) := by decide +kernel

/-! Tasks, waits and device steps. -/

/-- A launch record of one group with threads, one lane group, its completion word at 0x50000 and priority 0 (15 R323). -/
def record (threads : Nat) : Nat := 0x48000 + 1 * 2 ^ 80 + threads * 2 ^ 128 + 1 * 2 ^ 136 + 0x50000 * 2 ^ 384
/-- Launches in a queue: numbers 5 to `n` + 4. -/
def queued (owner n : Nat) : LQueue := { owner := owner, items := (List.range n).map (· + 5) }
/-- `base` with a record at 0x41000 and queues for LAUNCH (4) and for interface 0 (0) that hold `n` launches. -/
def intakes (n : Nat) : State := { withTh (fun t => { t with g := regs [0x41000, 3, 0x41001] }) with
  dram := Memory.store tables 0x41000 64 (record 1)
  parts := [(0, { clusters := List.range 40, feat := 63, queues := [(0, queued 0 n), (4, queued 0xFE n)] })] }

/-- Queues with one entry, full, empty and bound by a chain; a status word whose stream goes on; a deque with an entry of the launch and a full
one; and a record that fits, for a queue with room and for a full one, one that is refused, one whose completion word is misaligned and one that cannot
be read. -/
theorem witness_TaskInstructions :
    let s := asTh (withCore fun c => { c with
      queues := [(0, { entries := [9] }), (1, { entries := List.replicate 64 1 }), (2, { prod := some (4, 0), cons := some (4, 0) })]
      deque := [(64, 1), (128, 0), (192, 1)] }) fun t => { t with g := regs [0x20000, 4] }
    let full := withCore fun c => { c with deque := List.replicate 64 (64, 0) }
    let q := fun k : Nat => (s.getCore 0).queues.get k {}
    ((q 0).prod = none ∧ (q 0).cons = none ∧ (q 0).entries.length < 64 ∧ (q 0).entries = 9 :: []) ∧ 64 ≤ (q 1).entries.length
    ∧ (q 3).entries = [] ∧ ((q 2).prod ≠ none ∧ (q 2).cons ≠ none)
    ∧ (s.wf = true ∧ gives (s.space0 (s.rd 1) 8 .update) (fun _ => true) = true)
    ∧ ((intakes 0).rd 3).toNat % 64 ≠ 0 ∧ ((intakes 0).rd 1).toNat % 64 = 0
    ∧ 64 ≤ (full.getCore 0).deque.length ∧ (s.getCore 0).deque.length < 64
    ∧ ((s.getCore 0).deque = [(64, 1)] ++ (128, s.group.launch) :: [(192, 1)] ∧ ∀ z ∈ [((192 : Word), 1)], z.2 ≠ s.group.launch)
    ∧ (base.getCore 0).deque = []
    ∧ ∀ n ∈ [0, 64],
        let i := intakes n
        (match i.hubRead 0 0x10 0x41000 64 with
          | .ok (r, u) =>
            let l : Launch := { record := r }
            decide (l.compl % 8 = 0 ∧ l.compl < 2 ^ 57 ∧ l.det = none ∧ l.def_ = false) && ({ u with nextLaunch := u.nextLaunch + 1 } : State).fits 0 l l.recShape
              && decide ((u.parts.get 0 {}).queueFor 0xFE l.prio = some 4 ∧ ((u.parts.get 0 {}).queues.get 4 {}).items.length = n)
          | .error _ => false) = true
    ∧ (let reads := fun (r : Nat) (q : Launch → Bool) =>
         let i : State := { intakes 0 with dram := Memory.store tables 0x41000 64 r }
         (i.rd 1).toNat % 64 = 0 && (i.rd 1).toNat < 2 ^ 57 && match i.hubRead 0 0x10 (i.rd 1).toNat 64 with | .ok (x, _) => q { record := x } | .error _ => false
       reads (record 1 + 4 * 2 ^ 384) (fun l => decide (l.compl % 8 ≠ 0)) = true
         ∧ reads (record 0) (fun l => decide (l.compl % 8 = 0 ∧ l.compl < 2 ^ 57) && l.det.isSome) = true
         ∧ (intakes 0).hubLoc 0 0x10 0x50000 8 .write = .ok (.dev 0x50000)
         ∧ (match (intakes 0).hubRead 0 0x10 0x40000000 64 with | .error e => !e.waits | .ok _ => false) = true) := by decide +kernel

/-- Core 1 of a cluster of two live cores holds five entries, four of them of the launch, which a TKPOP on core 0 finds: it takes the two oldest, and the
generator 1 steps to 0xB400 (15 R343, R344). -/
theorem test_tkpop_steals :
    let s : State := { base with
      cores := [(0, Core.init 0), (1, { Core.init 1 with deque := [(64, 0), (128, 7), (192, 0), (256, 0), (320, 0)] })]
      rmap := { phys := ((List.range 9).drop 2).map fun n => (n, { st := 1 }) } }
    nexts (.tkpop 3) s (fun t => decide (t.rd 3 = 64 ∧ t.th.tkcur = 64 ∧ (t.getCore 0).deque = [(192, 0)]
      ∧ (t.getCore 1).deque = [(128, 7), (256, 0), (320, 0)] ∧ (t.getCore 0).stealGen = 0xB400)) = true := by decide +kernel

/-- Waits that are over: for a watermark, the end of transfers, a ring, room and an entry in a queue, a RUN, TLBINVs, a place of a channel, a word, a
producer, and a place among the claimants. -/
theorem witness_Wakes :
    let s := asTh (withCore fun c => { c with
      channels := [(0, channel [])], rings := [(0, { ns := 1, sb := 64, slots := [(1, { fph := true })] })], queues := [(0, { entries := [9] })] })
      fun t => { vectors 2 2 t with g := regs [64, 1, 0x20000, 0, tileAt 64, 0x40000], slots := [(0, { frames := [storePort] })] }
    let w : State := { s with dram := Memory.store (Memory.store tables 0x20000 8 7) 0x40000 32 storePort.word }
    let core := s.getCore 0
    let parked := fun x : Wait => ((asTh s fun t => { t with status := .parked x }).getTh 0).status = .parked x
    (parked (.swm 3 1 0) ∧ (core.channels.get 0 {}).owner = some 0 ∧ (s.rd 1).toNat % 2 ^ 22 ≤ (core.channels.get 0 {}).wm)
    ∧ (parked (.sdrain (some 0)) ∧ parked (.sdrain none) ∧ ∀ x ∈ core.channels, x.2.owner = some 0 → x.2.idle = true)
    ∧ (∃ k ∈ core.rings.look 0, parked (.rwait 3 2 2 0) ∧ (s.rd 2).toNat ≤ k.ns ∧ k.group = s.th.group
        ∧ (k.slots.get (s.rd 2).toNat {}).fph = (s.rd 2).toNat.testBit 0)
    ∧ (parked (.qwr 0 1) ∧ parked (.qrd 3 0) ∧ (core.queues.get 0 {}).prod = none ∧ (core.queues.get 0 {}).cons = none
        ∧ (core.queues.get 0 {}).entries = 9 :: [])
    ∧ (∃ x ∈ s.slotAt (0, 0), parked (.chwait 3 0) ∧ x.run = none)
    ∧ (parked .tlbsync ∧ s.th.tlbinvs = 0) ∧ (parked (.transferSlot 0) ∧ (core.channels.get 0 {}).xfers.length < 8)
    ∧ (parked .runWait ∧ s.runHolds = false)
    ∧ (parked (.vwait 0 5 0 0 0 1 1 [(.tile 0 0 64, 5)]) ∧ s.stirred [(.tile 0 0 64, 5)] = true ∧ s.stirred [(.tile 0 0 64, 0)] = false
        ∧ ((List.range s.th.vl).filter (s.active 0)).filter (fun i => !Nat.testBit 1 i) = [1]
        ∧ waitCond 0 (BitVec.ofNat 32 (s.bytesAt (.tile 0 0 64) 4)) (BitVec.ofNat 32 (elt (s.vreg 0) 32 1)) = true
        ∧ (s.switchTo 0).Reaches ((s.rd 5).toNat.testBit 63) 4 .read true [1] (fun j => s.idxAddr ((s.rd 5).toNat % 2 ^ 63) 4 0 j)
            (fun _ => .tile 0 0 64) s)
    ∧ (parked (.setvlw 3 2 3 2 [(.dev 0x20000, 0)]) ∧ w.stirred [(.dev 0x20000, 0)] = true ∧ w.stirred [] = false
        ∧ (asTh w fun t => { t with cv := some { old := some {} } }).th.old = some {} ∧ w.bytesAt (.dev 0x20000) 8 < 2 ^ 63 ∧ (w.rd 2).toNat < w.bytesAt (.dev 0x20000) 8 % 2 ^ 32
        ∧ gives (w.space0 (w.rd 3) 8 .read) (fun x => x.1 == Loc.dev 0x20000) = true)
    ∧ (parked (.chcfgClaim 1 0x40000 storePort.word 1) ∧ w.joinWaits (0, 1) w.th.group = false
        ∧ ({ w with cores := [(0, { w.getCore 0 with allocs := [(0, { size := 65536, waiting := [(0, [(0, 1)])] })] })] } : State).joinWaits (0, 1) w.th.group = true
        ∧ (match w.checkImage (0, 1) true 0x40000 storePort.word 1 with | .ok _ => true | .error _ => false) = true
        ∧ (match w.checkImage (0, 1) true 0x40000 0 1 with | .ok _ => false | .error _ => true) = true) := by
  refine ⟨?_, ?_, ⟨_, rfl, ?_⟩, ?_, ⟨_, rfl, ?_⟩, ?_, ?_, ?_, ⟨?_, ?_, ?_, ?_, ?_, ?_, ?_⟩, ?_, ?_⟩ <;> decide +kernel

/-- An address generator into q0 (02 R70). -/
def generator : Frame := { word := 2 ^ 231 + 2 ^ 234 + 4 * 2 ^ 252 }
/-- A vector stage `vadd v1, v2, v3` of 32-bit elements, v[2] from q0 and v[1] to q1 (02 R63, R65). -/
def addStage : Frame :=
  { word := 0x0 + 33 + 1 * 2 ^ 8 + 2 * 2 ^ 13 + 3 * 2 ^ 18 + (512 + 0 * 32 + 2) * 2 ^ 214 + (512 + 1 * 32 + 1) * 2 ^ 184 + 2 * 2 ^ 235 + 1 * 2 ^ 252 }
/-- Matrix stages `mrd v1, acc0, g0` into q1 and `mwr v1, acc0, g0` from q0 (17 R358). -/
def readStage : Frame := { word := 0x57 + 1 * 2 ^ 8 + (512 + 1 * 32 + 1) * 2 ^ 184 + 1 * 2 ^ 252 }
def writeStage : Frame := { word := 0x57 + 1 * 2 ^ 26 + 1 * 2 ^ 8 + (512 + 0 * 32 + 1) * 2 ^ 214 + 1 * 2 ^ 252 }
/-- Local switches from q0 to q1, without and with a copy to q2 (02 R71). -/
def switch : Frame := { word := 2 ^ 226 + 2 ^ 230 + 2 ^ 235 + 3 * 2 ^ 252 }
def copySwitch : Frame := { word := switch.word + 2 ^ 225 + 2 * 2 ^ 221 }
/-- All of them in one RUN of two elements, with an entry in q0 and the token of bank 0. -/
def chain (p : RunPhase) : State := { asTh (withCore fun c => { c with
    queues := [(0, { entries := [7] })], allocs := [(0, { size := 65536, tagSlots := 64, claims := [(0, [(0, 0)])] })] })
    (fun t => { vectors 2 2 t with
      slots := [(0, running [generator, addStage, loadPort, storePort, readStage, writeStage, switch, copySwitch] 2 p)] }) with
  units := [(0, { even := some { h := 0, rows := 1 } })] }

/-- A RUN that streams, with a frame of each kind that can process its next element, one that is done, one that drains, and finishes that perform
an element, wait, complete, and have nothing to do. -/
theorem witness_ChainSteps :
    let s := chain .streaming
    let r : Run := { n := 2, progress := List.replicate 8 {} }
    let entries := fun q : Nat => (s.queue 0 q).entries
    let far : Run := { r with g := regs [65536] }
    (s.slotAt (0, 0)).bind (·.run) = some r ∧ s.wf = true ∧ 0 < r.n ∧ entries 0 = 7 :: [] ∧ (entries 1).length < 64 ∧ (entries 2).length < 64
    ∧ (generator.isGen = true ∧ generator.binding 222 = some (0, 0) ∧ bits generator.word 232 2 = 0
        ∧ (let a := generator.genAddr r 0
           bits a 22 41 = 0 ∧ a % 2 ^ 22 + 1 ≤ (s.alloc generator.core 0).size)
        ∧ (s.alloc generator.core 0).size < ({ generator with word := generator.word + 2 ^ 235 } : Frame).genAddr far 0 % 2 ^ 22 + 1)
    ∧ (addStage.isVecStage = true ∧ addStage.nins = 0 ∧ addStage.ew = 2 ∧ addStage.binding 214 = some (0, 2) ∧ addStage.binding 204 = none
        ∧ addStage.binding 194 = none ∧ addStage.binding 184 = some (1, 1) ∧ addStage.binding 174 = none
        ∧ insOf (addStage.ins 0) = some (.vadd 1 2 3 0 0))
    ∧ (∀ f ∈ [loadPort, storePort], f.isPort = true ∧ f.binding 210 = none ∧ f.binding 220 = some (1, 2) ∧ f.arcs = []
        ∧ f.port.any (fun p => decide (p.k = 0 ∧ p.form < 2 ∧ p.size ≤ 2 ∧ p.load = decide (f = loadPort)
            ∧ (let a := f.portAddr [] r p 0 0
               a % 2 ^ 22 % 2 ^ p.size = 0 ∧ a % 2 ^ 22 / 2 ^ 19 = bits f.word 237 3 ∧ bitOf f.tokb (a % 2 ^ 22 / 65536) = true
                 ∧ (s.claimants 0 0 (a % 2 ^ 22 / 65536)).head? = some (0, 0)
                 ∧ (let n := Nat.max (f.checkSize [] p) (2 ^ p.size)
                    s.nodeTile 0 a n .read = .ok (.tile 0 0 0) ∧ s.nodeTile 0 a n .write = .ok (.tile 0 0 0)
                      ∧ (a % 2 ^ 22 + 2 ^ p.size - 1) / 65536 = a % 2 ^ 22 / 65536)))) = true)
    ∧ ((s.stageAtt 0).any (fun o => decide (0 < o.rows)) = true ∧ readStage.isMatStage = true ∧ writeStage.isMatStage = true ∧ readStage.mat = some (.mrd 1 0 0)
        ∧ readStage.binding 184 = some (1, 1) ∧ writeStage.mat = some (.mwr 1 0 0) ∧ writeStage.binding 214 = some (0, 1))
    ∧ (switch.isSwitch = true ∧ bits switch.word 236 4 = 0 ∧ switch.inq = 0 ∧ switch.outq = 1 ∧ switch.cpq = none ∧ copySwitch.cpq = some 2)
    ∧ (s.runDone (running [generator, addStage] 2 .streaming) r = false ∧ (withSlots []).runDone (running [switch] 2 .streaming) r = true)
    ∧ ((chain .draining).th.unprepared = [] ∧ (chain .draining).th.finishing = some 0 ∧ s.th.finishPending = false)
    ∧ (let w := withSlots [(0, running [addStage] 2 .drained), (1, running [switch] 2 .drained)]
       w.th.finishing = some 0 ∧ w.th.unprepared = [] ∧ w.th.status = .issuing
         ∧ (w.firstReady 0 (running [addStage] 2 .drained) { n := 2, phase := .drained, progress := [{}] } [(addStage, 0)]).isNone = true
         ∧ ((chain .drained).firstReady 0 (running [addStage] 2 .drained) { n := 2, phase := .drained, progress := [{}] } [(addStage, 0)]).isSome = true
         ∧ (let q := { r with phase := .drained, endAfter := true, chbrk := some (4, 0, 0) }
            let x : Slot := { running [switch] 2 .drained with run := some q }
            let v := withSlots [(0, x), (1, running [switch] 2 .drained)]
            v.finishOver x q = true ∧ v.th.finishing = some 0 ∧ v.th.unprepared = [] ∧ v.th.pc = 0)) := by
  intro s r entries far
  constructorm* _ ∧ _ <;> decide +kernel

/-- A complete convoy, one that uses up a grace and one in progress, pending causes, an expired grace, terminated threads without a task, with one and
with one behind a retraining link, and ended threads: the last of its group, one whose transfers go on and one whose RUN goes on. -/
theorem witness_ThreadSteps :
    let c := withTh fun t => { t with cv := some { idx := 2, last := true }, rmvCur := 1, rmLeft := 1 }
    let a := withTh fun t => { t with spend := 2, sup := { t.sup with aie := true } }
    let e := withTh fun t => { t with status := .ending true }
    let k : State := { (withTh fun t => { t with status := .ending true, tkcur := 0x41000 }) with
      dram := Memory.store (Memory.store tables 0x41008 8 0x20000) 0x20000 8 9 }
    let far : State := { k with dram := Memory.store tables 0x12000 8 (2 ^ 60 + 0x8F), ksl := { phase := .retraining } }
    let d := withTh fun t => { t with status := .ending false }
    (c.th.cv = some { idx := 2, last := true } ∧ c.th.rmvAck ≠ c.th.rmvCur ∧ c.th.rmLeft - 1 = 0)
    ∧ ((withTh fun t => { t with cv := some {} }).th.boundary = false ∧ ∀ x ∈ (withTh fun t => { t with cv := some {} }).th.cv, x.last = false)
    ∧ (a.th.boundary = true ∧ a.th.asyncReady = true ∧ a.th.spend.testBit 1 = true) ∧ base.th.asyncReady = false
    ∧ ((withTh fun t => { t with rmDue := true }).th.rmDue = true ∧ base.th.rmDue = false)
    ∧ (e.th.status = .ending true ∧ e.th.tkcur = 0 ∧ (e.settleWait 0).isNone = true ∧ (far.settleWait 0).isSome = true
        ∧ ∀ c ∈ (e.getCore 0).channels, ∀ x ∈ c.2.xfers, x.begun = none)
    ∧ (k.wf = true ∧ k.th.tkcur ≠ 0
        ∧ (match k.hubRead 0 k.th.ptroot (k.th.tkcur.toNat + 8) 8 with
          | .ok (stw, v) => decide (stw = 0x20000 ∧ v.hubLoc 0 k.th.ptroot stw 8 .update = .ok (.dev 0x20000))
          | .error _ => false) = true
        ∧ k.poisonedLoc (.dev 0x20000) 8 = false ∧ k.bytesAt (.dev 0x20000) 8 < 2 ^ 62)
    ∧ (d.th.status = .ending false ∧ (∀ x ∈ d.th.slots, x.2.run = none) ∧ (∀ c ∈ (d.getCore 0).channels, c.2.owner = some 0 → c.2.idle = true)
        ∧ (d.groups.get 0 {}).ended + 1 = (d.groups.get 0 {}).threads)
    ∧ (let x := asTh (withCore fun c => { c with channels := [(0, channel [transfer])] }) fun t => { t with status := .ending false }
       let r := asTh (withSlots [(0, running [switch] 2 .streaming)]) fun t => { t with status := .ending false }
       (x.th.status = .ending false ∧ (∀ y ∈ x.th.slots, y.2.run = none) ∧ (∃ c ∈ (x.getCore 0).channels, c.2.owner = some 0 ∧ c.2.idle = false)
         ∧ (x.th.slots.map (·.1)).Pairwise (· < ·))
       ∧ (r.th.status = .ending false ∧ ∃ y ∈ r.th.slots, y.2.run ≠ none)) := by decide +kernel

/-- The head of a queue whose object has been selected, refused, and not yet selected; a group that can be placed and one that starts; a launch
that is over. -/
theorem witness_LaunchSteps :
    let im : Image := { nkern := 1, codeLen := 64 }
    let q := fun (sel : Option Selection) => { intakes 1 with launches := [(0, {}), (5, { record := record 1, sel := sel })], groups := [] }
    let p := { q (some (.image im)) with
      parts := [(0, { clusters := [0], feat := 63, queues := [(0, queued 0 1)] })]
      clusters := [(0, { obj := 0x48000, codeLen := 64, rtBase := 4096, rtLen := 64 })] }
    let g : Group := { launch := 0, cluster := 0, firsts := [1], tile := 4096 }
    let w : State := { base with groups := [(0, g)] }
    let served := fun s : State => (s.toServe 0).map fun x => (x.1, x.2.2.1, x.2.2.2)
    (∀ n ∈ [0, 64],
      (match (intakes n).hubRead 0 0x10 0x41000 64 with
        | .ok (r, u) =>
          let l : Launch := { record := r }
          decide (l.compl % 8 = 0 ∧ l.compl < 2 ^ 57 ∧ l.det = none) && ({ u with nextLaunch := u.nextLaunch + 1 } : State).fits 0 l l.recShape
            && decide ((u.parts.get 0 {}).queueFor 0 l.prio = some 0 ∧ ((u.parts.get 0 {}).queues.get 0 {}).items.length = n)
        | .error _ => false) = true)
    ∧ ((intakes 0).vis.get 0 {}).part = some 0 ∧ ((intakes 0).vis.get 1 {}).part = none
    ∧ (((q none).parts.get 0 {}).queues.get 0 {}).items = 5 :: [] ∧ ((q none).launches.get 5 {}).sel = none ∧ ((q none).parts.get 0 {}).images = []
    ∧ (match (q none).selectImage 0 0x10 0x48000 ((q none).launches.get 5 {}).spaceOf with | .ok (x, _) => x == .refused 6 1 | .error _ => false) = true
    ∧ served (q none) = none ∧ served (q (some (.refused 6 1))) = some (0, 5, .refuse 6 1)
    ∧ (served p).bind (fun x => match x.2.2 with | .place [(c, _)] => some c | _ => none) = some 0
    ∧ p.clusterEmpty 0 = false ∧ (p.launches.get 5 {}).image = some im
    ∧ (q (some (.refused 6 1))).hubLoc 0 0x10 0x50000 8 .write = .ok (.dev 0x50000) ∧ base.ksl.phase ≠ .down
    ∧ (w.groups.look 0 = some g ∧ g.started = false ∧ g.swapped = false ∧ w.startable g = true ∧ Nat.min g.perUnit g.threads ≤ 1 ∧ (w.getTh 4).status = .absent ∧ w.wf = true)
    ∧ ({ base with ksl := { inbox := [mkTransaction 0x10 0 0 0 0 0 []] } } : State).hostBehind 0 = true ∧ base.hostBehind 0 = false
    ∧ (match (intakes 0).hubRead 0 0x10 0x40000000 64 with | .error e => !e.waits | .ok _ => false) = true
    ∧ (match ({ intakes 0 with dram := Memory.store tables 0x12000 8 (2 ^ 60 + 0x8F), ksl := { phase := .retraining } } : State).hubRead 0 0x10 0x41000 64 with
        | .error e => e.waits
        | .ok _ => false) = true
    ∧ (let k := { q none with parts := [(0, { clusters := [0], queues := [(0, queued 0 1)], images := [(0x48000, .refused 6 1)] })] }
       (k.launches.get 5 {}).sel = none ∧ (k.parts.get 0 {}).images.find? (fun z => z.1 == BitVec.ofNat 64 (k.launches.get 5 {}).code)
           = some (0x48000, .refused 6 1))
    ∧ (let o : State := { base with groups := [], launches := [(7, { record := record 1 })] }
       o.launchOver 7 = true ∧ (o.completeWait 7).isNone = true ∧ o.dequeOf 7 = [] ∧ o.hubLoc 0 0x10 0x50000 8 .write = .ok (.dev 0x50000)
         ∧ (o.launches.map (·.1)).Pairwise (· < ·)) := by decide +kernel

/-- A leaf of a host page that migrates on access, with a frame in the pool and without one; migrations in each state, one whose leaf has changed;
and host requests in and out of a window. -/
theorem witness_MigrationSteps :
    let leaf := fun e : Nat => Memory.store [] 0x12000 8 e
    let e := 2 ^ 60 + 2 ^ 59 + 0x70000 + 0xF
    let s : State := { base with dram := leaf e, pool := [0x90], migRequests := [{ h := 0, leaf := 0x12000, va := 0x5000 }] }
    let m : Migration := { entry := e, newPa := 0x90000 }
    let with_ := fun p : MigPhase => { s with migrations := [(0x12000, { m with phase := p })] }
    let loads := s.dram.load 0x12000 8
    (s.migRequests.find? (fun q => q.h == 0) = some { h := 0, leaf := 0x12000, va := 0x5000 } ∧ s.wf = true ∧ loads = e
      ∧ e.testBit 0 = true ∧ e.testBit 1 = true ∧ e.testBit 60 = true ∧ e.testBit 59 = true ∧ e.testBit 7 = false ∧ e.testBit 11 = false
      ∧ (∀ q ∈ s.migRequests.takeWhile (fun q => q.h != 0), q.leaf ≠ 0x12000) ∧ s.migrations.look 0x12000 = none ∧ s.pool = 0x90 :: [] ∧ s.moving 0x12000 = false ∧ (with_ .splice).moving 0x12000 = true)
    ∧ (loads.testBit 60 = true ∧ (0x8F : Nat).testBit 60 = false)
    ∧ ((with_ .splice).migrations.look 0x12000 = some { m with phase := .splice } ∧ (with_ .splice).dram.load 0x12000 8 = m.entry
        ∧ (withTh fun t => t).dram.load 0x12000 8 ≠ m.entry)
    ∧ (with_ .switch).migrations.look 0x12000 = some { m with phase := .switch } ∧ (with_ .switch).stripUnderWay = false ∧ (with_ .hold).migrations.look 0x12000 = some { m with phase := .hold }
    ∧ ((with_ .hold).migrations.map (·.1)).Pairwise (· < ·)
    ∧ (base.ksl.phase ≠ .retraining ∧ base.ksl.phase = .up ∧ base.hostBehind 0 = false)
    ∧ (let far := fun p : LinkPhase => { with_ .splice with migrations := [(0x12000, { m with phase := .splice, newHost := true })], ksl := { phase := p } }
       (far .retraining).ksl.phase = .retraining ∧ (far .down).ksl.phase = .down ∧ (far .up).dram.load 0x12000 8 = m.entry)
    ∧ (base.walkFrom true 0 0 0x10 4 = .ok { identity with asid := 0 } ∧ (base.vis.get 0 {}).part = some 0 ∧ (base.vis.get 1 {}).part = none
        ∧ base.walkFrom true 0 (2 ^ 30) 0x10 4 = .error (.page 0 2) ∧ base.migrations.look 0x12000 = none ∧ base.migRequests = [])
    ∧ (({ windows := [(0, { hostBase := 0, len := 4096, vbase := 0, asid := 0 })] } : VI).windowOf 0).isSome = true
    ∧ ((base.vis.get 0 {}).windowOf 0).isNone = true := by decide +kernel

/-- A pool with a frame that a migration may take, whatever its channel, and one without. -/
theorem witness_FreeFrame : ({ base with pool := [0x90] } : State).freeFrame = some 0x90 ∧ base.freeFrame = none := by
  have h : ∀ n < 32, bitOf 0xFFFFFFFF n = true := by decide +kernel
  refine ⟨?_, by decide +kernel⟩
  have g : ({ base with pool := [0x90] } : State).channelGoing (channelOf 0x90) = false := by
    show (!bitOf 0xFFFFFFFF (channelOf 0x90 % 32) || false) = false
    rw [h _ (Nat.mod_lt _ (by decide))]; rfl
  simp only [State.freeFrame, List.find?, g, Bool.not_false]

/-- A read request of 16 bytes at virtual interface address 0x100. -/
def request : Nat := 2 + 1 * 2 ^ 40 + 0x100 * 2 ^ 64
set_option exponentiation.threshold 3000 in
/-- Flits with a sound CRC of each kind, one with an unsound CRC, and a flit in order that carries a read request. -/
theorem witness_LinkFlits :
    let sum := fun f : Nat => f / 2 ^ 1984 % 2 ^ 64 = crc64 f 248
    (∀ k ∈ [0, 2, 3], sum (mkFlit 5 0 0 k [])) ∧ sum (mkFlit 0 0 0 0 [request]) ∧ ¬ sum (2 ^ 1984) := by
  refine ⟨fun k h => ?_, ?_, ?_⟩
  · apply mkFlit_sound
    simp only [List.mem_cons, List.not_mem_nil, or_false] at h
    obtain rfl | rfl | rfl := h <;> decide +kernel
  · apply mkFlit_sound; decide +kernel
  · have h := crc64_low 0 1 248 1984 (by decide)
    rw [Nat.zero_add, Nat.one_mul, crc64_zero] at h
    simp only [h]
    decide +kernel
/-- What those flits hold below their CRC. -/
theorem witness_LinkFields :
    (∀ k ∈ [0, 2, 3], mkFlit 5 0 0 k [] % 2 ^ 1984 / 2 ^ 40 % 2 ^ 8 = k ∧ mkFlit 5 0 0 k [] % 2 ^ 1984 % 2 ^ 16 = 5)
    ∧ mkFlit 0 0 0 0 [request] % 2 ^ 1984 % 2 ^ 16 = (base.linkOf 12).rxSeq
    ∧ flitUnits (mkFlit 0 0 0 0 [request] % 2 ^ 1984) = request :: [] ++ List.replicate 14 0 ∧ unitsAfter request = 0 ∧ request % 2 ^ 8 = 2 := by
  simp only [mkFlit_low]
  decide +kernel
/-- A link that is up, one that retrains with a write that waits, and one with eight failed replays; sequence numbers ahead and behind; link states; an
access of the device that waits for its completion; and host accesses in a window, beyond its end and by a disabled interface. -/
theorem witness_LinkSteps :
    let w : State := { base with vis := [(0, { part := some 0, env := { root := 0x10 }, windows := [(0, { len := 0x30000 })] })] }
    let poisoned : State := { w with dramPoison := [0x4000] }
    let down : State := { base with ksl := { phase := .retraining, held := [(0x100, some (8, 7))] } }
    let v := w.vis.get 0 {}
    (base.linkOf 12).phase = .up ∧ (base.linkOf 12).partialUnits = []
    ∧ ((5 + 2 ^ 16 - 0) % 2 ^ 16 < 2 ^ 15 ∧ 2 ^ 15 ≤ (2 ^ 15 + 2 ^ 16 - 0) % 2 ^ 16)
    ∧ ((down.linkOf 12).phase = .retraining ∧ (down.linkOf 12).held = [(0x100, some (8, 7))] ∧ down.wf = true
        ∧ (({ base with peers := [(3, { phase := .retraining })] } : State).linkOf 3).phase = .retraining
        ∧ (base.linkSt (.peer 3)).power = .full ∧ (base.linkSt (.peer 3)).waking = false)
    ∧ (({ base with ksl := { failSeq := 5, fails := 8 } } : State).linkOf 12).fails = 8
    ∧ ((base.linkSt (.lane 0 0)).power = .full ∧ (base.linkSt (.lane 0 0)).waking = false
        ∧ (({ base with links := [(.lane 0 0, { power := .narrow })] } : State).linkSt (.lane 0 0)).power = .narrow
        ∧ (({ base with links := [(.lane 0 0, { power := .sleep, waking := true })] } : State).linkSt (.lane 0 0)).waking = true)
    ∧ (base.outstanding = []
        ∧ base.ksl.phase = .up)
    ∧ ((w.vis.get 1 {}).part = none ∧ v.part = some 0 ∧ w.hostBehind 0 = false ∧ w.hostWaits 0 0 (v.pieces 16 0x20000 16) = false
        ∧ ({ w with ksl := { inbox := [mkTransaction 0x10 0 0 0 0 0 []] } } : State).hostBehind 0 = true)
    ∧ (base.forkOf (.hostmem 0x100) = none
        ∧ ({ base with migrations := [(0x12000, { phase := .splice, oldPa := 0, oldHost := true, newPa := 0x90000 })] } : State).forkOf (.hostmem 0x100)
            = some (.dev 0x90100))
    ∧ ((v.pieces 16 0x30000 16).head? = some (0x30000, 1) ∧ w.hostLoc 0 0 0x30000 1 .write = .error 2 ∧ w.hostLoc 0 0 0x30000 1 .read = .error 2)
    ∧ (v.pieces 16 0x20000 16 = [(0x20000, 8), (0x20000 + 8, 8)] ∧ w.wf = true ∧ w.hostLoc 0 0 0x20000 8 .write = .ok (.dev 0x20000)
        ∧ (w.hubPut 0 (.dev 0x20000) 8 7).hostLoc 0 0 0x20008 8 .write = .ok (.dev 0x20008)
        ∧ v.windowAt 0x2FFF0 = some { len := 0x30000 } ∧ v.windowAt 0x2FFF8 = some { len := 0x30000 } ∧ 0x2FFF0 + 16 ≤ 0 + 0x30000)
    ∧ (∀ p ∈ v.pieces 16 0x20000 16, w.hostLoc 0 0 p.1 p.2 .read = .ok (.dev p.1) ∧ w.poisonedLoc (.dev p.1) p.2 = false)
    ∧ ∃ p ∈ v.pieces 16 0x20000 16, poisoned.poisonedLoc (.dev p.1) p.2 = true := by decide +kernel

/-- A write that a link that retrains has not delivered and one that it has; a read that awaits its completion, whose bytes the host has changed and has
not, and a completion with other bytes; and a host read of a page in host memory that waits, and one that does not. -/
theorem witness_LinkAnswers :
    let w : State := { base with vis := [(0, { part := some 0, env := { root := 0x10 }, windows := [(0, { len := 0x30000 })] })] }
    let dwr : Transaction := { header := 5 + 0x100 * 2 ^ 64, data := bytesOf 8 7, old := some (8, 3) }
    let r : HostRead := { tag := 5, addr := 0x100, n := 8, agent := 0, old := 7 }
    let far : State := { w with dram := Memory.store tables 0x12000 8 (2 ^ 60 + 0x8F) }
    (({ phase := .retraining, writes := [(4, dwr)], lostFrom := 4 } : Link).undelivered = [dwr]
      ∧ ({ phase := .retraining, writes := [(3, dwr)], lostFrom := 4 } : Link).undelivered = [])
    ∧ (piecesOf r.addr r.n = [r.addr / 8] ∧ r.addr % 8 = 0 ∧ base.host.load r.addr r.n ≠ r.old
        ∧ ({ base with host := Memory.store [] 0x100 8 7 } : State).host.load r.addr r.n = r.old ∧ natOf ((bytesOf 8 9).take 8) ≠ r.old
        ∧ ({ base with outstanding := [r] } : State).outstanding.find? (fun p => p.tag == 5) = some r)
    ∧ (({ far with slow := true } : State).hostWaits 0 0 [(0x20000, 8)] = true ∧ far.hostBehind 0 = false
        ∧ far.hostLoc 0 0 0x20000 8 .read = .ok (.hostmem 0x20000) ∧ far.answers = []
        ∧ (w.vis.get 0 {}).pieces 8 0x20000 8 = [(0x20000, 8)]) := by decide +kernel

/-- An armed node of rank 0 with a token ready, one whose upstream token has come in each format, one that waits for a retraining link, and one whose
producer has failed. -/
theorem witness_ReductionSteps :
    let n : Node := { state := .armed, ntok := 2, outstw := 0x30008, outbuf := 0x30040, instw := 0x30000, inbuf := 0x31000, dport := 1 }
    let s := fun (stw : Nat) (n : Node) => { base with
      nodes := [(0, n)], dram := Memory.store tables 0x30000 8 stw
      peers := [(2, { inbox := [mkTransaction 0x40 0 0 0 0 0 (bytesOf 64 0)] }), (3, { phase := .down })] }
    let u := { n with uport := 2 }
    ((s 1 n).peer 3).phase = .down ∧ ((s 1 n).peer 2).phase ≠ .down ∧ (s 0 n).tokenReady n = false
    ∧ ((s 1 n).tokenReady n = true ∧ (s 1 n).redGet n n.inbuf 64 = .ok 0 ∧ n.uport = 15 ∧ n.next + 1 ≠ n.ntok ∧ n.dport ≠ 15 ∧ (s 1 n).wf = true
        ∧ (s 1 n).redLoc n n.outbuf 64 .write = .ok (.dev 0x30040) ∧ (s 1 n).redLoc n n.outstw 8 .update = .ok (.dev 0x30008))
    ∧ ((s 1 u).tokenReady u = true ∧ u.uport ≠ 15 ∧ u.fmt = 0) ∧ (s 1 n).nodeFails n = false
    ∧ ((s 1 n).nodeWait n).isNone = true
    ∧ ((let far : State := { s 1 n with dram := Memory.store (s 1 n).dram 0x12000 8 (2 ^ 60 + 0x8F), ksl := { phase := .retraining } }
        far.nodeWait n).isSome = true)
    ∧ (∀ f ∈ [1, 2, 3, 4], (s 1 { u with fmt := f }).tokenReady { u with fmt := f } = true)
    ∧ ((s (2 ^ 63) n).nodeFails n = true ∧ ((s (2 ^ 63) n).nodeWait n).isNone = true ∧ (s 1 n).bytesAt (.dev 0x30008) 8 < 2 ^ 62
        ∧ (s (2 ^ 63) n).redLoc n (n.desc + 56) 1 .write = .ok (.dev 56)) := by decide +kernel

/-- The bytes of a management frame with request 7 and number 1 (20 R428). -/
def holdFrame : List Byte := [0x4A, 0x4B, 0x4D, 0x52, 1, 0, 0, 0, 0x30, 7] ++ List.replicate 14 0
/-- The managing interface before and after boot, another interface, an authentic frame and one that is not, and operands that each request takes and
that it refuses, at the ends of their ranges. -/
theorem witness_ManagementRequests :
    let g : Group := { firsts := [0], started := true }
    let s : State := { base with groups := [(0, g), (1, { g with swapped := true, firsts := [] })], pool := [7], nodes := [(0, { state := .armed })] }
    let none_ : State := { s with parts := [], vis := [] }
    ((0 : BitVec 6).toNat = s.mgmt.managing ∧ (s.vis.get 0 {}).part ≠ none ∧ (none_.vis.get 0 {}).part = none)
    ∧ (1 : BitVec 6).toNat ≠ s.mgmt.managing ∧ s.sec.phase = .running ∧ State.reset.sec.phase ≠ .running
    ∧ (requestFrameOk [] 0 = false ∧ (1 : BitVec 32).toNat = field holdFrame 4 4 ∧ s.mgmt.seq = none ∧ field holdFrame 9 1 = 7)
    ∧ (none_.parts.look 7 = none ∧ [39].Nodup ∧ [63].Nodup ∧ (∀ c ∈ [39], c < 40 ∧ ∀ p ∈ none_.parts, c ∉ p.2.clusters)
        ∧ ∀ v ∈ [63], v < 64 ∧ (none_.vis.get v {}).part = none)
    ∧ ((s.parts.look 0).isSome = true ∧ s.abortWaits 0 = []
        ∧ (let far : State := { asTh s (fun t => { t with tkcur := 0x41000 }) with
             dram := Memory.store tables 0x12000 8 (2 ^ 60 + 0x8F), ksl := { phase := .retraining } }
           (far.abortWaits 0).length = 1) ∧ (0xFE33 : Word).toNat < 2 ^ 16 ∧ (0xFE33 : Word).toNat / 4 % 4 = 0)
    ∧ ((s.vis.get 0 {}).part ≠ none ∧ 0 + (2 ^ 57 : Nat) ≤ 2 ^ 57)
    ∧ ((s.getTh 0).status ≠ .absent ∧ (s.getTh (4 * 319 + 3)).status = .absent)
    ∧ (let o : State := { asTh s (fun t => { t with saved := true }) with cores := [(0, Core.init 0)] }
       o.groups.look 0 = some g ∧ g.started = true ∧ g.swapped = false ∧ o.savedAndFree 0 = true ∧ o.threadIds = [0])
    ∧ (let o : State := { s with launches := [(0, { sel := some (.image {}) })] }
       (o.groups.look 1).any (·.swapped) = true ∧ 0 ∈ (o.parts.get 0 {}).clusters ∧ o.clusterEmpty 0 = false
         ∧ (o.lowestRun ({ g with swapped := true, firsts := [] } : Group).shape 64 (o.launches.get 0 {}) 0).isSome = true ∧ (o.launches.get 0 {}).image ≠ none)
    ∧ ((s.nodes.get 0 {}).state = .armed ∧ (s.nodes.get 1 {}).state ≠ .armed
        ∧ (({ s with dram := Memory.store tables 0x30000 40 (2 ^ 256 + 255 * 2 ^ 296) } : State).arm 1 0 0x30000).isSome = true)
    ∧ ((1000 : Nat) ≤ 1000 ∧ (999 : Nat) < 1000 ∧ (65535 : Nat) ≤ 65535 ∧ (65535 : Nat) < 65536)
    ∧ ((0xFFFF : Word).toNat < 2 ^ 16 ∧ 2 ^ 16 ≤ (0x10000 : Word).toNat ∧ (0x0007000000000000 : Word).toNat / 2 ^ 16 % 2 ^ 32 = 0
        ∧ (0x0007000000000000 : Word).toNat < 2 ^ 51)
    ∧ (8 ∉ s.pool ∧ 7 ∈ s.pool ∧ (List.replicate 32 (0 : Byte)).length = 32 ∧ s.sec.reports + 1 < 2 ^ 20)
    ∧ (envOk {} = true ∧ envOk { rtLen := 63 } = false) := by
  intro g s none_
  constructorm* _ ∧ _ <;> decide +kernel
/-- The authentic frame; its code is the free value of `Config.hmac`. -/
theorem witness_ManagementFrame : requestFrameOk holdFrame (Config.hmac holdFrame) = true := by
  simp only [requestFrameOk, beq_self_eq_true, Bool.and_true]; decide +kernel

/-- The first 16 bytes of a cap frame with number 1, limit 100 and `SHED` 0 (20 R432). -/
def capHead : List Byte := [0x4A, 0x4B, 0x43, 0x50, 1, 0, 0, 0, 100, 0, 0, 0, 0, 0, 0, 0]
/-- A cap frame that is authentic. -/
theorem witness_CapFrame : capFrameOk (capHead ++ bytesOf 16 (Config.hmac capHead).toNat) = true := by
  have h : (capHead ++ bytesOf 16 (Config.hmac capHead).toNat).take 16 = capHead := rfl
  have e : field (capHead ++ bytesOf 16 (Config.hmac capHead).toNat) 16 16 = (Config.hmac capHead).toNat := by
    show natOf ((bytesOf 16 (Config.hmac capHead).toNat)) = _
    rw [natOf_bytesOf]
    exact Nat.mod_eq_of_lt (Config.hmac capHead).isLt
  simp only [capFrameOk, h, e, beq_self_eq_true, Bool.and_true]
  rfl
/-- Partitions with and without a cap, a history with each kind of step, an alarm at the floor and above it, a piece at the end of device memory, an
error count at the threshold, and a module before boot. What the estimates are and which images a boot accepts are free values, so that either
side of those clauses may hold. -/
theorem witness_PowerAndErrors :
    let s : State := { base with parts := [(0, { cap := 500 })], power := { history := [(0, 2)], thermal := [(1, 1500)] } }
    capFrameOk [] = false ∧ s.mgmt.capSeq = none ∧ (s.parts.map (·.1)).Pairwise (· < ·)
    ∧ (∀ k p, (k, p) ∈ base.parts → p.cap = 0) ∧ (∃ p ∈ s.parts.look 0, p.cap ≠ 0 ∧ p.steps < 10)
    ∧ base.power.history = [] ∧ (∀ c ∈ [2, 4, 5], ({ s with power := { s.power with history := [] ++ [(0, c)] } } : State).power.history = [] ++ [(0, c)])
    ∧ (1500 ≤ s.power.thermal.get 1 0 ∧ s.power.thermal.get 0 0 < 1500) ∧ s.parts.look 1 = none ∧ ∃ p ∈ s.parts.look 0, p.alarm = false :=
  ⟨by decide +kernel, by decide +kernel, by decide +kernel, by intro k p h; simp [base] at h; simp [h], ⟨_, rfl, by decide +kernel⟩, by decide +kernel,
    by decide +kernel, by decide +kernel, by decide +kernel, ⟨_, rfl, by decide +kernel⟩⟩
/-- Errors below, at and above the threshold, pieces at the end of device memory and of a tile allocation, a pending version, a unit that waits to be
withdrawn, and a module before boot. -/
theorem witness_Errors :
    let s : State := { base with rmap := { errors := [(.matrixUnit 3, 15)] }, parts := [(0, { clusters := [0] })] }
    let r : State := { s with rmap := { pending := true, waiting := [] } }
    s.errorsOf (.matrixUnit 2) + 1 < s.mgmt.threshold ∧ (s.mgmt.threshold ≤ s.errorsOf (.matrixUnit 3) + 1 ∧ .matrixUnit 3 ∉ s.rmap.waiting)
    ∧ 8 * 103079215103 + 8 ≤ 768 * 2 ^ 30 ∧ 768 * 2 ^ 30 < 8 * 103079215104 + 8
    ∧ 8 * 8191 + 8 ≤ (s.alloc 0 0).size ∧ (s.alloc 0 0).size < 8 * 8192 + 8 ∧ (s.getTh 0).status ≠ .absent
    ∧ (r.rmap.pending = true ∧ r.rmap.waiting = [] ∧ r.rmap.ver + 1 < 2 ^ 32 ∧ r.threadIds.Nodup ∧ r.migrations = [] ∧ r.wf = true)
    ∧ ({ waiting := [.matrixUnit 3] } : ResMap).waiting = [.matrixUnit 3] ∧ State.reset.sec.phase = .reset ∧ State.reset.sec.flash = []
    ∧ base.sec.phase ≠ .reset := by decide +kernel

/-! The step, the encodings and the invariant. -/

/-- A device step that leaves the state as it is. -/
def stays (i : Instr) (s : State) : Bool := nexts i s fun t => decide (t = s)
/-- What that says. -/
theorem exec_of_stays (i : Instr) (s : State) (h : stays i s = true) : exec i s = .next s := by
  unfold stays nexts at h
  split at h
  · rename_i t e; rw [e, of_decide_eq_true h]
  · cases h
/-- `base` about to issue the words of some instructions from code offset 0. -/
def code (l : List Instr) (f : Thread → Thread) : State :=
  { base with
    th := f base.th
    clusters := [(0, { codeLen := 64, rtBase := 4096, rtLen := 64
                       code := (l.map fun i => ((encode i).getD 0).toNat).zipIdx.foldl (fun m x => Memory.store m (4 * x.2) 4 x.1) [] })] }

/-- A step of the device and a word that is none on the agenda, an asynchronous cause and a chain finish at a boundary, and a finish that a CHBRK waits
for. -/
theorem witness_StepAgenda :
    let a := withTh fun t => { t with spend := 2, sup := { t.sup with aie := true } }
    let f := asTh (withSlots [(0, { recorded := true })]) fun t => t
    let x : Slot := running [switch] 2 .drained
    let b := asTh (withSlots [(0, { x with run := x.run.map fun r => { r with endAfter := true, chbrk := some (4, 0, 0) } })]) fun t => { t with cv := some {} }
    (({ base with agenda := [.thermalAlarm 0] } : State).agenda = .thermalAlarm 0 :: [] ∧ deviceStep (.thermalAlarm 0) = true ∧ deviceStep .idle = false)
    ∧ (a.agenda = [] ∧ a.turn = .thread ∧ a.th.boundary = true ∧ a.th.asyncReady = true)
    ∧ (f.agenda = [] ∧ f.turn = .thread ∧ f.th.boundary = true ∧ f.th.asyncReady = false ∧ f.th.finishPending = true)
    ∧ (b.th.boundary = false ∧ b.th.breaking = true ∧ b.th.finishPending = true) := by decide +kernel
/-- A word that is no convoy, a convoy of two words at its first and, after a return, at its second member, and the next member and the end of a
convoy that has begun. -/
theorem witness_StepWords :
    let one := code [.addi 1 2 3] id
    let i := Instr.vadd 1 2 3 0 1
    let j := Instr.vsub 4 5 6 0 0
    let two := code [i, j] (vectors 2 4)
    let w0 := (encode i).getD 0
    let w1 := (encode j).getD 0
    let at_ := fun c : Convoy => code [i, j] fun t => { vectors 2 4 t with cv := some c }
    let there := fun (s : State) (off : Nat) (w : W32) => s.codeWord s.core off = w ∧ s.inWindow s.th.level s.core off = true ∧ wordPriv s.th.level w.toNat = false
    let ready := fun (s : State) => s.agenda = [] ∧ s.turn = .thread ∧ s.th.status = .issuing ∧ s.th.asyncReady = false ∧ s.th.finishPending = false
    let r := at_ { idx := 1, e0 := 0, last := false, resumed := true }
    let n := at_ { idx := 1, e0 := 0, last := false, resumed := false }
    let c : Cut := { after := 1 }
    let e := at_ { idx := 2, e0 := 0, last := true, resumed := false }
    (ready one ∧ there one 0 ((encode (.addi 1 2 3)).getD 0) ∧ one.runHolds = false ∧ convoyEligible ((encode (.addi 1 2 3)).getD 0).toNat = false
      ∧ joined ((encode (.addi 1 2 3)).getD 0).toNat = false)
    ∧ (∀ s ∈ [two, r], ready s ∧ there s 0 w0 ∧ there s 4 w1 ∧ joined w0.toNat = true ∧ joined w1.toNat = false ∧ convoyEligible w0.toNat = true
        ∧ convoyEligible w1.toNat = true ∧ s.runHolds = false)
    ∧ (∀ k ∈ [i, j], memberReady two.ectx (two.hasFeat 1) 0 k = true)
    ∧ (two.lag = false ∧ lateReader (.vld 1 2 0 0 2 0 0) = true ∧ lateReader (.addi 1 2 3) = false ∧ two.th.unseen = [] ∧ two.th.fills = [])
    ∧ (deviceStep (.stW 2 1 0) = false ∧ quiet (.stW 2 1 0) ((encode (.stW 2 1 0)).getD 0).toNat = false
        ∧ quiet (.addi 1 2 3) ((encode (.addi 1 2 3)).getD 0).toNat = true)
    ∧ (two.cut = none ∧ (({ two with cut := none } : State).stopWithin c (.addi 1 2 3)).isNone = true
        ∧ (({ (code [] (vectors 2 4)) with cut := none } : State).stopWithin c (.vld 1 2 0 0 2 0 0)).isSome = true)
    ∧ (ready n ∧ n.word = w1) ∧ ready e ∧ two.th.cv = none := by decide +kernel
/-- What those words decode to. -/
theorem witness_StepDecodes : decode ((encode (.addi 1 2 3)).getD 0) = .ok (.addi 1 2 3)
    ∧ decode ((encode (.vadd 1 2 3 0 1)).getD 0) = .ok (.vadd 1 2 3 0 1) ∧ decode ((encode (.vsub 4 5 6 0 0)).getD 0) = .ok (.vsub 4 5 6 0 0) :=
  ⟨rfl, rfl, rfl⟩
/-- A program counter outside the window, a privileged word at user level, and a word with a reserved field. -/
theorem witness_StepTraps :
    let out := code [] fun t => { t with pc := 64 }
    let priv := code [.idle] id
    let bad := code [.mzero 4] id
    let w := fun s : State => s.codeWord s.core s.th.pc.toNat
    let visible := fun s : State => s.inWindow s.th.level s.core s.th.pc.toNat
    let takes := fun (s : State) (l : Level) => (s.th.regs l).tih = false ∧ s.inRuntime s.core (s.th.regs l).vec.toNat = true
    (out.th.cv = none ∧ takes out (out.taker 5) ∧ visible out = false)
    ∧ (takes priv (priv.taker 3) ∧ visible priv = true ∧ joined (w priv).toNat = false ∧ wordPriv priv.th.level (w priv).toNat = true)
    ∧ (takes bad (bad.taker 2) ∧ visible bad = true ∧ joined (w bad).toNat = false ∧ wordPriv bad.th.level (w bad).toNat = false
        ∧ w bad = ((encode (.mzero 4)).getD 0)) := by decide +kernel
/-- That word decodes to no instruction. -/
theorem witness_StepReserved (i : Instr) : decode ((encode (.mzero 4)).getD 0) ≠ .ok i := by
  rw [show decode ((encode (.mzero 4)).getD 0) = .error .reserved from rfl]; nofun
/-- The engine's turn with no step due, and with a TLBINV to complete. -/
theorem witness_StepEngine :
    let s : State := { base with turn := .engine }
    let d : State := asTh s fun t => { t with tlbinvs := 1 }
    let u := ({ s with turn := .thread } : State).takeNews.flushLinks.pickNext
    let v := ({ d with turn := .thread } : State).takeNews.flushLinks.pickNext
    (s.agenda = [] ∧ s.turn = .engine ∧ ∀ j ∈ u.internalSteps, stays j u = true)
    ∧ (.tlbinvComplete 0 ∈ v.internalSteps ∧ nexts (.tlbinvComplete 0) v (fun t => decide (t ≠ v)) = true
        ∧ ∀ j ∈ v.internalSteps, j ≠ .tlbinvComplete 0 → stays j v = true) := by decide +kernel

/-- The host's own changes come one at a time: a value, then a refusal of the piece (11 R287, 20 R420). -/
theorem test_host_news :
    let s : State := { base with hostNews := [some (0x40004, some 7), some (0x40000, none)] }
    s.takeNews.host.load 0x40000 8 = 7 ∧ s.takeNews.poisonedLoc (.hostmem 0x40000) 8 = false
    ∧ s.takeNews.takeNews.poisonedLoc (.hostmem 0x40000) 4 = true ∧ s.takeNews.takeNews.hostNews = [] := by decide +kernel
/-- A well-formed instruction that is no step of the device, with its word. -/
theorem witness_EncodeDecode : (Instr.vcvt 1 2 0 0 0 0 1 0).wellFormed = true ∧ deviceStep (.vcvt 1 2 0 0 0 0 1 0) = false
    ∧ (encode (.vcvt 1 2 0 0 0 0 1 0)).isSome = true := by decide +kernel
/-- A state with canonical memory, about to store. -/
theorem witness_MemoryStaysCanonical :
    let s : State := { code [.stW 2 1 0] (fun t => { t with g := regs [0x20000, 7] }) with dram := tables }
    s.wf = true ∧ steps s (fun t => decide (t.dram.load 0x20000 4 = 7)) = true := by decide +kernel

end Sys2Proof.Tests
end

namespace Sys2Proof.Machine
variable {s : State}

/-! ## Soundness: every byte memory is canonical

The invariant is the model's own `State.wf`. The model's functions return a state, a state with something, a state where there is one, or a
computation that may stop with an exception; each shape has its predicate here, with a rule for each way to build it. The lemma
`wf_<function>` says that the function keeps soundness; it is proved from the lemmas of the functions that it calls. -/

/-- Every byte memory of a state is canonical. -/
abbrev Sound (s : State) : Prop := s.wf = true
/-- Every allocation of a core holds a canonical memory. -/
abbrev Core.Sound (c : Core) : Prop := (c.allocs.all fun a => a.2.mem.wf) = true
/-- Every saved allocation of a group that is swapped out holds a canonical memory. -/
abbrev Group.Sound (g : Group) : Prop := (g.savedAllocs.all fun a => a.mem.wf) = true
/-- The state that an exception carries to the end of its instruction is sound. A fault ends the run and carries none. -/
def Exn.Sound : Exn → Prop
  | .trap _ s => Machine.Sound s
  | .park _ s => Machine.Sound s
  | .fault _ => True
/-- An outcome with a next state has a sound one. -/
def OSound : Host.Outcome State Fault Refusal → Prop
  | .next s => Sound s
  | _ => True
theorem OSound.next {s : State} (hs : Sound s) : OSound (.next s) := hs
theorem OSound.ite {c : Prop} [Decidable c] {a b : Host.Outcome State Fault Refusal} (ha : OSound a) (hb : OSound b) :
    OSound (if c then a else b) := by
  split
  · exact ha
  · exact hb
theorem sound_ite {c : Prop} [Decidable c] {a b : State} (ha : Sound a) (hb : Sound b) : Sound (if c then a else b) := by
  split
  · exact ha
  · exact hb
theorem wf_foldl {α : Type} {f : State → α → State} {l : List α} {s : State} (hs : Sound s) (hf : ∀ t x, Sound t → Sound (f t x)) :
    Sound (l.foldl f s) := by
  induction l generalizing s with
  | nil => exact hs
  | cons x r ih => exact ih (hf _ _ hs)

/-! ### Computations that may stop -/

/-- What a computation that may stop leaves: `P` of its value, or `E` of the exception it stops with. -/
def Ends {ε α : Type} (E : ε → Prop) (P : α → Prop) : Except ε α → Prop
  | .ok a => P a
  | .error e => E e
theorem Ends.ok {ε α : Type} {E : ε → Prop} {P : α → Prop} {a : α} (h : P a) : Ends E P (.ok a : Except ε α) := h
theorem Ends.error {ε α : Type} {E : ε → Prop} {P : α → Prop} {e : ε} (h : E e) : Ends E P (.error e : Except ε α) := h
theorem Ends.ok_of {ε α : Type} {E : ε → Prop} {P : α → Prop} {r : Except ε α} (h : Ends E P r) {a : α} (e : r = .ok a) : P a := by
  subst e; exact h
theorem Ends.error_of {ε α : Type} {E : ε → Prop} {P : α → Prop} {r : Except ε α} (h : Ends E P r) {a : ε} (e : r = .error a) : E a := by
  subst e; exact h
theorem Ends.ite {ε α : Type} {E : ε → Prop} {P : α → Prop} {c : Prop} [Decidable c] {a b : Except ε α} (ha : Ends E P a) (hb : Ends E P b) :
    Ends E P (if c then a else b) := by
  split
  · exact ha
  · exact hb
theorem Ends.bind {ε α β : Type} {E : ε → Prop} {P : α → Prop} {Q : β → Prop} {x : Except ε α} {f : α → Except ε β}
    (hx : Ends E P x) (hf : ∀ a, P a → Ends E Q (f a)) : Ends E Q (x >>= f) := by
  cases x with
  | ok a => exact hf a hx
  | error e => exact hx
theorem Ends.map {ε α β : Type} {E : ε → Prop} {P : α → Prop} {Q : β → Prop} {x : Except ε α} {f : α → β}
    (hx : Ends E P x) (hf : ∀ a, P a → Q (f a)) : Ends E Q (x.map f) := by
  cases x with
  | ok a => exact hf a hx
  | error e => exact hx
theorem Ends.foldlM {ε α β : Type} {E : ε → Prop} {P : β → Prop} {f : β → α → Except ε β} (l : List α) {b : β} (hb : P b)
    (hf : ∀ b a, P b → Ends E P (f b a)) : Ends E P (l.foldlM f b) := by
  induction l generalizing b with
  | nil => exact hb
  | cons x r ih => exact (hf b x hb).bind fun b' hb' => ih hb'
theorem Ends.mapM {ε α β : Type} {E : ε → Prop} {f : α → Except ε β} (l : List α) (hf : ∀ a, Ends E (fun _ => True) (f a)) :
    Ends E (fun _ => True) (l.mapM f) := by
  induction l with
  | nil => trivial
  | cons x r ih =>
    rw [List.mapM_cons]
    exact (hf x).bind fun _ _ => ih.bind fun _ _ => trivial

/-! ### Optional results -/

/-- A state, where there is one, is sound. -/
def OptSound (o : Option State) : Prop := ∀ t ∈ o, Sound t
theorem OptSound.none : OptSound none := fun _ h => nomatch h
theorem OptSound.some {s : State} (hs : Sound s) : OptSound (some s) := fun _ h => Option.some.inj h ▸ hs
theorem OptSound.ite {c : Prop} [Decidable c] {a b : Option State} (ha : OptSound a) (hb : OptSound b) : OptSound (if c then a else b) := by
  split
  · exact ha
  · exact hb
/-- A state with something that comes with it, where there is one, is sound. -/
def OptFst {α : Type} (o : Option (State × α)) : Prop := ∀ p ∈ o, Sound p.1
theorem OptFst.none {α : Type} : OptFst (none : Option (State × α)) := fun _ h => nomatch h
theorem OptFst.some {α : Type} {p : State × α} (hp : Sound p.1) : OptFst (some p) := fun _ h => Option.some.inj h ▸ hp
theorem OptFst.ite {α : Type} {c : Prop} [Decidable c] {a b : Option (State × α)} (ha : OptFst a) (hb : OptFst b) :
    OptFst (if c then a else b) := by
  split
  · exact ha
  · exact hb
theorem OptFst.map {α β : Type} {o : Option (State × α)} {f : State × α → State × β} (ho : OptFst o) (hf : ∀ t, Sound t.1 → Sound (f t).1) :
    OptFst (o.map f) := by
  intro p hp
  obtain ⟨u, hu, rfl⟩ := Option.map_eq_some_iff.1 hp
  exact hf u (ho u hu)
theorem OptSound.map {α : Type} {o : Option State} {f : State → State × α} (ho : OptSound o) (hf : ∀ t, Sound t → Sound (f t).1) :
    OptFst (o.map f) := by
  intro p hp
  obtain ⟨u, hu, rfl⟩ := Option.map_eq_some_iff.1 hp
  exact hf u (ho u hu)
/-- An exception, where there is one, carries a sound state. -/
def OptExnSound (o : Option Exn) : Prop := ∀ e ∈ o, e.Sound
theorem OptExnSound.none : OptExnSound none := fun _ h => nomatch h
theorem OptExnSound.some {e : Exn} (he : e.Sound) : OptExnSound (some e) := fun _ h => Option.some.inj h ▸ he
theorem OptExnSound.map {α : Type} {o : Option α} {f : α → Exn} (hf : ∀ a, (f a).Sound) : OptExnSound (o.map f) := by
  intro e he
  obtain ⟨a, -, rfl⟩ := Option.map_eq_some_iff.1 he
  exact hf a

/-! ### Functions handed to a function -/

/-- The accesses of a vector memory instruction, performed for any list of elements, leave a sound state sound. -/
def VMem.Keeps (m : VMem) : Prop := ∀ s l, Sound s → Sound (m.perform s l)
/-- A way to run the elements of a vector memory instruction (unordered, ordered, first-fault) leaves a sound state sound, in its value and
in its exception. -/
def RunKeeps (cls : State → VMem → List (Nat × Nat × Except AErr Loc) → M State) : Prop :=
  ∀ s m l, Sound s → m.Keeps → Ends Exn.Sound Sound (cls s m l)
/-- What a waiting thread does when it wakes, where it does wake, leaves a sound state sound. -/
def WakeSound (o : Option (State → M State)) : Prop := ∀ f ∈ o, ∀ t, Sound t → Ends Exn.Sound Sound (f t)
theorem WakeSound.none : WakeSound none := fun _ h => nomatch h
theorem WakeSound.some {f : State → M State} (hf : ∀ t, Sound t → Ends Exn.Sound Sound (f t)) : WakeSound (some f) :=
  fun _ h => Option.some.inj h ▸ hf
theorem WakeSound.ite {c : Prop} [Decidable c] {a b : Option (State → M State)} (ha : WakeSound a) (hb : WakeSound b) :
    WakeSound (if c then a else b) := by
  split
  · exact ha
  · exact hb
theorem WakeSound.map {α : Type} {o : Option α} {f : α → State → M State} (hf : ∀ a t, Sound t → Ends Exn.Sound Sound (f a t)) :
    WakeSound (o.map f) := by
  intro g hg
  obtain ⟨a, -, rfl⟩ := Option.map_eq_some_iff.1 hg
  exact hf a
/-- Whatever a thread waits for, its wake-up leaves a sound state sound. -/
def WakeKeeps (body : Wait → Option (State → M State)) : Prop := ∀ w, WakeSound (body w)

/-! ### The parts of a sound state -/

theorem SMap.look_all {α : Type} {m : SMap α} {k : Nat} {a : α} {p : α → Bool} (h : (m.all fun x => p x.2) = true) (e : m.look k = some a) :
    p a = true := by
  have g := SMap.get_all m k a p h
  induction m with
  | nil => cases e
  | cons x r ih => grind [SMap.look]
theorem SMap.erase_all {α : Type} {m : SMap α} (k : Nat) {p : α → Bool} (h : (m.all fun x => p x.2) = true) :
    ((SMap.erase m k).all fun x => p x.2) = true := by
  induction m with
  | nil => exact h
  | cons x r ih =>
    obtain ⟨j, b⟩ := x
    grind [SMap.erase]
theorem State.wf_getCore (hs : Sound s) (n : Nat) : (s.getCore n).Sound := by
  obtain ⟨-, -, -, hcores, -⟩ := (State.wf_iff s).1 hs
  exact SMap.get_all s.cores n (Core.init n) (fun k => k.allocs.all fun a => a.2.mem.wf) hcores rfl
theorem State.wf_getCluster (hs : Sound s) (n : Nat) : (s.getCluster n).code.wf = true := by
  obtain ⟨-, -, hclusters, -, -⟩ := (State.wf_iff s).1 hs
  exact SMap.get_all s.clusters n {} (fun c => c.code.wf) hclusters rfl
theorem State.sound_look_groups (hs : Sound s) {n : Nat} {g : Group} (e : s.groups.look n = some g) : g.Sound := by
  obtain ⟨-, -, -, -, hgroups⟩ := (State.wf_iff s).1 hs
  exact SMap.look_all (p := fun g => g.savedAllocs.all fun a => a.mem.wf) hgroups e
theorem State.sound_get_groups (hs : Sound s) (n : Nat) : (s.groups.get n {}).Sound := by
  obtain ⟨-, -, -, -, hgroups⟩ := (State.wf_iff s).1 hs
  exact SMap.get_all s.groups n {} (fun g => g.savedAllocs.all fun a => a.mem.wf) hgroups rfl
theorem State.sound_withGroups (hs : Sound s) (m : SMap Group) (hm : (m.all fun g => g.2.savedAllocs.all fun a => a.mem.wf) = true) :
    Sound { s with groups := m } := by
  obtain ⟨hdram, hhost, hclusters, hcores, -⟩ := (State.wf_iff s).1 hs
  exact (State.wf_iff _).2 ⟨hdram, hhost, hclusters, hcores, hm⟩
theorem State.sound_setGroup (hs : Sound s) (n : Nat) {g : Group} (hg : g.Sound) : Sound { s with groups := s.groups.set n g } := by
  obtain ⟨-, -, -, -, hgroups⟩ := (State.wf_iff s).1 hs
  exact sound_withGroups hs _ (SMap.set_all s.groups n g (fun g => g.savedAllocs.all fun a => a.mem.wf) hgroups hg)
theorem State.sound_withCores (hs : Sound s) (m : SMap Core) (hm : (m.all fun c => c.2.allocs.all fun a => a.2.mem.wf) = true) :
    Sound { s with cores := m } := by
  obtain ⟨hdram, hhost, hclusters, -, hgroups⟩ := (State.wf_iff s).1 hs
  exact (State.wf_iff _).2 ⟨hdram, hhost, hclusters, hm, hgroups⟩
theorem State.sound_mapCores {s : State} (hs : Sound s) (f : Nat × Core → Nat × Core) (hf : ∀ x, x.2.Sound → (f x).2.Sound) :
    Sound { s with cores := s.cores.map f } := by
  obtain ⟨-, -, -, hcores, -⟩ := (State.wf_iff s).1 hs
  refine sound_withCores hs _ (List.all_eq_true.2 fun y hy => ?_)
  obtain ⟨x, hx, rfl⟩ := List.mem_map.1 hy
  exact hf x (List.all_eq_true.1 hcores x hx)
theorem State.sound_withTh {s : State} (hs : Sound s) (th : Thread) : Sound { s with th := th } := hs

end Sys2Proof.Machine

namespace Sys2Proof.Machine
variable {s : State}

/-! ## Sys2Proof/Machine/Ops.lean -/

theorem State.wf_setTh (hs : Sound s) (h : Nat) (t : Thread) : Sound (s.setTh h t) := by
  unfold State.setTh
  split <;> exact hs
theorem State.wf_switchTo (hs : Sound s) (h : Nat) : Sound (s.switchTo h) := by
  unfold State.switchTo
  split <;> exact hs
theorem State.wf_upd (hs : Sound s) (f : Thread → Thread) : Sound (s.upd f) := hs
theorem State.wf_setCore (hs : Sound s) (n : Nat) {c : Core} (hc : c.Sound) : Sound (s.setCore n c) := by
  obtain ⟨-, -, -, hcores, -⟩ := (State.wf_iff s).1 hs
  exact sound_withCores hs _ (SMap.set_all s.cores n c (fun k => k.allocs.all fun a => a.2.mem.wf) hcores hc)
theorem State.wf_setCluster (hs : Sound s) (n : Nat) {c : Cluster} (hc : c.code.wf = true) : Sound (s.setCluster n c) := by
  obtain ⟨hdram, hhost, hclusters, hcores, hgroups⟩ := (State.wf_iff s).1 hs
  exact (State.wf_iff _).2 ⟨hdram, hhost, SMap.set_all s.clusters n c (fun c => c.code.wf) hclusters hc, hcores, hgroups⟩
theorem State.wf_wr (hs : Sound s) (r : BitVec 5) (x : Word) : Sound (s.wr r x) := by
  unfold State.wr
  split <;> exact hs
theorem State.wf_wrN (hs : Sound s) (r : BitVec 5) (x : Nat) : Sound (s.wrN r x) := wf_wr hs r _
theorem State.wf_advance (hs : Sound s) : Sound (s.advance) := hs
theorem State.wf_wrAdvance (hs : Sound s) (d : BitVec 5) (x : Word) : Sound (s.wrAdvance d x) := wf_advance (wf_wr hs d x)
theorem State.wf_send (hs : Sound s) (part type opa stat addr : Nat) (data : List Byte) : Sound (s.send part type opa stat addr data) := hs
theorem State.wf_took (hs : Sound s) (agent pa n : Nat) : Sound (s.took agent pa n) := hs
theorem State.wf_askHost (hs : Sound s) (agent part pa n : Nat) : Sound (s.askHost agent part pa n) := by
  unfold State.askHost
  split <;> exact hs
theorem State.wf_noteFor (hs : Sound s) (agent part type opa p : Nat) (data : List Byte) : Sound (s.noteFor agent part type opa p data) :=
  sound_ite hs <| sound_ite (wf_took hs _ _ _) (wf_send hs _ _ _ _ _ _)
theorem State.wf_noteReads (hs : Sound s) (l : List Loc) : Sound (s.noteReads l) :=
  wf_foldl hs fun t x ht => (t.wf_note 4 0 x.piece (List.replicate 8 0)).trans ht
theorem State.wf_noteAtomic (hs : Sound s) (l : Loc) (n op operand : Nat) : Sound (s.noteAtomic l n op operand) :=
  (s.wf_note _ _ _ _).trans hs
theorem State.wf_writePoisoned (hs : Sound s) (l : Loc) (n x : Nat) : Sound (s.writePoisoned l n x) := by
  unfold State.writePoisoned
  split
  · have h1 : ∀ p d, Sound (if s.ksl.phase = .down then s else s.send s.launch.part 5 0 4 p d) := fun _ _ =>
      sound_ite hs (wf_send hs _ _ _ _ _ _)
    exact sound_ite (State.wf_poisonLoc _ _ (State.wf_storeLoc _ _ _ _ (h1 _ _))) (h1 _ _)
  · exact State.wf_poisonLoc _ _ (State.wf_storeLoc _ _ _ _ hs)
theorem State.wf_locate0 (hs : Sound s) (w : Tlb) (level : Level) (a n : Nat) (k : AKind) :
    Ends (fun _ => True) (fun p => Sound p.2) (s.locate0 w level a n k) := by
  unfold State.locate0
  refine .ite (.error trivial) ?_
  split
  · exact .error trivial
  refine .ite ?_ (.error trivial)
  split
  · exact .error trivial
  · exact .ok (s.wf_setTlb _ _ hs)
theorem State.wf_locateEnds (hs : Sound s) (w : Tlb) (level : Level) (tile : Bool) (a n : Nat) (k : AKind) :
    Ends (fun _ => True) (fun p => Sound p.2) (s.locateAt w level tile a n k) := by
  cases e : s.locateAt w level tile a n k with
  | error _ => trivial
  | ok p => exact State.wf_locateAt s p.2 w level tile a n k p.1 hs e
theorem State.wf_locate (hs : Sound s) (tile : Bool) (a n : Nat) (k : AKind) :
    Ends (fun _ => True) (fun p => Sound p.2) (s.locate tile a n k) :=
  wf_locateEnds hs .v s.th.level tile a n k
theorem State.wf_askFrom (hs : Sound s) (h leaf va : Nat) : Sound (s.askFrom h leaf va) := by
  unfold State.askFrom
  split <;> exact hs
theorem State.wf_askMigration (hs : Sound s) (leaf va : Nat) : Sound (s.askMigration leaf va) := wf_askFrom hs _ leaf va
theorem State.wf_asked (hs : Sound s) (t : State) : Sound (s.asked t) := hs
theorem wf_accTrap (hs : Sound s) (e : AErr) (a elem src : Nat) (k : AKind) : (accTrap s e a elem src k).Sound := by
  unfold accTrap
  split
  case h_6 => exact State.wf_asks _ _ hs
  case h_7 => trivial
  all_goals exact hs
theorem State.wf_terminate (hs : Sound s) : Sound (s.terminate) := hs
theorem wf_finish {r : M State} (hr : Ends Exn.Sound Sound r) : OSound (finish r) := by
  cases r with
  | ok s => exact hr
  | error e =>
    cases e with
    | trap t s => exact s.wf_takeTrap t hr
    | park w s => exact hr
    | fault f => trivial
theorem wf_raise {α : Type} {P : α → Prop} (hs : Sound s) (t : Trap) : Ends Exn.Sound P (raise s t) := hs
theorem wf_illegal {α : Type} {P : α → Prop} (hs : Sound s) (det : Nat) : Ends Exn.Sound P (illegal s det) := hs
theorem wf_privTrap {α : Type} {P : α → Prop} (hs : Sound s) : Ends Exn.Sound P (privTrap s) := hs
theorem State.wf_leave (hs : Sound s) (ri : Bool) (plev : Level) : Sound (s.leave ri plev) := hs

end Sys2Proof.Machine

namespace Sys2Proof.Machine
variable {s : State}

/-! ## Sys2Proof/Machine/Operands.lean -/

theorem State.wf_setV (hs : Sound s) (r : BitVec 5) (x : Nat) : Sound (s.setV r x) := hs
theorem State.wf_setM (hs : Sound s) (r x : Nat) : Sound (s.setM r x) := hs
theorem State.wf_mark (hs : Sound s) (flags marks : Nat) : Sound (s.mark flags marks) := hs
theorem State.wf_setDst (hs : Sound s) (d : Dst) (img : Nat) : Sound (s.setDst d img) := by
  unfold State.setDst
  split <;> exact hs
theorem State.wf_elemPass (hs : Sound s) (op : ElemOp) (start : Nat) : Sound (s.elemPass op start) :=
  wf_mark (sound_withTh (wf_setDst hs op.dst _) _) _ _
theorem State.wf_begin (hs : Sound s) : Sound (s.begin).1 := by
  unfold State.begin
  split <;> exact hs
theorem State.wf_endMember (hs : Sound s) (c : BitVec 1) : Sound (s.endMember c) := by
  unfold State.endMember
  split <;> exact hs
theorem wf_runElem (hs : Sound s) (op : ECtx → Option ElemOp) (c : BitVec 1) : Ends Exn.Sound Sound (runElem op c s) := by
  have h1 := State.wf_begin hs
  unfold runElem
  dsimp only
  split
  · exact wf_illegal h1 0
  · exact State.wf_endMember (State.wf_elemPass h1 _ _) c
theorem wf_runWhole (hs : Sound s) (pre : ECtx → Bool) {f : State → State} (hf : ∀ t, Sound t → Sound (f t)) (c : BitVec 1) :
    Ends Exn.Sound Sound (runWhole pre f c s) := by
  have h1 := State.wf_begin hs
  unfold runWhole
  dsimp only
  split
  · exact wf_illegal h1 0
  · exact State.wf_endMember (hf _ h1) c

end Sys2Proof.Machine

namespace Sys2Proof.Machine
variable {s : State}

/-! ## Sys2Proof/Machine/Bulk.lean -/

theorem State.wf_locateAll (hs : Sound s) (w : Tlb) (level : Level) (tile : Bool) (n : Nat) (k : AKind) (l : List (Nat × Nat)) :
    Sound (s.locateAll w level tile n k l).1 := by
  induction l generalizing s with
  | nil => exact hs
  | cons x r ih =>
    simp only [State.locateAll]
    split
    · next e => exact ih (State.wf_locateAt _ _ _ _ _ _ _ _ _ hs e)
    · exact ih hs
theorem wf_areaErr (hs : Sound s) (src : Nat) (k : AKind) (l : List (Nat × Nat × Except AErr Loc)) : OptExnSound (areaErr s src k l) := by
  have one : ∀ p : AErr → Bool, OptExnSound ((firstErr p l).map fun x => accTrap s x.2.2 x.2.1 x.1 src k) :=
    fun _ => .map fun _ => wf_accTrap hs _ _ _ _ _
  have orElse : ∀ {p : AErr → Bool} {o : Option Exn}, OptExnSound o →
      OptExnSound (match (firstErr p l).map fun x => accTrap s x.2.2 x.2.1 x.1 src k with | some e => some e | none => o) := by
    intro p o ho
    have h1 := one p
    split
    · next e he => exact .some (h1 e he)
    · exact ho
  refine orElse <| orElse <| orElse ?_
  split
  · exact one _
  · exact .some hs
theorem State.wf_area (hs : Sound s) (w : Tlb) (level : Level) (tile : Bool) (a n : Nat) (k : AKind) (src : Nat) :
    Ends Exn.Sound (fun p => Sound p.2) (s.area w level tile a n k src) := by
  have h1 := wf_locateAll hs w level tile 8 k ((List.range ((n + 7) / 8)).map fun i => (0, (a + 8 * i) % 2 ^ 64))
  unfold State.area
  dsimp only
  split
  · next e => exact wf_areaErr h1 _ _ _ _ e
  · exact h1
theorem State.wf_readArea (hs : Sound s) (l : List (Nat × Loc)) (src : Nat) : Ends Exn.Sound (fun _ => True) (s.readArea l src) := by
  unfold State.readArea
  split
  · exact .error (wf_accTrap hs _ _ _ _ _)
  · trivial
theorem State.wf_fetchArea (hs : Sound s) (w : Tlb) (tile : Bool) (a n src : Nat) :
    Ends Exn.Sound (fun p => Sound p.2) (s.fetchArea w tile a n src) :=
  (wf_area hs w _ tile a n .read src).bind fun _ h1 => (wf_readArea h1 _ src).bind fun _ _ => wf_noteReads h1 _
theorem State.wf_storeArea (hs : Sound s) (w : Tlb) (tile : Bool) (a n x src : Nat) :
    Ends Exn.Sound Sound (s.storeArea w tile a n x src) :=
  (wf_area hs w _ tile a n .write src).bind fun p h1 => wf_writeArea p.2 p.1 x h1

end Sys2Proof.Machine

namespace Sys2Proof.Machine
variable {s : State}

/-! ## Sys2Proof/Machine/Lanes.lean -/

theorem State.wf_setLane (hs : Sound s) (core lg : Nat) (o : LaneOwner) : Sound (s.setLane core lg o) :=
  s.wf_updCore _ _ hs fun _ => rfl
theorem State.wf_setLat (hs : Sound s) (core t : Nat) (x : LatThr) : Sound (s.setLat core t x) :=
  s.wf_updCore _ _ hs fun _ => rfl
theorem State.wf_shares (hs : Sound s) (core : Nat) : Sound (s.shares core) :=
  wf_foldl hs fun _ _ ht => wf_setLat ht _ _ _
theorem State.wf_releaseLane (hs : Sound s) (th : Thread) (l : Nat × Nat) : Sound (s.releaseLane th l) := wf_setLane hs _ _ _
theorem State.wf_grant (hs : Sound s) (r0 : Nat) : Sound (s.grant r0).1 := by
  unfold State.grant
  extract_lets core t x r gone s0 s1 mine share free avail s2
  have h0 : Sound s0 := wf_foldl hs fun _ _ ht => wf_setLane ht _ _ _
  have h1 : Sound s1 := wf_shares (wf_setLat h0 _ _ _) _
  have h2 : Sound s2 := by
    unfold s2
    split
    · exact wf_foldl h1 fun _ _ ht => wf_releaseLane ht _ _
    · exact wf_foldl h1 fun _ _ ht => wf_setLane ht _ _ _
  clear_value s2
  exact h2
theorem State.wf_releaseLanes (hs : Sound s) (h : Nat) : Sound (s.releaseLanes h) :=
  wf_shares (wf_setLat (wf_foldl hs fun _ _ ht => wf_releaseLane ht _ _) _ _ _) _
theorem State.wf_tailZero (hs : Sound s) : Sound (s.tailZero) := hs
theorem State.wf_configure (hs : Sound s) (lg ew : Nat) : Sound (s.configure lg ew) := hs
theorem State.wf_setLinkSt (hs : Sound s) (r : LinkRef) (x : LinkState) : Sound (s.setLinkSt r x) := hs
theorem State.wf_wakeLink (hs : Sound s) (r : LinkRef) : Sound (s.wakeLink r) := sound_ite hs (wf_setLinkSt hs _ _)
theorem State.wf_wakePath (hs : Sound s) (core dir hop : Nat) : Sound (s.wakePath core dir hop) :=
  wf_foldl hs fun _ r ht => wf_wakeLink ht r

end Sys2Proof.Machine

namespace Sys2Proof.Machine
variable {s : State}

/-! ## Sys2Proof/Machine/Vector.lean -/

theorem State.wf_setElts (hs : Sound s) (d : BitVec 5) (l : List (Nat × Nat)) : Sound (s.setElts d l) := hs
theorem State.wf_permute (hs : Sound s) (d : BitVec 5) (k : BitVec 3) (f : Nat → Nat) : Sound (s.permute d k f) := hs
theorem wf_reduce (hs : Sound s) (f : Nat → Nat → Nat) (d a b : BitVec 5) (k : BitVec 3) : Sound (reduce f d a b k s) := by
  unfold reduce
  split <;> exact hs
theorem wf_reduceInt (hs : Sound s) (op : {w : Nat} → BitVec w → BitVec w → BitVec w) (d a b : BitVec 5) (k : BitVec 3) :
    Sound (reduceInt op d a b k s) := by
  unfold reduceInt
  exact wf_reduce hs _ _ _ _ _
theorem wf_reduceMinMax (hs : Sound s) (isMax : Bool) (d a b : BitVec 5) (k : BitVec 3) (f : BitVec 1) :
    Sound (reduceMinMax isMax d a b k f s) := by
  unfold reduceMinMax
  split
  · exact hs
  · exact sound_ite hs (State.wf_mark (State.wf_setElts hs _ _) _ _)
theorem wf_reduceFsum (hs : Sound s) (d a b : BitVec 5) (k : BitVec 3) (f : BitVec 1) : Sound (reduceFsum d a b k f s) := by
  unfold reduceFsum
  split
  · exact hs
  · exact sound_ite (sound_ite (State.sound_withTh hs _) hs) (State.sound_withTh (State.wf_mark (State.wf_setElts hs _ _) _ _) _)
theorem wf_maskOp (hs : Sound s) (f : Bool → Bool → Bool) (d a b : BitVec 5) (k : BitVec 3) : Sound (maskOp f d a b k s) := hs

end Sys2Proof.Machine

namespace Sys2Proof.Machine
variable {s : State}

/-! ## Sys2Proof/Machine/Matrix.lean -/

theorem State.wf_setAtt (hs : Sound s) (core : Nat) (a : Option Attachment) : Sound (s.setAtt core a) := hs
theorem State.wf_setAccRow (hs : Sound s) (core rows t i x : Nat) : Sound (s.setAccRow core rows t i x) := hs
theorem State.wf_zeroTile (hs : Sound s) (core rows t : Nat) : Sound (s.zeroTile core rows t) :=
  wf_foldl hs fun _ _ ht => wf_setAccRow ht _ _ _ _ _
theorem State.wf_attachRows (hs : Sound s) (g : Nat) : Sound (s.attachRows g) :=
  wf_foldl (sound_withTh (wf_setAtt hs _ _) _) fun _ _ ht => wf_zeroTile ht _ _ _
theorem State.wf_attach (hs : Sound s) (r0 : Nat) : Sound (s.attach r0).1 := by
  unfold State.attach
  extract_lets core r g
  split
  · exact hs
  · exact wf_attachRows hs g
theorem State.wf_attachPair (hs : Sound s) (d a : BitVec 5) (h : Nat) (d2 a2 : BitVec 5) : Sound (s.attachPair d a h d2 a2) := by
  have htake : ∀ t n, Sound t → Sound (if n = 0 then t else t.attachRows n) := fun _ n ht => sound_ite ht (wf_attachRows ht n)
  exact wf_switchTo (wf_wrAdvance (htake _ _ (wf_switchTo (wf_wrAdvance (htake _ _ hs) _ _) h)) _ _) _
theorem State.wf_detach (hs : Sound s) (h : Nat) : Sound (s.detach h) := by
  unfold State.detach
  split
  · exact sound_ite (wf_setTh (wf_setAtt hs _ _) _ _) hs
  · exact hs
theorem State.wf_need (hs : Sound s) : Ends Exn.Sound (fun _ => True) s.need := by
  unfold State.need
  split
  · trivial
  · exact wf_raise hs _
theorem wf_matStep {st : State} (hst : Sound st) (o : MatOp) (x : MatIn) (s : Nat) : Sound (matStep o x s st) :=
  State.wf_mark (wf_foldl hst fun _ _ ht => State.wf_mark (State.wf_setAccRow ht _ _ _ _ _) _ _) _ _
theorem wf_matSteps (o : MatOp) (x : MatIn) (n k : Nat) {st : State} (hst : Sound st) : Sound (matSteps o x n k st).1 := by
  induction n generalizing k st with
  | zero => exact hst
  | succ n ih =>
    simp only [matSteps]
    split
    · exact hst
    · exact ih _ (wf_matStep hst o x k)
theorem State.wf_locatePieces (hs : Sound s) (tile : Bool) (l : Pieces) : Sound (s.locatePieces tile l).1 :=
  wf_locateAll hs _ _ _ _ _ _
theorem State.wf_fetchSides (hs : Sound s) (ta tb : Bool) (la lb : Pieces) :
    Ends Exn.Sound (fun p => Sound p.1) (s.fetchSides ta tb la lb) := by
  have h1 := wf_locatePieces hs ta la
  have h2 := wf_locatePieces h1 tb lb
  unfold State.fetchSides
  dsimp only
  split
  · next e => exact wf_areaErr h2 _ _ _ _ e
  · exact wf_noteReads h2 _
theorem State.wf_matFetch (hs : Sound s) (o : MatOp) (t : Attachment) (a b : BitVec 5) (from_ : Nat) :
    Ends Exn.Sound (fun p => Sound p.1) (s.matFetch o t a b from_) :=
  (wf_fetchSides hs _ _ _ _).bind fun _ h1 => h1
theorem State.wf_matPre (hs : Sound s) (o : MatOp) (t : Attachment) (a b : BitVec 5) :
    Ends Exn.Sound (fun _ => True) (s.matPre o t a b) :=
  .ite (wf_illegal hs 0) <| .ite (wf_raise hs _) <| .ite (wf_raise hs _) <| .ite (.ite (wf_raise hs _) trivial) <| .ite (wf_raise hs _) trivial
theorem wf_mop (hs : Sound s) (o : MatOp) (a b : BitVec 5) : OSound (mop o a b s) := by
  refine wf_finish <| (State.wf_need hs).bind fun t _ => (State.wf_matPre hs o t a b).bind fun _ _ =>
    (State.wf_matFetch hs o t a b _).bind fun p h1 => ?_
  have h2 := wf_matSteps o p.2 (o.count s.th.mvl - s.th.mprog) s.th.mprog h1
  dsimp only
  split
  · exact State.wf_advance h2
  · exact h2
theorem State.wf_mxfPre (hs : Sound s) (start row0 : Nat) : Ends Exn.Sound (fun _ => True) (s.mxfPre start row0) := by
  unfold State.mxfPre
  refine .ite (wf_illegal hs 0) ?_
  split
  · exact wf_raise hs _
  · exact .ite (wf_raise hs _) trivial
theorem State.wf_slotArea (hs : Sound s) (a : BitVec 5) (n : Nat) : Ends Exn.Sound (fun p => Sound p.2.2) (s.slotArea a n) := by
  refine (wf_need hs).bind fun t _ => ?_
  split
  · exact wf_illegal hs 0
  split
  · exact wf_raise hs _
  · exact (wf_fetchArea hs _ _ _ _ _).bind fun _ h1 => h1
theorem State.wf_loadImage (hs : Sound s) (core : Nat) (t : Attachment) (x : Nat) : Sound (s.loadImage core t x) :=
  wf_foldl (wf_setAtt hs _ _) fun _ _ ht => wf_foldl ht fun _ _ hu => wf_setAccRow hu _ _ _ _ _

end Sys2Proof.Machine

namespace Sys2Proof.Machine
variable {s : State}

/-! ## Sys2Proof/Machine/System.lean -/

theorem wf_privileged {f : State → M State} (hf : ∀ t, Sound t → Ends Exn.Sound Sound (f t)) (hs : Sound s) : OSound (privileged f s) := by
  refine wf_finish ?_
  split
  · exact wf_privTrap hs
  · exact hf s hs
theorem State.wf_resumeEngines (hs : Sound s) (from_ : Level) (restored : Bool) : Sound (s.resumeEngines from_ restored) :=
  sound_ite (s.wf_updCore _ _ hs fun _ => rfl) hs
theorem State.wf_seed (hs : Sound s) (o : CrOp) (x : Nat) : Sound (s.seed o x) := hs
theorem State.wf_crPutUser (hs : Sound s) (o : CrOp) (n : Nat) (a x : Word) : OptSound (s.crPutUser o n a x) :=
  .ite (.some hs) <| .ite (.ite (.some hs) .none) <| .ite (.some hs) <| .ite (.ite (.some hs) .none) <| .ite (.some (wf_seed hs o _)) <|
    .ite (.some hs) <| .ite (.ite (.some hs) .none) <| .ite (.some hs) <| .ite (.some hs) <| .ite (.some hs) <| .ite (.some hs) <|
    .ite (.some hs) .none
theorem State.wf_crPutSystem (hs : Sound s) (n : Nat) (a x : Word) : OptSound (s.crPutSystem n a x) := by
  have h1 := wf_getCluster hs (clusterOf s.core)
  have h2 : ∀ th, OptSound (some { s with th := th }) := fun th => .some (sound_withTh hs th)
  unfold State.crPutSystem
  dsimp only
  refine .ite (h2 _) <| .ite (h2 _) <| .ite (h2 _) <| .ite (h2 _) <| .ite (.ite (h2 _) .none) <| .ite (h2 _) <| .ite (h2 _) <|
    .ite (.ite (.some (wf_setLat hs _ _ _)) .none) <| .ite (.some (wf_setCluster hs _ h1)) <| .ite (.some ?_) .none
  split
  · exact wf_setCluster hs _ h1
  · exact hs
theorem State.wf_crPut (hs : Sound s) (o : CrOp) (n : Nat) (a x : Word) : OptSound (s.crPut o n a x) :=
  .ite (wf_crPutUser hs o n a x) (wf_crPutSystem hs n a x)
theorem State.wf_tick (hs : Sound s) (n : Nat) : Sound (s.tick n) := by
  refine sound_ite ?_ hs
  exact s.wf_updCore s.core (fun c => { c with ccount := c.ccount + Config.cycles s.free }) hs fun _ => rfl
theorem wf_crModify (hs : Sound s) (o : CrOp) (d a : BitVec 5) (n : Nat) : OSound (crModify o d a n s) := by
  refine wf_finish ?_
  split
  · exact wf_privTrap hs
  split
  · exact wf_illegal hs 0
  split
  · exact wf_illegal hs 0
  · next e => exact State.wf_wrAdvance (State.wf_crPut hs _ _ _ _ _ e) _ _
theorem State.wf_invalidate (hs : Sound s) (cores : List Nat) (p : Trans → Bool) : Sound (s.invalidate cores p) := by
  refine sound_mapCores hs _ fun x hx => ?_
  split <;> exact hx
theorem State.wf_space0 (hs : Sound s) (a : Word) (n : Nat) (k : AKind) : Ends Exn.Sound (fun p => Sound p.2) (s.space0 a n k) := by
  have h1 := wf_locateEnds hs .v s.th.level false a.toNat n k
  unfold State.space0
  split
  · exact .error (wf_accTrap hs _ _ _ _ _)
  · next s1 e =>
    have h2 : Sound s1 := h1.ok_of e
    exact .ite (.error (wf_accTrap h2 _ _ _ _ _)) (.ok h2)
theorem State.wf_setvlwGrant (hs : Sound s) (e : BitVec 2) : Sound (s.setvlwGrant e) :=
  sound_withTh (wf_configure (wf_grant hs _) _ _) _
theorem State.wf_setvlwTail (hs : Sound s) (old : VConf) : Sound (s.setvlwTail old) := by
  unfold State.setvlwTail
  split <;> exact hs
theorem State.wf_setvlwUndo (hs : Sound s) (x : VConf) : Sound (s.setvlwUndo x) := by
  have h1 := wf_foldl (l := s.myLanes.filter fun l => !x.lanes.contains l) hs fun t l ht => wf_releaseLane ht t.th l
  exact sound_withTh (wf_shares (wf_setLat (wf_foldl h1 fun _ _ ht => wf_setLane ht _ _ _) _ _ _) _) _
theorem State.wf_setvlwDone (hs : Sound s) (d : BitVec 5) (old : VConf) (vl : Nat) : Sound (s.setvlwDone d old vl) :=
  wf_wrAdvance (wf_setvlwTail (sound_withTh hs _) old) d _
theorem wf_setvlwRead (hs : Sound s) (d a b : BitVec 5) (e : BitVec 2) (old : VConf) : Ends Exn.Sound Sound (setvlwRead d a b e old s) := by
  have h1 := State.wf_space0 hs (s.rd b) 8 .read
  unfold setvlwRead
  split
  · next s1 e =>
    have h2 : Sound s1 := h1.error_of e
    exact .error (State.wf_setvlwUndo h2 old)
  · next e => exact .error (h1.error_of e)
  · next l s1 e =>
    have h2 : Sound (s1.noteReads [l]) := State.wf_noteReads (h1.ok_of e) [l]
    exact .ite (.ok (State.wf_setvlwDone (State.sound_withTh h2 _) _ _ _)) <| .ite (.ok (State.wf_setvlwDone h2 _ _ _)) <|
      .ite (.ok (State.wf_setvlwDone h2 _ _ _)) (.error h2)

end Sys2Proof.Machine

namespace Sys2Proof.Machine
variable {s : State}

/-! ## Sys2Proof/Machine/VecMem.lean -/

theorem wf_earlyErr (hs : Sound s) (m : VMem) (l : List (Nat × Nat × Except AErr Loc)) : OptExnSound (earlyErr s m l) := by
  intro e he
  simp only [earlyErr, Option.mem_def] at he
  split at he
  · cases he
    exact wf_accTrap hs _ _ _ _ _
  split at he
  · cases he
    exact wf_accTrap hs _ _ _ _ _
  · obtain ⟨x, -, rfl⟩ := Option.map_eq_some_iff.1 he
    exact wf_accTrap hs _ _ _ _ _
theorem VMem.wf_below {m : VMem} (hm : m.Keeps) (hs : Sound s) (l : List (Nat × Nat × Except AErr Loc)) (k : Nat) : Sound (m.below s l k) :=
  hm _ _ hs

theorem VMem.wf_stopped {m : VMem} (hm : m.Keeps) (hs : Sound s) (l : List (Nat × Nat × Except AErr Loc)) (k a : Nat) (e : AErr) :
    Ends Exn.Sound Sound (m.stopped s l k a e) := by
  refine wf_accTrap ?_ _ _ _ _ _
  split
  · exact hs
  · exact wf_below hm hs l k
theorem wf_unorderedRun (hs : Sound s) {m : VMem} (hm : m.Keeps) (l : List (Nat × Nat × Except AErr Loc)) :
    Ends Exn.Sound Sound (unorderedRun s m l) := by
  have h1 := hm s (goodElts l) hs
  unfold unorderedRun
  split
  · exact .error (wf_accTrap hs _ _ _ _ _)
  dsimp only
  split
  · split
    · refine .error (wf_accTrap ?_ _ _ _ _ _)
      exact h1
    · exact .ok h1
  · exact h1
theorem wf_orderedRun (hs : Sound s) {m : VMem} (hm : m.Keeps) (l : List (Nat × Nat × Except AErr Loc)) :
    Ends Exn.Sound Sound (orderedRun s m l) := by
  unfold orderedRun
  split
  · exact hm _ _ hs
  · exact VMem.wf_stopped hm hs _ _ _ _
theorem wf_firstFaultRun (hs : Sound s) {m : VMem} (hm : m.Keeps) (l : List (Nat × Nat × Except AErr Loc)) :
    Ends Exn.Sound Sound (firstFaultRun s m l) := by
  unfold firstFaultRun
  split
  · exact hm _ _ hs
  split
  · exact VMem.wf_below hm hs _ _
  · exact VMem.wf_stopped hm hs _ _ _ _
theorem State.wf_runAhead (hs : Sound s) (m : VMem) (start : Nat) : Sound (s.runAhead m start).1 := wf_locateAll hs _ _ _ _ _ _
theorem wf_vmemRun (hs : Sound s) {m : VMem} (hm : m.Keeps) {cls : State → VMem → List (Nat × Nat × Except AErr Loc) → M State}
    (hcls : RunKeeps cls) (start : Nat) : Ends Exn.Sound Sound (vmemRun m cls start s) := by
  have h1 := State.wf_runAhead hs m start
  unfold vmemRun
  dsimp only
  split
  · next e => exact wf_earlyErr h1 _ _ _ e
  · exact hcls _ _ _ h1 hm
theorem wf_vmemMember (hs : Sound s) {m : State → VMem} (hm : ∀ t, (m t).Keeps)
    {cls : State → VMem → List (Nat × Nat × Except AErr Loc) → M State} (hcls : RunKeeps cls) (z : BitVec 2) (c : BitVec 1) :
    Ends Exn.Sound Sound (vmemMember z m cls c s) := by
  have h1 := State.wf_begin hs
  unfold vmemMember
  dsimp only
  split
  · exact wf_illegal h1 0
  · exact (wf_vmemRun h1 (hm _) hcls _).bind fun _ h2 => State.wf_endMember h2 c
theorem wf_loadElts (hs : Sound s) (d : BitVec 5) (n : Nat) (l : List (Nat × Loc)) : Sound (loadElts d n s l) :=
  State.wf_setV (State.wf_noteReads hs _) d _
theorem wf_storeElts (hs : Sound s) (d : BitVec 5) (n : Nat) (l : List (Nat × Loc)) : Sound (storeElts d n s l) :=
  wf_foldl hs fun t _ ht => t.wf_writeLoc _ _ _ ht
theorem wf_ordRun (o : BitVec 2) : RunKeeps (ordRun o) := by
  unfold ordRun
  split
  · exact fun _ _ l hs hm => wf_orderedRun hs hm l
  · exact fun _ _ l hs hm => wf_unorderedRun hs hm l
theorem State.wf_bankPut (hs : Sound s) (f : Option Fmt) (n : Nat) (q : BankAdd) : Sound (State.bankPut f n s q) :=
  wf_noteAtomic (s.wf_storeLoc _ _ _ hs) _ _ _ _
theorem wf_applyAdds (hs : Sound s) (f : Option Fmt) (n : Nat) (l : List BankAdd) : Sound (applyAdds f n s l) :=
  wf_foldl hs fun _ q ht => State.wf_bankPut ht f n q
theorem State.wf_link (hs : Sound s) (l : Loc) : Sound (s.link l) := by
  unfold State.link
  split <;> exact hs
theorem wf_sccElts (hs : Sound s) (d : BitVec 5) (k : BitVec 3) (n : Nat) (l : List (Nat × Loc)) : Sound (sccElts d k n s l) :=
  wf_foldl hs fun t _ ht => sound_ite (State.wf_setM (t.wf_writeLoc _ _ _ ht) _ _) ht
theorem wf_vamoElts (hs : Sound s) (op : Nat) (d : BitVec 5) (n : Nat) (l : List (Nat × Loc)) : Sound (vamoElts op d n s l) := by
  refine wf_foldl hs fun t p ht => State.wf_setV (State.wf_noteAtomic ?_ _ _ _ _) _ _
  split
  · exact t.wf_storeLoc _ _ _ ht
  · exact ht
theorem wf_vamo (hs : Sound s) (op n : Nat) (d a x : BitVec 5) (k : BitVec 3) (o : BitVec 2) : OSound (vamo op n d a x k o s) := by
  have h1 := State.wf_begin hs
  refine wf_finish ?_
  dsimp only
  split
  · exact wf_illegal h1 0
  · refine (wf_vmemRun h1 (fun t l ht => wf_vamoElts ht op d n l) ?_ _).bind fun _ h2 => State.wf_advance h2
    split
    · exact fun _ _ l hs hm => wf_unorderedRun hs hm l
    · exact fun _ _ l hs hm => wf_orderedRun hs hm l
theorem memVstxa_keeps (d : BitVec 4) (f : BitVec 1) (b x : BitVec 5) (k : BitVec 3) (t : BitVec 1) (z : BitVec 2) (s : State) :
    (memVstxa d f b x k t z s).Keeps :=
  fun _ _ hs => State.wf_mark (wf_applyAdds hs _ _ _) _ _
theorem memVgll_keeps (d b x : BitVec 5) (k : BitVec 3) (t : BitVec 1) (z o : BitVec 2) (s : State) : (memVgll d b x k t z o s).Keeps :=
  fun _ l hs => wf_foldl (wf_loadElts hs d _ l) fun _ p ht => State.wf_link ht p.2

theorem memOfWord_keeps {w : Nat} {f : Bool × (State → VMem)} (e : memOfWord w = some f) (t : State) : (f.2 t).Keeps := by
  intro s l hs
  unfold memOfWord at e
  dsimp only at e
  split at e
  case h_13 => cases e
  all_goals obtain rfl := Option.some.inj e
  case h_1 | h_2 | h_3 | h_4 => exact wf_loadElts hs _ _ l
  case h_5 | h_6 | h_7 => exact wf_storeElts hs _ _ l
  case h_8 => exact memVstxa_keeps _ _ _ _ _ _ _ t s l hs
  case h_9 => exact memVgll_keeps _ _ _ _ _ _ _ t s l hs
  case h_10 => exact wf_sccElts hs _ _ _ l
  case h_11 | h_12 => exact wf_vamoElts hs _ _ _ l
theorem State.wf_stopMember (hs : Sound s) (c : Cut) (again : Bool) {f : State → VMem} (hf : ∀ t, (f t).Keeps) :
    OptSound (s.stopMember c again f) := by
  have h1 := wf_begin hs
  have h2 := wf_runAhead h1 (f s.begin.1) s.begin.2
  unfold State.stopMember
  dsimp only
  refine .ite .none ?_
  split
  · exact .none
  · exact .some (hf _ _ _ h2)
theorem State.wf_stopStarted (hs : Sound s) : Sound s.stopStarted := by
  unfold State.stopStarted
  extract_lets waits
  split
  · exact hs
  split
  · exact hs
  next f hf =>
    have h1 := wf_begin hs
    have h2 := wf_runAhead h1 (f.2 s.begin.1) s.begin.2
    dsimp only
    split
    · exact hs
    split
    · exact VMem.wf_below (memOfWord_keeps hf _) h2 _ _
    · exact h2
theorem wf_vwaitEval (hs : Sound s) (d a x : BitVec 5) (k : BitVec 3) (z : BitVec 1) (q : BitVec 3) (done : Nat) :
    Ends Exn.Sound Sound (vwaitEval d a x k z q done s) := by
  unfold vwaitEval
  extract_lets n base todo
  have h1 := State.wf_locateAll hs .v s.th.level (bitOf base 63) n .read (todo.map fun i => (i, s.idxAddr (base % 2 ^ 63) n x i))
  generalize s.locateAll .v s.th.level (bitOf base 63) n .read (todo.map fun i => (i, s.idxAddr (base % 2 ^ 63) n x i)) = p at h1
  have h2 := State.wf_noteReads h1 ((goodElts p.2).map (·.2))
  dsimp only
  generalize p.1.noteReads ((goodElts p.2).map (·.2)) = s2 at h2
  split
  · next e => exact wf_areaErr h1 _ _ _ _ e
  split
  · exact .error (wf_accTrap h1 _ _ _ _ _)
  split
  · refine .error (wf_accTrap ?_ _ _ _ _ _)
    exact h2
  split
  · exact .ok (State.wf_advance h2)
  · exact .error h2
theorem State.wf_fillRegs (hs : Sound s) (x : Nat) : Sound (s.fillRegs x) := by
  unfold State.fillRegs
  refine List.foldlRecOn (motive := fun p : Nat × State => Sound p.2) _ _ ?_ fun p hp r _ => wf_setM hp _ _
  exact List.foldlRecOn (motive := fun p : Nat × State => Sound p.2) _ _ hs fun p hp r _ => hp

end Sys2Proof.Machine

namespace Sys2Proof.Machine
variable {s : State}

/-! ## Sys2Proof/Machine/Stream.lean -/

theorem State.wf_onThread (hs : Sound s) (h : Nat) {f : State → State} (hf : ∀ t, Sound t → Sound (f t)) : Sound (s.onThread h f) :=
  wf_switchTo (hf _ (wf_switchTo hs h)) _
theorem State.wf_setChan (hs : Sound s) (core c : Nat) (x : Channel) : Sound (s.setChan core c x) := s.wf_updCore _ _ hs fun _ => rfl
theorem wf_ringErr {α : Type} {P : α → Prop} (hs : Sound s) (n reason : Nat) : Ends Exn.Sound P (ringErr s n reason) := hs
theorem wf_schClaim (hs : Sound s) (out : Bool) (d a b : BitVec 5) : Ends Exn.Sound Sound (schClaim out d a b s) :=
  .ite (wf_ringErr hs _ _) <| .ite (.error hs) <| .ite (wf_ringErr hs _ _) <| .ok (State.wf_advance (State.wf_setChan hs _ _ _))
theorem State.wf_issueCheck (hs : Sound s) (c : Nat) (x : Xfer) : Ends Exn.Sound (fun _ => True) (s.issueCheck c x) := by
  unfold State.issueCheck
  dsimp only
  split
  · exact wf_raise hs _
  refine .ite (wf_raise hs _) ?_
  split
  · exact wf_raise hs _
  split
  · split
    · exact .error (wf_accTrap hs _ _ _ _ _)
    · trivial
  · exact wf_raise hs _
theorem wf_issue (hs : Sound s) (kind : XferKind) (d a b : BitVec 5) (k : BitVec 3) : Ends Exn.Sound Sound (issue kind d a b k s) := by
  unfold issue
  dsimp only
  refine .ite (wf_ringErr hs _ _) <| .ite (.error hs) <| .ite (wf_ringErr hs _ _) <| .ite (wf_ringErr hs _ _) <| .ite (wf_ringErr hs _ _) ?_
  refine (State.wf_issueCheck hs _ _).bind fun held _ => .ok (State.wf_advance (State.wf_setChan ?_ _ _ _))
  exact s.wf_updCore _ _ hs fun _ => rfl
theorem wf_swm (hs : Sound s) (d a b : BitVec 5) : Ends Exn.Sound Sound (swm d a b s) :=
  .ite (wf_ringErr hs _ _) <| .ite (.ok (State.wf_wrAdvance hs _ _)) (.error hs)
theorem wf_sdrain (hs : Sound s) (c : Option Nat) : Ends Exn.Sound Sound (sdrain c s) := by
  unfold sdrain
  dsimp only
  split
  · exact .ite (wf_ringErr hs _ _) <| .ite (.error hs) (.ok hs)
  · exact .ite (.error hs) (.ok hs)
theorem State.wf_setRing (hs : Sound s) (core r : Nat) (x : Ring) : Sound (s.setRing core r x) := s.wf_updCore _ _ hs fun _ => rfl
theorem wf_rwait (hs : Sound s) (d a b : BitVec 5) (r : BitVec 3) : Ends Exn.Sound Sound (rwait d a b r s) := by
  unfold rwait
  split
  · exact wf_ringErr hs _ _
  · exact .ite (wf_ringErr hs _ _) <| .ite (wf_ringErr hs _ _) <| .ite (.ok (State.wf_wrAdvance hs _ _)) (.error hs)
theorem State.wf_copyElt (hs : Sound s) (src dst : Loc) (n : Nat) : Sound (s.copyElt src dst n) :=
  have h1 := wf_noteReads hs [src]
  sound_ite (wf_writePoisoned h1 _ _ _) (State.wf_writeLoc _ _ _ _ h1)
theorem State.wf_moveElt (hs : Sound s) (x : Xfer) (m : Nat × Option Loc) : Sound (State.moveElt x s m) := by
  unfold State.moveElt
  dsimp only
  split
  · exact s.wf_writeLoc _ _ _ hs
  · exact sound_ite (wf_copyElt hs _ _ _) (wf_copyElt hs _ _ _)
theorem State.wf_moveAdds (hs : Sound s) (x : Xfer) (locs : List (Nat × Loc)) : Sound (s.moveAdds x locs) :=
  wf_foldl (wf_mark (wf_applyAdds hs _ _ _) _ _) fun t _ ht => t.wf_poisonLoc _ ht
theorem State.wf_noteFills (hs : Sound s) (x : Xfer) : Sound (s.noteFills x) := by
  unfold State.noteFills
  split <;> exact hs
theorem State.wf_moveStrip (hs : Sound s) (x : Xfer) (ms : List (Nat × Option Loc)) : Sound (s.moveStrip x ms) :=
  have h1 := wf_noteFills hs x
  sound_ite (wf_moveAdds h1 x _) (wf_foldl h1 fun _ m ht => wf_moveElt ht x m)
theorem State.wf_releaseChannelWaits (hs : Sound s) (core : Nat) : Sound (s.releaseChannelWaits core) := by
  refine wf_foldl hs fun t i ht => ?_
  dsimp only
  split
  · exact wf_setTh ht _ _
  · exact wf_setTh ht _ _
  · exact ht
theorem State.wf_afterStrip (hs : Sound s) (core c : Nat) (x : Xfer) : Sound (s.afterStrip core c x) := by
  have h1 := fun y => wf_setChan hs core c y
  unfold State.afterStrip
  dsimp only
  split
  · exact sound_ite (wf_setRing (h1 _) _ _ _) (h1 _)
  · exact h1 _
theorem State.wf_stripAsks (hs : Sound s) (core c : Nat) : Sound (s.stripAsks core c) := by
  unfold State.stripAsks
  dsimp only
  split
  · split
    · exact wf_onThread hs _ fun t ht => wf_askMigration ht _ _
    · refine wf_onThread hs _ fun t ht => wf_foldl ht fun u e hu => ?_
      split
      · exact State.wf_asks _ _ hu
      · exact hu
  · exact hs
theorem State.wf_runStrip (hs : Sound s) (core ch h : Nat) (x : Xfer) (ms : List (Nat × Option Loc)) (ahead : Option Nat) :
    Sound (s.runStrip core ch h x ms ahead) :=
  sound_ite (wf_onThread hs h fun _ ht => wf_afterStrip (wf_moveStrip ht x ms) core ch x)
    (wf_onThread hs h fun _ ht => wf_setChan (wf_moveStrip ht x _) core ch _)
theorem State.wf_endStrip (hs : Sound s) (core ch : Nat) : Sound (s.endStrip core ch) := by
  unfold State.endStrip
  dsimp only
  split
  · split
    · exact wf_runStrip hs _ _ _ _ _ _
    · exact hs
  · exact hs
theorem State.wf_endStrips (hs : Sound s) (h : Nat) : Sound (s.endStrips h) :=
  wf_foldl hs fun _ c ht => sound_ite (wf_endStrip ht _ c) ht
theorem State.wf_abandon (hs : Sound s) (f : StreamFault) : Sound (s.abandon f) := by
  unfold State.abandon
  dsimp only
  split
  · exact hs
  refine sound_ite hs ?_
  split
  · exact wf_setRing (wf_setChan hs _ _ _) _ _ _
  · exact wf_setChan hs _ _ _
theorem wf_wake (hs : Sound s) (h : Nat) {body : Wait → Option (State → M State)} (hbody : WakeKeeps body) : OSound (wake h body s) := by
  have h1 := State.wf_switchTo hs h
  unfold wake
  dsimp only
  split
  · split
    · next f hf =>
      have h2 := wf_finish (hbody _ f hf { s.switchTo h with th := { (s.switchTo h).th with status := .issuing } } h1)
      split
      · next e => rw [e] at h2; exact State.wf_switchTo h2 _
      · trivial
      · trivial
    · exact hs
  · exact hs
theorem State.wf_caught (hs : Sound s) : Sound (s.caught) := hs

end Sys2Proof.Machine

namespace Sys2Proof.Machine
variable {s : State}

/-! ## Sys2Proof/Machine/Frames.lean -/

theorem State.wf_setQueue (hs : Sound s) (core q : Nat) (x : Queue) : Sound (s.setQueue core q x) := s.wf_updCore _ _ hs fun _ => rfl
theorem State.wf_setClaimants (hs : Sound s) (core group bank : Nat) (l : List (Nat × Nat)) : Sound (s.setClaimants core group bank l) :=
  s.wf_setAlloc _ _ _ hs (s.wf_alloc core group hs)
theorem State.wf_setWaiters (hs : Sound s) (core group bank : Nat) (l : List (Nat × Nat)) : Sound (s.setWaiters core group bank l) :=
  s.wf_setAlloc _ _ _ hs (s.wf_alloc core group hs)
theorem State.wf_updSlot (hs : Sound s) (ch : Nat × Nat) (f : Slot → Slot) : Sound (s.updSlot ch f) := by
  unfold State.updSlot
  dsimp only
  split
  · exact wf_setTh hs _ _
  · exact hs
theorem State.wf_arrive (core group bank fuel : Nat) (hs : Sound s) : Sound (State.arrive core group bank fuel s) := by
  induction fuel generalizing s with
  | zero => exact hs
  | succ fuel ih =>
    unfold State.arrive
    split
    · exact hs
    · exact sound_ite hs <| sound_ite (wf_updSlot hs _ _) (ih (wf_setClaimants (wf_updSlot hs _ _) _ _ _ _))
theorem State.wf_handOn (hs : Sound s) (ch : Nat × Nat) (group : Nat) (b : Nat × Nat) : Sound (s.handOn ch group b) := by
  unfold State.handOn
  split
  · exact sound_ite (wf_arrive _ _ _ _ (wf_setClaimants hs _ _ _ _)) hs
  · exact hs
theorem State.wf_passOn (hs : Sound s) (ch b : Nat × Nat) : Sound (s.passOn ch b) :=
  sound_ite (wf_handOn hs _ _ _) <| sound_ite (wf_updSlot hs _ _) hs
theorem State.wf_leaveBank (hs : Sound s) (ch : Nat × Nat) (group : Nat) (b : Nat × Nat) : Sound (State.leaveBank ch group s b) :=
  have h1 := fun l w => wf_setWaiters (wf_setClaimants hs b.1 group b.2 l) b.1 group b.2 w
  sound_ite (wf_arrive _ _ _ _ (h1 _ _)) (h1 _ _)
theorem State.wf_leaveClaims (hs : Sound s) (ch : Nat × Nat) : Sound (s.leaveClaims ch) :=
  wf_foldl hs fun _ b ht => wf_leaveBank ht ch _ b
theorem State.wf_joinBank (hs : Sound s) (ch : Nat × Nat) (group : Nat) (b : Nat × Nat) : Sound (State.joinBank ch group s b) :=
  sound_ite (wf_setClaimants hs _ _ _ _) (wf_setWaiters hs _ _ _ _)
theorem State.wf_joinClaims (hs : Sound s) (ch : Nat × Nat) (group : Nat) (frames : List Frame) : Sound (s.joinClaims ch group frames) :=
  wf_foldl hs fun _ b ht => wf_joinBank ht ch group b
theorem State.wf_unbind (hs : Sound s) (ch : Nat × Nat) : Sound (s.unbind ch) :=
  sound_mapCores hs _ fun _ hx => hx
theorem State.wf_freeBakeLane (hs : Sound s) (l : Nat × Nat) : Sound (s.freeBakeLane l) :=
  sound_ite (wf_shares (wf_setLane hs _ _ _) _) hs
theorem State.wf_endChain (hs : Sound s) (ch : Nat × Nat) : Sound (s.endChain ch) := by
  have h1 := wf_leaveClaims hs ch
  unfold State.endChain
  split
  · exact hs
  · exact sound_ite (wf_setTh h1 _ _) (wf_foldl (wf_setTh (wf_unbind h1 ch) _ _) fun _ l ht => wf_freeBakeLane ht l)
theorem State.wf_wakeChain (hs : Sound s) (frames : List Frame) : Sound (s.wakeChain frames) := by
  refine wf_foldl hs fun t f ht => ?_
  have h1 := sound_ite (c := bits f.word 240 4 ≠ 0) (wf_wakePath ht t.core (bits f.word 240 4) (bits f.word 244 8)) ht
  exact sound_ite (wf_wakePath h1 _ _ _) h1
theorem State.wf_beginChain (hs : Sound s) (n : Nat) (x : Slot) : Sound (s.beginChain n x) := by
  have h2 := wf_foldl (l := x.frames.flatMap Frame.binds) hs fun t b ht => wf_setQueue ht b.1 b.2.1
    (if b.2.2 then { t.queue b.1 b.2.1 with prod := some (s.cur, n) } else { t.queue b.1 b.2.1 with cons := some (s.cur, n) })
  exact wf_wakeChain (sound_withTh (wf_foldl h2 fun _ _ ht => sound_ite (wf_setLane ht _ _ _) ht) _) _
theorem wf_chcfgBind (hs : Sound s) (k : BitVec 2) (addr : Word) (img n : Nat) (frames : List Frame) :
    Ends Exn.Sound Sound (chcfgBind k addr img n frames s) :=
  .ite (.error hs) (.ok (State.wf_advance (State.wf_beginChain hs _ _)))
theorem wf_chcfgJoin (hs : Sound s) (k : BitVec 2) (addr : Word) (img n : Nat) (frames : List Frame) :
    Ends Exn.Sound Sound (chcfgJoin k addr img n frames s) :=
  wf_chcfgBind (State.wf_joinClaims hs _ _ _) k addr img n frames
theorem wf_chcfg (hs : Sound s) (a b : BitVec 5) (k : BitVec 2) : Ends Exn.Sound Sound (chcfg a b k s) := by
  refine (State.wf_fetchArea hs _ _ _ _ _).bind fun p h1 => .ite (wf_raise h1 _) ?_
  split
  · exact wf_raise h1 _
  · exact wf_chcfgJoin (State.wf_endChain h1 _) _ _ _ _ _
theorem wf_chcfgResume (hs : Sound s) (k : BitVec 2) (addr : Word) (img n : Nat) : Ends Exn.Sound Sound (chcfgResume k addr img n s) := by
  refine .ite (.error hs) ?_
  split
  · exact wf_raise (State.wf_leaveClaims hs _) _
  · exact wf_chcfgBind hs _ _ _ _ _

end Sys2Proof.Machine

namespace Sys2Proof.Machine
variable {s : State}

/-! ## Sys2Proof/Machine/Chain.lean -/

theorem State.wf_qPop (hs : Sound s) (core q n : Nat) : Sound (s.qPop core q n).2 := wf_setQueue hs _ _ _
theorem State.wf_qPush (hs : Sound s) (core q : Nat) (l : List W32) : Sound (s.qPush core q l) := wf_setQueue hs _ _ _
theorem State.wf_stageWord (hs : Sound s) (run : Run) (i : Nat) (e : StageEnv) (o : ElemOp) : Sound (s.stageWord run i e o).1 := by
  unfold State.stageWord
  dsimp only
  split
  · exact hs
  split
  · exact wf_mark (sound_withTh hs _) _ _
  · exact wf_mark (sound_withTh hs _) _ _
theorem wf_stageIllegal {α : Type} {P : α → Prop} (hs : Sound s) (f : Frame) : Ends Exn.Sound P (stageIllegal s f) := hs
theorem State.wf_vecElement (hs : Sound s) (cap : Option Nat) (frames : List Frame) (run : Run) (n : Nat) (f : Frame) (i : Nat) :
    Ends Exn.Sound OptSound (s.vecElement cap frames run n f i) := by
  unfold State.vecElement
  extract_lets w k ins outs
  split
  · exact .ok .none
  split
  · exact wf_stageIllegal hs f
  split
  · exact .ok .none
  refine .ok (.some (wf_foldl ?_ fun t b ht => wf_qPush ht _ _ _))
  refine List.foldlRecOn (motive := fun p : State × StageEnv => Sound p.1) _ _ ?_ fun p hp o _ => wf_stageWord hp _ _ _ _
  exact List.foldlRecOn (motive := fun p : State × StageEnv => Sound p.1) _ _ hs fun p hp b _ => wf_qPop hp _ _ _
theorem State.wf_noteStore (hs : Sound s) (ch : Nat × Nat) (l : Loc) (n : Nat) : Sound (s.noteStore ch l n) := wf_setTh hs _ _
theorem State.wf_acquire (hs : Sound s) : Sound (s.acquire) := hs
theorem State.wf_portElement (hs : Sound s) (ch : Nat × Nat) (cap : Option Nat) (frames : List Frame) (run : Run) (n : Nat)
    (f : Frame) (i : Nat) : Ends Exn.Sound OptSound (s.portElement ch cap frames run n f i) := by
  unfold State.portElement
  split
  · exact wf_stageIllegal hs f
  extract_lets sz w k data idx dataOk idxOk arcsOk j x v pops push gone a off kind bank cs
  clear_value data idx
  have hpops : Sound (pops s) := by
    have h1 : Sound (match idx with | some b => (s.qPop f.core b.1 k).2 | none => s) := by
      split
      · exact wf_qPop hs _ _ _
      · exact hs
    unfold pops
    dsimp only
    split
    · exact sound_ite h1 (wf_qPop h1 _ _ _)
    · exact h1
  have hpush : ∀ t, Sound t → ∀ y, Sound (push t y) := by
    intro t ht y
    unfold push
    split
    · exact sound_ite (wf_qPush ht _ _ _) ht
    · exact ht
  have hgone : ∀ t, Sound t → Sound (gone t) := fun t ht => wf_foldl ht fun u b hu => wf_passOn hu _ _
  refine .ite (.ok .none) <| .ite (.ok (.some (hgone _ (hpush _ hpops v)))) <| .ite (.error (wf_accTrap hs _ _ _ _ _)) ?_
  split
  · exact .error (wf_accTrap hs _ _ _ _ _)
  refine .ite (.error (wf_accTrap hs _ _ _ _ _)) <| .ite (.ok .none) <| .ite (.error (wf_accTrap hs _ _ _ _ _)) <|
    .ok (.some (hgone _ (sound_ite (hpush _ hpops _) ?_)))
  exact wf_writeLoc _ _ _ _ (wf_noteStore hpops _ _ _)
theorem State.wf_genElement (hs : Sound s) (cap : Option Nat) (run : Run) (f : Frame) (i : Nat) :
    Ends Exn.Sound OptSound (s.genElement cap run f i) := by
  unfold State.genElement
  split
  · exact .ok (.some hs)
  split
  · exact .ok .none
  dsimp only
  split
  · exact .error (wf_accTrap hs _ _ _ _ _)
  split
  · exact .error (wf_accTrap hs _ _ _ _ _)
  · exact .ok (.some (wf_qPush hs _ _ _))
theorem State.wf_touchLink (hs : Sound s) (r : LinkRef) : Sound (s.touchLink r) := sound_ite hs (wf_setLinkSt hs _ _)
theorem State.wf_moveEntry (hs : Sound s) (cap : Option Nat) (f : Frame) : OptFst (s.moveEntry cap f) := by
  unfold State.moveEntry
  extract_lets path s1
  have h1 : Sound s1 := wf_foldl hs fun _ r ht => wf_touchLink ht r
  clear_value s1
  split
  · exact .none
  refine .ite .none <| .ite (.ite .none (.some h1)) (.some ?_)
  have h2 := fun l => wf_qPush (wf_qPop h1 f.core f.inq 1) f.outCore f.outq l
  dsimp only
  split
  · exact wf_qPush (h2 _) _ _ _
  · exact h2 _
theorem State.wf_collect (hs : Sound s) (core : Nat) (b : Option (Nat × Nat)) (n : Nat) (got : List W32) :
    Sound (s.collect core b n got).2 := by
  unfold State.collect
  split
  · exact wf_qPop hs _ _ _
  · exact hs
theorem State.wf_nodeLoc (hs : Sound s) (core : Nat) (level : Level) (a : Nat) :
    Ends (fun _ => True) (fun p => Sound p.2) (s.nodeLoc core level a) := by
  unfold State.nodeLoc
  split
  · cases s.nodeTile core a 8 .read with
    | error e => trivial
    | ok l => exact hs
  · exact wf_locate0 hs _ _ _ _ _
theorem State.wf_nodeLocs (hs : Sound s) (core : Nat) (level : Level) (l : Pieces) : Sound (s.nodeLocs core level l).1 := by
  induction l generalizing s with
  | nil => exact hs
  | cons p r ih =>
    simp only [State.nodeLocs]
    split
    · next e => exact ih ((wf_nodeLoc hs core level p.2.1).ok_of e)
    · exact ih hs
theorem State.wf_pastFetch (hs : Sound s) : Sound (s.pastFetch) := by
  unfold State.pastFetch
  split <;> exact hs
theorem State.wf_stageFetch (hs : Sound s) (run : Run) (f : Frame) (o : MatOp) (a b : BitVec 5) (t : Attachment) (i k : Nat)
    (pr : Progress) : Ends Exn.Sound (fun p => Sound p.1) (s.stageFetch run f o a b t i k pr) := by
  unfold State.stageFetch
  extract_lets mvl n qa qb addrA addrB rb tb row fA la lb
  have h1 := wf_nodeLocs hs f.core run.level la
  have h2 := wf_nodeLocs h1 f.core run.level lb
  dsimp only
  split
  · next e => exact wf_areaErr h2 _ _ _ _ e
  · exact wf_pastFetch (wf_noteReads h2 _)
theorem State.wf_stagePre (hs : Sound s) (f : Frame) (o : MatOp) (t : Attachment) (pr : Progress) :
    Ends Exn.Sound (fun _ => True) (s.stagePre f o t pr) := by
  unfold State.stagePre
  refine .ite trivial <| .ite (wf_stageIllegal hs f) <| .ite (wf_raise hs _) ?_
  split
  · exact wf_raise hs _
  · trivial
theorem State.wf_stepElement (hs : Sound s) (cap : Option Nat) (run : Run) (f : Frame) (o : MatOp) (a b : BitVec 5) (i : Nat)
    (pr : Progress) : Ends Exn.Sound OptFst (s.stepElement cap run f o a b i pr) := by
  unfold State.stepElement
  extract_lets mvl b0 b1 b2 m0 m1 m2 have_ full idle r0 r1 r2 pr1 s1
  have h1 : Sound s1 := wf_collect (wf_collect (wf_collect hs _ _ _ _) _ _ _ _) _ _ _ _
  refine .ite (.ok .none) <| .ite (.ok (.some h1)) <| Ends.bind (P := fun _ => True) ?_ fun t _ => (wf_stagePre hs _ _ _ _).bind fun _ _ =>
    (wf_stageFetch h1 _ _ _ _ _ _ _ _ _).bind fun q h2 => ?_
  · split
    · trivial
    · exact wf_raise hs _
  have h3 := wf_matStep h2 o q.2.1 pr.steps
  dsimp only
  split
  · exact .error h2
  · exact .ite (.ok (.some h3)) (.ok (.some h3))
theorem State.wf_mxfElement (hs : Sound s) (cap : Option Nat) (run : Run) (f : Frame) (rd : Bool) (d a : BitVec 5) (t i : Nat) :
    Ends Exn.Sound OptSound (s.mxfElement cap run f rd d a t i) := by
  unfold State.mxfElement
  split
  · exact wf_raise hs _
  dsimp only
  split
  · exact wf_raise hs _
  split
  · split
    · exact .ok (.some hs)
    split
    · exact .ok (.some (wf_qPush hs _ _ _))
    · exact .ok .none
  · split
    · exact .ok (.some (wf_setAccRow hs _ _ _ _ _))
    split
    · exact .ok (.some (wf_setAccRow (wf_qPop hs _ _ _) _ _ _ _ _))
    · exact .ok .none
theorem State.wf_nodeMove (hs : Sound s) (slot : Nat) (cap : Option Nat) (x : Slot) (run : Run) (n : Nat) (f : Frame) :
    Ends Exn.Sound OptFst (s.nodeMove slot cap x run n f) := by
  unfold State.nodeMove
  extract_lets pr i next r
  have hnext : ∀ q, Ends Exn.Sound OptSound q → Ends Exn.Sound OptFst (next q) :=
    fun q hq => hq.map fun o ho => ho.map fun _ ht => ht
  have hr : Ends Exn.Sound OptFst r := by
    refine .ite (.ok ((wf_moveEntry hs _ _).map fun _ ht => ht)) <| .ite (.ok .none) <| .ite (hnext _ (wf_genElement hs _ _ _ _)) <|
      .ite (hnext _ (wf_portElement hs _ _ _ _ _ _ _)) <| .ite ?_ (hnext _ (wf_vecElement hs _ _ _ _ _ _))
    split
    · exact wf_stepElement hs _ _ _ _ _ _ _ _
    · exact hnext _ (wf_mxfElement hs _ _ _ _ _ _ _ _)
    · exact hnext _ (wf_mxfElement hs _ _ _ _ _ _ _ _)
    · exact wf_stageIllegal hs f
  clear_value r
  split
  · refine .ok ?_
    split
    · exact .none
    · exact .some (wf_asked hs _)
  · exact hr
theorem State.wf_completeRun (hs : Sound s) (slot : Nat) (x : Slot) (run : Run) : Sound (s.completeRun slot x run) :=
  wf_foldl (wf_updSlot hs _ _) fun _ b ht => wf_passOn ht _ b
theorem State.wf_breakChain (hs : Sound s) (ch : Nat × Nat) : Sound (s.breakChain ch) := wf_updSlot hs ch _
theorem State.wf_breakAll (hs : Sound s) (h : Nat) : Sound (s.breakAll h) := wf_foldl hs fun _ _ ht => wf_breakChain ht _
theorem wf_streamNode (hs : Sound s) (want : Frame → Bool) (h slot n : Nat) : OSound (streamNode want h slot n s) := by
  unfold streamNode
  split
  · exact hs
  next x r _ =>
  split
  · exact hs
  next f _ =>
  split
  · exact hs
  have h1 := State.wf_nodeMove (State.wf_switchTo hs h) slot (some 64) x r n f
  split
  · exact hs
  · next t p e => exact State.wf_switchTo (State.wf_updSlot (h1.ok_of e (t, p) rfl) _ _) _
  · exact State.wf_breakChain hs _
  · exact hs
  · trivial
theorem State.wf_unpop (hs : Sound s) (core : Nat) (b : Option (Nat × Nat)) (l : List W32) : Sound (s.unpop core b l) := by
  unfold State.unpop
  split
  · exact wf_setQueue hs _ _ _
  · exact hs
theorem State.wf_returnEntries (hs : Sound s) (x : Slot) (r : Run) : Sound (s.returnEntries x r) :=
  wf_foldl hs fun _ _ ht => sound_ite (wf_unpop (wf_unpop (wf_unpop ht _ _ _) _ _ _) _ _ _) ht
theorem State.wf_drain (hs : Sound s) (ch : Nat × Nat) : Sound (s.drain ch) := by
  unfold State.drain
  split
  · split
    · exact sound_ite hs (wf_updSlot (wf_returnEntries hs _ _) _ _)
    · exact hs
  · exact hs
theorem wf_chwait (hs : Sound s) (d : BitVec 5) (slot : Nat) : Ends Exn.Sound Sound (chwait d slot s) := by
  unfold chwait
  split
  · exact .ok (State.wf_wrAdvance hs _ _)
  split
  · exact .error hs
  · exact .ok (State.wf_wrAdvance (State.wf_acquire hs) _ _)
theorem State.wf_readImage (hs : Sound s) (x : Slot) :
    Ends Sound (fun p => Ends (fun _ => True) (fun q => Sound q.2) p) (s.readImage x) := by
  have h1 := wf_fetchArea hs .v false x.image.toNat (32 * x.nframes) 5
  unfold State.readImage
  split
  · trivial
  · exact wf_asked hs _
  · exact hs
  · next e => exact h1.ok_of e
theorem State.wf_postChbreak (hs : Sound s) (slot : Nat) (t : Trap) : Sound (s.postChbreak slot t) := hs
theorem State.wf_reconfigure (hs : Sound s) (slot : Nat) : Ends Sound Sound (s.reconfigure slot) := by
  unfold State.reconfigure
  dsimp only
  split
  · exact hs
  next x _ =>
  refine .ite hs <| (wf_readImage hs x).bind fun p hp => ?_
  split
  · exact wf_postChbreak (wf_endChain hs _) _ _
  next img s1 =>
  have h1 : Sound s1 := hp
  split
  · exact wf_postChbreak (wf_endChain h1 _) _ _
  next l _ =>
  have h2 := wf_joinClaims (wf_endChain h1 (s.cur, slot)) (s.cur, slot) s1.th.group l
  refine .ite (sound_ite ?_ h1) (wf_beginChain (sound_ite ?_ h1) _ _)
  · exact sound_withTh h2 _
  · exact sound_withTh h2 _
theorem State.wf_shelve (hs : Sound s) (slot : Nat) : Sound (s.shelve slot) := by
  unfold State.shelve
  split
  · exact hs
  · exact sound_withTh (wf_endChain hs _) _
theorem State.wf_reconfigureAll (l : List Nat) (hs : Sound s) : Sound (State.reconfigureAll l s) := by
  induction l generalizing s with
  | nil => exact hs
  | cons k r ih =>
    have h1 := wf_reconfigure hs k
    unfold State.reconfigureAll
    split
    · next e => exact ih (h1.ok_of e)
    · next e => exact h1.error_of e
theorem State.wf_prepareFinish (hs : Sound s) (slot : Nat) : Ends Sound Sound (s.prepareFinish slot) := by
  unfold State.prepareFinish
  dsimp only
  split
  · exact hs
  next x _ =>
  refine .ite hs <| (wf_readImage hs x).bind fun p hp => ?_
  split
  · exact wf_postChbreak (wf_endChain hs _) _ _
  next img s1 =>
  have h1 : Sound s1 := hp
  split
  · exact wf_postChbreak (wf_endChain h1 _) _ _
  next l _ =>
  have h2 := sound_ite (c := (s1.banksOf (s.cur, slot) s1.th.group).isEmpty = true)
    (wf_joinClaims h1 (s.cur, slot) s1.th.group l) h1
  exact .ite h2 (wf_updSlot h2 _ _)
theorem State.wf_firstReady (hs : Sound s) (slot : Nat) (x : Slot) (run : Run) (l : List (Frame × Nat)) :
    ∀ t ∈ s.firstReady slot x run l, Ends Exn.Sound (fun p => Sound p.1) t.2 := by
  induction l with
  | nil => exact fun _ ht => nomatch ht
  | cons g r ih =>
    obtain ⟨f, n⟩ := g
    have h1 := wf_nodeMove hs slot none x run n f
    unfold State.firstReady
    split
    · exact ih
    · next p e => exact fun t ht => Option.some.inj ht ▸ h1.ok_of e p rfl
    · next e' e => exact fun t ht => Option.some.inj ht ▸ h1.error_of e
theorem State.wf_endBroken (hs : Sound s) (slot : Nat) (run : Run) : Sound (s.endBroken slot run) := by
  have h1 := wf_acquire (wf_endChain hs (s.cur, slot))
  unfold State.endBroken
  refine sound_ite ?_ hs
  dsimp only
  split
  · exact sound_ite (wf_wrAdvance h1 _ _) h1
  · exact h1
theorem State.wf_endFinish (hs : Sound s) (slot : Nat) (x : Slot) (run : Run) : Sound (s.endFinish slot x run) :=
  have h1 := wf_endBroken (wf_completeRun hs slot x run) slot run
  sound_ite (wf_reconfigureAll _ (wf_foldl h1 fun _ k ht => wf_shelve ht k)) h1
theorem State.wf_stageProg (hs : Sound s) (f : Option Frame) (p : Progress) : Sound (s.stageProg f p) := by
  unfold State.stageProg
  split <;> exact hs
theorem wf_finishStep (hs : Sound s) (slot : Nat) (x : Slot) (run : Run) : OSound (finishStep slot x run s) := by
  have h1 := State.wf_firstReady hs slot x run x.frames.zipIdx
  unfold finishStep
  split
  · exact State.wf_endFinish hs _ _ _
  split
  · show Sound _
    split <;> exact hs
  · next n t p e =>
    have h2 : Sound t := h1 _ e
    have h3 := State.wf_updSlot (State.wf_stageProg h2 x.frames[n]? p) (s.cur, slot) fun y => { y with run := y.run.map fun q => q.put n p }
    show Sound _
    split <;> exact h3
  · exact State.wf_takeTrap _ _ (State.wf_stageProg hs _ _)
  · exact hs
  · trivial
theorem State.wf_parkFinish (hs : Sound s) (waits : Bool) : Sound (s.parkFinish waits) :=
  sound_ite (sound_withTh hs _) <| sound_ite (sound_withTh hs _) hs
theorem State.wf_finishNext (hs : Sound s) : OSound s.finishNext := by
  unfold State.finishNext
  split
  · next k _ _ =>
    have h1 := wf_prepareFinish hs k
    split
    · next e => exact wf_parkFinish (h1.ok_of e) _
    · next e => exact wf_parkFinish (h1.error_of e) _
  split
  · split
    · split
      · split
        · exact wf_drain hs _
        · exact wf_finishStep hs _ _ _
      · exact hs
    · exact hs
  · split
    · exact wf_parkFinish (wf_reconfigureAll _ hs) _
    · exact hs

end Sys2Proof.Machine

namespace Sys2Proof.Machine
variable {s : State}

/-! ## Sys2Proof/Machine/Context.lean -/

theorem wf_doubleOn {α : Type} {P : α → Prop} (hs : Sound s) (code a : Nat) : Ends Exn.Sound P (doubleOn s code a) := hs
theorem State.wf_saveLocs (hs : Sound s) (a n : Nat) (k : AKind) : Ends Exn.Sound (fun p => Sound p.2) (s.saveLocs a n k) := by
  have h1 := wf_locateAll hs .v s.th.level false 8 k ((List.range ((n + 7) / 8)).map fun i => (0, (a + 8 * i) % 2 ^ 64))
  unfold State.saveLocs
  dsimp only
  split
  · exact wf_doubleOn h1 _ _
  split
  · exact wf_doubleOn h1 _ _
  split
  · exact wf_doubleOn h1 _ _
  split
  · exact .error (wf_accTrap h1 _ _ _ _ _)
  · exact .ok h1
theorem State.wf_loadArea (hs : Sound s) (a n : Nat) : Ends Exn.Sound (fun p => Sound p.2) (s.loadArea a n) := by
  refine (wf_saveLocs hs a n .read).bind fun p h1 => ?_
  dsimp only
  split
  · exact wf_doubleOn h1 _ _
  · exact .ok (wf_noteReads h1 _)
theorem State.wf_drainContext (hs : Sound s) : Sound (s.drainContext) :=
  State.wf_updCore _ _ _ (wf_foldl (wf_breakAll (wf_endStrips hs _) _) fun _ k ht => wf_drain ht (s.cur, k.1)) fun _ => rfl
theorem State.wf_releaseChains (hs : Sound s) (h : Nat) : Sound (s.releaseChains h) := by
  refine wf_foldl (wf_foldl hs fun _ k ht => ?_) fun _ k ht => wf_leaveClaims ht (h, k)
  exact wf_foldl (wf_endChain ht (h, k.1)) fun _ _ hu => wf_setQueue hu _ _ _
theorem State.wf_releaseStreams (hs : Sound s) (h : Nat) : Sound (s.releaseStreams h) := s.wf_updCore _ _ hs fun _ => rfl
theorem State.wf_releaseContext (hs : Sound s) : Sound (s.releaseContext) :=
  sound_withTh (wf_releaseLanes (wf_detach (wf_releaseStreams (wf_releaseChains hs _) _) _) _) _
theorem State.wf_restoreLanes (hs : Sound s) (f : Nat) : OptSound (s.restoreLanes f) := by
  have h1 := fun x => wf_setLat hs s.core s.thr x
  exact .ite (.ite (.some (wf_releaseLanes (h1 _) _)) .none) (.ite .none (.some (wf_grant (h1 _) _)))
theorem State.wf_restoreRegs (hs : Sound s) (f : Nat) : Sound (s.restoreRegs f) := sound_withTh hs _
theorem State.wf_restoreState (hs : Sound s) (x : Saved) : OptSound (s.restoreState x) :=
  .ite .none (.some (sound_withTh (wf_restoreRegs (wf_fillRegs (sound_withTh hs _) _) _) _))
theorem State.wf_restoreMatrix (hs : Sound s) (x : Saved) : OptSound (s.restoreMatrix x) := by
  have h1 := wf_attach hs (bits x.matrix 8 7)
  unfold State.restoreMatrix
  refine .ite (.ite .none fun t ht => ?_) (.some hs)
  obtain ⟨u, -, rfl⟩ := Option.map_eq_some_iff.1 ht
  exact wf_loadImage h1 _ _ _
theorem State.wf_restoreChannel (hs : Sound s) (f : Nat) (xs : List (Nat × Xfer)) (c : Nat) :
    Ends OptExnSound Sound (s.restoreChannel f xs c) := by
  unfold State.restoreChannel
  refine .ite (.ite (.error .none) <| .ite (.error (.some (hs : Sound s))) <| .ok ?_) (.ok hs)
  refine wf_setChan ?_ _ _ _
  exact s.wf_updCore _ _ hs fun _ => rfl
theorem State.wf_restoreRing (hs : Sound s) (f n : Nat) : Ends OptExnSound Sound (s.restoreRing f n) := by
  unfold State.restoreRing
  refine .ite (.ite (.error .none) <| .ok ?_) (.ok hs)
  refine wf_setChan (wf_setRing ?_ _ _ _) _ _ _
  exact s.wf_updCore _ _ hs fun _ => rfl
theorem State.wf_restoreStreams (hs : Sound s) (x : Saved) : Ends OptExnSound Sound (s.restoreStreams x) := by
  refine Ends.bind (P := fun _ => True) ?_ fun xs _ =>
    (Ends.foldlM _ hs fun t c ht => wf_restoreChannel ht _ _ _).bind fun s1 h1 =>
      (Ends.foldlM _ h1 fun t r ht => wf_restoreRing ht _ _).bind fun s2 h2 => .ite (.error .none) (.ok h2)
  split
  · trivial
  · exact .error .none
theorem State.wf_savedQueueCore (hs : Sound s) (slots : List (Nat × Slot)) (r : Nat) :
    Ends OptExnSound (fun _ => True) (s.savedQueueCore slots r) := by
  unfold State.savedQueueCore
  split
  · exact .error .none
  next p _ =>
  have h1 := wf_fetchArea hs .v false p.2.image.toNat (32 * p.2.nframes) 5
  split
  · exact .error .none
  · next e => exact .error (.some (h1.error_of e))
  · split
    · exact .error .none
    · trivial
theorem State.wf_refill (hs : Sound s) (x : Nat × Nat) : Ends OptExnSound Sound (s.refill x) := by
  unfold State.refill
  exact .ite (.error .none) (.ok (wf_setQueue hs _ _ _))
theorem State.wf_restoreChains (hs : Sound s) (x : Saved) : Ends OptExnSound Sound (s.restoreChains x) := by
  refine (Ends.mapM _ fun r => wf_savedQueueCore hs _ r).bind fun cores _ =>
    (Ends.foldlM _ hs fun t q ht => wf_refill ht q).bind fun s1 h1 => .ok ?_
  exact sound_withTh h1 _
theorem State.wf_restoreVersion (hs : Sound s) : Sound (s.restoreVersion) := sound_ite (sound_withTh hs _) (sound_withTh hs _)

end Sys2Proof.Machine

namespace Sys2Proof.Machine
variable {s : State}

/-! ## Sys2Proof/Machine/Objects.lean -/

theorem State.wf_reply (hs : Sound s) (type opa stat vi tag addr : Nat) (data : List Byte) :
    Sound (s.reply type opa stat vi tag addr data) := hs
theorem State.wf_hubNote (hs : Sound s) (part type opa : Nat) (l : Loc) (data : List Byte) : Sound (s.hubNote part type opa l data) := by
  unfold State.hubNote
  split
  · exact wf_noteFor hs _ _ _ _ _ _
  · exact hs
theorem State.wf_hubAsk (hs : Sound s) (part : Nat) (e : AErr) : Sound (s.hubAsk part e) := by
  unfold State.hubAsk
  split
  · exact wf_askFrom hs _ _ _
  · exact wf_askHost hs _ _ _ _
  · exact hs
theorem State.wf_hubRead (hs : Sound s) (part : Nat) (root : Word) (a n : Nat) :
    Ends (fun _ => True) (fun p => Sound p.2) (s.hubRead part root a n) := by
  unfold State.hubRead
  split
  · trivial
  · exact .ite (.error trivial) (.ok (wf_hubNote hs _ _ _ _ _))
theorem State.wf_hubLines (hs : Sound s) (part : Nat) (root : Word) (a k : Nat) :
    Ends (fun _ => True) (fun p => Sound p.2) (s.hubLines part root a k) := by
  induction k generalizing s a with
  | zero => exact hs
  | succ k ih =>
    have h1 := wf_hubRead hs part root a 64
    unfold State.hubLines
    split
    · trivial
    next s1 e =>
      have h1 : Sound s1 := h1.ok_of e
      have h2 := ih h1 (a + 64)
      split
      · trivial
      · next s2 e =>
        have h3 : Sound s2 := h2.ok_of e
        exact .ok h3
theorem State.wf_hubBytes (hs : Sound s) (part : Nat) (root : Word) (a n : Nat) :
    Ends (fun _ => True) (fun p => Sound p.2) (s.hubBytes part root a n) := by
  have h1 := wf_hubLines hs part root (a / 64 * 64) ((a + n + 63) / 64 - a / 64)
  refine .ite (.ok hs) ?_
  split
  · trivial
  · next s1 e =>
    have h2 : Sound s1 := h1.ok_of e
    exact .ok h2
theorem State.wf_fillPieces (hs : Sound s) (l : List Loc) (b : List Byte) : Sound (s.fillPieces l b) := by
  induction l generalizing s b with
  | nil => exact hs
  | cons x r ih => exact ih (wf_storeLoc s x 8 _ hs) _
theorem State.wf_placeSegments (hs : Sound s) (part : Nat) (root obj : Word) (i : Image) :
    ∀ t ∈ (s.placeSegments part root obj i), Sound t.2 := by
  intro t ht
  unfold State.placeSegments at ht
  split at ht
  · cases ht
  split at ht
  · cases ht
  · obtain rfl := Option.some.inj ht
    exact wf_fillPieces (wf_fillPieces hs _ _) _ _
theorem State.wf_takeImage (hs : Sound s) (part : Nat) (root obj : Word) (i : Image) : Sound (s.takeImage part root obj i).2 := by
  unfold State.takeImage
  split
  · next e => exact wf_placeSegments hs _ _ _ _ _ e
  · exact hs
theorem State.wf_loaderRead (hs : Sound s) (part : Nat) (root : Word) (a n : Nat) :
    Ends (fun _ => True) (fun p => Sound p.2) (s.loaderRead part root a n) := by
  have h1 := wf_hubBytes hs part root a n
  unfold State.loaderRead
  split
  · next s1 e =>
    have h2 : Sound s1 := h1.ok_of e
    exact .ok h2
  · exact .ite (.error trivial) (.ok hs)
theorem State.wf_readEntry (hs : Sound s) (part : Nat) (root obj : Word) (e : Nat) :
    Ends (fun _ => True) (fun p => Sound p.2) (s.readEntry part root obj e) := by
  unfold State.readEntry
  extract_lets off len
  have h1 := wf_loaderRead hs part root (obj.toNat + off) 64
  refine .ite (.ok hs) ?_
  split
  · trivial
  · next s1 e1 =>
    have h2 : Sound s1 := h1.ok_of e1
    exact .ok h2
  · next hb s1 e1 =>
    have h2 : Sound s1 := h1.ok_of e1
    have h3 := fun a n => wf_loaderRead h2 part root a n
    refine .ite (.ok h2) ?_
    split
    · trivial
    · next s2 e2 =>
      have h4 : Sound s2 := (h3 _ _).ok_of e2
      exact .ok h4
    · next s2 e2 =>
      have h4 : Sound s2 := (h3 _ _).ok_of e2
      exact .ok h4
theorem State.wf_readEntries (hs : Sound s) (part : Nat) (root obj : Word) (l : List Nat) :
    Ends (fun _ => True) (fun p => Sound p.2.2) (s.readEntries part root obj l) := by
  induction l generalizing s with
  | nil => exact hs
  | cons e r ih =>
    have h1 := wf_readEntry hs part root obj e
    unfold State.readEntries
    split
    · trivial
    next s1 e1 =>
      have h1 : Sound s1 := h1.ok_of e1
      have h2 := ih h1
      split
      · trivial
      · next s2 e2 =>
        have h3 : Sound s2 := h2.ok_of e2
        exact .ok h3
theorem State.wf_selectZpf (hs : Sound s) (part : Nat) (root obj : Word) (h : Nat) :
    Ends (fun _ => True) (fun p => Sound p.2) (s.selectZpf part root obj h) := by
  have h1 := wf_loaderRead hs part root (obj.toNat + bits h 64 64) (bits h 128 64)
  refine .ite (.ok hs) ?_
  split
  · trivial
  · next s1 e =>
    have h2 : Sound s1 := h1.ok_of e
    exact .ok h2
  next s1 e =>
  have h2 : Sound s1 := h1.ok_of e
  split
  · exact .ok h2
  dsimp only
  split
  · exact .ok (wf_takeImage h2 _ _ _ _)
  · exact .ok h2
theorem State.wf_selectImage (hs : Sound s) (part : Nat) (root obj : Word) (space : Image → Option Nat) :
    Ends (fun _ => True) (fun p => Sound p.2) (s.selectImage part root obj space) := by
  have h1 := wf_loaderRead hs part root obj.toNat 64
  unfold State.selectImage
  split
  · trivial
  · next e => exact h1.ok_of e
  next hb s1 e =>
  have h1 : Sound s1 := h1.ok_of e
  refine .ite (.ok h1) <| .ite (.ok h1) <| .ite (.ok h1) ?_
  have h2 := wf_loaderRead h1 part root (obj.toNat + bits (natOf hb) 192 64) (64 * bits (natOf hb) 48 16)
  split
  · trivial
  · next e => exact h2.ok_of e
  next db s2 e =>
  have h2 : Sound s2 := h2.ok_of e
  have h3 := wf_readEntries h2 part root obj ((List.range (bits (natOf hb) 48 16)).map fun k => field db (64 * k) 64)
  split
  · trivial
  next l ds s3 e =>
  have h3 : Sound s3 := h3.ok_of e
  refine .ite (.ok h3) ?_
  split
  · exact wf_selectZpf h3 _ _ _ _
  split
  · exact .ok (wf_takeImage h3 _ _ _ _)
  · exact .ok h3

end Sys2Proof.Machine

namespace Sys2Proof.Machine
variable {s : State}

/-! ## Sys2Proof/Machine/Launch.lean -/

theorem State.wf_post (hs : Sound s) (h b : Nat) : Sound (s.post h b) := sound_ite (wf_setTh hs _ _) hs
theorem State.wf_reserve (hs : Sound s) (n : Nat) (l : Launch) (h : Shape) (entry : Nat) (at_ : Nat × List Nat) :
    Sound (s.reserve n l h entry at_) := by
  unfold State.reserve
  extract_lets gid g s1
  have h1 : Sound s1 := wf_foldl hs fun t c ht =>
    wf_setCore ht _ (SMap.set_all _ _ _ (fun a : Alloc => a.mem.wf) (wf_getCore ht _) rfl)
  exact sound_setGroup h1 gid (g := g) rfl
theorem State.wf_report (hs : Sound s) (n : Nat) (l : Launch) (w : Nat) : Sound (s.report n l w) := by
  unfold State.report
  dsimp only
  split
  · exact hs
  · exact sound_ite hs (State.wf_hubPut _ _ _ _ _ (sound_ite hs hs))
  · exact s.wf_hubPut _ _ _ _ hs
theorem State.wf_intake (hs : Sound s) (part vi owner a : Nat) : Ends (fun _ => True) (fun p => Sound p.2) (s.intake part vi owner a) := by
  have h1 := wf_hubRead hs part (s.vis.get vi {}).env.root a 64
  unfold State.intake
  split
  · exact .ite (.error trivial) (.ok hs)
  next s1 e =>
  have h2 : Sound s1 := h1.ok_of e
  have h3 : Sound { s1 with nextLaunch := s1.nextLaunch + 1 } := h2
  refine .ite (.ok h2) ?_
  dsimp only
  split
  · split
    · trivial
    · exact .ok (wf_report h3 _ _ _)
  · exact .ite (.ok h2) (.ok h3)
theorem State.wf_holdHost (hs : Sound s) (t : Transaction) : Sound (s.holdHost t) := hs
theorem State.wf_fillBytes (hs : Sound s) (l : Launch) (i : Image) : Ends (fun _ => True) (fun p => Sound p.2.2) (s.fillBytes l i) := by
  have h1 := wf_hubBytes hs l.part (s.envOf l).root (s.envOf l).rtAddr.toNat (s.envOf l).rtLen
  unfold State.fillBytes
  dsimp only
  split
  · trivial
  next s1 e1 =>
  have h2 : Sound s1 := h1.ok_of e1
  split
  · trivial
  next s2 e2 =>
  have h3 : Sound s2 := by
    split at e2
    · exact (wf_hubBytes h2 _ _ _ _).ok_of e2
    · cases e2
      exact h2
  exact .ok h3
theorem State.wf_loadStore (hs : Sound s) (l : Launch) (i : Image) (c : Nat) : Ends (fun _ => True) Sound (s.loadStore l i c) := by
  have hmem : ∀ (b : List (Byte × Nat)) (m : Memory), m.wf = true → (b.foldl (fun m x => Memory.write m x.2 x.1) m).wf = true :=
    fun b m hm => List.foldlRecOn (motive := fun m : Memory => m.wf = true) b _ hm fun m hm x _ => Memory.wf_write m _ _ hm
  have h1 := wf_fillBytes hs l i
  unfold State.loadStore
  refine .ite (.ok hs) ?_
  split
  · trivial
  · next e => exact .ok (wf_setCluster (h1.ok_of e) _ (hmem _ _ (hmem _ _ rfl)))
theorem State.wf_placeOne (hs : Sound s) (n : Nat) (i : Image) (x : Nat × List Nat) : Ends (fun _ => True) Sound (State.placeOne n i s x) := by
  have h1 := wf_loadStore hs (s.launches.get n {}) i x.1
  unfold State.placeOne
  dsimp only
  split
  · trivial
  · next s1 e =>
    have h2 := wf_reserve (h1.ok_of e) n (s.launches.get n {}) ((s.launches.get n {}).shape i)
      (bits (i.kernel (bits (s.launches.get n {}).record 64 16)) 256 32) x
    exact .ok h2
theorem State.wf_dropHead (hs : Sound s) (part q : Nat) : Sound (s.dropHead part q) := hs
theorem State.wf_refuseHead (hs : Sound s) (part q n st det : Nat) : Sound (s.refuseHead part q n st det) :=
  have h1 := wf_dropHead (wf_report hs n (s.launches.get n {}) (complWord st det 0 0 0)) part q
  h1
theorem State.wf_tryRefuse (hs : Sound s) (part q n st det : Nat) : Ends (fun _ => True) Sound (s.tryRefuse part q n st det) := by
  unfold State.tryRefuse
  split
  · trivial
  · exact .ok (wf_refuseHead hs _ _ _ _ _)
theorem State.wf_serve (hs : Sound s) (part : Nat) (x : Nat × LQueue × Nat × Verdict) :
    Ends (fun _ => True) Sound (s.serve part x) := by
  unfold State.serve
  dsimp only
  split
  · exact wf_tryRefuse hs _ _ _ _ _
  next ps _ =>
    split
    · exact .ok hs
    next i _ =>
    have h1 : Ends (fun _ => True) Sound (ps.foldlM (State.placeOne x.2.2.1 i) s) := .foldlM _ hs fun t y ht => wf_placeOne ht _ _ _
    split
    · trivial
    · exact wf_tryRefuse hs _ _ _ _ _
    · next e => exact .ok (sound_ite (wf_dropHead (h1.ok_of e) _ _) (h1.ok_of e))
  · exact .ok hs
theorem State.wf_adopt (hs : Sound s) (part : Nat) : Sound (s.adopt part) := by
  refine wf_foldl hs fun t q ht => ?_
  split
  · exact ht
  dsimp only
  split
  · exact ht
  · exact ht
theorem State.wf_askHeads (hs : Sound s) (part : Nat) : Sound (s.askHeads part) := wf_foldl hs fun _ e ht => wf_hubAsk ht part e
theorem State.wf_startThread (hs : Sound s) (gid : Nat) (g : Group) (l : Launch) (tid h : Nat) : Sound (s.startThread gid g l tid h) :=
  wf_setTh hs _ _
theorem State.wf_copyTile (hs : Sound s) (gid : Nat) (g : Group) (first : Nat) (b : List Byte) : Sound (s.copyTile gid g first b) :=
  wf_foldl hs fun t _ ht => t.wf_setAlloc _ _ _ ht (Memory.wf_write _ _ _ (t.wf_alloc _ _ ht))
theorem State.wf_startUnit (hs : Sound s) (gid : Nat) (g : Group) (l : Launch) (j first : Nat) : Sound (s.startUnit gid g l j first) :=
  wf_foldl hs fun _ _ ht => wf_startThread ht _ _ _ _ _
theorem State.wf_markFailed (hs : Sound s) (part : Nat) (root : Word) (rec_ : Nat) : Sound (s.markFailed part root rec_) := by
  have h1 := wf_hubRead hs part root (rec_ + 8) 8
  unfold State.markFailed
  split
  · exact hs
  next e =>
  have h1 := h1.ok_of e
  split
  · exact h1
  · exact sound_ite h1 (wf_hubNote (wf_storeLoc _ _ _ _ h1) _ _ _ _ _)
theorem State.wf_dropTransfers (hs : Sound s) (h : Nat) : Sound (s.dropTransfers h) :=
  State.wf_updCore _ _ _ (wf_endStrips hs h) fun _ => rfl
theorem State.wf_settle (hs : Sound s) (h : Nat) : Sound (s.settle h) := by
  unfold State.settle
  extract_lets th part s1 s2 s3 mates s4
  have h2 : Sound s2 := wf_dropTransfers (wf_foldl (wf_breakAll hs h) fun _ k ht => wf_drain ht (h, k.1)) h
  have h3 : Sound s3 := sound_ite h2 (wf_markFailed h2 _ _ _)
  have h4 : Sound s4 := wf_foldl h3 fun _ _ ht => wf_setTh ht _ _
  have h5 := fun t => wf_setTh h4 h t
  exact h5 _
theorem State.wf_endGroup (hs : Sound s) (gid : Nat) (g : Group) (failed : Bool) : Sound (s.endGroup gid g failed) := by
  unfold State.endGroup
  extract_lets cores s1 l
  have h1 : Sound s1 := wf_foldl hs fun t c ht =>
    wf_setCore ht _ (SMap.erase_all _ (p := fun a : Alloc => a.mem.wf) (wf_getCore ht _))
  obtain ⟨-, -, -, -, hgroups⟩ := (wf_iff s1).1 h1
  exact sound_withGroups h1 _ (SMap.erase_all gid (p := fun g : Group => g.savedAllocs.all fun a => a.mem.wf) hgroups)
theorem State.wf_retire (hs : Sound s) (h : Nat) (failed : Bool) : Sound (s.retire h failed) := by
  unfold State.retire
  extract_lets gid s1 s2 g g1 s3
  have h1 : Sound s1 := wf_detach (wf_releaseStreams (wf_releaseChains hs _) _) _
  have h2 : Sound s2 := wf_releaseLanes (wf_setTh h1 _ _) _
  have h3 : Sound s3 := sound_setGroup h2 gid (g := g1) (sound_get_groups h2 gid)
  exact wf_releaseChannelWaits (sound_ite (wf_endGroup h3 _ _ _) h3) _
theorem State.wf_completeLaunch (hs : Sound s) (launch : Nat) : Sound (s.completeLaunch launch) := by
  unfold State.completeLaunch
  extract_lets l left s1 s2 st s3
  have h1 : Sound s1 := sound_mapCores hs _ fun _ hx => hx
  have h2 : Sound s2 := wf_foldl h1 fun t r ht => wf_markFailed ht _ _ _
  have h3 : Sound s3 := sound_ite h2 (wf_report h2 _ _ _)
  exact h3

end Sys2Proof.Machine

namespace Sys2Proof.Machine
variable {s : State}

/-! ## Sys2Proof/Machine/Migrate.lean -/

theorem State.wf_copyPage (hs : Sound s) (fromHost : Bool) (fromPa : Nat) (toHost : Bool) (toPa : Nat) :
    Sound (s.copyPage fromHost fromPa toHost toPa) := by
  refine wf_foldl hs fun t k ht => ?_
  have h1 := fun x => t.wf_put (frameLoc toHost toPa (8 * k)) 8 x ht
  exact sound_ite (State.wf_poisonAt _ _ (h1 _)) (h1 _)
theorem State.wf_breakPage (hs : Sound s) (host : Bool) (pa : Nat) : Sound (s.breakPage host pa) := hs
theorem State.wf_releaseHost (hs : Sound s) : Sound (s.releaseHost) := hs
theorem State.wf_releaseMigrate (hs : Sound s) (leaf : Nat) : Sound (s.releaseMigrate leaf) := by
  refine wf_releaseHost (wf_foldl hs fun t h ht => ?_)
  dsimp only
  split
  · exact sound_ite (wf_setTh ht _ _) ht
  · exact ht
theorem State.wf_splice (hs : Sound s) (vi leaf e va : Nat) (toHost : Bool) (newPa : Nat) : Sound (s.splice vi leaf e va toHost newPa) := by
  unfold State.splice
  extract_lets m s1
  have h1 : Sound s1 := wf_breakPage (wf_copyPage hs _ _ _ _) _ _
  clear_value s1
  exact h1
theorem State.wf_acceptMigration (hs : Sound s) (vi leaf e va : Nat) (toHost : Bool) : Sound (s.acceptMigration vi leaf e va toHost) := by
  unfold State.acceptMigration
  extract_lets s1 f s2
  have h1 : Sound s1 := wf_splice hs _ _ _ _ _ _
  have h2 : Sound s2 := wf_splice hs _ _ _ _ _ _
  clear_value s1 s2
  exact sound_ite h1 h2
theorem State.wf_clearMig (hs : Sound s) (leaf : Nat) : Sound (s.clearMig leaf) :=
  sound_mapCores hs _ fun _ hx => hx
theorem State.wf_forget (hs : Sound s) (leaf : Nat) : Sound (s.forget leaf) := wf_invalidate hs _ _
theorem State.wf_decideRequest (hs : Sound s) (r : MigRequest) : Sound (s.decideRequest r) :=
  sound_ite hs <| sound_ite (wf_releaseMigrate (wf_forget hs _) _) <|
    sound_ite (wf_releaseMigrate (wf_clearMig (s.wf_storeLoc _ _ _ hs) _) _) (wf_acceptMigration hs _ _ _ _ _)
theorem State.wf_serveRequests (hs : Sound s) (l : List MigRequest) : Sound (s.serveRequests l) := by
  refine wf_foldl hs fun t r ht => wf_decideRequest ?_ r
  exact ht
theorem State.wf_poolBack (hs : Sound s) (host : Bool) (pa : Nat) : Sound (s.poolBack host pa) := by
  unfold State.poolBack
  split <;> exact hs

end Sys2Proof.Machine

namespace Sys2Proof.Machine
variable {s : State}

/-! ## Sys2Proof/Machine/Task.lean -/

theorem wf_qwr (hs : Sound s) (d a : BitVec 5) : Ends Exn.Sound Sound (qwr d a s) :=
  .ite (wf_illegal hs 0) <| .ite (.error hs) (.ok (State.wf_advance (State.wf_qPush hs _ _ _)))
theorem wf_qrd (hs : Sound s) (d a : BitVec 5) : Ends Exn.Sound Sound (qrd d a s) := by
  refine .ite (wf_illegal hs 0) ?_
  split
  · exact .error hs
  · exact .ok (State.wf_wrAdvance (State.wf_qPop hs _ _ _) _ _)
theorem State.wf_setDeque (hs : Sound s) (core : Nat) (l : List (Word × Nat)) : Sound (s.setDeque core l) := s.wf_updCore _ _ hs fun _ => rfl
theorem State.wf_probe (hs : Sound s) (core launch level : Nat) :
    (∀ p ∈ (s.probe core launch level).1, Sound p.2) ∧ Sound (s.probe core launch level).2 := by
  unfold State.probe
  dsimp only
  have h1 : ∀ g, Sound (s.updCore core fun c => { c with stealGen := g }) := fun _ => s.wf_updCore _ _ hs fun _ => rfl
  by_cases he : (s.candidates core level).isEmpty = true
  · rw [if_pos he]
    exact ⟨fun _ h => (nomatch h), hs⟩
  rw [if_neg he]
  split
  · exact ⟨fun _ h => (nomatch h), h1 _⟩
  · exact ⟨fun p hp => Option.some.inj hp ▸ wf_setDeque (wf_setDeque (h1 _) _ _) _ _, h1 _⟩
theorem State.wf_probeRound (hs : Sound s) (core launch scope : Nat) (l : List Nat) : Sound (s.probeRound core launch scope l).2 := by
  induction l generalizing s with
  | nil => exact hs
  | cons k r ih =>
    have h1 := wf_probe hs core launch k
    unfold State.probeRound
    split
    · exact hs
    split
    · next e => rw [e] at h1; exact h1.1 _ rfl
    · next e => rw [e] at h1; exact ih h1.2

end Sys2Proof.Machine

namespace Sys2Proof.Machine
variable {s : State}

/-! ## Sys2Proof/Machine/Reduce.lean -/

theorem State.wf_redPut (hs : Sound s) (n : Node) (a k x : Nat) : Sound (s.redPut n a k x) := by
  unfold State.redPut
  split
  · exact s.wf_hubPut _ _ _ _ hs
  · exact hs
theorem State.wf_redNote (hs : Sound s) (n : Node) (a k : Nat) : Sound (s.redNote n a k) := by
  unfold State.redNote
  split
  · exact wf_hubNote hs _ _ _ _ _
  · exact hs
theorem State.wf_putNst (hs : Sound s) (n : Node) (x : Nat) : Sound (s.putNst n x) := wf_redPut hs _ _ _ _
theorem State.wf_arm (hs : Sound s) (k vi desc : Nat) : OptSound (s.arm k vi desc) := by
  unfold State.arm
  dsimp only
  split
  · exact .none
  refine .ite .none (.some (wf_redPut (wf_putNst ?_ _ _) _ _ _ _))
  have h1 := fun n => wf_redNote hs n desc 64
  exact h1 _
theorem State.wf_setPeer (hs : Sound s) (p : Nat) (l : Link) : Sound (s.setPeer p l) := hs
theorem State.wf_sendToken (hs : Sound s) (n : Node) (tag : Nat) (failed : Bool) (data : List Byte) :
    Sound (s.sendToken n tag failed data) := by
  unfold State.sendToken
  split <;> exact hs
theorem State.wf_nodeStatus (hs : Sound s) (n : Node) (f : Nat → Nat) : Sound (s.nodeStatus n f) := by
  unfold State.nodeStatus
  split
  · exact hs
  · exact sound_ite hs (wf_hubNote (s.wf_storeLoc _ _ _ hs) _ _ _ _ _)
theorem State.wf_nodeAsk (hs : Sound s) (n : Node) : Sound (s.nodeAsk n) := by
  unfold State.nodeAsk
  split
  · exact sound_ite (wf_hubAsk hs _ _) hs
  · exact hs
theorem State.wf_carried (hs : Sound s) (port : Nat) : Sound (s.carried port) := sound_ite hs (wf_setLinkSt hs _ _)

end Sys2Proof.Machine

namespace Sys2Proof.Machine
variable {s : State}

/-! ## Sys2Proof/Machine/Link.lean -/

theorem State.wf_setLinkOf (hs : Sound s) (port : Nat) (l : Link) : Sound (s.setLinkOf port l) := by
  unfold State.setLinkOf
  split <;> exact hs
theorem State.wf_flushPeer (hs : Sound s) (port : Nat) : Sound (s.flushPeer port) :=
  have h1 := wf_touchLink hs (.peer port)
  sound_ite hs (sound_ite h1 (wf_setPeer h1 _ _))
theorem State.wf_flushLinks (hs : Sound s) : Sound (s.flushLinks) :=
  have h1 : Sound { s with ksl := s.ksl.flush } := hs
  wf_foldl h1 fun _ p ht => wf_flushPeer ht p
theorem State.wf_requestStep (hs : Sound s) (t : Transaction) : Sound (s.requestStep t).1 := by
  have hno := fun code st vi tag => wf_reply hs 0x31 code st vi tag 0 []
  unfold State.requestStep
  dsimp only
  split
  · exact hno _ _ _ _
  split
  · exact hno _ _ _ _
  split
  · split
    · exact hs
    · exact hno _ _ _ _
  · exact hno _ _ _ _
theorem State.wf_hostStep (hs : Sound s) (t : Transaction) : Sound (s.hostStep t).1 := by
  unfold State.hostStep
  dsimp only
  split
  case h_7 => exact wf_requestStep hs t
  case h_8 => exact wf_reply hs _ _ _ _ _ _ _
  all_goals exact hs
theorem State.wf_peerStep (hs : Sound s) (port : Nat) (t : Transaction) : Sound (s.peerStep port t).1 := by
  unfold State.peerStep
  split
  · exact hs
  · exact wf_requestStep hs t
  · exact hs
theorem State.wf_takeFlit (hs : Sound s) (port f : Nat) : Sound (s.takeFlit port f) := by
  unfold State.takeFlit
  refine List.foldlRecOn (motive := fun p : State × List Instr => Sound p.1) _ _ (wf_setLinkOf hs _ _) fun p hp x _ => ?_
  dsimp only
  split
  · exact wf_hostStep hp x
  · exact wf_peerStep hp port x
theorem State.wf_arrived (hs : Sound s) (port : Nat) : Sound (s.arrived port) := sound_ite hs (wf_carried hs port)
theorem State.wf_releaseLink (hs : Sound s) : Sound (s.releaseLink) := by
  refine wf_releaseHost (wf_foldl hs fun t h ht => ?_)
  dsimp only
  split
  · exact wf_setTh ht _ _
  · exact sound_ite (wf_setTh ht _ _) ht
  · exact ht
theorem State.wf_performHeld (hs : Sound s) : Sound (s.performHeld) := by
  refine wf_foldl ?_ fun t w ht => ?_
  · exact hs
  split
  · exact t.wf_put _ _ _ ht
  · exact t.wf_poisonAt _ ht
/-- A store to host memory keeps it canonical. -/
theorem State.sound_storeHost (hs : Sound s) (a n x : Nat) : Sound { s with host := s.host.store a n x } := by
  obtain ⟨hdram, hhost, hclusters, hcores, hgroups⟩ := (State.wf_iff s).1 hs
  exact (State.wf_iff _).2 ⟨hdram, Memory.wf_store n _ a x hhost, hclusters, hcores, hgroups⟩
theorem State.wf_undoWrite (hs : Sound s) (t : Transaction) : Sound (s.undoWrite t) := by
  unfold State.undoWrite
  extract_lets a
  split
  · exact sound_ite (sound_storeHost hs _ _ _) hs
  · exact hs
theorem State.wf_hostWrite (hs : Sound s) (vi part : Nat) (l : List (Nat × Nat)) (b : List Byte) :
    Ends (fun p => Sound p.2) Sound (s.hostWrite vi part l b) := by
  induction l generalizing s b with
  | nil => exact hs
  | cons p r ih =>
    unfold State.hostWrite
    split
    · exact .error hs
    · exact ih (State.wf_hubPut _ _ _ _ _ hs) _
theorem State.wf_hostAsks (hs : Sound s) (vi part : Nat) (l : List (Nat × Nat)) : Sound (s.hostAsks vi part l) := by
  refine wf_foldl hs fun t p ht => ?_
  split
  · exact wf_hubAsk ht _ _
  · exact ht
theorem State.wf_hostNotes (hs : Sound s) (vi part : Nat) (l : List (Nat × Nat)) : Sound (s.hostNotes vi part l) := by
  refine wf_foldl hs fun t p ht => ?_
  split
  · exact wf_hubNote ht _ _ _ _ _
  · exact ht
theorem State.wf_hostChange (hs : Sound s) (p : Nat) (v : Option Nat) : Sound (s.hostChange p v) := by
  unfold State.hostChange
  extract_lets l s1 s2
  have h1 : Sound s1 := hs
  have h2 : Sound s2 := by
    unfold s2
    split
    · exact sound_storeHost h1 _ _ _
    · exact h1
  split
  · exact State.wf_putBreak _ _ _ _ h2
  · exact State.wf_poisonAt _ _ h2
  · exact h2
theorem State.wf_takeNews (hs : Sound s) : Sound (s.takeNews) := by
  unfold State.takeNews
  split
  · exact hs
  · exact hs
  · next r _ =>
    have h1 : Sound { s with hostNews := r } := hs
    exact wf_hostChange h1 _ _
theorem State.wf_releaseReply (hs : Sound s) (h : Nat) : Sound (s.releaseReply h) := by
  unfold State.releaseReply
  split
  · exact wf_setTh hs _ _
  · exact hs

end Sys2Proof.Machine

namespace Sys2Proof.Machine
variable {s : State}

/-! ## Sys2Proof/Machine/ResMap.lean -/

theorem State.wf_leaveWaiting (hs : Sound s) : Sound (s.leaveWaiting) := by
  unfold State.leaveWaiting
  split
  · exact wf_leaveClaims hs _
  · exact hs
theorem State.wf_writeView (hs : Sound s) (part ver : Nat) (sel : Bool) : Sound (s.writeView part ver sel) :=
  State.wf_putDwords _ _ _ _ (s.wf_putDwords _ _ _ hs)
theorem State.wf_breakWhere (hs : Sound s) (p : Frame → Bool) : Sound (s.breakWhere p) :=
  wf_foldl hs fun _ h ht => wf_foldl ht fun _ k hu => sound_ite (wf_breakChain hu (h, k.1)) hu
theorem State.wf_setPhys (hs : Sound s) (n : Nat) (p : PhysCore) : Sound (s.setPhys n p) := hs
theorem State.wf_dropLane (hs : Sound s) (n lg : Nat) : Sound (s.dropLane n lg) := by
  unfold State.dropLane
  extract_lets p spare s1
  have h1 : Sound s1 := wf_setPhys hs _ _
  clear_value s1
  split
  · exact h1
  next c _ =>
    have h2 := sound_ite (c := s1.laneOwner c lg = .free) (wf_setLane h1 c lg .dead) h1
    exact wf_shares (wf_breakWhere (sound_ite (wf_setLane h2 _ _ _) h2) _) _
theorem State.wf_renumber (hs : Sound s) (r : Nat → Nat) : Sound (s.renumber r) := by
  obtain ⟨hdram, hhost, hclusters, hcores, hgroups⟩ := (State.wf_iff s).1 hs
  refine (State.wf_iff _).2 ⟨hdram, hhost, hclusters, ?_, ?_⟩
  · refine List.foldlRecOn (motive := fun m : SMap Core => (m.all fun c => c.2.allocs.all fun a => a.2.mem.wf) = true) _ _ rfl fun m hm x hx => ?_
    refine SMap.set_all m _ _ (fun k => k.allocs.all fun a => a.2.mem.wf) hm ?_
    rw [List.all_map]
    exact List.all_eq_true.1 hcores x hx
  · unfold State.renumber
    rw [List.all_map]
    exact hgroups
theorem State.wf_swapOut (hs : Sound s) (gid : Nat) (g : Group) : Sound (s.swapOut gid g) := by
  unfold State.swapOut
  extract_lets hs' unit g1 s1 s2
  have h1 : Sound s1 := wf_foldl hs fun t h ht => wf_releaseLanes (wf_setTh ht _ _) _
  have h2 : Sound s2 := wf_foldl h1 fun t c ht =>
    wf_setCore ht _ (SMap.erase_all _ (p := fun a : Alloc => a.mem.wf) (wf_getCore ht _))
  refine sound_setGroup h2 gid (g := g1) (List.all_eq_true.2 fun a ha => ?_)
  obtain ⟨c, -, rfl⟩ := List.mem_map.1 ha
  exact s.wf_alloc c gid hs
theorem State.wf_dropGangs (hs : Sound s) (cores : List Nat) : Sound (s.dropGangs cores) := by
  refine wf_foldl hs fun t g ht => wf_swapOut (wf_foldl ht fun u h hu => ?_) _ _
  exact wf_detach (wf_releaseStreams (wf_releaseChains hu h) h) h
theorem State.wf_dropCore (hs : Sound s) (n : Nat) : Sound (s.dropCore n) := by
  unfold State.dropCore
  split
  · exact hs
  extract_lets c s0 s1 all s2 src s3 spare s4 moves r s5
  clear_value spare
  have h1 : Sound s1 := wf_breakWhere (wf_dropGangs hs _) _
  have h2 : Sound s2 := wf_foldl h1 fun t o ht => t.wf_updCore _ _ ht fun _ => rfl
  have h3 : Sound s3 := wf_setPhys h2 _ _
  have h4 : Sound s4 := by
    unfold s4
    split
    · exact wf_setPhys h3 _ _
    · exact h3
  have h5 : Sound s5 := wf_renumber h4 r
  clear_value s5
  split
  · exact s5.wf_updCore _ _ h5 fun _ => rfl
  · exact h5
theorem State.wf_withdraw (hs : Sound s) (u : UnitRef) : Sound (s.withdraw u) := by
  cases u with
  | laneGroup n lg =>
    have h1 := wf_dropLane hs n lg
    exact h1
  | core n =>
    have h1 := wf_dropCore hs n
    exact h1
  | _ => exact hs
theorem State.wf_evacuate (hs : Sound s) (ch : Nat) : Sound (s.evacuate ch) := by
  refine wf_foldl hs fun t x ht => ?_
  split
  · exact ht
  refine sound_ite ht (wf_splice ?_ _ _ _ _ _ _)
  exact ht
theorem State.wf_reach (hs : Sound s) (u0 : UnitRef) : Sound (s.reach u0) := by
  unfold State.reach
  refine sound_ite hs ?_
  dsimp only
  split
  · refine wf_foldl ?_ fun _ h ht => wf_post ht h 1
    exact hs
  · exact hs
theorem State.wf_postUncorr (hs : Sound s) (h cls : Nat) : Sound (s.postUncorr h cls) := sound_ite (wf_setTh hs _ _) hs
theorem State.wf_deliver (hs : Sound s) (h : Nat) : Sound (s.deliver h) := sound_ite (wf_setTh hs _ _) hs

end Sys2Proof.Machine

namespace Sys2Proof.Machine
variable {s : State}

/-! ## Sys2Proof/Machine/Power.lean -/

theorem State.wf_capLinks (hs : Sound s) (p : Partition) (on : Bool) : Sound (s.capLinks p on) :=
  wf_foldl hs fun _ _ ht => wf_setLinkSt ht _ _
theorem State.wf_markCause (hs : Sound s) (part cause : Nat) : Sound (s.markCause part cause) := by
  have h1 := wf_foldl (l := s.threadsOf part) hs fun t h ht => wf_setTh ht h { t.getTh h with thrcause := cause }
  exact h1
theorem State.wf_setPart (hs : Sound s) (part : Nat) (p : Partition) : Sound (s.setPart part p) := hs
theorem State.wf_throttle (hs : Sound s) (part cause : Nat) : Sound (s.throttle part cause) := by
  unfold State.throttle
  extract_lets p p1 s1 s2 s3
  have h1 : Sound s1 := wf_setPart hs _ _
  have h3 : Sound s3 := wf_markCause (sound_ite (wf_capLinks h1 _ _) h1) part cause
  clear_value s3
  exact sound_ite hs h3
theorem State.wf_capPart (hs : Sound s) (part : Nat) : Sound (s.capPart part) :=
  wf_foldl hs fun _ _ ht => sound_ite (wf_throttle ht _ _) ht
theorem State.wf_capRank (hs : Sound s) (rank : Nat) : Sound (s.capRank rank) :=
  wf_foldl hs fun _ _ ht => wf_foldl ht fun _ _ hu => sound_ite (wf_throttle hu _ _) hu
theorem State.wf_mapClock (hs : Sound s) (die : Nat) : Sound (s.mapClock die) := hs
theorem State.wf_undo (hs : Sound s) (e : Nat × Nat) : Sound (s.undo e) := by
  have h1 := fun p => wf_setPart hs e.1 p
  refine sound_ite (wf_mapClock ?_ _) <| sound_ite (h1 _) <| sound_ite (wf_capLinks (h1 _) _ _) (h1 _)
  exact hs
theorem State.wf_ignoreFrame (hs : Sound s) : Sound (s.ignoreFrame) := hs
theorem State.wf_emergency (hs : Sound s) (part shed : Nat) : Sound (s.emergency part shed) := wf_foldl hs fun _ _ ht => wf_setTh ht _ _

end Sys2Proof.Machine

namespace Sys2Proof.Machine
variable {s : State}

/-! ## Sys2Proof/Machine/Mgmt.lean -/

theorem State.wf_answer (hs : Sound s) (code stat : Nat) (src : MgmtSrc) (data : List Byte) : Sound (s.answer code stat src data) := by
  unfold State.answer
  extract_lets ps
  split
  · exact wf_foldl hs fun t p ht => wf_reply ht _ _ _ _ _ _ _
  · exact hs
/-- The body of a request leaves a sound state sound. -/
def BodyKeeps (body : State → Answered) : Prop := ∀ s, Sound s → Ends (fun _ => True) (fun p => Sound p.1) (body s)
theorem State.wf_serveRequest (hs : Sound s) (code : Nat) (src : MgmtSrc) {body : State → Answered} (hb : BodyKeeps body) :
    Sound (s.serveRequest code src body) := by
  have h1 := hb s hs
  unfold State.serveRequest
  refine sound_ite (wf_answer hs _ _ _ _) ?_
  split
  · next e => exact wf_answer (h1.ok_of e : Sound _) _ _ _ _
  · exact wf_answer hs _ _ _ _
theorem wf_manage (hs : Sound s) (code : Nat) (src : MgmtSrc) {body : State → Answered} (hb : BodyKeeps body) :
    OSound (manage code src body s) := by
  have h1 : ∀ m, Sound { s with mgmt := m } := fun _ => hs
  unfold manage
  split
  · exact .next <| sound_ite (State.wf_serveRequest hs _ _ hb) (State.wf_answer hs _ _ _ _)
  · refine .ite (.next (State.wf_ignoreFrame hs)) <| .ite (.next hs) <| .next ?_
    exact sound_ite (State.wf_serveRequest (h1 _) _ _ hb) <| sound_ite (State.wf_answer (h1 _) _ _ _ _) hs
theorem State.wf_abortPart (hs : Sound s) (part : Nat) : Sound (s.abortPart part) := by
  unfold State.abortPart
  extract_lets l s1 s2 ls s3
  have h1 : Sound s1 := wf_foldl hs fun _ h ht => sound_ite ht (wf_settle ht h)
  have h2 : Sound s2 := wf_foldl h1 fun _ h ht => wf_retire ht h true
  have h3 : Sound s3 := wf_foldl h2 fun _ g ht => wf_endGroup ht g.1 g.2 true
  refine wf_foldl h3 fun t n ht => wf_completeLaunch ?_ n
  exact ht
theorem State.wf_abortAsk (hs : Sound s) (part : Nat) : Sound (s.abortAsk part) := wf_foldl hs fun _ e ht => wf_hubAsk ht part e
theorem State.wf_forgetSteps (hs : Sound s) (part : Nat) (p : Partition) : Sound (s.forgetSteps part p) := by
  have h1 := sound_ite (c := 10 ≤ p.steps) (wf_capLinks hs p false) hs
  exact h1
theorem State.wf_moveCaps (hs : Sound s) (p q : Partition) : Sound (s.moveCaps p q) := sound_ite (wf_capLinks (wf_capLinks hs p false) q true) hs
theorem State.wf_emptyClusters (hs : Sound s) (l : List Nat) : Sound (s.emptyClusters l) :=
  wf_foldl hs fun _ c ht => wf_setCluster ht c rfl
theorem State.wf_seat (hs : Sound s) (first : Nat) (l : List Thread) : Sound (s.seat first l) := wf_foldl hs fun _ _ ht => wf_setTh ht _ _
theorem State.wf_swapIn (hs : Sound s) (gid : Nat) {g : Group} (hg : g.Sound) (cluster : Nat) (firsts : List Nat) :
    Sound (s.swapIn gid g cluster firsts) := by
  unfold State.swapIn
  extract_lets g1 s1 s2 s3
  have h1 : Sound s1 := List.foldlRecOn (motive := Sound) _ _ hs fun t ht x hx =>
    wf_setCore ht _ (SMap.set_all _ _ _ (fun a : Alloc => a.mem.wf) (wf_getCore ht _) (List.all_eq_true.1 hg _ (List.of_mem_zip hx).2))
  have h2 : Sound s2 := wf_foldl h1 fun t c ht => t.wf_updCore _ _ ht fun _ => rfl
  have h3 : Sound s3 := wf_foldl h2 fun t x ht => wf_seat ht _ _
  exact sound_setGroup h3 gid (g := g1) rfl
theorem State.wf_armAsk (hs : Sound s) (vi desc : Nat) : Sound (s.armAsk vi desc) := by
  unfold State.armAsk
  split
  · exact wf_hubAsk hs _ _
  · exact hs
theorem State.wf_capPut (hs : Sound s) (r : CapReg) (x : Nat) : OptSound (s.capPut r x) := by
  unfold State.capPut
  split
  · exact .ite .none (.some hs)
  · split
    · exact .none
    · exact .ite .none (.some (wf_setPart hs _ _))
  · exact .none

end Sys2Proof.Machine

namespace Sys2Proof.Machine
variable {s : State}

/-! ## Sys2Proof/Machine/Issue.lean -/

theorem State.wf_stopMop (hs : Sound s) (c : Cut) (o : MatOp) (a b : BitVec 5) : OptSound (s.stopMop c o a b) := by
  have h1 : Ends Exn.Sound (fun p => Sound p.1) (do
      let t ← s.need
      let _ ← s.matPre o t a b
      s.matFetch o t a b s.th.mprog : M (State × MatIn)) :=
    (wf_need hs).bind fun t _ => (wf_matPre hs o t a b).bind fun _ _ => wf_matFetch hs o t a b _
  unfold State.stopMop
  split
  · exact .none
  next s1 x e =>
  have h2 : Sound s1 := h1.ok_of e
  refine .ite .none ?_
  have h3 := wf_matSteps o x c.after s.th.mprog h2
  split
  · next e => exact .some (by rw [e] at h3; exact h3)
  · exact .none
theorem memberOf_keeps {i : Instr} {f : Bool × (State → VMem)} (e : memberOf i = some f) (t : State) : (f.2 t).Keeps := by
  obtain ⟨w, -, e⟩ := Option.bind_eq_some_iff.1 e
  exact memOfWord_keeps e t
theorem State.wf_stopWithin (hs : Sound s) (c : Cut) (i : Instr) : OptSound (s.stopWithin c i) := by
  unfold State.stopWithin
  split
  · next m e => exact wf_stopMember hs c m.1 (memberOf_keeps e)
  split
  · exact wf_stopMop hs _ _ _ _
  · exact .none
  split
  · intro t ht
    obtain ⟨m, -, rfl⟩ := Option.map_eq_some_iff.1 ht
    exact wf_attachPair hs _ _ _ _ _
  · exact .none
theorem State.wf_pickNext (hs : Sound s) : Sound (s.pickNext) := by
  unfold State.pickNext
  dsimp only
  split
  · exact wf_switchTo hs _
  split
  · exact wf_switchTo hs _
  · exact hs
theorem State.wf_stale (hs : Sound s) : Sound (s.stale) := by
  refine wf_foldl ?_ fun t x ht => t.wf_put _ _ _ ht
  exact hs
theorem State.wf_renew {t : State} (hs : Sound s) (ht : Sound t) : Sound (s.renew t) := by
  refine wf_foldl ht fun u x hu => ?_
  split
  · exact u.wf_setAlloc _ _ _ hu (s.wf_alloc _ _ hs)
  · exact u.wf_put _ _ _ hu
theorem State.wf_lateFrom (hs : Sound s) (i : Instr) : OptSound (s.lateFrom i) := .ite (.some (wf_stale hs)) .none
theorem State.wf_caughtUp (hs : Sound s) (i : Instr) : Sound (s.caughtUp i) := sound_ite hs (wf_caught (sound_ite (wf_upd hs _) hs))
theorem State.wf_afterLate (hs : Sound s) {o : Host.Outcome State Fault Refusal} (ho : OSound o) : OSound (s.afterLate o) := by
  unfold State.afterLate
  split
  · exact wf_upd (wf_renew hs ho) _
  · exact ho

end Sys2Proof.Machine

namespace Sys2Proof.Machine
variable {s : State}

/-! ## Sys2Proof/Machine/Scalar.lean -/

theorem wf_aluRR (hs : Sound s) (op : Word → Word → Word) (d a b : BitVec 5) : OSound (aluRR op d a b s) := .next (State.wf_wrAdvance hs _ _)
theorem wf_aluRI (hs : Sound s) (op : Word → Word → Word) (d a : BitVec 5) (i : Word) : OSound (aluRI op d a i s) :=
  .next (State.wf_wrAdvance hs _ _)
theorem wf_aluR (hs : Sound s) (op : Word → Word) (d a : BitVec 5) : OSound (aluR op d a s) := .next (State.wf_wrAdvance hs _ _)
theorem State.wf_transfer (hs : Sound s) (d : BitVec 5) (link target : Word) : Ends Exn.Sound Sound (s.transfer d link target) :=
  .ite (.ok (sound_withTh (wf_wr hs d link) _)) (wf_raise hs _)
theorem wf_branch (hs : Sound s) (c : Word → Word → Bool) (a b : BitVec 5) (o : BitVec 14) : OSound (branch c a b o s) :=
  .ite (wf_finish (State.wf_transfer hs _ _ _)) (.next (State.wf_advance hs))
theorem State.wf_scalarLoc (hs : Sound s) (ea : Word) (n : Nat) (k : AKind) : Ends Exn.Sound (fun p => Sound p.2) (s.scalarLoc ea n k) := by
  have h1 := wf_locate hs (bitOf ea.toNat 63) ea.toNat n k
  unfold State.scalarLoc
  dsimp only
  split
  · exact .error (wf_accTrap hs _ _ _ _ _)
  · next s1 e =>
    have h2 : Sound s1 := h1.ok_of e
    exact .ite (.error (wf_accTrap h2 _ _ _ _ _)) (.ok h2)
theorem wf_load (hs : Sound s) (n : Nat) (signed_ : Bool) (d a : BitVec 5) (i : BitVec 14) : OSound (load n signed_ d a i s) :=
  wf_finish <| (State.wf_scalarLoc hs _ _ _).bind fun _ h1 => State.wf_wrAdvance (State.wf_noteReads h1 _) _ _
theorem wf_store (hs : Sound s) (n : Nat) (d a : BitVec 5) (i : BitVec 14) : OSound (store n d a i s) :=
  wf_finish <| (State.wf_scalarLoc hs _ _ _).bind fun p h1 => State.wf_advance (p.2.wf_writeLoc _ _ _ h1)
theorem wf_amo (hs : Sound s) (op : Nat) (d a b : BitVec 5) (z : BitVec 1) : OSound (amo op d a b z s) := by
  refine wf_finish <| (State.wf_scalarLoc hs _ _ _).bind fun p h1 => State.wf_wrAdvance (State.wf_noteAtomic ?_ _ _ _ _) _ _
  split
  · exact p.2.wf_storeLoc _ _ _ h1
  · exact h1
theorem wf_fpResult (hs : Sound s) (mode : RMode) (d : BitVec 5) (f : Nat → Rounded) : OSound (fpResult mode d f s) :=
  .next (State.wf_wrAdvance (State.sound_withTh hs _) _ _)

end Sys2Proof.Machine

namespace Sys2Proof.Machine
variable {s : State}

/-! ## The instructions, the step and the obligation -/

theorem wf_execVqnt (hs : Sound s) (d a b : BitVec 5) (k : BitVec 3) (q c : BitVec 1) : OSound (execVqnt d a b k q c s) := by
  have h1 := State.wf_begin hs
  refine wf_finish ?_
  dsimp only
  refine .ite (wf_illegal h1 0) ?_
  split
  · exact wf_raise h1 _
  have h2 : ∀ x y z f m, Sound ((((s.begin.1.setV d x).setV (b + 1) y).setV b z).mark f m) := fun _ _ _ _ _ =>
    State.wf_mark (State.wf_setV (State.wf_setV (State.wf_setV h1 _ _) _ _) _ _) _ _
  split
  · exact wf_raise (State.sound_withTh (h2 _ _ _ _ _) _) _
  · exact .ok (State.wf_endMember (h2 _ _ _ _ _) c)
theorem wf_execVdqnt (hs : Sound s) (d a b : BitVec 5) (k : BitVec 3) (q c : BitVec 1) : OSound (execVdqnt d a b k q c s) := by
  have h1 := State.wf_begin hs
  refine wf_finish ?_
  dsimp only
  refine .ite (wf_illegal h1 0) ?_
  split
  · exact wf_raise h1 _
  · exact .ok (State.wf_endMember (State.wf_setV (State.wf_elemPass h1 _ _) _ _) c)
theorem wf_execMatt (hs : Sound s) (d a : BitVec 5) : OSound (execMatt d a s) :=
  wf_finish <| .ite (wf_illegal hs 0) <| .ok <| State.wf_wrAdvance (State.wf_attach hs _) _ _
theorem wf_execMdet (hs : Sound s) : OSound (execMdet s) :=
  wf_finish <| .ite (.ok (State.wf_advance hs)) <| .ite (wf_illegal hs 0) <| .ok (State.wf_advance (State.wf_detach hs _))
theorem wf_execMmode (hs : Sound s) (d a : BitVec 5) : OSound (execMmode d a s) :=
  wf_finish <| (State.wf_need hs).bind fun _ _ => .ite (wf_illegal hs 0) <| .ok <| State.wf_wrAdvance (State.wf_setAtt hs _ _) _ _
theorem wf_execMzero (hs : Sound s) (d : BitVec 5) : OSound (execMzero d s) :=
  wf_finish <| (State.wf_need hs).bind fun _ _ => .ok <| State.wf_advance (State.wf_zeroTile hs _ _ _)
theorem wf_execMrd (hs : Sound s) (d a : BitVec 5) (t : BitVec 2) : OSound (execMrd d a t s) :=
  have h1 := State.wf_begin hs
  wf_finish <| (State.wf_mxfPre h1 _ _).bind fun _ _ => .ok <| State.wf_advance (State.wf_setV h1 _ _)
theorem wf_execMwr (hs : Sound s) (d a : BitVec 5) (t : BitVec 2) : OSound (execMwr d a t s) :=
  have h1 := State.wf_begin hs
  wf_finish <| (State.wf_mxfPre h1 _ _).bind fun _ _ => .ok <| State.wf_advance <|
    wf_foldl h1 fun _ _ ht => State.wf_setAccRow ht _ _ _ _ _
theorem wf_execMcbl (hs : Sound s) (a : BitVec 5) : OSound (execMcbl a s) := by
  refine wf_finish <| (State.wf_slotArea hs a 64).bind fun p h1 => ?_
  dsimp only
  split
  · exact wf_raise h1 _
  · exact .ok (State.wf_advance (State.wf_setAtt h1 _ _))
theorem wf_execMrll (hs : Sound s) (a : BitVec 5) : OSound (execMrll a s) := by
  refine wf_finish <| (State.wf_slotArea hs a 576).bind fun p h1 => ?_
  dsimp only
  split
  · exact wf_raise h1 _
  · exact .ok (State.wf_advance (State.wf_setAtt h1 _ _))
theorem wf_execMsave (hs : Sound s) (a : BitVec 5) : OSound (execMsave a s) :=
  wf_finish <| (State.wf_need hs).bind fun _ _ => .ite (wf_raise hs _) <|
    (State.wf_storeArea hs _ _ _ _ _ _).bind fun _ h1 => .ok (State.wf_advance h1)
theorem wf_execMrest (hs : Sound s) (a : BitVec 5) : OSound (execMrest a s) := by
  refine wf_finish <| (State.wf_need hs).bind fun _ _ => .ite (wf_raise hs _) <|
    (State.wf_fetchArea hs _ _ _ _ _).bind fun p h1 => .ite (wf_illegal h1 0) ?_
  split
  · exact wf_raise h1 _
  · exact .ok (State.wf_advance (State.wf_loadImage h1 _ _ _))
theorem wf_execTret (hs : Sound s) (r : BitVec 1) : OSound (execTret r s) := by
  refine wf_privileged (fun t ht => ?_) hs
  dsimp only
  split
  · exact wf_illegal ht 0
  refine .ite (wf_illegal ht 0) <| .ite (.ok (State.wf_terminate ht)) <| .ok ?_
  have h1 := fun p => State.wf_resumeEngines (State.wf_leave ht (r == 1) p) t.th.level t.th.restored.isSome
  exact sound_ite (State.sound_withTh (h1 _) _) (h1 _)
theorem wf_execEmuret (hs : Sound s) : OSound (execEmuret s) :=
  wf_finish <| .ite (wf_illegal hs 0) <| .ite (.ok (State.sound_withTh hs _)) <| wf_raise hs _
theorem wf_execCrrd (hs : Sound s) (d : BitVec 5) (r : BitVec 12) : OSound (execCrrd d r s) := by
  refine wf_finish <| .ite (wf_privTrap hs) ?_
  dsimp only
  split
  · exact wf_illegal hs 0
  · exact .ok (State.wf_wrAdvance (State.wf_tick hs _) _ _)
theorem wf_execTlbinv (hs : Sound s) (a b : BitVec 5) (sel : BitVec 3) : OSound (execTlbinv a b sel s) :=
  wf_privileged (fun _ ht => .ok <| State.wf_advance <| State.sound_withTh (State.wf_invalidate ht _ _) _) hs
theorem wf_execTlbsync (hs : Sound s) : OSound (execTlbsync s) :=
  wf_privileged (fun _ ht => .ite (.ok (State.wf_advance ht)) (.error ht)) hs
theorem wf_execRmack (hs : Sound s) (d a : BitVec 5) : OSound (execRmack d a s) :=
  .ite (.next (State.wf_wrAdvance (State.sound_withTh hs _) _ _)) (.next (State.wf_wrAdvance hs _ _))
theorem wf_execLwake (hs : Sound s) (a : BitVec 5) (sel : BitVec 3) : OSound (execLwake a sel s) :=
  .next (State.wf_advance (State.wf_wakePath hs _ _ _))
theorem wf_execIdle (hs : Sound s) : OSound (execIdle s) :=
  wf_privileged (fun _ ht => .ok <| sound_ite (State.wf_advance ht) (State.sound_withTh (State.wf_advance ht) _)) hs
theorem wf_execSetvl (hs : Sound s) (d a b : BitVec 5) (e : BitVec 2) : OSound (execSetvl d a b e s) := by
  unfold execSetvl
  extract_lets r old g s2 v s3 s4
  have h3 : Sound s3 := State.sound_withTh (State.wf_configure (State.wf_grant hs r) g.2 e.toNat) _
  have h4 : Sound s4 := sound_ite h3 (State.wf_tailZero h3)
  exact .next (State.wf_wrAdvance h4 _ _)
theorem wf_execSetvlw (hs : Sound s) (d a b : BitVec 5) (e : BitVec 2) : OSound (execSetvlw d a b e s) := by
  refine wf_finish ?_
  split
  · exact wf_setvlwRead hs _ _ _ _ _
  · exact .ite (wf_raise hs _) <| (State.wf_space0 hs _ _ _).bind fun p h1 =>
      wf_setvlwRead (State.sound_withTh (State.wf_setvlwGrant h1 e) _) _ _ _ _ _
theorem wf_execVstxa (hs : Sound s) (d : BitVec 4) (f : BitVec 1) (b x : BitVec 5) (k : BitVec 3) (t : BitVec 1) (z o : BitVec 2) (c : BitVec 1) :
    OSound (execVstxa d f b x k t z o c s) :=
  .ite (wf_finish (wf_illegal (State.wf_begin hs) 0)) <| wf_finish <|
    wf_vmemMember hs (memVstxa_keeps d f b x k t z) (fun _ _ l hs hm => wf_unorderedRun hs hm l) z c
theorem wf_execVwait (hs : Sound s) (d a x : BitVec 5) (k : BitVec 3) (z : BitVec 1) (q : BitVec 3) : OSound (execVwait d a x k z q s) :=
  have h1 := State.wf_begin hs
  wf_finish <| .ite (wf_illegal h1 0) (wf_vwaitEval h1 _ _ _ _ _ _ _)
theorem wf_execTagl (hs : Sound s) (d a : BitVec 5) (k : BitVec 3) : OSound (execTagl d a k s) :=
  have h1 := State.wf_begin hs
  wf_finish <| .ite (wf_illegal h1 0) <| .ok <| State.wf_advance (State.wf_permute h1 _ _ _)
theorem tagPut_mem (w : Nat) (t : Alloc) (key slot : Nat) : (tagPut w t key slot).mem = t.mem := by
  unfold tagPut
  dsimp only
  split <;> rfl
theorem wf_execTagw (hs : Sound s) (a b : BitVec 5) (k : BitVec 3) : OSound (execTagw a b k s) := by
  have h1 := State.wf_begin hs
  refine wf_finish <| .ite (wf_illegal h1 0) ?_
  dsimp only
  split
  · exact wf_raise h1 _
  · refine .ok (State.wf_advance (State.wf_setAlloc _ _ _ _ h1 ?_))
    refine List.foldlRecOn (motive := fun t : Alloc => t.mem.wf = true) _ _ (s.begin.1.wf_alloc _ _ h1) fun t ht i _ => ?_
    rw [tagPut_mem]
    exact ht
theorem wf_execVspill (hs : Sound s) (a b : BitVec 5) (t : BitVec 1) : OSound (execVspill a b t s) :=
  have h1 := State.wf_begin hs
  wf_finish <| .ite (wf_raise h1 _) <| .ite (wf_illegal h1 0) <|
    (State.wf_storeArea h1 _ _ _ _ _ _).bind fun _ h2 => .ok (State.wf_advance h2)
theorem wf_execVfill (hs : Sound s) (a : BitVec 5) (t : BitVec 1) : OSound (execVfill a t s) :=
  have h1 := State.wf_begin hs
  wf_finish <| .ite (wf_raise h1 _) <| .ite (wf_illegal h1 0) <|
    (State.wf_fetchArea h1 _ _ _ _ _).bind fun _ h2 => .ite (wf_illegal h2 0) <|
      (State.wf_fetchArea h2 _ _ _ _ _).bind fun _ h3 => .ok (State.wf_advance (State.wf_fillRegs h3 _))
theorem wf_execSchRel (hs : Sound s) (d : BitVec 5) : OSound (execSchRel d s) :=
  wf_finish <| .ite (wf_ringErr hs _ _) <| .ite (.error hs) <|
    .ok (State.wf_advance (State.wf_setChan hs _ _ _))
theorem wf_execSscataFloat (hs : Sound s) (d a b : BitVec 5) (k : BitVec 3) : OSound (execSscataFloat d a b k s) :=
  wf_finish <| .ite (wf_illegal hs 0) (wf_issue hs _ _ _ _ _)
theorem wf_execRcfg (hs : Sound s) (a b : BitVec 5) (r : BitVec 3) : OSound (execRcfg a b r s) := by
  unfold execRcfg
  extract_lets x sb c ch rb ns n
  refine wf_finish <| .ite (wf_ringErr hs _ _) <| .ite (wf_ringErr hs _ _) <| .ite (wf_ringErr hs _ _) <| .ite (wf_ringErr hs _ _) <|
    .ite (wf_ringErr hs _ _) <| .ite (.error hs) <|
    .ok <| State.wf_advance <| State.wf_setChan (State.wf_setRing ?_ _ _ _) _ _ _
  exact s.wf_updCore _ _ hs fun _ => rfl
theorem wf_execRfree (hs : Sound s) (d a : BitVec 5) (r : BitVec 3) : OSound (execRfree d a r s) := by
  refine wf_finish ?_
  split
  · exact wf_ringErr hs _ _
  · exact .ite (wf_ringErr hs _ _) <| .ite (wf_ringErr hs _ _) <| .ite (wf_ringErr hs _ _) <|
      .ok (State.wf_wrAdvance (State.wf_setRing hs _ _ _) _ _)
theorem wf_execStripComplete (hs : Sound s) (core ch : Nat) : OSound (execStripComplete core ch s) := by
  unfold execStripComplete
  split
  · exact .next (State.wf_stripAsks hs _ _)
  · refine .next (State.wf_releaseChannelWaits (State.wf_runStrip ?_ _ _ _ _ _ _) _)
    exact hs
theorem wf_execStreamRetranslation (hs : Sound s) (core ch : Nat) : OSound (execStreamRetranslation core ch s) := by
  unfold execStreamRetranslation
  extract_lets c
  clear_value c
  split
  · refine .ite (.next hs) (.next (State.wf_onThread hs _ fun t ht => ?_))
    dsimp only
    split
    · exact State.sound_withTh (State.wf_setChan ht _ _ _) _
    · split
      · exact State.wf_setChan ht _ _ _
      · exact State.sound_withTh (State.wf_setChan ht _ _ _) _
  · exact hs
theorem wf_execTlbinvComplete (hs : Sound s) (h : Nat) : OSound (execTlbinvComplete h s) :=
  .next <| sound_ite hs (State.wf_setTh hs _ _)
theorem wf_execVwaitWake (hs : Sound s) (h : Nat) : OSound (execVwaitWake h s) := by
  refine wf_wake hs h fun w => ?_
  split
  · exact .ite (.some fun _ ht => wf_vwaitEval (State.wf_caught ht) _ _ _ _ _ _ _) .none
  · exact .none
theorem wf_execSetvlwWake (hs : Sound s) (h : Nat) : OSound (execSetvlwWake h s) := by
  refine wf_wake hs h fun w => ?_
  split
  · exact .ite (.map fun _ _ ht => wf_setvlwRead (State.wf_caught ht) _ _ _ _ _) .none
  · exact .none
theorem wf_execRwaitWake (hs : Sound s) (h : Nat) : OSound (execRwaitWake h s) := by
  refine wf_wake hs h fun w => ?_
  split
  · exact .some fun _ ht => wf_rwait (State.wf_caught ht) _ _ _ _
  · exact .none
theorem wf_execSwmWake (hs : Sound s) (h : Nat) : OSound (execSwmWake h s) := by
  refine wf_wake hs h fun w => ?_
  split
  · exact .some fun _ ht => wf_swm (State.wf_caught ht) _ _ _
  · exact .none
theorem wf_execSdrainWake (hs : Sound s) (h : Nat) : OSound (execSdrainWake h s) := by
  refine wf_wake hs h fun w => ?_
  split
  · exact .some fun _ ht => wf_sdrain (State.wf_caught ht) _
  · exact .none
theorem wf_execTlbsyncWake (hs : Sound s) (h : Nat) : OSound (execTlbsyncWake h s) := by
  refine wf_wake hs h fun w => ?_
  split
  · exact .some fun _ ht => .ite (.ok (State.wf_advance ht)) (.error ht)
  · exact .none
theorem wf_execTransferSlotWake (hs : Sound s) (h : Nat) : OSound (execTransferSlotWake h s) := by
  refine wf_wake hs h fun w => ?_
  split
  · exact .some fun _ ht => .ite (.ok ht) (.error ht)
  · exact .none
theorem wf_execChcfgClaimWake (hs : Sound s) (h : Nat) : OSound (execChcfgClaimWake h s) := by
  refine wf_wake hs h fun w => ?_
  split
  · exact .some fun _ ht => wf_chcfgResume ht _ _ _ _
  · exact .none
theorem wf_execRun (hs : Sound s) (a : BitVec 5) (k : BitVec 2) : OSound (execRun a k s) := by
  refine wf_finish ?_
  split
  · exact wf_illegal hs 0
  refine .ite (wf_illegal hs 0) ?_
  split
  · exact wf_raise hs _
  · have h1 := fun f => State.wf_updSlot hs (s.cur, k.toNat) f
    exact .ok (State.wf_advance (sound_ite (State.wf_completeRun (h1 _) _ _ _) (h1 _)))
theorem wf_execRunComplete (hs : Sound s) (h slot : Nat) : OSound (execRunComplete h slot s) := by
  unfold execRunComplete
  split
  · exact hs
  · exact .ite (.next (State.wf_switchTo (State.wf_completeRun (State.wf_switchTo hs h) _ _ _) _)) (.next hs)
theorem wf_execChbrk (hs : Sound s) (d : BitVec 5) (k : BitVec 2) : OSound (execChbrk d k s) := by
  unfold execChbrk
  dsimp only
  refine .next ?_
  split
  · exact State.wf_wrAdvance hs _ _
  split
  · exact State.wf_wrAdvance (State.wf_acquire (State.wf_endChain hs _)) _ _
  · have h1 := fun f => State.wf_updSlot (State.wf_breakChain hs (s.cur, k.toNat)) (s.cur, k.toNat) f
    exact sound_ite (State.wf_wrAdvance (h1 _) _ _) (h1 _)
theorem wf_execChwaitWake (hs : Sound s) (h : Nat) : OSound (execChwaitWake h s) := by
  refine wf_wake hs h fun w => ?_
  split
  · exact .some fun _ ht => wf_chwait ht _ _
  · exact .none
theorem wf_execRunWaitWake (hs : Sound s) (h : Nat) : OSound (execRunWaitWake h s) := by
  refine wf_wake hs h fun w => ?_
  split
  · exact .some fun _ ht => .ite (.error ht) (.ok ht)
  · exact .none
theorem wf_execChainFinish (hs : Sound s) (h : Nat) : OSound (execChainFinish h s) := by
  have h1 := State.wf_finishNext (State.wf_switchTo hs h)
  refine .ite (.next hs) ?_
  split
  · next e =>
    rw [e] at h1
    exact .next (State.wf_switchTo h1 _)
  · trivial
  · trivial
theorem wf_execCtxsv (hs : Sound s) (a : BitVec 5) : OSound (execCtxsv a s) := by
  refine wf_privileged (fun t ht => .ite (wf_raise ht _) ?_) hs
  exact (State.wf_saveLocs (State.wf_drainContext ht) _ _ _).bind fun p h1 => .ok <| State.wf_advance <|
    State.wf_releaseChannelWaits (State.wf_releaseContext (p.2.wf_writeArea _ _ h1)) _
theorem wf_execCtxld (hs : Sound s) (a : BitVec 5) : OSound (execCtxld a s) := by
  refine wf_privileged (fun t ht => ?_) hs
  split
  · exact wf_raise ht _
  -- With the numeral in place, Lean evaluates the read of the fixed part as it elaborates the next line.
  generalize 4096 = n
  refine (State.wf_loadArea ht _ _).bind fun p h1 => ?_
  refine .ite (wf_illegal h1 1) ?_
  refine (State.wf_loadArea h1 _ _).bind fun q h2 => ?_
  dsimp only
  split
  · exact wf_illegal h2 1
  next x _ =>
  split
  · exact wf_illegal h2 3
  next s3 e =>
  have h3 : Sound s3 := State.wf_restoreLanes (State.wf_releaseChains h2 _) _ _ e
  split
  · exact wf_illegal h2 2
  next s4 e =>
  have h4 : Sound s4 := State.wf_restoreState h3 x _ e
  split
  · exact wf_illegal h2 4
  next s5 e =>
  have h5 := State.wf_restoreStreams (State.wf_restoreMatrix h4 x s5 e) x
  split
  · exact wf_illegal h2 5
  · exact .error h2
  · next e => exact .error (h5.error_of e _ rfl)
  next s6 e =>
  have h6 := State.wf_restoreChains (h5.ok_of e) x
  split
  · exact wf_illegal h2 6
  · exact .error (State.wf_asks _ _ h2)
  · next e => exact .error (h6.error_of e _ rfl)
  · next e => exact .ok (State.wf_advance (State.wf_restoreVersion (h6.ok_of e)))
theorem wf_execLaunch (hs : Sound s) (d a : BitVec 5) : OSound (execLaunch d a s) := by
  have h1 := State.wf_intake hs s.launch.part s.launch.vi 0xFE (s.rdN a)
  refine wf_finish <| .ite (wf_raise hs _) <| .ite (wf_raise hs _) ?_
  split
  · exact .error (s.wf_asks _ hs)
  · exact .error hs
  · next s1 e =>
    have h2 : Sound s1 := h1.ok_of e
    exact .ok (State.wf_wrAdvance h2 _ _)
  · next s1 e =>
    have h2 : Sound s1 := h1.ok_of e
    exact .ok (State.wf_wrAdvance h2 _ _)
  · next s1 e =>
    have h2 : Sound s1 := h1.ok_of e
    exact .ok (State.wf_advance (State.wf_setCluster h2 _ (State.wf_getCluster h2 _)))
theorem wf_execLmsg (hs : Sound s) (vi : Nat) (tag : BitVec 16) (addr : Word) : OSound (execLmsg vi tag addr s) := by
  unfold execLmsg
  split
  · exact .next (State.wf_reply hs _ _ _ _ _ _ _)
  next part _ =>
  have h1 := State.wf_intake hs part vi vi addr.toNat
  refine .ite (.next (State.wf_reply hs _ _ _ _ _ _ _)) <| .ite (.next (State.wf_holdHost hs _)) ?_
  split
  · exact .next (State.wf_holdHost (State.wf_hubAsk hs _ _) _)
  · next s1 e =>
    have h2 : Sound s1 := h1.ok_of e
    exact .next (State.wf_reply h2 _ _ _ _ _ _ _)
  · next s1 e =>
    have h2 : Sound s1 := h1.ok_of e
    exact .next h2
  · next s1 e =>
    have h2 : Sound s1 := h1.ok_of e
    exact .next (State.wf_reply h2 _ _ _ _ _ _ _)
theorem wf_execImageSelection (hs : Sound s) (part queue : Nat) : OSound (execImageSelection part queue s) := by
  unfold execImageSelection
  dsimp only
  split
  · exact hs
  next n _ _ =>
  have h1 := State.wf_selectImage hs part (s.envOf (s.launches.get n {})).root (BitVec.ofNat 64 (s.launches.get n {}).code)
    (s.launches.get n {}).spaceOf
  refine .ite (.next hs) ?_
  split
  · exact .next hs
  split
  · exact .next (State.wf_hubAsk hs _ _)
  · next s1 e =>
    have h2 : Sound s1 := h1.ok_of e
    exact .next h2
theorem wf_execDispatchStep (hs : Sound s) (part : Nat) : OSound (execDispatchStep part s) := by
  have h1 := State.wf_adopt hs part
  unfold execDispatchStep
  dsimp only
  split
  · exact .next (State.wf_askHeads h1 _)
  next x _ =>
  have h2 := State.wf_serve h1 part x
  split
  · exact .next (State.wf_hubAsk h1 _ _)
  · next s2 e =>
    have h3 : Sound (s2.adopt part) := State.wf_adopt (h2.ok_of e) part
    exact .next h3
theorem wf_execGroupStart (hs : Sound s) (group : Nat) : OSound (execGroupStart group s) := by
  unfold execGroupStart
  split
  · exact hs
  next g hg =>
  extract_lets l tile s1 s2 s3
  have h1 : Sound s1 := wf_foldl hs fun _ _ ht => State.wf_copyTile ht _ _ _ _
  have h2 : Sound s2 := wf_foldl h1 fun _ _ ht => State.wf_startUnit ht _ _ _ _ _
  have hg : g.Sound := State.sound_look_groups hs hg
  have h3 : Sound s3 := State.sound_setGroup h2 group (g := { g with started := true }) hg
  exact .ite (.next hs) <| .next (wf_foldl h3 fun _ _ ht => sound_ite (State.wf_post ht _ _) ht)
theorem wf_execThreadTermination (hs : Sound s) (h : Nat) : OSound (execThreadTermination h s) := by
  refine .next (sound_ite ?_ hs)
  split
  · exact State.wf_hubAsk hs _ _
  · exact State.wf_settle hs _
theorem wf_execThreadEnd (hs : Sound s) (h : Nat) : OSound (execThreadEnd h s) :=
  .next <| sound_ite (State.wf_retire hs _ _) <| sound_ite (State.wf_releaseChains hs _) hs
theorem wf_execLaunchCompletion (hs : Sound s) (launch : Nat) : OSound (execLaunchCompletion launch s) := by
  refine .next (sound_ite ?_ hs)
  split
  · exact State.wf_hubAsk hs _ _
  · exact State.wf_completeLaunch hs _
theorem wf_execMigrationDeviceRequest (hs : Sound s) (h : Nat) : OSound (execMigrationDeviceRequest h s) := by
  unfold execMigrationDeviceRequest
  split
  · exact hs
  · exact .next (sound_ite hs (State.wf_serveRequests hs _))
theorem wf_execMigreq (hs : Sound s) (vi : Nat) (tag : BitVec 16) (addr : Word) : OSound (execMigreq vi tag addr s) := by
  have hreply : ∀ {t : State}, Sound t → ∀ a b c d e f g, OSound (.next (t.reply a b c d e f g)) := fun ht _ _ _ _ _ _ _ =>
    .next (State.wf_reply ht _ _ _ _ _ _ _)
  unfold execMigreq
  dsimp only
  split
  · exact hreply hs _ _ _ _ _ _ _
  refine .ite (.next (State.wf_holdHost hs _)) <| .ite (hreply hs _ _ _ _ _ _ _) ?_
  split
  · exact hreply hs _ _ _ _ _ _ _
  · exact hreply hs _ _ _ _ _ _ _
  · have h1 := fun l => State.wf_serveRequests hs l
    refine .ite ?_ (.next (State.wf_acceptMigration (h1 _) _ _ _ _ _))
    split
    · exact hreply (h1 _) _ _ _ _ _ _ _
    · exact hreply (h1 _) _ _ _ _ _ _ _
theorem wf_execMigrationSwitch (hs : Sound s) (leaf : Nat) : OSound (execMigrationSwitch leaf s) := by
  unfold execMigrationSwitch
  split
  · exact hs
  next m _ =>
  refine .ite (.next hs) <| .ite ?_ ?_
  · have h1 := fun e l p => State.wf_invalidate (s.wf_storeLoc (.dev leaf) 8 e hs) l p
    refine .next (State.wf_releaseMigrate ?_ _)
    exact h1 _ _ _
  · have h1 := State.wf_reply (State.wf_poolBack hs m.newHost m.newPa) 0x21 0 6 m.vi 0 m.va []
    refine .next (State.wf_releaseMigrate (State.wf_forget ?_ _) _)
    exact h1
theorem wf_execMigrationInvalidationComplete (hs : Sound s) (leaf : Nat) : OSound (execMigrationInvalidationComplete leaf s) := by
  unfold execMigrationInvalidationComplete
  split
  · exact hs
  next m _ =>
  have h1 := State.wf_breakPage (State.wf_breakPage (State.wf_reply (State.wf_poolBack hs m.oldHost m.oldPa) 0x21 0 0 m.vi 0 m.va [])
    m.oldHost m.oldPa) m.newHost m.newPa
  exact .ite (.next hs) (.next h1)
theorem wf_execMigrationHoldExpire (hs : Sound s) (leaf : Nat) : OSound (execMigrationHoldExpire leaf s) := by
  unfold execMigrationHoldExpire
  split
  · exact hs
  · exact .next (sound_ite hs hs)
theorem wf_execQwrWake (hs : Sound s) (h : Nat) : OSound (execQwrWake h s) := by
  refine wf_wake hs h fun w => ?_
  split
  · exact .some fun _ ht => wf_qwr ht _ _
  · exact .none
theorem wf_execQrdWake (hs : Sound s) (h : Nat) : OSound (execQrdWake h s) := by
  refine wf_wake hs h fun w => ?_
  split
  · exact .some fun _ ht => wf_qrd ht _ _
  · exact .none
theorem wf_execHwpub (hs : Sound s) (d a b : BitVec 5) (n : BitVec 1) : OSound (execHwpub d a b n s) :=
  wf_finish <| (State.wf_space0 hs _ _ _).bind fun p h1 => .ok <| State.wf_wrAdvance
    (sound_ite (State.wf_noteReads h1 _) (State.wf_noteAtomic (p.2.wf_storeLoc _ _ _ h1) _ _ _ _)) _ _
theorem wf_execTkpush (hs : Sound s) (d a : BitVec 5) : OSound (execTkpush d a s) :=
  wf_finish <| .ite (wf_raise hs _) <| .ite (.ok (State.wf_wrAdvance hs _ _)) <| .ok (State.wf_wrAdvance (State.wf_setDeque hs _ _) _ _)
theorem wf_execTkpop (hs : Sound s) (d : BitVec 5) : OSound (execTkpop d s) := by
  unfold execTkpop
  extract_lets launch r a
  have h1 : Sound r.2 := by
    unfold r
    split
    · exact State.wf_setDeque hs _ _
    · exact State.wf_probeRound hs _ _ _ _
  exact .next (State.wf_wrAdvance (State.sound_withTh h1 _) _ _)
theorem wf_execReductionToken (hs : Sound s) (node : Nat) : OSound (execReductionToken node s) := by
  unfold execReductionToken
  extract_lets n x up r s0 src s1 s2 nsat s3 last s4 n1 s5
  have h0 : Sound s0 := State.wf_redNote (State.wf_redNote hs _ _ _) _ _ _
  have h1 : Sound s1 := sound_ite h0 (State.wf_setPeer h0 _ _)
  have h2 : Sound s2 := State.wf_redPut (State.wf_sendToken h1 _ _ _ _) _ _ _ _
  have h3 : Sound s3 := sound_ite h2 (State.wf_redPut (State.wf_redNote h2 _ _ _) _ _ _ _)
  have h4 : Sound s4 := State.wf_nodeStatus h3 _ _
  have h5 : Sound s5 := h4
  exact .ite (.next (sound_ite (State.wf_putNst h5 _ _) h5)) (.next (State.wf_nodeAsk hs _))
theorem wf_execReductionNodeFail (hs : Sound s) (node : Nat) : OSound (execReductionNodeFail node s) := by
  unfold execReductionNodeFail
  extract_lets n s1 n1
  have h1 : Sound s1 := State.wf_nodeStatus hs _ _
  refine .ite (.next (State.wf_sendToken (State.wf_putNst ?_ _ _) _ _ _ _)) (.next (State.wf_nodeAsk hs _))
  exact h1
theorem wf_execRtok (hs : Sound s) (port : Nat) (tag : BitVec 16) (failed : Bool) (data : List Byte) : OSound (execRtok port tag failed data s) :=
  .next (sound_ite hs (State.wf_carried (State.wf_setPeer hs _ _) _))
theorem wf_execKslFlitReceive (hs : Sound s) (port flit : Nat) : OSound (execKslFlitReceive port flit s) := by
  have h1 := State.wf_arrived hs port
  have h2 := State.wf_setLinkOf h1 port
  unfold execKslFlitReceive
  dsimp only
  refine .ite (.next h1) <| .ite (.next (h2 _)) ?_
  split
  · exact .ite (.next (State.wf_takeFlit h1 _ _)) <| .ite (.next (h2 _)) (.next h1)
  · exact .next (h2 _)
  · exact .next (h2 _)
  · exact .next (h2 _)
theorem wf_execKslRetryRequest (hs : Sound s) (port : Nat) (seq : BitVec 16) : OSound (execKslRetryRequest port seq s) :=
  .next (State.wf_setLinkOf (State.wf_arrived hs _) _ _)
theorem wf_execKslLinkDown (hs : Sound s) (port : Nat) : OSound (execKslLinkDown port s) := by
  unfold execKslLinkDown
  extract_lets l s1 s2 s3
  have h1 : Sound s1 := State.wf_setLinkOf hs _ _
  have h2 : Sound s2 := List.foldrRecOn (motive := Sound) _ _ h1 fun _ ht t _ => State.wf_undoWrite ht t
  refine .ite (.next hs) <| .ite (.next (State.wf_releaseLink ?_)) (.next h1)
  exact h2
theorem wf_execLinkRetrainComplete (hs : Sound s) (port : Nat) : OSound (execLinkRetrainComplete port s) := by
  unfold execLinkRetrainComplete
  extract_lets l s1
  have h1 : Sound s1 := State.wf_setLinkOf hs _ _
  have h2 := State.wf_performHeld h1
  refine .ite (.next hs) <| .next <| sound_ite (State.wf_releaseLink ?_) (State.wf_flushPeer h1 _)
  exact h2
theorem wf_execHwr (hs : Sound s) (vi : Nat) (tag : BitVec 16) (addr : Word) (data : List Byte) : OSound (execHwr vi tag addr data s) := by
  unfold execHwr
  split
  · exact .next (State.wf_reply hs _ _ _ _ _ _ _)
  next part _ =>
  have h1 := State.wf_hostWrite hs vi part ((s.vis.get vi {}).pieces data.length addr.toNat data.length) data
  refine .ite (.next (State.wf_holdHost hs _)) ?_
  split
  · next e => exact .next (h1.ok_of e)
  · next st s1 e =>
    have h2 : Sound s1 := h1.error_of e
    exact .next (State.wf_reply h2 _ _ _ _ _ _ _)
theorem wf_execHrd (hs : Sound s) (vi : Nat) (tag : BitVec 16) (addr : Word) (len : Nat) : OSound (execHrd vi tag addr len s) := by
  unfold execHrd
  split
  · exact .next (State.wf_reply hs _ _ _ _ _ _ _)
  · exact .ite (.next (State.wf_holdHost (State.wf_hostAsks hs _ _ _) _)) <|
      .next (State.wf_reply (sound_ite hs (State.wf_hostNotes hs _ _ _)) _ _ _ _ _ _ _)
theorem wf_execCpl (hs : Sound s) (tag : BitVec 16) (stat : BitVec 8) (data : List Byte) : OSound (execCpl tag stat data s) := by
  refine .next ?_
  split
  · exact hs
  next p _ =>
  extract_lets s1 s2
  have h1 : Sound s1 := hs
  have h2 : Sound s2 := sound_ite (wf_foldl h1 fun _ _ ht => State.wf_hostChange ht _ _) <|
    sound_ite (wf_foldl h1 fun _ _ ht => State.wf_hostChange ht _ _) h1
  exact State.wf_releaseHost (State.wf_releaseReply h2 _)
/-- A transfer abandoned, where the thread has a fault of its streams. -/
theorem State.wf_abandonFirst (hs : Sound s) (o : Option StreamFault) : Sound ((o.map s.abandon).getD s) := by
  cases o with
  | none => exact hs
  | some f => exact wf_abandon hs f
theorem wf_execTakeAsyncCause (hs : Sound s) (h : Nat) : OSound (execTakeAsyncCause h s) := by
  unfold execTakeAsyncCause
  extract_lets s0 s1
  have h0 : Sound s0 := State.wf_switchTo hs h
  have h1 : Sound s1 := by
    unfold s1
    split
    · exact State.wf_setvlwUndo h0 _
    · exact State.wf_leaveWaiting (State.wf_stopStarted h0)
  clear_value s1
  split
  · split
    · exact hs
    next c t _ =>
    have h2 : Sound { s1 with th := t } := h1
    exact .next (State.wf_switchTo (State.wf_takeTrap _ _ (sound_ite (State.wf_breakAll h2 h) <|
      sound_ite (State.wf_abandonFirst h2 _) h2)) _)
  · exact hs
theorem wf_execRmgraceExpire (hs : Sound s) (h : Nat) : OSound (execRmgraceExpire h s) :=
  .next (sound_ite (State.wf_post (State.wf_setTh hs _ _) _ _) hs)
theorem wf_execCorrectedError (hs : Sound s) (unit : UnitRef) : OSound (execCorrectedError unit s) := by
  unfold execCorrectedError
  extract_lets n src s1 s2
  have h1 : Sound s1 := hs
  have h2 : Sound s2 := by
    unfold s2
    split
    · exact State.wf_setPhys h1 _ _
    · exact h1
  exact .next (State.wf_reach h2 unit)
theorem wf_execUncorrectableError (hs : Sound s) (lost : LostState) : OSound (execUncorrectableError lost s) := by
  have hpost : ∀ (l : List Nat) (c : Nat), Sound (l.foldl (fun t h => t.postUncorr h c) s) := fun _ _ =>
    wf_foldl hs fun _ _ ht => State.wf_postUncorr ht _ _
  cases lost with
  | devicePiece k => exact .next (sound_ite (s.wf_poisonAt _ hs) hs)
  | tilePiece g c k => exact .next (sound_ite (s.wf_poisonAt _ hs) hs)
  | scalarRegs h => exact .next (State.wf_postUncorr hs _ _)
  | vectorRegs h => exact .next (State.wf_postUncorr hs _ _)
  | queueEntries c q => exact .next (hpost _ 3)
  | accumulators u => exact .next (hpost _ 4)
  | codeLines c => exact .next (hpost _ 5)
  | latticeEntries h => exact .next (State.wf_postUncorr hs _ _)
  | contextMove h => exact .next (State.wf_postUncorr hs _ _)
/-- The units of the list that can be published are withdrawn, whatever list of the others it starts from. -/
theorem wf_withdrawReady {p : State × List UnitRef} (hp : Sound p.1) (l : List UnitRef) :
    Sound (l.foldl (fun (p : State × List UnitRef) u => if p.1.canPublish u then (p.1.withdraw u, p.2) else (p.1, p.2 ++ [u])) p).1 := by
  refine List.foldlRecOn (motive := fun p : State × List UnitRef => Sound p.1) _ _ hp fun p hp u _ => ?_
  split
  · exact State.wf_withdraw hp u
  · exact hp
theorem wf_execResourceMapPublish (hs : Sound s) : OSound (execResourceMapPublish s) := by
  unfold execResourceMapPublish
  extract_lets s0
  have h0 : Sound s0 := by
    refine wf_foldl hs fun t u ht => ?_
    split
    · exact State.wf_evacuate ht _
    · exact ht
  have h1 := wf_withdrawReady (p := (s0, [])) h0 s0.rmap.waiting
  generalize s0.rmap.waiting.foldl _ (s0, []) = p at h1
  dsimp only
  refine .ite (.next h0) <| .ite (.next h1) <| .next <| wf_foldl ?_ fun _ _ ht => State.wf_deliver ht _
  refine wf_foldl ?_ fun _ _ ht => State.wf_writeView ht _ _ _
  exact h1
theorem wf_execPowerEstimate (hs : Sound s) : OSound (execPowerEstimate s) := by
  unfold execPowerEstimate
  extract_lets src s1 s2
  have h1 : Sound s1 := hs
  have h2 : Sound s2 := wf_foldl h1 fun _ k ht => State.wf_capPart ht k
  exact .next (wf_foldl h2 fun _ k ht => State.wf_capRank ht k)
theorem wf_execThrottleRelease (hs : Sound s) : OSound (execThrottleRelease s) := by
  unfold execThrottleRelease
  split
  · exact hs
  · refine .next (sound_ite (State.wf_undo ?_ _) hs)
    exact hs
theorem wf_execThermalAlarm (hs : Sound s) (die : Nat) : OSound (execThermalAlarm die s) := by
  refine .ite (.next hs) (.next (wf_foldl ?_ fun _ _ ht => State.wf_markCause ht _ _))
  exact hs
theorem wf_execCurrentAlarm (hs : Sound s) (part : Nat) : OSound (execCurrentAlarm part s) := by
  unfold execCurrentAlarm
  split
  · exact hs
  next p _ =>
    have h1 := State.wf_markCause (State.wf_setPart hs part { p with alarm := true }) part 5
    exact .ite (.next hs) (.next h1)
theorem wf_execCapFrame (hs : Sound s) (payload : List Byte) : OSound (execCapFrame payload s) := by
  unfold execCapFrame
  refine .ite (.next (State.wf_ignoreFrame hs)) <| .ite (.next hs) <| .next (wf_foldl ?_ fun _ _ ht => State.wf_emergency ht _ _)
  exact hs
theorem wf_execLinkIdleNarrow (hs : Sound s) (link : LinkRef) : OSound (execLinkIdleNarrow link s) :=
  .next (sound_ite hs (State.wf_setLinkSt hs _ _))
theorem wf_execLinkIdleSleep (hs : Sound s) (link : LinkRef) : OSound (execLinkIdleSleep link s) :=
  .next (sound_ite hs (State.wf_setLinkSt hs _ _))
theorem wf_execLinkWakeComplete (hs : Sound s) (link : LinkRef) : OSound (execLinkWakeComplete link s) :=
  .next (sound_ite (State.wf_setLinkSt hs _ _) hs)
theorem wf_execBoot (hs : Sound s) : OSound (execBoot s) := by
  unfold execBoot
  split
  · exact hs
  · exact hs
theorem wf_partitionRequest (part : Nat) (clusters vis : List Nat) (feat : Nat) : BodyKeeps (partitionRequest part clusters vis feat) := by
  intro s hs
  have h1 := fun l p q => State.wf_moveCaps (State.wf_setPart (State.wf_emptyClusters hs l) part q) p q
  unfold partitionRequest
  dsimp only
  refine .ite (.error trivial) <| .ite ?_ <| .ite (.error trivial) (.ok (h1 _ _ _))
  split
  · exact .error trivial
  next q _ =>
    have h2 := State.wf_forgetSteps (State.wf_emptyClusters (State.wf_abortPart hs part) q.clusters) part q
    exact .ite (.ok (State.wf_abortAsk hs part)) (.ok h2)
theorem wf_queueRequest (part queue entry : Nat) : BodyKeeps (queueRequest part queue entry) := by
  intro s hs
  unfold queueRequest
  split
  · exact .error trivial
  · exact .ite (.error trivial) (.ok (State.wf_setPart hs _ _))
theorem wf_windowRequest (vi win hostBase len vbase asid : Nat) : BodyKeeps (windowRequest vi win hostBase len vbase asid) := by
  intro s hs
  unfold windowRequest
  exact .ite (.error trivial) (.ok hs)
theorem wf_preemptRequest (core thr : Nat) : BodyKeeps (preemptRequest core thr) := by
  intro s hs
  exact .ite (.error trivial) (.ok (State.wf_post hs _ _))
theorem wf_swapRequest (gid : Nat) (dest : Option Nat) : BodyKeeps (swapRequest gid dest) := by
  intro s hs
  unfold swapRequest
  split
  · exact .error trivial
  next g hg =>
  have hg : g.Sound := State.sound_look_groups hs hg
  dsimp only
  split
  · exact .ite (.error trivial) <| .ite (.ok (State.wf_swapOut hs _ _)) (.error trivial)
  next c =>
  refine .ite (.error trivial) ?_
  split
  · next i _ _ =>
    have h1 := State.wf_loadStore hs (s.launches.get g.launch {}) i c
    split
    · next e => exact .ok (State.wf_swapIn (h1.ok_of e) _ hg _ _)
    · exact .ok (State.wf_hubAsk hs _ _)
    · exact .error trivial
  · exact .error trivial
theorem wf_armRequest (node desc vi : Nat) : BodyKeeps (armRequest node desc vi) := by
  intro s hs
  unfold armRequest
  refine .ite (.error trivial) <| .ite (.error trivial) <| .ite (.ok (State.wf_armAsk hs _ _)) ?_
  split
  · next e => exact .ok (State.wf_arm hs _ _ _ _ e)
  · exact .error trivial
theorem wf_execMgmtHold (hs : Sound s) (src : MgmtSrc) (nanos : Nat) : OSound (execMgmtHold src nanos s) :=
  wf_manage hs _ _ fun _ ht => .ite (.error trivial) (.ok ht)
theorem wf_execMgmtThreshold (hs : Sound s) (src : MgmtSrc) (count : Nat) : OSound (execMgmtThreshold src count s) := by
  refine wf_manage hs _ _ fun _ ht => .ite (.error trivial) (.ok (wf_foldl ?_ fun _ u hu => State.wf_reach hu u))
  exact ht
theorem wf_execMgmtCap (hs : Sound s) (src : MgmtSrc) (reg : CapReg) (write : Option Word) : OSound (execMgmtCap src reg write s) := by
  refine wf_manage hs _ _ fun t ht => ?_
  split
  · split
    · exact .ok ht
    · exact .error trivial
  · split
    · next e => exact .ok (State.wf_capPut ht _ _ _ e)
    · exact .error trivial
theorem wf_execMgmtPool (hs : Sound s) (src : MgmtSrc) (add : Bool) (frame : Nat) : OSound (execMgmtPool src add frame s) :=
  wf_manage hs _ _ fun _ ht => .ite (.error trivial) (.ok ht)
theorem wf_execMgmtAttest (hs : Sound s) (src : MgmtSrc) (nonce : List Byte) : OSound (execMgmtAttest src nonce s) :=
  wf_manage hs _ _ fun _ ht => .ite (.error trivial) (.ok ht)
theorem wf_execMgmtStatus (hs : Sound s) (src : MgmtSrc) : OSound (execMgmtStatus src s) :=
  wf_manage hs _ _ fun _ ht => .ok ht
theorem wf_execMgmtLaunchEnvironment (hs : Sound s) (src : MgmtSrc) (vi : Nat) (env : Env) : OSound (execMgmtLaunchEnvironment src vi env s) :=
  wf_manage hs _ _ fun _ ht => .ite (.error trivial) (.ok ht)
theorem wf_execConvoyRetire (hs : Sound s) (h : Nat) : OSound (execConvoyRetire h s) := by
  unfold execConvoyRetire
  dsimp only
  split
  · refine .ite (.next (State.wf_setTh (sound_ite ?_ hs) _ _)) (.next hs)
    exact hs
  · exact hs
theorem wf_execJalr (hs : Sound s) (d a : BitVec 5) (i : BitVec 14) : OSound (execJalr d a i s) :=
  .ite (wf_finish (wf_raise hs _)) <| .ite (.next (State.sound_withTh hs _)) (wf_finish (State.wf_transfer hs _ _ _))
theorem wf_execEcall (hs : Sound s) : OSound (execEcall s) := wf_finish <| .ite (wf_illegal hs 0) (wf_raise hs _)
/-- The order that `ORD` asks for keeps soundness, as both runs do. -/
theorem wf_strictRun (c : Prop) [Decidable c] : RunKeeps (if c then orderedRun else unorderedRun) := by
  split
  · exact fun _ _ l hs hm => wf_orderedRun hs hm l
  · exact fun _ _ l hs hm => wf_unorderedRun hs hm l
theorem wf_execFadd (hs : Sound s) (d a b : BitVec 5) (f : BitVec 1) (r : BitVec 3) : OSound (execFadd d a b f r s) := by
  unfold execFadd
  exact wf_fpResult hs _ _ _
theorem wf_execFfma (hs : Sound s) (d a b : BitVec 5) (f : BitVec 1) (r : BitVec 3) : OSound (execFfma d a b f r s) := by
  unfold execFfma
  exact wf_fpResult hs _ _ _
theorem wf_execFmul (hs : Sound s) (d a b : BitVec 5) (f : BitVec 1) (r : BitVec 3) : OSound (execFmul d a b f r s) := by
  unfold execFmul
  exact wf_fpResult hs _ _ _
theorem wf_execFcvt (hs : Sound s) (d a k : BitVec 5) (f : BitVec 1) (r : BitVec 3) : OSound (execFcvt d a k f r s) := by
  unfold execFcvt
  exact wf_fpResult hs _ _ _
theorem wf_execFcmp (hs : Sound s) (d a b : BitVec 5) (f : BitVec 1) (q : BitVec 2) : OSound (execFcmp d a b f q s) := by
  unfold execFcmp
  exact wf_fpResult hs _ _ _
theorem wf_exec (hs : Sound s) (i : Instr) : OSound (exec i s) := by
  unfold exec
  cases i
  case add | sub | and | or | xor | sll | srl | sra | slt | sltn | mul | mulh | mulhn | div | divn | rem | remn | min | max | minn | maxn
      | rotl | rotr =>
    exact wf_aluRR hs _ _ _ _
  case clz | ctz | popc | bswap => exact wf_aluR hs _ _ _
  case sel | lih | addpc => exact .next (State.wf_wrAdvance hs _ _)
  case addi | andi | ori | xori | slti | sltni | slli | srli | srai | rotri => exact wf_aluRI hs _ _ _ _
  case jal => exact wf_finish (State.wf_transfer hs _ _ _)
  case jalr => exact wf_execJalr hs _ _ _
  case beq | bne | blt | bge | bltn | bgen => exact wf_branch hs _ _ _ _
  case ldBS | ldBN | ldHS | ldHN | ldWS | ldWN | ldD => exact wf_load hs _ _ _ _ _
  case stB | stH | stW | stD => exact wf_store hs _ _ _ _
  case amoAdd | amoAnd | amoOr | amoXor | amoMin | amoMax | amoMinn | amoMaxn | amoSwap | amoCas => exact wf_amo hs _ _ _ _ _
  case fadd => exact wf_execFadd hs _ _ _ _ _
  case fmul => exact wf_execFmul hs _ _ _ _ _
  case ffma => exact wf_execFfma hs _ _ _ _ _
  case fcvt => exact wf_execFcvt hs _ _ _ _ _
  case fcmp => exact wf_execFcmp hs _ _ _ _ _
  case ecall => exact wf_execEcall hs
  case brk | undefinedInstruction => exact wf_finish (wf_raise hs _)
  case tret => exact wf_execTret hs _
  case emuret => exact wf_execEmuret hs
  case fence | lsync => exact .next (State.wf_advance hs)
  case crrd => exact wf_execCrrd hs _ _
  case crwr | crset | crclr | fmaskClear | srseedWrite => exact wf_crModify hs _ _ _ _
  case ctxsv => exact wf_execCtxsv hs _
  case ctxld => exact wf_execCtxld hs _
  case tlbinv => exact wf_execTlbinv hs _ _ _
  case tlbsync => exact wf_execTlbsync hs
  case rmack => exact wf_execRmack hs _ _
  case lwake => exact wf_execLwake hs _ _
  case idle => exact wf_execIdle hs
  case setvl => exact wf_execSetvl hs _ _ _ _
  case setvlw => exact wf_execSetvlw hs _ _ _ _
  case vadd | vsub | vand | vor | vxor | vsll | vsrl | vsra | vmul | vmulh | vmulhn | vdiv | vdivn | vrem | vremn | vmin | vmax | vminn |
      vmaxn | vclmul | vclmulh | vwid | vwidn | vaddScalar | vsubScalar | vandScalar | vorScalar | vxorScalar | vsllScalar | vsrlScalar |
      vsraScalar | vmulScalar | vmulhScalar | vmulhnScalar | vdivScalar | vdivnScalar | vremScalar | vremnScalar | vminScalar | vmaxScalar |
      vminnScalar | vmaxnScalar | vclmulScalar | vclmulhScalar | vsadd | vssub | vsaddn | vssubn | vnrw | vnrwn | vnrwsn | vsaddScalar |
      vssubScalar | vsaddnScalar | vssubnScalar | vfadd | vfsub | vfmul | vfma | vfms | vfnma | vfdiv | vfsqrt | vfmin | vfmax | vfrcp |
      vfaddScalar | vfsubScalar | vfmulScalar | vfmaScalar | vfmsScalar | vfnmaScalar | vfdivScalar | vfsqrtScalar | vfminScalar | vfmaxScalar
      | vfrcpScalar | vcmp | vcmps | vfcmp | vfcmps | vmerge | vmv | vbcast | vcvt =>
    exact wf_finish (wf_runElem hs _ _)
  case vextN | vextI | mpopc => exact wf_finish (wf_runWhole hs _ (fun _ ht => State.wf_wrN ht _ _) _)
  case vslideup | vcompress => exact wf_finish (wf_runWhole hs _ (fun _ ht => State.wf_setElts ht _ _) _)
  case vslidedn | vperm | vexpand | viota => exact wf_finish (wf_runWhole hs _ (fun _ ht => State.wf_permute ht _ _ _) _)
  case vconf | mseti | mvfm => exact wf_finish (wf_runWhole hs _ (fun _ ht => State.wf_setM ht _ _) _)
  case vredsum | vredmaxI | vredmaxN | vredminI | vredminN => exact wf_finish (wf_runWhole hs _ (fun _ ht => wf_reduceInt ht _ _ _ _ _) _)
  case vfredsum => exact wf_finish (wf_runWhole hs _ (fun _ ht => wf_reduceFsum ht _ _ _ _ _) _)
  case vredmaxF | vredminF => exact wf_finish (wf_runWhole hs _ (fun _ ht => wf_reduceMinMax ht _ _ _ _ _ _) _)
  case vqnt => exact wf_execVqnt hs _ _ _ _ _ _
  case vdqnt => exact wf_execVdqnt hs _ _ _ _ _ _
  case mand | mor | mxor | mnot => exact wf_finish (wf_runWhole hs _ (fun _ ht => wf_maskOp ht _ _ _ _ _) _)
  case mfirst => exact wf_finish (wf_runWhole hs _ (fun _ ht => State.wf_wr ht _ _) _)
  case vld | vlds | vldx => exact wf_finish (wf_vmemMember hs (fun _ _ l ht => wf_loadElts ht _ _ l) (wf_ordRun _) _ _)
  case vldff => exact wf_finish (wf_vmemMember hs (fun _ _ l ht => wf_loadElts ht _ _ l) (fun _ _ l ht hm => wf_firstFaultRun ht hm l) _ _)
  case vst | vsts | vstx => exact wf_finish (wf_vmemMember hs (fun _ _ l ht => wf_storeElts ht _ _ l) (wf_ordRun _) _ _)
  case vstxa => exact wf_execVstxa hs _ _ _ _ _ _ _ _ _
  case vgll => exact wf_finish (wf_vmemMember hs (memVgll_keeps _ _ _ _ _ _ _) (wf_strictRun _) _ _)
  case vscc => exact wf_finish (wf_vmemMember hs (fun _ _ l ht => wf_sccElts ht _ _ _ l) (wf_strictRun _) _ _)
  case vamoWAdd | vamoWAnd | vamoWOr | vamoWXor | vamoWMin | vamoWMax | vamoWMinn | vamoWMaxn | vamoWSwap | vamoWCas | vamoDAdd | vamoDAnd
      | vamoDOr | vamoDXor | vamoDMin | vamoDMax | vamoDMinn | vamoDMaxn | vamoDSwap | vamoDCas =>
    exact wf_vamo hs _ _ _ _ _ _ _
  case vwait => exact wf_execVwait hs _ _ _ _ _ _
  case tagl => exact wf_execTagl hs _ _ _
  case tagw => exact wf_execTagw hs _ _ _
  case vspill => exact wf_execVspill hs _ _ _
  case vfill => exact wf_execVfill hs _ _
  case matt => exact wf_execMatt hs _ _
  case mdet => exact wf_execMdet hs
  case mmode => exact wf_execMmode hs _ _
  case mzero => exact wf_execMzero hs _
  case mopa | mopa2 | mopa4 | mops | mopg | mopq => exact wf_mop hs _ _ _
  case mrd => exact wf_execMrd hs _ _ _
  case mwr => exact wf_execMwr hs _ _ _
  case mcbl => exact wf_execMcbl hs _
  case mrll => exact wf_execMrll hs _
  case msave => exact wf_execMsave hs _
  case mrest => exact wf_execMrest hs _
  case schIn | schOut => exact wf_finish (wf_schClaim hs _ _ _ _)
  case schRel => exact wf_execSchRel hs _
  case sld | sst | sgath | sscat | sscataInt => exact wf_finish (wf_issue hs _ _ _ _ _)
  case sscataFloat => exact wf_execSscataFloat hs _ _ _ _
  case swm => exact wf_finish (wf_swm hs _ _ _)
  case sdrain | sdrainAll => exact wf_finish (wf_sdrain hs _)
  case rcfg => exact wf_execRcfg hs _ _ _
  case rwait => exact wf_finish (wf_rwait hs _ _ _ _)
  case rfree => exact wf_execRfree hs _ _ _
  case chcfg => exact wf_finish (wf_chcfg hs _ _ _)
  case run => exact wf_execRun hs _ _
  case chwait => exact wf_finish (wf_chwait hs _ _)
  case chbrk => exact wf_execChbrk hs _ _
  case hwpub => exact wf_execHwpub hs _ _ _ _
  case tkpush => exact wf_execTkpush hs _ _
  case tkpop => exact wf_execTkpop hs _
  case qwr => exact wf_finish (wf_qwr hs _ _)
  case qrd => exact wf_finish (wf_qrd hs _ _)
  case launch => exact wf_execLaunch hs _ _
  case convoyRetire => exact wf_execConvoyRetire hs _
  case takeAsyncCause => exact wf_execTakeAsyncCause hs _
  case rmgraceExpire => exact wf_execRmgraceExpire hs _
  case vwaitWake => exact wf_execVwaitWake hs _
  case setvlwWake => exact wf_execSetvlwWake hs _
  case rwaitWake => exact wf_execRwaitWake hs _
  case swmWake => exact wf_execSwmWake hs _
  case sdrainWake => exact wf_execSdrainWake hs _
  case qwrWake => exact wf_execQwrWake hs _
  case qrdWake => exact wf_execQrdWake hs _
  case chwaitWake => exact wf_execChwaitWake hs _
  case tlbsyncWake => exact wf_execTlbsyncWake hs _
  case chcfgClaimWake => exact wf_execChcfgClaimWake hs _
  case transferSlotWake => exact wf_execTransferSlotWake hs _
  case runWaitWake => exact wf_execRunWaitWake hs _
  case stripComplete => exact wf_execStripComplete hs _ _
  case streamRetranslation => exact wf_execStreamRetranslation hs _ _
  case tlbinvComplete => exact wf_execTlbinvComplete hs _
  case chainNodeElement | switchEntryMove => exact wf_streamNode hs _ _ _ _
  case runComplete => exact wf_execRunComplete hs _ _
  case chainDrainComplete => exact .next (State.wf_drain hs _)
  case chainFinish => exact wf_execChainFinish hs _
  case groupStart => exact wf_execGroupStart hs _
  case threadEnd => exact wf_execThreadEnd hs _
  case threadTermination => exact wf_execThreadTermination hs _
  case launchCompletion => exact wf_execLaunchCompletion hs _
  case dispatchStep => exact wf_execDispatchStep hs _
  case imageSelection => exact wf_execImageSelection hs _ _
  case migrationDeviceRequest => exact wf_execMigrationDeviceRequest hs _
  case migrationSwitch => exact wf_execMigrationSwitch hs _
  case migrationInvalidationComplete => exact wf_execMigrationInvalidationComplete hs _
  case migrationHoldExpire => exact wf_execMigrationHoldExpire hs _
  case reductionToken => exact wf_execReductionToken hs _
  case reductionNodeFail => exact wf_execReductionNodeFail hs _
  case kslFlitReceive => exact wf_execKslFlitReceive hs _ _
  case kslRetryRequest => exact wf_execKslRetryRequest hs _ _
  case kslLinkDown => exact wf_execKslLinkDown hs _
  case hwr => exact wf_execHwr hs _ _ _ _
  case hrd => exact wf_execHrd hs _ _ _ _
  case cpl => exact wf_execCpl hs _ _ _
  case lmsg => exact wf_execLmsg hs _ _ _
  case migreq => exact wf_execMigreq hs _ _ _
  case rtok => exact wf_execRtok hs _ _ _ _
  case mgmtPartition => exact wf_manage hs _ _ (wf_partitionRequest _ _ _ _)
  case mgmtQueueConfiguration => exact wf_manage hs _ _ (wf_queueRequest _ _ _)
  case mgmtWindow => exact wf_manage hs _ _ (wf_windowRequest _ _ _ _ _ _)
  case mgmtPreempt => exact wf_manage hs _ _ (wf_preemptRequest _ _)
  case mgmtSwap => exact wf_manage hs _ _ (wf_swapRequest _ _)
  case mgmtArmNode => exact wf_manage hs _ _ (wf_armRequest _ _ _)
  case mgmtHold => exact wf_execMgmtHold hs _ _
  case mgmtThreshold => exact wf_execMgmtThreshold hs _ _
  case mgmtCap => exact wf_execMgmtCap hs _ _ _
  case mgmtPool => exact wf_execMgmtPool hs _ _ _
  case mgmtAttest => exact wf_execMgmtAttest hs _ _
  case mgmtStatus => exact wf_execMgmtStatus hs _
  case mgmtLaunchEnvironment => exact wf_execMgmtLaunchEnvironment hs _ _ _
  case capFrame => exact wf_execCapFrame hs _
  case powerEstimate => exact wf_execPowerEstimate hs
  case throttleRelease => exact wf_execThrottleRelease hs
  case thermalAlarm => exact wf_execThermalAlarm hs _
  case currentAlarm => exact wf_execCurrentAlarm hs _
  case linkIdleNarrow => exact wf_execLinkIdleNarrow hs _
  case linkIdleSleep => exact wf_execLinkIdleSleep hs _
  case linkWakeComplete => exact wf_execLinkWakeComplete hs _
  case correctedError => exact wf_execCorrectedError hs _
  case uncorrectableError => exact wf_execUncorrectableError hs _
  case resourceMapPublish => exact wf_execResourceMapPublish hs
  case boot => exact wf_execBoot hs
  case linkRetrainComplete => exact wf_execLinkRetrainComplete hs _
/-- What a turn comes to keeps every memory canonical: the state in which an instruction executes, or the outcome. -/
def Choice.Sound : Choice → Prop
  | .idle => True
  | .run _ s => s.wf = true
  | .ends o => OSound o
theorem State.wf_runWord (hs : Sound s) (w : W32) : (s.runWord w).Sound := by
  unfold State.runWord
  split
  · split
    · exact hs
    · dsimp only
      split
      · next e => exact wf_stopWithin (s := { s with cut := none }) hs _ _ _ e
      · exact hs
  · exact wf_finish (wf_illegal hs 0)
theorem State.wf_issueFresh (hs : Sound s) : s.issueFresh.Sound := by
  unfold State.issueFresh
  extract_lets ws member e0
  clear_value ws member e0
  split
  · exact wf_finish (wf_raise hs _)
  split
  · exact wf_finish (wf_raise hs _)
  split
  · exact wf_finish (.error (e := Exn.park .runWait s) hs)
  split
  · split
    · exact wf_finish (wf_raise hs _)
    · exact wf_runWord hs _
  · exact wf_runWord (sound_withTh hs _) _
theorem State.wf_issue (hs : Sound s) : s.issue.Sound := by
  unfold State.issue
  split
  · exact hs
  split
  · exact hs
  split
  · split
    · split
      · exact wf_issueFresh hs
      split
      · exact hs
      · exact wf_runWord hs _
    · exact wf_issueFresh hs
  · trivial
theorem wf_firstStep (hs : Sound s) (l : List Instr) : OSound (firstStep s l) := by
  induction l with
  | nil => exact hs
  | cons i r ih =>
    have h1 := wf_exec hs i
    unfold firstStep
    split
    · next e =>
      rw [e] at h1
      refine .ite ih (.next ?_)
      exact h1
    · exact h1
theorem wf_step (hs : Sound s) : OSound (step s) := by
  unfold step
  split
  · next i r _ =>
    have h1 : Sound { s with agenda := r } := hs
    exact .ite (wf_exec h1 i) (.next h1)
  split
  · have h1 := State.wf_issue (s := { s with turn := .engine }) hs
    split
    · exact .next hs
    · next i t e =>
      rw [e] at h1
      have h2 : Sound t := h1
      split
      · exact wf_exec (State.wf_caughtUp h2 i) i
      · next u e => exact State.wf_afterLate h2 (wf_exec (State.wf_lateFrom h2 i u e) i)
    · next e =>
      rw [e] at h1
      exact h1
  · have h1 : Sound { s with turn := .thread } := hs
    exact wf_firstStep (State.wf_pickNext (State.wf_flushLinks (State.wf_takeNews h1))) _
/-- Settles O59, by `wf_step`: each function that a step calls keeps every byte memory canonical, from the stores and the core updates up to
`exec` of every instruction. -/
theorem memoryStaysCanonical : Obligations.MemoryStaysCanonical := by
  unfold Obligations.MemoryStaysCanonical
  intro s t hs e
  have h := wf_step hs
  rw [e] at h
  exact h
end Sys2Proof.Machine

namespace Sys2Proof.Machine
variable {s : State}

/-! ## Control registers: who may name which (01 R20, 19 R378) -/

theorem crFirmware_iff {n : Nat} : crFirmware n = true ↔ (0x180 ≤ n ∧ n ≤ 0x186) ∨ n = 0x189 := by
  simp only [crFirmware, Bool.or_eq_true, Bool.and_eq_true, decide_eq_true_eq, beq_iff_eq]
/-- Every level may name the user control registers, the channel registers and the identity registers. -/
theorem crPriv_userRegister {n : Nat} (l : Level) (h : n < 0x100 ∨ 0x400 ≤ n) : crPriv l n = false := by
  cases l with
  | user =>
    simp only [crPriv, Bool.and_eq_false_iff, decide_eq_false_iff_not]
    omega
  | supervisor =>
    rw [crPriv, ← Bool.not_eq_true, crFirmware_iff]
    omega
  | firmware => rfl
/-- Above user level only the registers of firmware are closed, and those to the supervisor alone. -/
theorem crPriv_aboveUser {l : Level} {n : Nat} (hl : l ≠ .user) (hn : l = .supervisor → crFirmware n = false) : crPriv l n = false := by
  cases l with
  | user => exact absurd rfl hl
  | supervisor => exact hn rfl
  | firmware => rfl
theorem crPriv_user {n : Nat} (h : 0x100 ≤ n ∧ n ≤ 0x3FF) : crPriv .user n = true := by
  simp only [crPriv, Bool.and_eq_true, decide_eq_true_eq]
  omega

theorem crPriv_latthr {l : Level} {h : Nat} (hl : l ≠ .user) (hh : h < 4) : crPriv l (0x204 + h) = false :=
  crPriv_aboveUser hl fun _ => by rw [← Bool.not_eq_true, crFirmware_iff]; omega

/-! ## Tables of units after an update -/

theorem State.getCore_updCore (s : State) (n m : Nat) (f : Core → Core) :
    (s.updCore n f).getCore m = if m = n then f (s.getCore n) else s.getCore m := by
  unfold State.updCore State.setCore State.getCore
  split
  · next h => subst h; exact SMap.get_set_same ..
  · next h => exact SMap.get_set_ne _ _ _ _ _ h
theorem State.getCluster_setCluster (s : State) (n m : Nat) (c : Cluster) :
    (s.setCluster n c).getCluster m = if m = n then c else s.getCluster m := by
  unfold State.setCluster State.getCluster
  split
  · next h => subst h; exact SMap.get_set_same ..
  · next h => exact SMap.get_set_ne _ _ _ _ _ h
theorem State.lat_setLat (s : State) (c t u : Nat) (x : LatThr) :
    (s.setLat c t x).lat c u = if u = t then x else s.lat c u := by
  unfold State.setLat State.lat
  rw [State.getCore_updCore, if_pos rfl]
  split
  · next h => subst h; exact SMap.get_set_same ..
  · next h => exact SMap.get_set_ne _ _ _ _ _ h
/-- Memory does not depend on what a core holds beside its tile allocations. -/
theorem State.sameBytes_updCore (s : State) (n : Nat) {f : Core → Core} (hf : ∀ c, (f c).allocs = c.allocs) : SameBytes s (s.updCore n f) := by
  intro l
  cases l with
  | dev p => rfl
  | hostmem p => rfl
  | tile c g o =>
    unfold State.readLoc State.alloc
    dsimp only
    rw [State.getCore_updCore]
    split
    · next h => subst h; rw [hf]
    · rfl
theorem State.sameBytes_setCluster (s : State) (n : Nat) (c : Cluster) : SameBytes s (s.setCluster n c) := by
  intro l
  cases l <;> rfl

/-! ## Completion of an instruction that has changed more than g[d] -/

theorem State.holds_wrAdvance (u : State) (d : BitVec 5) (x : Word) : Holds d x (u.wrAdvance d x) := by
  rw [Holds, State.rd_wrAdvance, if_pos rfl]
theorem State.keepsRegs_wrAdvance {u : State} (hg : u.th.g = s.th.g) (d : BitVec 5) (x : Word) : KeepsRegs d s (u.wrAdvance d x) := by
  intro r hr
  rw [State.rd_wrAdvance, if_neg hr]
  unfold State.rd
  rw [hg]
theorem State.th_wrAdvance (u : State) (d : BitVec 5) (x : Word) :
    (u.wrAdvance d x).th = { u.th with g := (u.wrAdvance d x).th.g, pc := u.th.pc + 4, cv := none, reissue := false } := by
  unfold State.wrAdvance State.wr State.advance
  split <;> rfl
theorem State.onlyThread_wrAdvance (u : State) (d : BitVec 5) (x : Word) : OnlyThread u (u.wrAdvance d x) := by
  unfold OnlyThread State.wrAdvance State.wr State.advance
  split <;> rfl
theorem State.readLoc_wrAdvance (u : State) (d : BitVec 5) (x : Word) (l : Loc) (n : Nat) : (u.wrAdvance d x).readLoc l n = u.readLoc l n := by
  rw [State.onlyThread_wrAdvance u d x]
  exact State.readLoc_th ..
theorem State.sameBytes_wrAdvance {u : State} (h : SameBytes s u) (d : BitVec 5) (x : Word) : SameBytes s (u.wrAdvance d x) :=
  fun l => (State.readLoc_wrAdvance ..).trans (h l)
/-- Where the context of the current thread stands, g[d] and the program counter are all that completion changes of it. -/
theorem State.passes_wrAdvance {u : State} (h : u.th = s.th) (d : BitVec 5) (x : Word) : Passes s (u.wrAdvance d x) d x := by
  refine ⟨State.holds_wrAdvance .., State.keepsRegs_wrAdvance (by rw [h]) d x, ?_⟩
  rw [← h]
  exact State.th_wrAdvance ..

end Sys2Proof.Machine

namespace Sys2Proof.Machine
variable {s : State}

/-! ## Reads of control registers (04 R126) -/

theorem popBits_eq_length_filter (x n : Nat) : popBits x n = ((List.range n).filter fun i => x.testBit i).length := by
  induction n with
  | zero => rfl
  | succ n ih =>
    rw [List.range_succ, List.filter_append, List.length_append, ← ih, popBits]
    cases h : x.testBit n <;> simp [h]
theorem toNat_mul_eq_ite (b : Bool) (n : Nat) : b.toNat * n = if b then n else 0 := by
  cases b <;> simp
theorem foldl_add_eq_sum (l : List Nat) (f : Nat → Nat) : l.foldl (fun n p => n + f p) 0 = (l.map f).sum := by
  rw [List.sum_eq_foldl, List.foldl_map]
theorem crGet_channel {n : Nat} (h : 0x40 ≤ n) (h' : n < 0x80) : s.crGet n = some (s.channelCr n) := by
  simp (disch := omega) only [State.crGet, if_neg, if_pos]
/-- The trap-entry registers of the supervisor, and those of firmware, in their order (19 R378). -/
theorem crGet_supervisor {k : Nat} (hk : k ≤ 6) : s.crGet (0x100 + k) = some (s.th.sup.get k) := by
  simp (disch := omega) only [State.crGet, if_neg, if_pos, Nat.add_sub_cancel_left]
theorem crGet_firmware {k : Nat} (hk : k ≤ 6) : s.crGet (0x180 + k) = some (s.th.fw.get k) := by
  simp (disch := omega) only [State.crGet, if_neg, if_pos, Nat.add_sub_cancel_left]
theorem crGet_latthr {h : Nat} (hh : h < 4) : s.crGet (0x204 + h) = some (s.latthr s.core h) := by
  simp (disch := omega) only [State.crGet, if_neg, if_pos, Nat.add_sub_cancel_left]
theorem crGet_fmask : s.crGet 5 = some ((List.range 32768).filter fun i => s.th.fmask.testBit i).length := by
  rw [← popBits_eq_length_filter]
  simp only [State.crGet, if_false, if_true, OfNat.ofNat_ne_zero, Nat.reduceEqDiff]
/-- What cwm shows: `P`, `DIR`, the transfers and the watermark of a channel that the thread holds (07 R215). -/
theorem channelCr_wm (c : Nat) : s.channelCr (0x40 + 4 * c) = if (s.chan c).owner = some s.cur then
    (if (s.chan c).xfers = [] then 0 else 2 ^ 63) + (if (s.chan c).outward then 2 ^ 62 else 0) + (s.chan c).xfers.length * 2 ^ 56
      + (s.chan c).wm % 2 ^ 22 else 0 := by
  rw [State.channelCr, if_pos (by omega), show (0x40 + 4 * c - 0x40) / 4 = c by omega]
  unfold State.cwm State.chan SMap.get
  cases h : (s.getCore s.core).channels.look c with
  | none => rfl
  | some ch =>
    simp [toNat_mul_eq_ite, ite_not]
theorem channelCr_dim {c k : Nat} (h : 1 ≤ k) (h' : k ≤ 3) : s.channelCr (0x40 + 4 * c + k) = (s.th.cdim.get (4 * c + k) 0).toNat := by
  rw [State.channelCr, if_neg (by omega), show 0x40 + 4 * c + k - 0x40 = 4 * c + k by omega]

/-- A CRRD of a register that the level may name writes its value to g[d] and does nothing else; ccount alone changes by it. -/
theorem crrd_writesReg {d : BitVec 5} {n : BitVec 12} {x : Nat} (hp : crPriv s.th.level n.toNat = false) (hn : n.toNat ≠ 0x10)
    (hx : s.crGet n.toNat = some x) : WritesReg (.crrd d n) s d (BitVec.ofNat 64 x) := by
  refine writesReg_of_exec _ s d _ ?_
  change execCrrd d n s = _
  unfold execCrrd State.tick
  simp [hp, hn, hx]
/-- The core's counter and the schedule of free choices are all that a read of ccount moves. -/
theorem State.tick_ccount (s : State) : s.tick 0x10 =
    { s.updCore s.core fun c => { c with ccount := c.ccount + Config.cycles s.free } with free := s.free + 1 } := rfl
theorem State.getCore_tick (s : State) (m : Nat) : (s.tick 0x10).getCore m =
    if m = s.core then { s.getCore s.core with ccount := (s.getCore s.core).ccount + Config.cycles s.free } else s.getCore m :=
  State.getCore_updCore s s.core m fun c => { c with ccount := c.ccount + Config.cycles s.free }
theorem State.getCore_wrAdvance (u : State) (d : BitVec 5) (x : Word) (m : Nat) : (u.wrAdvance d x).getCore m = u.getCore m := by
  unfold State.getCore
  rw [State.wrAdvance_cores]
/-- A CRRD of ccount finds it advanced, and leaves it so. -/
theorem crrd_ccount (s : State) (d : BitVec 5) : ∃ n t, exec (.crrd d 0x010) s = .next t ∧ Passes s t d (BitVec.ofNat 64 n)
    ∧ (s.getCore s.core).ccount ≤ n ∧ OnlyCore s { t with free := s.free } s.core { s.getCore s.core with ccount := n } := by
  have hp : crPriv s.th.level 0x10 = false := crPriv_userRegister _ (by decide)
  have hg : (s.tick 0x10).crGet 0x10 = some ((s.getCore s.core).ccount + Config.cycles s.free) := by
    change some ((s.tick 0x10).getCore s.core).ccount = _
    rw [State.getCore_tick, if_pos rfl]
  have he : exec (.crrd d 0x010) s = .next ((s.tick 0x10).wrAdvance d (BitVec.ofNat 64 ((s.getCore s.core).ccount + Config.cycles s.free))) := by
    change execCrrd d 0x010 s = _
    unfold execCrrd
    simp [hp, hg]
  refine ⟨_, _, he, State.passes_wrAdvance rfl .., Nat.le_add_right .., ?_, fun m hm => ?_, ?_⟩
  · exact (State.getCore_wrAdvance ..).trans ((State.getCore_tick ..).trans (if_pos rfl))
  · exact (State.getCore_wrAdvance ..).trans ((State.getCore_tick ..).trans (if_neg hm))
  · rw [State.onlyThread_wrAdvance (s.tick 0x10)]
    rfl
/-- A read of a register that every level may name. -/
theorem crrd_userRegister {d : BitVec 5} {n : BitVec 12} {x : Nat} (h : (n.toNat < 0x100 ∨ 0x400 ≤ n.toNat) ∧ n.toNat ≠ 0x10)
    (hx : s.crGet n.toNat = some x) : WritesReg (.crrd d n) s d (BitVec.ofNat 64 x) :=
  crrd_writesReg (crPriv_userRegister _ h.1) h.2 hx
/-- A read of a supervisor, core or cluster register above user level. -/
theorem crrd_systemRegister {d : BitVec 5} {n : BitVec 12} {x : Nat} (hl : s.th.level ≠ .user)
    (h : crFirmware n.toNat = false ∧ n.toNat ≠ 0x10) (hx : s.crGet n.toNat = some x) : WritesReg (.crrd d n) s d (BitVec.ofNat 64 x) :=
  crrd_writesReg (crPriv_aboveUser hl fun _ => h.1) h.2 hx
/-- A read at firmware level. -/
theorem crrd_firmware {d : BitVec 5} {n : BitVec 12} {x : Nat} (hl : s.th.level = .firmware) (hn : n.toNat ≠ 0x10)
    (hx : s.crGet n.toNat = some x) : WritesReg (.crrd d n) s d (BitVec.ofNat 64 x) :=
  crrd_writesReg (by rw [hl]; rfl) hn hx

/-- What latab shows: the code of each lane group's owner in four bits (09 R240). -/
theorem latab_eq_sum (s : State) (c : Nat) :
    s.latab c = ((List.range 9).map fun p => ((s.getCore c).lanes.getD p .dead).code * 16 ^ p).sum :=
  foldl_add_eq_sum ..
/-- What latthr shows of a thread (09 R242). -/
theorem latthr_eq (s : State) (c t : Nat) : s.latthr c t = if (s.getCore c).gangFirst = c then
    (if (s.getTh (4 * c + t)).resident then 2 ^ 63 else 0) + (if (s.lat c t).ask then 2 ^ 62 else 0) + (s.lat c t).lim * 2 ^ 24
      + s.held c t * 2 ^ 16 + (s.lat c t).share * 2 ^ 8 + (s.lat c t).req else 0 := by
  simp [State.latthr, toNat_mul_eq_ite, ite_not]
theorem Thread.suspended_iff (t : Thread) : t.suspended = true ↔ t.rmvAck ≠ t.rmvCur ∧ t.rmLeft = 0 := by
  simp [Thread.suspended]
theorem thrstate_eq_sum (s : State) (c : Nat) : s.thrstate c = if (s.getCore c).gangFirst = c then
    ((List.range 4).map fun t => (s.getTh (4 * c + t)).st * 16 ^ t).sum else 0 := by
  rw [State.thrstate, ite_not, foldl_add_eq_sum]
theorem clstat_eq (s : State) (c : Nat) : s.clstat c =
    (((List.range 8).map (coreAt c)).flatMap fun c => (List.range 4).filter fun t => (s.getTh (4 * c + t)).resident).length * 2 ^ 16
      + ((((List.range 8).map (coreAt c)).filter s.coreLive).filter fun c => (s.getCore c).gang == 0 && (s.residents c).isEmpty).length * 2 ^ 8
      + (((List.range 8).map (coreAt c)).filter s.coreLive).length := by
  rw [List.length_flatMap]
  rfl
theorem lerr_eq (c : Cluster) : c.lerr = (if c.lerrV then 2 ^ 63 else 0) + c.lerrAddr % 2 ^ 57 := by
  rw [Cluster.lerr, toNat_mul_eq_ite]

theorem toNat_register {n : Nat} (h : n < 4096) : (BitVec.ofNat 12 n).toNat = n := by
  rw [BitVec.toNat_ofNat, Nat.mod_eq_of_lt h]

/-- The channel registers (07 R215). -/
theorem crrd_channel {d : BitVec 5} {c k : Nat} (hc : c < 16) (hk : k ≤ 3) :
    WritesReg (.crrd d (BitVec.ofNat 12 (0x40 + 4 * c + k))) s d (BitVec.ofNat 64 (s.channelCr (0x40 + 4 * c + k))) := by
  have hn : (BitVec.ofNat 12 (0x40 + 4 * c + k)).toNat = 0x40 + 4 * c + k := toNat_register (by omega)
  refine crrd_userRegister (by omega) ?_
  rw [hn]
  exact crGet_channel (by omega) (by omega)
theorem crrd_latthr {d : BitVec 5} {h : Nat} (hl : s.th.level ≠ .user) (hh : h < 4) :
    WritesReg (.crrd d (BitVec.ofNat 12 (0x204 + h))) s d (BitVec.ofNat 64 (s.latthr s.core h)) := by
  have hn : (BitVec.ofNat 12 (0x204 + h)).toNat = 0x204 + h := toNat_register (by omega)
  refine crrd_writesReg ?_ (by omega) ?_
  · rw [hn, crPriv_latthr hl hh]
  · rw [hn, crGet_latthr hh]

/-- Settles O15, by the value that each register shows (`crGet`) and the rule for CRRD (`crrd_writesReg`). -/
theorem controlRegisterReads : Obligations.ControlRegisterReads := by
  unfold Obligations.ControlRegisterReads
  intro s d reads status
  have user : ∀ {n : BitVec 12} {x : Nat}, (n.toNat < 0x100 ∨ 0x400 ≤ n.toNat) ∧ n.toNat ≠ 0x10 → s.crGet n.toNat = some x → reads n x :=
    crrd_userRegister
  refine ⟨user ?_ rfl, user ?_ rfl, user ?_ rfl, user ?_ rfl, user ?_ rfl, user ?_ rfl, user ?_ rfl, user ?_ rfl, user ?_ rfl, user ?_ rfl,
    user ?_ rfl, user ?_ rfl, user ?_ rfl, user ?_ rfl, user ?_ rfl, user ?_ rfl, user ?_ rfl, user ?_ rfl, user ?_ rfl, user ?_ rfl,
    user ?_ crGet_fmask, crrd_ccount s d, ?channels, user ?_ rfl, user ?_ rfl, user ?_ rfl, ?core, user ?_ rfl, user ?_ rfl, user ?_ rfl,
    ?supervisor, ?firmware, ?cores⟩
  case channels =>
    intro c hc x
    refine ⟨?_, fun k hk hk' => ?_⟩
    · have hwm := crrd_channel (s := s) (d := d) hc (Nat.zero_le 3)
      rwa [Nat.add_zero, channelCr_wm] at hwm
    · have hdim := crrd_channel (s := s) (d := d) hc hk'
      rwa [channelCr_dim hk hk'] at hdim
  case core =>
    intro hc
    exact user (by decide) (congrArg some (if_pos hc))
  case supervisor =>
    intro hl
    have system : ∀ {n : BitVec 12} {x : Nat}, crFirmware n.toNat = false ∧ n.toNat ≠ 0x10 → s.crGet n.toNat = some x → reads n x :=
      crrd_systemRegister hl
    have entry : ∀ {k : Nat} (_ : k ≤ 6), s.crGet (0x100 + k) = some (s.th.sup.get k) := crGet_supervisor
    refine ⟨system ?_ (entry (k := 0) ?_), system ?_ (entry (k := 1) ?_), system ?_ (entry (k := 2) ?_),
      system ?_ (entry (k := 3) ?_), system ?_ (entry (k := 4) ?_), system ?_ (entry (k := 5) ?_), system ?_ (entry (k := 6) ?_),
      system ?_ rfl, system ?_ rfl, system ?_ rfl, system ?_ rfl, system ?_ rfl, system ?_ rfl⟩
    all_goals decide
  case firmware =>
    intro hl
    have firm : ∀ {n : BitVec 12} {x : Nat}, n.toNat ≠ 0x10 → s.crGet n.toNat = some x → reads n x := crrd_firmware hl
    have entry : ∀ {k : Nat} (_ : k ≤ 6), s.crGet (0x180 + k) = some (s.th.fw.get k) := crGet_firmware
    refine ⟨firm ?_ (entry (k := 0) ?_), firm ?_ (entry (k := 1) ?_), firm ?_ (entry (k := 2) ?_), firm ?_ (entry (k := 3) ?_),
      firm ?_ (entry (k := 4) ?_), firm ?_ (entry (k := 5) ?_), firm ?_ (entry (k := 6) ?_), firm ?_ rfl⟩
    all_goals decide
  case cores =>
    intro hl k thread first held state
    have shown : ∀ t, (s.getTh (4 * s.core + t)).st = state t := by
      intro t
      dsimp only [state, thread]
      rw [Thread.st]
      cases (s.getTh (4 * s.core + t)).status <;> simp only [Thread.suspended_iff]
    have system : ∀ {n : BitVec 12} {x : Nat}, crFirmware n.toNat = false ∧ n.toNat ≠ 0x10 → s.crGet n.toNat = some x → reads n x :=
      crrd_systemRegister hl
    refine ⟨system ?_ (congrArg some (latab_eq_sum ..)), system ?_ rfl, fun t ht => ?latthr,
      system ?_ (congrArg some ((thrstate_eq_sum ..).trans ?thrstate)), system ?_ (congrArg some (clstat_eq ..)), system ?_ rfl,
      system ?_ rfl, system ?_ (congrArg some (lerr_eq _))⟩
    case latthr =>
      rw [← latthr_eq]
      exact crrd_latthr hl ht
    case thrstate => simp only [shown, first, k]
    all_goals decide
  all_goals decide
end Sys2Proof.Machine

namespace Sys2Proof.Machine
variable {s : State}

/-! ## CRWR, CRSET and CRCLR (04 R126) -/

/-- The instruction that modifies control register `n` in the way `o`. -/
noncomputable def CrOp.instr (o : CrOp) (d a : BitVec 5) (n : BitVec 12) : Instr :=
  match o with
  | .write => .crwr d a n | .set => .crset d a n | .clear => .crclr d a n
theorem CrOp.exec_instr (o : CrOp) (d a : BitVec 5) (n : BitVec 12) (s : State) : exec (o.instr d a n) s = crModify o d a n.toNat s := by
  cases o <;> rfl

/-- The three instructions that modify control registers from g[a], each with the value that it makes of the old one and `x`. -/
noncomputable def crForms (d a : BitVec 5) (x : Word) : List ((BitVec 12 → Instr) × (Word → Word)) :=
  [CrOp.write, .set, .clear].map fun o => (o.instr d a, fun old => o.value old x)
theorem forall_crForms {d a : BitVec 5} {x : Word} {P : (BitVec 12 → Instr) × (Word → Word) → Prop}
    (h : ∀ o : CrOp, P (o.instr d a, fun old => o.value old x)) : ∀ p ∈ crForms d a x, P p := by
  intro p hp
  obtain ⟨o, -, rfl⟩ := List.mem_map.1 hp
  exact h o

/-! ### The three ways in which a modification ends -/

theorem crModify_priv {o : CrOp} {d a : BitVec 5} {n : Nat} (hp : crPriv s.th.level n = true) :
    crModify o d a n s = .next (s.takeTrap { cause := 3, tval := s.word.setWidth 64 }) := by
  unfold crModify
  rw [if_pos hp]
  rfl
/-- ILLEGAL for an unassigned number, and where the register refuses the value. -/
theorem crModify_illegal {o : CrOp} {d a : BitVec 5} {n : Nat} (hp : crPriv s.th.level n = false)
    (h : ∀ old, s.crGet n = some old → s.crPut o n (s.rd a) (o.value (BitVec.ofNat 64 old) (s.rd a)) = none) :
    crModify o d a n s = .next (s.takeTrap { cause := 2, tval := s.word.setWidth 64 }) := by
  unfold crModify
  rw [if_neg (by simp [hp])]
  split
  · rfl
  · next old hg => rw [h old hg]; rfl
theorem crModify_done {o : CrOp} {d a : BitVec 5} {n old : Nat} {u : State} (hp : crPriv s.th.level n = false) (hg : s.crGet n = some old)
    (hput : s.crPut o n (s.rd a) (o.value (BitVec.ofNat 64 old) (s.rd a)) = some u) :
    crModify o d a n s = .next (u.wrAdvance d (BitVec.ofNat 64 old)) := by
  unfold crModify
  rw [if_neg (by simp [hp]), hg]
  dsimp only
  rw [hput]
  rfl

/-! ### What each register makes of the value, where it does not simply keep a field of it -/

/-- The registers that every level may name and none may write (01 R23, R30); those of the channels stand apart. -/
abbrev crReadOnlyUser : List Nat := [0, 1, 2, 3, 0xB, 0xC, 0xD, 0xE, 0x10, 0x1A, 0x1B, 0x800, 0x801, 0x802, 0x803, 0x804, 0x805, 0x806]
/-- The supervisor, core and cluster registers that no instruction may write (09 R239, 15 R337, 19 R378). -/
abbrev crReadOnlySystem : List Nat := [0x10A, 0x10C, 0x200, 0x201, 0x208, 0x300, 0x301]

section
variable (s) (o : CrOp) (a x : Word)

theorem crPut_fmask : s.crPut o 5 a x = if o = .write ∧ a = 0 then some { s with th := { s.th with fmask := 0 } } else none := rfl
theorem crPut_frm : s.crPut o 7 a x = if x.toNat % 8 ≤ 5 then some { s with th := { s.th with frm := x.toNat % 8 } } else none := rfl
theorem crPut_mvl : s.crPut o 0xA a x =
    if 1 ≤ x.toNat % 128 ∧ x.toNat % 128 ≤ 64 then some { s with th := { s.th with mvl := x.toNat % 128 } } else none := rfl
theorem crPut_mvl_reserved (h : x.toNat % 128 = 0 ∨ 64 < x.toNat % 128) : s.crPut o 0xA a x = none := by
  rw [crPut_mvl, if_neg (by omega)]
theorem crPut_rmAllow : s.crPut o 0x10B a x =
    if x.toNat % 2 ^ 21 ≠ 0 then some { s with th := { s.th with rmAllow := x.toNat % 2 ^ 21 } } else none := rfl
theorem crPut_lerr : s.crPut o 0x303 a x = some (if bitOf a.toNat 63 then
    s.setCluster (clusterOf s.core) { s.getCluster (clusterOf s.core) with lerrV := false } else s) := rfl
theorem crPut_latthr {h : Nat} (hh : h < 4) : s.crPut o (0x204 + h) a x =
    if (x.toNat >>> 24) % 128 ≤ 64 then some (s.setLat s.core h { s.lat s.core h with lim := (x.toNat >>> 24) % 128 }) else none := by
  change _ = if bits x.toNat 24 7 ≤ 64 then some (s.setLat s.core h { s.lat s.core h with lim := bits x.toNat 24 7 }) else none
  simp (disch := omega) only [State.crPut, State.crPutSystem, if_neg, if_pos, Nat.add_sub_cancel_left]
theorem crPut_dim {i : Nat} (hi : i < 64) (hm : i % 4 ≠ 0) :
    s.crPut o (0x40 + i) a x = some { s with th := { s.th with cdim := s.th.cdim.set i x } } := by
  simp (disch := omega) only [State.crPut, State.crPutUser, if_neg, if_pos, Nat.add_sub_cancel_left]
theorem crPut_supervisor {k : Nat} (hk : k ≤ 6) : s.crPut o (0x100 + k) a x = some { s with th := { s.th with sup := s.th.sup.set k x } } := by
  simp (disch := omega) only [State.crPut, State.crPutSystem, if_neg, if_pos, Nat.add_sub_cancel_left]
theorem crPut_firmware {k : Nat} (hk : k ≤ 6) : s.crPut o (0x180 + k) a x = some { s with th := { s.th with fw := s.th.fw.set k x } } := by
  simp (disch := omega) only [State.crPut, State.crPutSystem, if_neg, if_pos, Nat.add_sub_cancel_left]
theorem crPut_readOnlyUser : ∀ n ∈ crReadOnlyUser, s.crPut o n a x = none := by
  simp only [crReadOnlyUser, List.forall_mem_cons]
  exact ⟨rfl, rfl, rfl, rfl, rfl, rfl, rfl, rfl, rfl, rfl, rfl, rfl, rfl, rfl, rfl, rfl, rfl, rfl, nofun⟩
theorem crPut_readOnlySystem : ∀ n ∈ crReadOnlySystem, s.crPut o n a x = none := by
  simp only [crReadOnlySystem, List.forall_mem_cons]
  exact ⟨rfl, rfl, rfl, rfl, rfl, rfl, rfl, nofun⟩
theorem crPut_wm {c : Nat} (hc : c < 16) : s.crPut o (0x40 + 4 * c) a x = none := by
  simp (disch := omega) only [State.crPut, State.crPutUser, if_neg, if_pos]
end

/-! ### Registers of the thread -/

/-- `i` writes `old` to g[d] and goes on, having made the thread's context `th`; nothing else changes. -/
def WritesContext (i : Instr) (s : State) (d : BitVec 5) (old : Nat) (th : Thread) : Prop :=
  ∃ t, exec i s = .next t ∧ Holds d (BitVec.ofNat 64 old) t ∧ KeepsRegs d s t ∧ t.th.pc = s.th.pc + 4 ∧ OnlyThread s t
    ∧ t.th = { th with g := t.th.g, pc := t.th.pc, cv := none, reissue := false } ∧ SameBytes s t
theorem writesContext_of_exec {i : Instr} {d : BitVec 5} {old : Nat} {th : Thread} (hg : th.g = s.th.g) (hpc : th.pc = s.th.pc)
    (h : exec i s = .next (({ s with th := th } : State).wrAdvance d (BitVec.ofNat 64 old))) : WritesContext i s d old th := by
  have hth := State.th_wrAdvance { s with th := th } d (BitVec.ofNat 64 old)
  refine ⟨_, h, State.holds_wrAdvance .., State.keepsRegs_wrAdvance (by exact hg) _ _, ?_, ?_, ?_,
    State.sameBytes_wrAdvance (State.readLoc_th s th · 1) _ _⟩
  · rw [hth, ← hpc]
  · rw [State.onlyThread_wrAdvance { s with th := th }]
    rfl
  · rw [hth]
/-- A modification that the register takes; `old` is what it held. -/
theorem crWrites {o : CrOp} {d a : BitVec 5} {n : BitVec 12} {old : Nat} {th : Thread} (hp : crPriv s.th.level n.toNat = false)
    (hold : s.crGet n.toNat = some old)
    (hput : s.crPut o n.toNat (s.rd a) (o.value (BitVec.ofNat 64 old) (s.rd a)) = some { s with th := th })
    (hg : th.g = s.th.g) (hpc : th.pc = s.th.pc) : WritesContext (o.instr d a n) s d old th :=
  writesContext_of_exec hg hpc ((o.exec_instr ..).trans (crModify_done hp hold hput))
/-- The same of a register of 64 bits. -/
theorem crWrites_word {o : CrOp} {d a : BitVec 5} {n : BitVec 12} {old : Word} {th : Thread} (hp : crPriv s.th.level n.toNat = false)
    (hold : s.crGet n.toNat = some old.toNat) (hput : s.crPut o n.toNat (s.rd a) (o.value old (s.rd a)) = some { s with th := th })
    (hg : th.g = s.th.g) (hpc : th.pc = s.th.pc) : WritesContext (o.instr d a n) s d old.toNat th := by
  refine crWrites hp hold ?_ hg hpc
  rwa [BitVec.ofNat_toNat, BitVec.setWidth_eq]
/-- A modification that the register refuses, whatever it held. -/
theorem crRefused {o : CrOp} {d a : BitVec 5} {n : BitVec 12} (hp : crPriv s.th.level n.toNat = false)
    (h : ∀ old, s.crGet n.toNat = some old → s.crPut o n.toNat (s.rd a) (o.value (BitVec.ofNat 64 old) (s.rd a)) = none) :
    exec (o.instr d a n) s = .next (s.takeTrap { cause := 2, tval := s.word.setWidth 64 }) :=
  (o.exec_instr ..).trans (crModify_illegal hp h)
/-- A modification that the register refuses for the value that it would hold. -/
theorem crRefused_value {o : CrOp} {d a : BitVec 5} {n : BitVec 12} {old : Nat} (hp : crPriv s.th.level n.toNat = false)
    (hold : s.crGet n.toNat = some old) (hput : s.crPut o n.toNat (s.rd a) (o.value (BitVec.ofNat 64 old) (s.rd a)) = none) :
    exec (o.instr d a n) s = .next (s.takeTrap { cause := 2, tval := s.word.setWidth 64 }) := by
  refine crRefused hp fun old' hold' => ?_
  obtain rfl := Option.some.inj (hold.symm.trans hold')
  exact hput

/-! ### Trap-entry registers (19 R378 to R381) -/

/-- The trap-entry registers that begin at number `b`, which are `r`; `put` gives the context with others in their place. -/
structure EntryAt (s : State) (b : Nat) (r : TrapRegs) (put : TrapRegs → Thread) : Prop where
  low : b ≤ 0x180
  named : ∀ k, k ≤ 6 ∨ k = 9 → crPriv s.th.level (b + k) = false
  get : ∀ k, k ≤ 6 → s.crGet (b + k) = some (r.get k)
  status : s.crGet (b + 9) = some r.status
  set : ∀ o k a x, k ≤ 6 → s.crPut o (b + k) a x = some { s with th := put (r.set k x) }
  setStatus : ∀ o a x, s.crPut o (b + 9) a x = some { s with th := put (r.setStatus x.toNat) }
  keeps : ∀ q, (put q).g = s.th.g ∧ (put q).pc = s.th.pc
theorem entryAt_supervisor (hl : s.th.level ≠ .user) : EntryAt s 0x100 s.th.sup fun r => { s.th with sup := r } where
  low := by decide
  named k hk := crPriv_aboveUser hl fun _ => by rw [← Bool.not_eq_true, crFirmware_iff]; omega
  get _ hk := crGet_supervisor hk
  status := rfl
  set o _ a x hk := crPut_supervisor s o a x hk
  setStatus _ _ _ := rfl
  keeps _ := ⟨rfl, rfl⟩
theorem entryAt_firmware (hl : s.th.level = .firmware) : EntryAt s 0x180 s.th.fw fun r => { s.th with fw := r } where
  low := by decide
  named k hk := by rw [hl]; rfl
  get _ hk := crGet_firmware hk
  status := rfl
  set o _ a x hk := crPut_firmware s o a x hk
  setStatus _ _ _ := rfl
  keeps _ := ⟨rfl, rfl⟩
variable {b : Nat} {r : TrapRegs} {put : TrapRegs → Thread}
/-- Cause, restart point, faulting address, value, info, vector and scratch. -/
theorem EntryAt.writes (h : EntryAt s b r put) (o : CrOp) {d a : BitVec 5} (k : Nat) (hk : k ≤ 6) {w : Word} (hw : r.get k = w.toNat) :
    WritesContext (o.instr d a (BitVec.ofNat 12 (b + k))) s d w.toNat (put (r.set k (o.value w (s.rd a)))) := by
  have hb := h.low
  have hn : (BitVec.ofNat 12 (b + k)).toNat = b + k := toNat_register (by omega)
  obtain ⟨hg, hpc⟩ := h.keeps (r.set k (o.value w (s.rd a)))
  refine crWrites_word ?_ ?_ ?_ hg hpc
  · rw [hn, h.named k (.inl hk)]
  · rw [hn, h.get k hk, hw]
  · rw [hn, h.set _ _ _ _ hk]
theorem TrapRegs.toNat_status (r : TrapRegs) : (BitVec.ofNat 64 r.status).toNat = r.status := by
  rw [BitVec.toNat_ofNat, Nat.mod_eq_of_lt]
  have h1 := r.aie.toNat_lt
  have h2 := r.paie.toNat_lt
  have h3 := r.tih.toNat_lt
  unfold TrapRegs.status
  omega
theorem EntryAt.writes_status (h : EntryAt s b r put) (o : CrOp) {d a : BitVec 5} :
    WritesContext (o.instr d a (BitVec.ofNat 12 (b + 9))) s d (BitVec.ofNat 64 r.status).toNat
      (put (r.setStatus (o.value (BitVec.ofNat 64 r.status) (s.rd a)).toNat)) := by
  have hb := h.low
  have hn : (BitVec.ofNat 12 (b + 9)).toNat = b + 9 := toNat_register (by omega)
  obtain ⟨hg, hpc⟩ := h.keeps (r.setStatus (o.value (BitVec.ofNat 64 r.status) (s.rd a)).toNat)
  refine crWrites_word ?_ ?_ ?_ hg hpc
  · rw [hn, h.named 9 (.inr rfl)]
  · rw [hn, h.status, r.toNat_status]
  · rw [hn, h.setStatus]

/-! ### Registers of the core and of the cluster (09 R242, 15 R338, R339) -/

/-- A modification of a register that threads share, to which the state answers with `u`. -/
theorem crWrites_shared {o : CrOp} {d a : BitVec 5} {n : BitVec 12} {old : Nat} {u : State} (hp : crPriv s.th.level n.toNat = false)
    (hold : s.crGet n.toNat = some old)
    (hput : s.crPut o n.toNat (s.rd a) (o.value (BitVec.ofNat 64 old) (s.rd a)) = some u) (hth : u.th = s.th) (hb : SameBytes s u) :
    exec (o.instr d a n) s = .next (u.wrAdvance d (BitVec.ofNat 64 old)) ∧ Passes s (u.wrAdvance d (BitVec.ofNat 64 old)) d (BitVec.ofNat 64 old)
      ∧ SameBytes s (u.wrAdvance d (BitVec.ofNat 64 old)) :=
  ⟨(o.exec_instr ..).trans (crModify_done hp hold hput), State.passes_wrAdvance hth .., State.sameBytes_wrAdvance hb _ _⟩
/-- A modification of a cluster register: the cluster becomes `k`, and no other one changes. -/
theorem crWrites_cluster {o : CrOp} {d a : BitVec 5} {n : BitVec 12} {old : Nat} {k : Cluster} {u : State} (hp : crPriv s.th.level n.toNat = false)
    (hold : s.crGet n.toNat = some old)
    (hput : s.crPut o n.toNat (s.rd a) (o.value (BitVec.ofNat 64 old) (s.rd a)) = some u) (hu : u = { s with clusters := u.clusters })
    (hk : ∀ m, u.getCluster m = if m = clusterOf s.core then k else s.getCluster m) :
    ∃ t, (exec (o.instr d a n) s = .next t ∧ Passes s t d (BitVec.ofNat 64 old) ∧ SameBytes s t)
      ∧ t = { s with th := t.th, clusters := t.clusters } ∧ ∀ m, t.getCluster m = if m = clusterOf s.core then k else s.getCluster m := by
  have hb : SameBytes s u := fun l => by rw [hu]; cases l <;> rfl
  refine ⟨_, crWrites_shared hp hold hput (by rw [hu]) hb, ?_, fun m => ?_⟩
  · rw [State.onlyThread_wrAdvance u, hu]
  · rw [← hk m, State.getCluster, State.wrAdvance_clusters]
    rfl
/-- `V` of lerr is cleared where g[a] holds 1 in its place. -/
theorem getCluster_clearLerr (s : State) (x : Word) (m : Nat) :
    (if bitOf x.toNat 63 then s.setCluster (clusterOf s.core) { s.getCluster (clusterOf s.core) with lerrV := false } else s).getCluster m
      = if m = clusterOf s.core then { s.getCluster (clusterOf s.core) with lerrV := (s.getCluster (clusterOf s.core)).lerrV && !x.getLsbD 63 }
        else s.getCluster m := by
  change (if x.getLsbD 63 = true then _ else s).getCluster m = _
  cases x.getLsbD 63 with
  | true => simp [State.getCluster_setCluster]
  | false =>
    simp only [Bool.false_eq_true, if_false, Bool.not_false, Bool.and_true]
    split
    · next h => rw [h]
    · rfl
theorem State.lat_wrAdvance (u : State) (d : BitVec 5) (x : Word) (c k : Nat) : (u.wrAdvance d x).lat c k = u.lat c k := by
  rw [State.lat, State.getCore_wrAdvance, State.lat]
/-- An update of a thread's allocation state with the completion after it. -/
theorem onlyCore_setLat_wrAdvance (s : State) (c h : Nat) (y : LatThr) (d : BitVec 5) (x : Word) :
    OnlyCore s ((s.setLat c h y).wrAdvance d x) c { s.getCore c with lat := (((s.setLat c h y).wrAdvance d x).getCore c).lat } := by
  refine ⟨?_, fun m hm => ?_, ?_⟩
  · rw [State.getCore_wrAdvance, State.setLat, State.getCore_updCore, if_pos rfl]
  · rw [State.getCore_wrAdvance, State.setLat, State.getCore_updCore, if_neg hm]
  · rw [State.onlyThread_wrAdvance (s.setLat c h y)]
    rfl
section
variable {o : CrOp} {d a : BitVec 5} {h v : Nat} (hl : s.th.level ≠ .user) (hh : h < 4)
  (hv : ((o.value (BitVec.ofNat 64 (s.latthr s.core h)) (s.rd a)).toNat >>> 24) % 128 = v)
include hl hh hv

/-- Of latthr `LIM` alone is written. -/
theorem crWrites_latthr (hle : v ≤ 64) :
    ∃ t, (exec (o.instr d a (BitVec.ofNat 12 (0x204 + h))) s = .next t ∧ Passes s t d (BitVec.ofNat 64 (s.latthr s.core h)) ∧ SameBytes s t)
      ∧ OnlyCore s t s.core { s.getCore s.core with lat := (t.getCore s.core).lat }
      ∧ ∀ u, t.lat s.core u = if u = h then { s.lat s.core h with lim := v } else s.lat s.core u := by
  have hn : (BitVec.ofNat 12 (0x204 + h)).toNat = 0x204 + h := toNat_register (by omega)
  refine ⟨((s.setLat s.core h { s.lat s.core h with lim := v }).wrAdvance d (BitVec.ofNat 64 (s.latthr s.core h))),
    crWrites_shared ?_ ?_ ?_ rfl (State.sameBytes_updCore s _ fun _ => rfl), onlyCore_setLat_wrAdvance .., fun u => ?_⟩
  · rw [hn, crPriv_latthr hl hh]
  · rw [hn, crGet_latthr hh]
  · rw [hn, crPut_latthr _ _ _ _ hh, hv, if_pos hle]
  · rw [State.lat_wrAdvance, State.lat_setLat]
/-- A `LIM` above 64 is refused. -/
theorem crRefused_latthr (hlt : 64 < v) :
    exec (o.instr d a (BitVec.ofNat 12 (0x204 + h))) s = .next (s.takeTrap { cause := 2, tval := s.word.setWidth 64 }) := by
  have hn : (BitVec.ofNat 12 (0x204 + h)).toNat = 0x204 + h := toNat_register (by omega)
  refine crRefused ?_ fun old hold => ?_
  · rw [hn, crPriv_latthr hl hh]
  · rw [hn, crGet_latthr hh, Option.some_inj] at hold
    subst hold
    rw [hn, crPut_latthr _ _ _ _ hh, hv, if_neg (by omega)]
end

/-! ### srseed (01 R29, 03 R90) -/

theorem srSeedAll_length (y : W32) : (srSeedAll y).length = 128 := by
  rw [srSeedAll, List.length_map, List.length_range]
theorem srSeedAll_getElem? (y : W32) {j : Nat} (hj : j < 128) : (srSeedAll y)[j]? = some (srSeed y j) := by
  rw [srSeedAll, List.getElem?_map, List.getElem?_range hj, Option.map_some]
theorem crWrites_srseed (s : State) (d a : BitVec 5) : ∃ gens, WritesContext (.srseedWrite d a) s d s.th.srseed
      { s.th with srseed := (s.rd a).toNat % 2 ^ 32, gens := gens } ∧ gens.length = 128
    ∧ ∀ j < 128, gens[j]? = some (srSeed (BitVec.ofNat 32 ((s.rd a).toNat % 2 ^ 32)) j) :=
  ⟨_, writesContext_of_exec rfl rfl (crModify_done (o := .write) (crPriv_userRegister _ (by decide)) rfl rfl), srSeedAll_length _,
    fun _ => srSeedAll_getElem? _⟩

/-! ### fmask (01 R25) -/

theorem crClears_fmask {d a : BitVec 5} (h : s.rd a = 0) : WritesContext (.fmaskClear d a) s d
    ((List.range 32768).filter fun i => s.th.fmask.testBit i).length { s.th with fmask := 0 } := by
  refine writesContext_of_exec rfl rfl (crModify_done (o := .write) (crPriv_userRegister _ (by decide)) crGet_fmask ?_)
  rw [crPut_fmask, if_pos ⟨rfl, h⟩]
/-- CRSET and CRCLR of fmask are refused, and a CRWR of anything but zero. -/
theorem crRefused_fmask (o : CrOp) (d a : BitVec 5) (h : ¬ (o = .write ∧ s.rd a = 0)) :
    crModify o d a 5 s = .next (s.takeTrap { cause := 2, tval := s.word.setWidth 64 }) :=
  crModify_illegal (crPriv_userRegister _ (by decide)) fun _ _ => by rw [crPut_fmask, if_neg h]

/-! ### Read-only registers and the registers of the channels (07 R215) -/

section
variable {d a : BitVec 5}

theorem crRefused_user {o : CrOp} {n : BitVec 12} (hn : n.toNat ∈ crReadOnlyUser) :
    exec (o.instr d a n) s = .next (s.takeTrap { cause := 2, tval := s.word.setWidth 64 }) := by
  have hr : ∀ k ∈ crReadOnlyUser, k < 0x100 ∨ 0x400 ≤ k := by decide
  exact crRefused (crPriv_userRegister _ (hr _ hn)) fun _ _ => crPut_readOnlyUser _ _ _ _ _ hn
theorem crRefused_system {o : CrOp} {n : BitVec 12} (hl : s.th.level ≠ .user) (hn : n.toNat ∈ crReadOnlySystem) :
    exec (o.instr d a n) s = .next (s.takeTrap { cause := 2, tval := s.word.setWidth 64 }) := by
  have hf : ∀ k ∈ crReadOnlySystem, crFirmware k = false := by decide
  exact crRefused (crPriv_aboveUser hl fun _ => hf _ hn) fun _ _ => crPut_readOnlySystem _ _ _ _ _ hn
theorem crRefused_wm {o : CrOp} {c : Nat} (hc : c < 16) :
    exec (o.instr d a (BitVec.ofNat 12 (0x40 + 4 * c))) s = .next (s.takeTrap { cause := 2, tval := s.word.setWidth 64 }) := by
  have hn : (BitVec.ofNat 12 (0x40 + 4 * c)).toNat = 0x40 + 4 * c := toNat_register (by omega)
  refine crRefused (crPriv_userRegister _ (by omega)) fun _ _ => ?_
  rw [hn, crPut_wm _ _ _ _ hc]
theorem crWrites_dim {o : CrOp} {c k : Nat} (hc : c < 16) (hk : 1 ≤ k) (hk' : k ≤ 3) :
    WritesContext (o.instr d a (BitVec.ofNat 12 (0x40 + 4 * c + k))) s d (s.th.cdim.get (4 * c + k) 0).toNat
      { s.th with cdim := s.th.cdim.set (4 * c + k) (o.value (s.th.cdim.get (4 * c + k) 0) (s.rd a)) } := by
  have hn : (BitVec.ofNat 12 (0x40 + 4 * c + k)).toNat = 0x40 + 4 * c + k := toNat_register (by omega)
  refine crWrites_word (crPriv_userRegister _ (by omega)) ?_ ?_ rfl rfl
  · rw [hn, crGet_channel (by omega) (by omega), channelCr_dim hk hk']
  · rw [hn, Nat.add_assoc, crPut_dim _ _ _ _ (by omega) (by omega)]
end

/-- Settles O16, by the equations of `crPut` for the registers and the three endings of a modification (`crModify_done`, `crModify_illegal`). -/
theorem controlRegisterWrites : Obligations.ControlRegisterWrites := by
  unfold Obligations.ControlRegisterWrites
  intro s d a x done shared illegal forms entry
  have user : ∀ {n : Nat}, n < 0x100 → crPriv s.th.level n = false := fun h => crPriv_userRegister _ (.inl h)
  have entries : ∀ {b r put}, EntryAt s b r put → entry b r put := by
    intro b r put h
    refine forall_crForms fun o => ⟨h.writes o 0 ?_ rfl, h.writes o 1 ?_ rfl, h.writes o 2 ?_ rfl, h.writes o 3 ?_ rfl, h.writes o 4 ?_ rfl,
      h.writes o 5 ?_ rfl, h.writes o 6 ?_ rfl, h.writes_status o⟩
    all_goals decide
  refine ⟨fun n hn => forall_crForms fun o => crRefused_user hn,
    fun c hc => forall_crForms fun o => ⟨crRefused_wm hc, fun k hk hk' => crWrites_dim hc hk hk'⟩,
    forall_crForms fun o => ⟨?emvec, ?empc, ?estart, ?fflags, ?frm, ?frmReserved, ?qthr, ?mvl, ?mvlReserved, ?hwfail, ?tkcur⟩,
    crClears_fmask, fun h => crRefused_fmask .write d a fun h' => h h'.2, crRefused_fmask .set d a nofun, crRefused_fmask .clear d a nofun,
    crWrites_srseed s d a, crWrites (o := .set) (user ?_) rfl rfl rfl rfl, crWrites (o := .clear) (user ?_) rfl rfl rfl rfl,
    fun hl => entries (entryAt_firmware hl),
    fun hl => ⟨entries (entryAt_supervisor hl), fun n hn => forall_crForms fun o => crRefused_system hl hn, forall_crForms fun o => ?system⟩⟩
  case emvec | empc | tkcur => exact crWrites_word (user (by decide)) rfl rfl rfl rfl
  case estart | fflags | qthr | hwfail => exact crWrites (user (by decide)) rfl rfl rfl rfl
  case frm => exact fun hv => crWrites (user (by decide)) rfl ((crPut_frm ..).trans (if_pos hv)) rfl rfl
  case frmReserved => exact fun hv => crRefused_value (user (by decide)) rfl ((crPut_frm ..).trans (if_neg (Nat.not_le.2 hv)))
  case mvl => exact fun hv => crWrites (user (by decide)) rfl ((crPut_mvl ..).trans (if_pos hv)) rfl rfl
  case mvlReserved => exact fun hv => crRefused_value (user (by decide)) rfl (crPut_mvl_reserved _ _ _ _ hv)
  case system =>
    have system : ∀ {n : Nat}, crFirmware n = false → crPriv s.th.level n = false := fun h => crPriv_aboveUser hl fun _ => h
    refine ⟨crWrites_word (system ?_) rfl rfl rfl rfl, crWrites_word (system ?_) rfl rfl rfl rfl,
      ⟨fun hv => crWrites (system ?_) rfl ((crPut_rmAllow ..).trans (if_pos hv)) rfl rfl,
        fun hv => crRefused_value (system ?_) rfl ((crPut_rmAllow ..).trans (if_neg (not_not.2 hv)))⟩,
      fun h hh => ⟨crWrites_latthr hl hh rfl, crRefused_latthr hl hh rfl⟩,
      crWrites_cluster (system ?_) rfl rfl rfl (State.getCluster_setCluster _ _ · _),
      crWrites_cluster (system ?_) (congrArg some (lerr_eq _)) (crPut_lerr ..) ?lerr (getCluster_clearLerr s x)⟩
    case lerr => split <;> rfl
    all_goals decide
  all_goals decide

end Sys2Proof.Machine

namespace Sys2Proof.Machine
variable {s : State}

/-! ## PRIV and ILLEGAL at the registers (01 R20, 04 R126) -/

/-- At user level an instruction reserved to supervisor and firmware takes PRIV. -/
theorem privileged_user (f : State → M State) (h : s.th.level = .user) :
    privileged f s = .next (s.takeTrap { cause := 3, tval := s.word.setWidth 64 }) := by
  unfold privileged
  rw [if_pos h]
  rfl
theorem execCrrd_priv {d : BitVec 5} {n : BitVec 12} (hp : crPriv s.th.level n.toNat = true) :
    execCrrd d n s = .next (s.takeTrap { cause := 3, tval := s.word.setWidth 64 }) := by
  unfold execCrrd
  rw [if_pos hp]
  rfl
/-- The numbers that name a register (01 R23, R30, 07 R215, 09 R239, 15 R337, 19 R378). -/
theorem crGet_unassigned {n : Nat} (h : ¬ (n ≤ 0x11 ∨ (0x18 ≤ n ∧ n ≤ 0x1B) ∨ (0x40 ≤ n ∧ n ≤ 0x7F) ∨ (0x100 ≤ n ∧ n ≤ 0x10C)
    ∨ ((0x180 ≤ n ∧ n ≤ 0x186) ∨ n = 0x189) ∨ (0x200 ≤ n ∧ n ≤ 0x201) ∨ (0x204 ≤ n ∧ n ≤ 0x208) ∨ (0x300 ≤ n ∧ n ≤ 0x303)
    ∨ (0x800 ≤ n ∧ n ≤ 0x806))) : s.crGet n = none := by
  simp (disch := omega) only [State.crGet, if_neg]
theorem execCrrd_unassigned {d : BitVec 5} {n : BitVec 12} (hp : crPriv s.th.level n.toNat = false) (hn : n.toNat ≠ 0x10)
    (h : s.crGet n.toNat = none) : execCrrd d n s = .next (s.takeTrap { cause := 2, tval := s.word.setWidth 64 }) := by
  have ht : s.tick n.toNat = s := if_neg hn
  unfold execCrrd
  rw [if_neg (by simp [hp])]
  dsimp only
  rw [ht, h]
  rfl

/-- The four accesses to a control register. -/
abbrev Accesses (d a : BitVec 5) (n : BitVec 12) (p : Instr → Prop) : Prop :=
  p (.crrd d n) ∧ p (.crwr d a n) ∧ p (.crset d a n) ∧ p (.crclr d a n)
theorem accesses_priv {d a : BitVec 5} {n : BitVec 12} (hp : crPriv s.th.level n.toNat = true) :
    Accesses d a n fun i => exec i s = .next (s.takeTrap { cause := 3, tval := s.word.setWidth 64 }) :=
  ⟨execCrrd_priv hp, crModify_priv (o := .write) hp, crModify_priv (o := .set) hp, crModify_priv (o := .clear) hp⟩
theorem accesses_unassigned {d a : BitVec 5} {n : BitVec 12} (hp : crPriv s.th.level n.toNat = false) (hn : n.toNat ≠ 0x10)
    (h : s.crGet n.toNat = none) :
    Accesses d a n fun i => exec i s = .next (s.takeTrap { cause := 2, tval := s.word.setWidth 64 }) := by
  have modify : ∀ o, crModify o d a n.toNat s = .next (s.takeTrap { cause := 2, tval := s.word.setWidth 64 }) :=
    fun o => crModify_illegal hp fun old hold => by rw [h] at hold; exact absurd hold nofun
  exact ⟨execCrrd_unassigned hp hn h, modify .write, modify .set, modify .clear⟩

theorem crFirmware_toNat_iff {n : BitVec 12} : crFirmware n.toNat = true ↔ (0x180 ≤ n.toNat ∧ n.toNat ≤ 0x186) ∨ n = 0x189 := by
  rw [crFirmware_iff, ← BitVec.toNat_inj]
  rfl
/-- The instructions reserved to supervisor and firmware, at user level (01 R20). -/
theorem reserved_priv (h : s.th.level = .user) (a b : BitVec 5) (k : BitVec 3) (ri : BitVec 1) :
    let priv : Host.Outcome State Fault Refusal := .next (s.takeTrap { cause := 3, tval := s.word.setWidth 64 })
    execTret ri s = priv ∧ execIdle s = priv ∧ execCtxsv a s = priv ∧ execCtxld a s = priv ∧ execTlbinv a b k s = priv ∧ execTlbsync s = priv :=
  ⟨privileged_user _ h, privileged_user _ h, privileged_user _ h, privileged_user _ h, privileged_user _ h, privileged_user _ h⟩

/-- Settles O17: PRIV comes before every other rule of an access (`accesses_priv`), and ILLEGAL where the number names no register. -/
theorem privilegeChecks : Obligations.PrivilegeChecks := by
  unfold Obligations.PrivilegeChecks
  intro s d a b n k ri priv illegal all within firmwares assigned
  refine ⟨fun h => reserved_priv h a b k ri, fun h hn => accesses_priv ?user, fun h hn => accesses_priv ?supervisor,
    fun hn hu => accesses_unassigned ?named ?ccount (crGet_unassigned ?unassigned)⟩
  case user =>
    rw [h]
    exact crPriv_user hn
  case supervisor =>
    rw [h]
    exact crFirmware_toNat_iff.2 hn
  case named =>
    by_cases hl : s.th.level = .user
    · refine crPriv_userRegister _ ?_
      have := hu hl
      simp only [within] at this
      omega
    · refine crPriv_aboveUser hl fun _ => ?_
      rw [← Bool.not_eq_true, crFirmware_toNat_iff]
      exact fun hf => hn (.inr (.inr (.inr (.inr (.inl hf)))))
  case ccount =>
    intro h
    exact hn (.inl (by simp only [within]; omega))
  case unassigned =>
    intro h
    refine hn ?_
    simp only [assigned, firmwares, within, ← crFirmware_toNat_iff, crFirmware_iff]
    omega

/-! ## Reset (01 R23, 19 R378) -/

/-- Every thread, the one that is current among them, stands as at its start. -/
theorem State.getTh_reset (h : Nat) : State.reset.getTh h = {} := by
  unfold State.getTh
  split <;> rfl
/-- A thread at its start has the trap-entry registers of both levels at zero. -/
theorem Thread.regs_default (l : Level) : ({} : Thread).regs l = {} := by
  cases l <;> rfl
theorem State.readLoc_reset (l : Loc) : State.reset.readLoc l 1 = 0 := by
  cases l <;> rfl

/-- Settles O60: each register and table entry stands at its default, which the defaults of the state's fields give. -/
theorem resetState : Obligations.ResetState := by
  unfold Obligations.ResetState
  intro s
  refine ⟨State.reset_wf, fun h => ?_, fun c => ⟨rfl, rfl, rfl, rfl⟩, fun c => ⟨rfl, rfl, fun o => rfl⟩, fun n => rfl, rfl, rfl, rfl, rfl,
    fun p => ⟨rfl, rfl⟩, State.readLoc_reset⟩
  rw [State.getTh_reset]
  refine ⟨rfl, rfl, rfl, rfl, rfl, rfl, rfl, rfl, rfl, rfl, rfl, rfl, rfl, rfl, rfl, rfl, rfl, rfl, rfl, rfl, rfl, fun k => rfl, fun l => ?_,
    rfl, rfl⟩
  rw [Thread.regs_default]
  exact ⟨rfl, rfl, rfl, rfl, rfl, rfl, rfl, rfl, rfl⟩

end Sys2Proof.Machine

-- ==== Encoding: every row of the tables is read back (O58, O57) ====

namespace Sys2Proof
open Sys2Proof.Machine

/-! ## Sums of fields

An instruction word is the sum of the fixed bits of its row and of its operands, each multiplied by the power of two at which it stands (02
R47). Where no two of them overlap, every field of the word can be read off. -/

/-- A field of a sum does not see a summand that stands above it. -/
theorem add_field_above {m x p q r : Nat} (h : p % (q * r) = 0) : (m + x * p) / q % r = m / q % r := by
  obtain ⟨c, rfl⟩ := Nat.dvd_of_mod_eq_zero h
  rcases Nat.eq_zero_or_pos q with rfl | hq
  · simp
  · rw [show m + x * (q * r * c) = m + q * (r * (c * x)) by ring, Nat.add_mul_div_left _ _ hq, Nat.add_mul_mod_self_left]

/-- What a sum holds from a place upwards does not depend on a summand that stands below it, where the rest of the sum leaves the summand's
place free. -/
theorem add_div_below {m x p s q : Nat} (hx : x < s) (hq : q % (p * s) = 0) (hp : 0 < p) (hm : m / p % s = 0) : (m + x * p) / q = m / q := by
  obtain ⟨c, rfl⟩ := Nat.dvd_of_mod_eq_zero hq
  have h0 := Nat.div_add_mod (m / p) s
  rw [hm, Nat.add_zero] at h0
  have e : (m / p + x) / s = m / p / s := by
    rw [← h0, Nat.mul_add_div (Nat.zero_lt_of_lt hx), Nat.div_eq_of_lt hx, Nat.add_zero, Nat.mul_div_cancel_left _ (Nat.zero_lt_of_lt hx)]
  simp only [← Nat.div_div_eq_div_mul, Nat.add_mul_div_right _ _ hp, e]

/-- The field at which a summand stands holds the summand, where the rest of the sum leaves it free. -/
theorem add_field_same {m x p s : Nat} (hx : x < s) (hp : 0 < p) (hm : m / p % s = 0) : (m + x * p) / p % s = x := by
  rw [Nat.add_mul_div_right _ _ hp, Nat.add_mod, hm, Nat.zero_add, Nat.mod_mod, Nat.mod_eq_of_lt hx]

/-- Whether a field of `r` values at `q` meets no operand: each operand, given by its place and the number of its values, stands above it or
below it. -/
def apart : List (Nat × Nat) → Nat → Nat → Bool
  | [], _, _ => true
  | (p, s) :: S, q, r => (p % (q * r) == 0 || q % (p * s) == 0) && apart S q r

theorem apart_of_mem {S : List (Nat × Nat)} {q r p s : Nat} (ha : apart S q r = true) (h : (p, s) ∈ S) :
    p % (q * r) = 0 ∨ q % (p * s) = 0 := by
  induction S with
  | nil => cases h
  | cons g S ih =>
    obtain ⟨h1, h2⟩ := (Bool.and_eq_true _ _).mp ha
    rcases List.mem_cons.mp h with rfl | h
    · simpa using h1
    · exact ih h2 h

/-- A word of 32 bits that is the sum of fixed bits `b` and of operands: the places of the operands, above the opcode and apart from each other,
and their values. -/
inductive Packs (b : Nat) : Nat → List (Nat × Nat) → List Nat → Prop where
  | add {m : Nat} {S : List (Nat × Nat)} {V : List Nat} {w p : Nat} {x : BitVec w} (h : Packs b m S V) (ho : p % 128 = 0)
      (ht : 2 ^ 32 % (p * 2 ^ w) = 0) (ha : apart S p (2 ^ w) = true) (hb : b / p % 2 ^ w = 0) :
      Packs b (m + x.toNat * p) ((p, 2 ^ w) :: S) (x.toNat :: V)
  | fixed (h : b / 2 ^ 32 = 0) : Packs b b [] []

theorem place_pos {p s : Nat} (h : 2 ^ 32 % (p * s) = 0) : 0 < p := by
  rcases Nat.eq_zero_or_pos p with rfl | hp
  · simp at h
  · exact hp

section
variable {b n : Nat} {S : List (Nat × Nat)} {V : List Nat}

/-- A field that meets no operand holds the fixed bits. -/
theorem Packs.apart_field (h : Packs b n S V) {q r : Nat} (ha : apart S q r = true) : n / q % r = b / q % r := by
  induction h generalizing q r with
  | fixed _ => rfl
  | @add m S V w p x h ho ht hS hb ih =>
    obtain ⟨h1, h2⟩ := (Bool.and_eq_true _ _).mp ha
    rw [← ih h2]
    rcases (Bool.or_eq_true _ _).mp h1 with h1 | h1
    · exact add_field_above (beq_iff_eq.mp h1)
    · rw [add_div_below x.isLt (beq_iff_eq.mp h1) (place_pos ht) ((ih hS).trans hb)]

/-- The field of an operand holds it. -/
theorem Packs.read (h : Packs b n S V) : List.Forall₂ (fun f v => n / f.1 % f.2 = v) S V := by
  induction h with
  | fixed _ => exact .nil
  | @add m S V w p x h ho ht hS hb ih =>
    have h0 := (h.apart_field hS).trans hb
    refine .cons (add_field_same x.isLt (place_pos ht) h0) ?_
    refine ((List.forall₂_and_left (p := (· ∈ S)) S V).mpr ⟨fun _ h => h, ih⟩).imp ?_
    rintro ⟨q, s⟩ v ⟨hf, rfl⟩
    rcases apart_of_mem hS hf with h1 | h1
    · exact congrArg (· % s) (add_div_below x.isLt h1 (place_pos ht) h0)
    · exact add_field_above h1

theorem Packs.opcode (h : Packs b n S V) : n % 128 = b % 128 := by
  induction h with
  | fixed _ => rfl
  | @add m S V w p x h ho ht hS hb ih => rw [← ih, Nat.add_mod, Nat.mul_mod, ho, Nat.mul_zero, Nat.zero_mod, Nat.add_zero, Nat.mod_mod]

theorem Packs.lt (h : Packs b n S V) : n < 2 ^ 32 := by
  refine Nat.lt_of_div_eq_zero (by decide) ?_
  induction h with
  | fixed h => exact h
  | @add m S V w p x h ho ht hS hb ih => rw [add_div_below x.isLt ht (place_pos ht) ((h.apart_field hS).trans hb), ih]
end

/-! ## The rows of the encoding tables (02 R54, R55) -/

/-- The word of the instruction, where it has one, is one of 32 bits that the decoder reads back. -/
def ReadsBack (i : Instr) : Prop := ∀ n, encodeNat i = some n → n < 2 ^ 32 ∧ rawDecode n = some i

/-- A row reads back where its word is a sum of operands over its fixed bits and where the decoder finds the
row by them. -/
theorem readsBack_of_packs {i : Instr} {b m : Nat} {S : List (Nat × Nat)} {V : List Nat} (he : encodeNat i = some m)
    (hp : Packs b m S V) (h : ∀ n, n % 128 = b % 128 → (∀ q r, apart S q r = true → n / q % r = b / q % r) →
      List.Forall₂ (fun f v => n / f.1 % f.2 = v) S V → rawDecode n = some i) : ReadsBack i := by
  intro n hn
  cases he.symm.trans hn
  exact ⟨hp.lt, h m hp.opcode (fun q r => hp.apart_field) hp.read⟩

theorem fld_opcode (n : Nat) : fld n 0 7 = n % 128 := by simp [fld]

/-! The opcodes with a decoder of their own that has many rows. -/

section
variable {n : Nat}
theorem rawDecode_0x01 (h : n % 128 = 0x01) : rawDecode n = decode0x01 n := by delta rawDecode; rw [fld_opcode, h]; rfl
theorem rawDecode_0x08 (h : n % 128 = 0x08) : rawDecode n = decode0x08 n := by delta rawDecode; rw [fld_opcode, h]; rfl
theorem rawDecode_0x1E (h : n % 128 = 0x1E) : rawDecode n = decode0x1E n := by delta rawDecode; rw [fld_opcode, h]; rfl
theorem rawDecode_0x1F (h : n % 128 = 0x1F) : rawDecode n = decode0x1F n := by delta rawDecode; rw [fld_opcode, h]; rfl
theorem rawDecode_0x20 (h : n % 128 = 0x20) : rawDecode n = decode0x20 n := by delta rawDecode; rw [fld_opcode, h]; rfl
theorem rawDecode_0x4A (h : n % 128 = 0x4A) : rawDecode n = decode0x4A n := by delta rawDecode; rw [fld_opcode, h]; rfl
theorem rawDecode_0x4B (h : n % 128 = 0x4B) : rawDecode n = decode0x4B n := by delta rawDecode; rw [fld_opcode, h]; rfl
theorem rawDecode_0x4D (h : n % 128 = 0x4D) : rawDecode n = decode0x4D n := by delta rawDecode; rw [fld_opcode, h]; rfl
theorem rawDecode_0x50 (h : n % 128 = 0x50) : rawDecode n = decode0x50 n := by delta rawDecode; rw [fld_opcode, h]; rfl
theorem rawDecode_0x5A (h : n % 128 = 0x5A) : rawDecode n = decode0x5A n := by delta rawDecode; rw [fld_opcode, h]; rfl
theorem rawDecode_0x60 (h : n % 128 = 0x60) : rawDecode n = decode0x60 n := by delta rawDecode; rw [fld_opcode, h]; rfl
theorem rawDecode_0x64 (h : n % 128 = 0x64) : rawDecode n = decode0x64 n := by delta rawDecode; rw [fld_opcode, h]; rfl
theorem rawDecode_0x65 (h : n % 128 = 0x65) : rawDecode n = decode0x65 n := by delta rawDecode; rw [fld_opcode, h]; rfl
theorem rawDecode_0x67 (h : n % 128 = 0x67) : rawDecode n = decode0x67 n := by delta rawDecode; rw [fld_opcode, h]; rfl
theorem rawDecode_0x6A (h : n % 128 = 0x6A) : rawDecode n = decode0x6A n := by delta rawDecode; rw [fld_opcode, h]; rfl
theorem rawDecode_0x6C (h : n % 128 = 0x6C) : rawDecode n = decode0x6C n := by delta rawDecode; rw [fld_opcode, h]; rfl
theorem rawDecode_0x6D (h : n % 128 = 0x6D) : rawDecode n = decode0x6D n := by delta rawDecode; rw [fld_opcode, h]; rfl
theorem rawDecode_0x73 (h : n % 128 = 0x73) : rawDecode n = decode0x73 n := by delta rawDecode; rw [fld_opcode, h]; rfl
theorem rawDecode_0x75 (h : n % 128 = 0x75) : rawDecode n = decode0x75 n := by delta rawDecode; rw [fld_opcode, h]; rfl
theorem rawDecode_0x78 (h : n % 128 = 0x78) : rawDecode n = decode0x78 n := by delta rawDecode; rw [fld_opcode, h]; rfl
theorem rawDecode_0x79 (h : n % 128 = 0x79) : rawDecode n = decode0x79 n := by delta rawDecode; rw [fld_opcode, h]; rfl
theorem rawDecode_0x21 (h : n % 128 = 0x21) : rawDecode n = decode0x21 n := by
  delta rawDecode; rw [fld_opcode, h]; change stageDecode n = _; delta stageDecode; rw [fld_opcode, h]; rfl
theorem rawDecode_0x22 (h : n % 128 = 0x22) : rawDecode n = decode0x22 n := by
  delta rawDecode; rw [fld_opcode, h]; change stageDecode n = _; delta stageDecode; rw [fld_opcode, h]; rfl
theorem rawDecode_0x23 (h : n % 128 = 0x23) : rawDecode n = decode0x23 n := by
  delta rawDecode; rw [fld_opcode, h]; change stageDecode n = _; delta stageDecode; rw [fld_opcode, h]; rfl
theorem rawDecode_0x24 (h : n % 128 = 0x24) : rawDecode n = decode0x24 n := by
  delta rawDecode; rw [fld_opcode, h]; change stageDecode n = _; delta stageDecode; rw [fld_opcode, h]; rfl
theorem rawDecode_0x25 (h : n % 128 = 0x25) : rawDecode n = decode0x25 n := by
  delta rawDecode; rw [fld_opcode, h]; change stageDecode n = _; delta stageDecode; rw [fld_opcode, h]; rfl
theorem rawDecode_0x26 (h : n % 128 = 0x26) : rawDecode n = decode0x26 n := by
  delta rawDecode; rw [fld_opcode, h]; change stageDecode n = _; delta stageDecode; rw [fld_opcode, h]; rfl
theorem rawDecode_0x2B (h : n % 128 = 0x2B) : rawDecode n = decode0x2B n := by
  delta rawDecode; rw [fld_opcode, h]; change stageDecode n = _; delta stageDecode; rw [fld_opcode, h]; rfl
theorem rawDecode_0x2C (h : n % 128 = 0x2C) : rawDecode n = decode0x2C n := by
  delta rawDecode; rw [fld_opcode, h]; change stageDecode n = _; delta stageDecode; rw [fld_opcode, h]; rfl
theorem rawDecode_0x2D (h : n % 128 = 0x2D) : rawDecode n = decode0x2D n := by
  delta rawDecode; rw [fld_opcode, h]; change stageDecode n = _; delta stageDecode; rw [fld_opcode, h]; rfl
theorem rawDecode_0x31 (h : n % 128 = 0x31) : rawDecode n = decode0x31 n := by
  delta rawDecode; rw [fld_opcode, h]; change stageDecode n = _; delta stageDecode; rw [fld_opcode, h]; rfl
theorem rawDecode_0x57 (h : n % 128 = 0x57) : rawDecode n = decode0x57 n := by
  delta rawDecode; rw [fld_opcode, h]; change stageDecode n = _; delta stageDecode; rw [fld_opcode, h]; rfl
end

/-! Each family of rows reads back: the decoder tests the fixed bits of its rows in order, and no row before the instruction's own has them. -/

/-- The words without operands. -/
theorem readsBack_fixed :
    ReadsBack .ecall ∧ ReadsBack .brk ∧ ReadsBack .emuret ∧ ReadsBack .lsync ∧ ReadsBack .tlbsync ∧ ReadsBack .idle ∧ ReadsBack .mdet
    ∧ ReadsBack .sdrainAll := by
  and_intros <;> rintro _ ⟨⟩ <;> exact ⟨by decide, rfl⟩

/-- Integer operations (04 R100, R101). -/
theorem readsBack_integer :
    (∀ d a b, ReadsBack (.add d a b)) ∧ (∀ d a b, ReadsBack (.sub d a b)) ∧ (∀ d a b, ReadsBack (.and d a b))
    ∧ (∀ d a b, ReadsBack (.or d a b)) ∧ (∀ d a b, ReadsBack (.xor d a b)) ∧ (∀ d a b, ReadsBack (.sll d a b))
    ∧ (∀ d a b, ReadsBack (.srl d a b)) ∧ (∀ d a b, ReadsBack (.sra d a b)) ∧ (∀ d a b, ReadsBack (.slt d a b))
    ∧ (∀ d a b, ReadsBack (.sltn d a b)) ∧ (∀ d a b, ReadsBack (.mul d a b)) ∧ (∀ d a b, ReadsBack (.mulh d a b))
    ∧ (∀ d a b, ReadsBack (.mulhn d a b)) ∧ (∀ d a b, ReadsBack (.div d a b)) ∧ (∀ d a b, ReadsBack (.divn d a b))
    ∧ (∀ d a b, ReadsBack (.rem d a b)) ∧ (∀ d a b, ReadsBack (.remn d a b)) ∧ (∀ d a b, ReadsBack (.min d a b))
    ∧ (∀ d a b, ReadsBack (.max d a b)) ∧ (∀ d a b, ReadsBack (.minn d a b)) ∧ (∀ d a b, ReadsBack (.maxn d a b))
    ∧ (∀ d a, ReadsBack (.clz d a)) ∧ (∀ d a, ReadsBack (.ctz d a)) ∧ (∀ d a, ReadsBack (.popc d a)) ∧ (∀ d a, ReadsBack (.bswap d a))
    ∧ (∀ d a b, ReadsBack (.rotl d a b)) ∧ (∀ d a b, ReadsBack (.rotr d a b)) ∧ (∀ d a b, ReadsBack (.sel d a b)) := by
  and_intros <;> intros <;> refine readsBack_of_packs rfl (by (repeat with_reducible apply Packs.add); apply Packs.fixed; all_goals rfl)
    fun n ho hf hr => ?_ <;> simp at ho hr <;> rw [rawDecode_0x01 ho] <;> simp (disch := decide) [decode0x01, fld, hf, hr]

/-- Immediates, constants, branches and jumps (04 R102, R104 to R106). -/
theorem readsBack_immediate :
    (∀ d a i, ReadsBack (.addi d a i)) ∧ (∀ d a i, ReadsBack (.andi d a i)) ∧ (∀ d a i, ReadsBack (.ori d a i))
    ∧ (∀ d a i, ReadsBack (.xori d a i)) ∧ (∀ d a i, ReadsBack (.slti d a i)) ∧ (∀ d a i, ReadsBack (.sltni d a i))
    ∧ (∀ d i, ReadsBack (.lih d i)) ∧ (∀ d i, ReadsBack (.addpc d i)) ∧ (∀ d i, ReadsBack (.jal d i)) ∧ (∀ d a i, ReadsBack (.jalr d a i))
    ∧ (∀ a b o, ReadsBack (.beq a b o)) ∧ (∀ a b o, ReadsBack (.bne a b o)) ∧ (∀ a b o, ReadsBack (.blt a b o))
    ∧ (∀ a b o, ReadsBack (.bge a b o)) ∧ (∀ a b o, ReadsBack (.bltn a b o)) ∧ (∀ a b o, ReadsBack (.bgen a b o)) := by
  and_intros <;> intros <;> refine readsBack_of_packs rfl (by (repeat with_reducible apply Packs.add); apply Packs.fixed; all_goals rfl)
    fun n ho hf hr => ?_ <;> simp at ho hr <;> delta rawDecode <;> rw [fld_opcode, ho] <;> change ite _ _ _ = _ <;> simp (disch := decide) [fld, hf, hr]

/-- Shifts by an immediate (04 R103). -/
theorem readsBack_shiftImmediate :
    (∀ d a s, ReadsBack (.slli d a s)) ∧ (∀ d a s, ReadsBack (.srli d a s)) ∧ (∀ d a s, ReadsBack (.srai d a s))
    ∧ (∀ d a s, ReadsBack (.rotri d a s)) := by
  and_intros <;> intros <;> refine readsBack_of_packs rfl (by (repeat with_reducible apply Packs.add); apply Packs.fixed; all_goals rfl)
    fun n ho hf hr => ?_ <;> simp at ho hr <;> rw [rawDecode_0x08 ho] <;> simp (disch := decide) [decode0x08, fld, hf, hr]

/-- Scalar loads and stores (04 R108). -/
theorem readsBack_scalarMemory :
    (∀ d a i, ReadsBack (.ldBS d a i)) ∧ (∀ d a i, ReadsBack (.ldBN d a i)) ∧ (∀ d a i, ReadsBack (.ldHS d a i))
    ∧ (∀ d a i, ReadsBack (.ldHN d a i)) ∧ (∀ d a i, ReadsBack (.ldWS d a i)) ∧ (∀ d a i, ReadsBack (.ldWN d a i))
    ∧ (∀ d a i, ReadsBack (.ldD d a i)) ∧ (∀ d a i, ReadsBack (.stB d a i)) ∧ (∀ d a i, ReadsBack (.stH d a i))
    ∧ (∀ d a i, ReadsBack (.stW d a i)) ∧ (∀ d a i, ReadsBack (.stD d a i)) := by
  and_intros <;> intros <;> refine readsBack_of_packs rfl (by (repeat with_reducible apply Packs.add); apply Packs.fixed; all_goals rfl)
    fun n ho hf hr => ?_ <;> simp at ho hr <;> delta rawDecode <;> rw [fld_opcode, ho] <;> change ite _ _ _ = _ <;> simp (disch := decide) [fld, hf, hr]

/-- Scalar atomics (04 R114). -/
theorem readsBack_scalarAtomic :
    (∀ d a b z o, ReadsBack (.amoAdd d a b z o)) ∧ (∀ d a b z o, ReadsBack (.amoAnd d a b z o))
    ∧ (∀ d a b z o, ReadsBack (.amoOr d a b z o)) ∧ (∀ d a b z o, ReadsBack (.amoXor d a b z o))
    ∧ (∀ d a b z o, ReadsBack (.amoMin d a b z o)) ∧ (∀ d a b z o, ReadsBack (.amoMax d a b z o))
    ∧ (∀ d a b z o, ReadsBack (.amoMinn d a b z o)) ∧ (∀ d a b z o, ReadsBack (.amoMaxn d a b z o))
    ∧ (∀ d a b z o, ReadsBack (.amoSwap d a b z o)) ∧ (∀ d a b z o, ReadsBack (.amoCas d a b z o)) := by
  and_intros <;> intros <;> refine readsBack_of_packs rfl (by (repeat with_reducible apply Packs.add); apply Packs.fixed; all_goals rfl)
    fun n ho hf hr => ?_ <;> simp at ho hr <;> rw [rawDecode_0x1E ho] <;> simp (disch := decide) [decode0x1E, fld, hf, hr]

/-- Scalar floating point (04 R117 to R119). -/
theorem readsBack_scalarFloat :
    (∀ d a b f r, ReadsBack (.fadd d a b f r)) ∧ (∀ d a b f r, ReadsBack (.fmul d a b f r)) ∧ (∀ d a b f r, ReadsBack (.ffma d a b f r))
    ∧ (∀ d a k f r, ReadsBack (.fcvt d a k f r)) ∧ (∀ d a b f q, ReadsBack (.fcmp d a b f q)) := by
  and_intros <;> intros <;> refine readsBack_of_packs rfl (by (repeat with_reducible apply Packs.add); apply Packs.fixed; all_goals rfl)
    fun n ho hf hr => ?_ <;> simp at ho hr <;> rw [rawDecode_0x1F ho] <;> simp (disch := decide) [decode0x1F, fld, hf, hr]

/-- Vector integer operations (05 R143 to R145). -/
theorem readsBack_vectorInteger :
    (∀ d a b k c, ReadsBack (.vadd d a b k c)) ∧ (∀ d a b k c, ReadsBack (.vsub d a b k c)) ∧ (∀ d a b k c, ReadsBack (.vand d a b k c))
    ∧ (∀ d a b k c, ReadsBack (.vor d a b k c)) ∧ (∀ d a b k c, ReadsBack (.vxor d a b k c)) ∧ (∀ d a b k c, ReadsBack (.vsll d a b k c))
    ∧ (∀ d a b k c, ReadsBack (.vsrl d a b k c)) ∧ (∀ d a b k c, ReadsBack (.vsra d a b k c)) ∧ (∀ d a b k c, ReadsBack (.vmul d a b k c))
    ∧ (∀ d a b k c, ReadsBack (.vmulh d a b k c)) ∧ (∀ d a b k c, ReadsBack (.vmulhn d a b k c))
    ∧ (∀ d a b k c, ReadsBack (.vdiv d a b k c)) ∧ (∀ d a b k c, ReadsBack (.vdivn d a b k c))
    ∧ (∀ d a b k c, ReadsBack (.vrem d a b k c)) ∧ (∀ d a b k c, ReadsBack (.vremn d a b k c))
    ∧ (∀ d a b k c, ReadsBack (.vmin d a b k c)) ∧ (∀ d a b k c, ReadsBack (.vmax d a b k c))
    ∧ (∀ d a b k c, ReadsBack (.vminn d a b k c)) ∧ (∀ d a b k c, ReadsBack (.vmaxn d a b k c))
    ∧ (∀ d a b k c, ReadsBack (.vclmul d a b k c)) ∧ (∀ d a b k c, ReadsBack (.vclmulh d a b k c))
    ∧ (∀ d a k c, ReadsBack (.vwid d a k c)) ∧ (∀ d a k c, ReadsBack (.vwidn d a k c)) := by
  and_intros <;> intros <;> refine readsBack_of_packs rfl (by (repeat with_reducible apply Packs.add); apply Packs.fixed; all_goals rfl)
    fun n ho hf hr => ?_ <;> simp at ho hr <;> rw [rawDecode_0x21 ho] <;> simp (disch := decide) [decode0x21, fld, hf, hr]

/-- Vector integer operations with a scalar (05 R143, R144). -/
theorem readsBack_vectorIntegerScalar :
    (∀ d a b k c, ReadsBack (.vaddScalar d a b k c)) ∧ (∀ d a b k c, ReadsBack (.vsubScalar d a b k c))
    ∧ (∀ d a b k c, ReadsBack (.vandScalar d a b k c)) ∧ (∀ d a b k c, ReadsBack (.vorScalar d a b k c))
    ∧ (∀ d a b k c, ReadsBack (.vxorScalar d a b k c)) ∧ (∀ d a b k c, ReadsBack (.vsllScalar d a b k c))
    ∧ (∀ d a b k c, ReadsBack (.vsrlScalar d a b k c)) ∧ (∀ d a b k c, ReadsBack (.vsraScalar d a b k c))
    ∧ (∀ d a b k c, ReadsBack (.vmulScalar d a b k c)) ∧ (∀ d a b k c, ReadsBack (.vmulhScalar d a b k c))
    ∧ (∀ d a b k c, ReadsBack (.vmulhnScalar d a b k c)) ∧ (∀ d a b k c, ReadsBack (.vdivScalar d a b k c))
    ∧ (∀ d a b k c, ReadsBack (.vdivnScalar d a b k c)) ∧ (∀ d a b k c, ReadsBack (.vremScalar d a b k c))
    ∧ (∀ d a b k c, ReadsBack (.vremnScalar d a b k c)) ∧ (∀ d a b k c, ReadsBack (.vminScalar d a b k c))
    ∧ (∀ d a b k c, ReadsBack (.vmaxScalar d a b k c)) ∧ (∀ d a b k c, ReadsBack (.vminnScalar d a b k c))
    ∧ (∀ d a b k c, ReadsBack (.vmaxnScalar d a b k c)) ∧ (∀ d a b k c, ReadsBack (.vclmulScalar d a b k c))
    ∧ (∀ d a b k c, ReadsBack (.vclmulhScalar d a b k c)) := by
  and_intros <;> intros <;> refine readsBack_of_packs rfl (by (repeat with_reducible apply Packs.add); apply Packs.fixed; all_goals rfl)
    fun n ho hf hr => ?_ <;> simp at ho hr <;> rw [rawDecode_0x22 ho] <;> simp (disch := decide) [decode0x22, fld, hf, hr]

/-- Saturating and narrowing operations (05 R146). -/
theorem readsBack_saturating :
    (∀ d a b k c, ReadsBack (.vsadd d a b k c)) ∧ (∀ d a b k c, ReadsBack (.vssub d a b k c))
    ∧ (∀ d a b k c, ReadsBack (.vsaddn d a b k c)) ∧ (∀ d a b k c, ReadsBack (.vssubn d a b k c)) ∧ (∀ d a k c, ReadsBack (.vnrw d a k c))
    ∧ (∀ d a k c, ReadsBack (.vnrwn d a k c)) ∧ (∀ d a k c, ReadsBack (.vnrwsn d a k c)) := by
  and_intros <;> intros <;> refine readsBack_of_packs rfl (by (repeat with_reducible apply Packs.add); apply Packs.fixed; all_goals rfl)
    fun n ho hf hr => ?_ <;> simp at ho hr <;> rw [rawDecode_0x23 ho] <;> simp (disch := decide) [decode0x23, fld, hf, hr]

/-- Saturating operations with a scalar (05 R146). -/
theorem readsBack_saturatingScalar :
    (∀ d a b k c, ReadsBack (.vsaddScalar d a b k c)) ∧ (∀ d a b k c, ReadsBack (.vssubScalar d a b k c))
    ∧ (∀ d a b k c, ReadsBack (.vsaddnScalar d a b k c)) ∧ (∀ d a b k c, ReadsBack (.vssubnScalar d a b k c)) := by
  and_intros <;> intros <;> refine readsBack_of_packs rfl (by (repeat with_reducible apply Packs.add); apply Packs.fixed; all_goals rfl)
    fun n ho hf hr => ?_ <;> simp at ho hr <;> rw [rawDecode_0x24 ho] <;> simp (disch := decide) [decode0x24, fld, hf, hr]

/-- Vector floating point (05 R147, R149). -/
theorem readsBack_vectorFloat :
    (∀ d a b k f c, ReadsBack (.vfadd d a b k f c)) ∧ (∀ d a b k f c, ReadsBack (.vfsub d a b k f c))
    ∧ (∀ d a b k f c, ReadsBack (.vfmul d a b k f c)) ∧ (∀ d a b k f c, ReadsBack (.vfma d a b k f c))
    ∧ (∀ d a b k f c, ReadsBack (.vfms d a b k f c)) ∧ (∀ d a b k f c, ReadsBack (.vfnma d a b k f c))
    ∧ (∀ d a b k f c, ReadsBack (.vfdiv d a b k f c)) ∧ (∀ d a k f c, ReadsBack (.vfsqrt d a k f c))
    ∧ (∀ d a b k f c, ReadsBack (.vfmin d a b k f c)) ∧ (∀ d a b k f c, ReadsBack (.vfmax d a b k f c))
    ∧ (∀ d a k f c, ReadsBack (.vfrcp d a k f c)) := by
  and_intros <;> intros <;> refine readsBack_of_packs rfl (by (repeat with_reducible apply Packs.add); apply Packs.fixed; all_goals rfl)
    fun n ho hf hr => ?_ <;> simp at ho hr <;> rw [rawDecode_0x25 ho] <;> simp (disch := decide) [decode0x25, fld, hf, hr]

/-- Vector floating point with a scalar (05 R147, R149). -/
theorem readsBack_vectorFloatScalar :
    (∀ d a b k f c, ReadsBack (.vfaddScalar d a b k f c)) ∧ (∀ d a b k f c, ReadsBack (.vfsubScalar d a b k f c))
    ∧ (∀ d a b k f c, ReadsBack (.vfmulScalar d a b k f c)) ∧ (∀ d a b k f c, ReadsBack (.vfmaScalar d a b k f c))
    ∧ (∀ d a b k f c, ReadsBack (.vfmsScalar d a b k f c)) ∧ (∀ d a b k f c, ReadsBack (.vfnmaScalar d a b k f c))
    ∧ (∀ d a b k f c, ReadsBack (.vfdivScalar d a b k f c)) ∧ (∀ d a k f c, ReadsBack (.vfsqrtScalar d a k f c))
    ∧ (∀ d a b k f c, ReadsBack (.vfminScalar d a b k f c)) ∧ (∀ d a b k f c, ReadsBack (.vfmaxScalar d a b k f c))
    ∧ (∀ d a k f c, ReadsBack (.vfrcpScalar d a k f c)) := by
  and_intros <;> intros <;> refine readsBack_of_packs rfl (by (repeat with_reducible apply Packs.add); apply Packs.fixed; all_goals rfl)
    fun n ho hf hr => ?_ <;> simp at ho hr <;> rw [rawDecode_0x26 ho] <;> simp (disch := decide) [decode0x26, fld, hf, hr]

/-- Merges, moves and extracts (05 R152, R153). -/
theorem readsBack_move :
    (∀ d a b k c, ReadsBack (.vmerge d a b k c)) ∧ (∀ d a k c, ReadsBack (.vmv d a k c)) ∧ (∀ d a k c, ReadsBack (.vbcast d a k c))
    ∧ (∀ d a b c, ReadsBack (.vextN d a b c)) ∧ (∀ d a b c, ReadsBack (.vextI d a b c)) := by
  and_intros <;> intros <;> refine readsBack_of_packs rfl (by (repeat with_reducible apply Packs.add); apply Packs.fixed; all_goals rfl)
    fun n ho hf hr => ?_ <;> simp at ho hr <;> rw [rawDecode_0x2B ho] <;> simp (disch := decide) [decode0x2B, fld, hf, hr]

/-- Permutations (05 R153, R154). -/
theorem readsBack_permute :
    (∀ d a b k c, ReadsBack (.vslideup d a b k c)) ∧ (∀ d a b k c, ReadsBack (.vslidedn d a b k c))
    ∧ (∀ d a b k c, ReadsBack (.vperm d a b k c)) ∧ (∀ d a k c, ReadsBack (.vcompress d a k c))
    ∧ (∀ d a k c, ReadsBack (.vexpand d a k c)) ∧ (∀ d k c, ReadsBack (.viota d k c)) ∧ (∀ d a k c, ReadsBack (.vconf d a k c)) := by
  and_intros <;> intros <;> refine readsBack_of_packs rfl (by (repeat with_reducible apply Packs.add); apply Packs.fixed; all_goals rfl)
    fun n ho hf hr => ?_ <;> simp at ho hr <;> rw [rawDecode_0x2C ho] <;> simp (disch := decide) [decode0x2C, fld, hf, hr]

/-- Reductions (05 R155). -/
theorem readsBack_reduce :
    (∀ d a b k c, ReadsBack (.vredsum d a b k c)) ∧ (∀ d a b k c, ReadsBack (.vredmaxI d a b k c))
    ∧ (∀ d a b k c, ReadsBack (.vredmaxN d a b k c)) ∧ (∀ d a b k c, ReadsBack (.vredminI d a b k c))
    ∧ (∀ d a b k c, ReadsBack (.vredminN d a b k c)) ∧ (∀ d a b k f c, ReadsBack (.vfredsum d a b k f c))
    ∧ (∀ d a b k f c, ReadsBack (.vredmaxF d a b k f c)) ∧ (∀ d a b k f c, ReadsBack (.vredminF d a b k f c)) := by
  and_intros <;> intros <;> refine readsBack_of_packs rfl (by (repeat with_reducible apply Packs.add); apply Packs.fixed; all_goals rfl)
    fun n ho hf hr => ?_ <;> simp at ho hr <;> rw [rawDecode_0x2D ho] <;> simp (disch := decide) [decode0x2D, fld, hf, hr]

/-- Mask instructions (05 R156). -/
theorem readsBack_mask :
    (∀ d a b k c, ReadsBack (.mand d a b k c)) ∧ (∀ d a b k c, ReadsBack (.mor d a b k c)) ∧ (∀ d a b k c, ReadsBack (.mxor d a b k c))
    ∧ (∀ d a k c, ReadsBack (.mnot d a k c)) ∧ (∀ d a k c, ReadsBack (.mpopc d a k c)) ∧ (∀ d a k c, ReadsBack (.mfirst d a k c))
    ∧ (∀ d a c, ReadsBack (.mseti d a c)) ∧ (∀ d c, ReadsBack (.mvfm d c)) := by
  and_intros <;> intros <;> refine readsBack_of_packs rfl (by (repeat with_reducible apply Packs.add); apply Packs.fixed; all_goals rfl)
    fun n ho hf hr => ?_ <;> simp at ho hr <;> rw [rawDecode_0x31 ho] <;> simp (disch := decide) [decode0x31, fld, hf, hr]

/-- Comparisons of integers and VCVT (05 R150, R157). -/
theorem readsBack_compareConvert :
    (∀ d a b k q c, ReadsBack (.vcmp d a b k q c)) ∧ (∀ d a b k q c, ReadsBack (.vcmps d a b k q c))
    ∧ (∀ d a t s k r g c, ReadsBack (.vcvt d a t s k r g c)) := by
  and_intros <;> intros <;> refine readsBack_of_packs rfl (by (repeat with_reducible apply Packs.add); apply Packs.fixed; all_goals rfl)
    fun n ho hf hr => ?_ <;> simp at ho hr <;> delta rawDecode <;> rw [fld_opcode, ho] <;> change stageDecode n = _ <;> delta stageDecode <;> rw [fld_opcode, ho] <;>
    change some _ = _ <;> simp [fld, hr]

/-- Comparisons of floating-point elements, VQNT and VDQNT (05 R151, R160 to R164). -/
theorem readsBack_floatCompareQuantize :
    (∀ d a b k q f c, ReadsBack (.vfcmp d a b k q f c)) ∧ (∀ d a b k q f c, ReadsBack (.vfcmps d a b k q f c))
    ∧ (∀ d a b k q c, ReadsBack (.vqnt d a b k q c)) ∧ (∀ d a b k q c, ReadsBack (.vdqnt d a b k q c)) := by
  and_intros <;> intros <;> refine readsBack_of_packs rfl (by (repeat with_reducible apply Packs.add); apply Packs.fixed; all_goals rfl)
    fun n ho hf hr => ?_ <;> simp at ho hr <;> delta rawDecode <;> rw [fld_opcode, ho] <;> change stageDecode n = _ <;> delta stageDecode <;> rw [fld_opcode, ho] <;>
    change ite _ _ _ = _ <;> simp (disch := decide) [fld, hf, hr]

/-- Vector loads and stores (06 R176 to R185). -/
theorem readsBack_vectorMemory :
    (∀ d b k t s o c, ReadsBack (.vld d b k t s o c)) ∧ (∀ d b x k t s o c, ReadsBack (.vlds d b x k t s o c))
    ∧ (∀ d b x k t s o c, ReadsBack (.vldx d b x k t s o c)) ∧ (∀ d b k t s o, ReadsBack (.vldff d b k t s o))
    ∧ (∀ d b k t s o c, ReadsBack (.vst d b k t s o c)) ∧ (∀ d b x k t s o c, ReadsBack (.vsts d b x k t s o c))
    ∧ (∀ d b x k t s o c, ReadsBack (.vstx d b x k t s o c)) ∧ (∀ d f b x k t s o c, ReadsBack (.vstxa d f b x k t s o c))
    ∧ (∀ d b x k t s o c, ReadsBack (.vgll d b x k t s o c)) ∧ (∀ d b x k t s o c, ReadsBack (.vscc d b x k t s o c)) := by
  and_intros <;> intros <;> refine readsBack_of_packs rfl (by (repeat with_reducible apply Packs.add); apply Packs.fixed; all_goals rfl)
    fun n ho hf hr => ?_ <;> simp at ho hr <;> delta rawDecode <;> rw [fld_opcode, ho] <;> change stageDecode n = _ <;> delta stageDecode <;> rw [fld_opcode, ho] <;>
    change ite _ _ _ = _ <;> simp (disch := decide) [fld, hf, hr]

/-- Vector atomics on words (06 R187). -/
theorem readsBack_vectorAtomicWord :
    (∀ d a x k o, ReadsBack (.vamoWAdd d a x k o)) ∧ (∀ d a x k o, ReadsBack (.vamoWAnd d a x k o))
    ∧ (∀ d a x k o, ReadsBack (.vamoWOr d a x k o)) ∧ (∀ d a x k o, ReadsBack (.vamoWXor d a x k o))
    ∧ (∀ d a x k o, ReadsBack (.vamoWMin d a x k o)) ∧ (∀ d a x k o, ReadsBack (.vamoWMax d a x k o))
    ∧ (∀ d a x k o, ReadsBack (.vamoWMinn d a x k o)) ∧ (∀ d a x k o, ReadsBack (.vamoWMaxn d a x k o))
    ∧ (∀ d a x k o, ReadsBack (.vamoWSwap d a x k o)) ∧ (∀ d a x k o, ReadsBack (.vamoWCas d a x k o)) := by
  and_intros <;> intros <;> refine readsBack_of_packs rfl (by (repeat with_reducible apply Packs.add); apply Packs.fixed; all_goals rfl)
    fun n ho hf hr => ?_ <;> simp at ho hr <;> rw [rawDecode_0x4A ho] <;> simp (disch := decide) [decode0x4A, fld, hf, hr]

/-- Vector atomics on double words (06 R187). -/
theorem readsBack_vectorAtomicDouble :
    (∀ d a x k o, ReadsBack (.vamoDAdd d a x k o)) ∧ (∀ d a x k o, ReadsBack (.vamoDAnd d a x k o))
    ∧ (∀ d a x k o, ReadsBack (.vamoDOr d a x k o)) ∧ (∀ d a x k o, ReadsBack (.vamoDXor d a x k o))
    ∧ (∀ d a x k o, ReadsBack (.vamoDMin d a x k o)) ∧ (∀ d a x k o, ReadsBack (.vamoDMax d a x k o))
    ∧ (∀ d a x k o, ReadsBack (.vamoDMinn d a x k o)) ∧ (∀ d a x k o, ReadsBack (.vamoDMaxn d a x k o))
    ∧ (∀ d a x k o, ReadsBack (.vamoDSwap d a x k o)) ∧ (∀ d a x k o, ReadsBack (.vamoDCas d a x k o)) := by
  and_intros <;> intros <;> refine readsBack_of_packs rfl (by (repeat with_reducible apply Packs.add); apply Packs.fixed; all_goals rfl)
    fun n ho hf hr => ?_ <;> simp at ho hr <;> rw [rawDecode_0x4B ho] <;> simp (disch := decide) [decode0x4B, fld, hf, hr]

/-- VWAIT, spills and moves between a lattice and the tile (06 R190 to R197, 07 R209). -/
theorem readsBack_waitSpill :
    (∀ d a x k z q, ReadsBack (.vwait d a x k z q)) ∧ (∀ a b s, ReadsBack (.vspill a b s)) ∧ (∀ a s, ReadsBack (.vfill a s))
    ∧ (∀ a, ReadsBack (.mcbl a)) ∧ (∀ a, ReadsBack (.mrll a)) := by
  and_intros <;> intros <;> refine readsBack_of_packs rfl (by (repeat with_reducible apply Packs.add); apply Packs.fixed; all_goals rfl)
    fun n ho hf hr => ?_ <;> simp at ho hr <;> delta rawDecode <;> rw [fld_opcode, ho] <;> change ite _ _ _ = _ <;> simp (disch := decide) [fld, hf, hr]

/-- Matrix steps (07 R204 to R208). -/
theorem readsBack_matrixStep :
    (∀ d a b n q p, ReadsBack (.mopa d a b n q p)) ∧ (∀ d a b n q p, ReadsBack (.mopa2 d a b n q p))
    ∧ (∀ d a b n q p, ReadsBack (.mopa4 d a b n q p)) ∧ (∀ d a n p, ReadsBack (.mops d a n p))
    ∧ (∀ d a b n q p, ReadsBack (.mopg d a b n q p)) ∧ (∀ d a b q, ReadsBack (.mopq d a b q)) := by
  and_intros <;> intros <;> refine readsBack_of_packs rfl (by (repeat with_reducible apply Packs.add); apply Packs.fixed; all_goals rfl)
    fun n ho hf hr => ?_ <;> simp at ho hr <;> delta rawDecode <;> rw [fld_opcode, ho] <;> change stageDecode n = _ <;> delta stageDecode <;> rw [fld_opcode, ho] <;>
    change ite _ _ _ = _ <;> simp (disch := decide) [fld, hf, hr]

/-- Vector configuration, tags and the matrix unit (05 R139, R140, 06 R193, 07 R201, R202, R211, R212). -/
theorem readsBack_configureMatrix :
    (∀ d a b e, ReadsBack (.setvl d a b e)) ∧ (∀ d a b e, ReadsBack (.setvlw d a b e)) ∧ (∀ d a k, ReadsBack (.tagl d a k))
    ∧ (∀ a b k, ReadsBack (.tagw a b k)) ∧ (∀ d a, ReadsBack (.matt d a)) ∧ (∀ d a, ReadsBack (.mmode d a)) ∧ (∀ d, ReadsBack (.mzero d))
    ∧ (∀ d a t, ReadsBack (.mrd d a t)) ∧ (∀ d a t, ReadsBack (.mwr d a t)) ∧ (∀ a, ReadsBack (.msave a)) ∧ (∀ a, ReadsBack (.mrest a)) := by
  and_intros <;> intros <;> refine readsBack_of_packs rfl (by (repeat with_reducible apply Packs.add); apply Packs.fixed; all_goals rfl)
    fun n ho hf hr => ?_ <;> simp at ho hr <;> simp only [rawDecode_0x20, rawDecode_0x4D, rawDecode_0x50, rawDecode_0x57, rawDecode_0x5A, ho] <;>
    simp (disch := decide) [decode0x20, decode0x4D, decode0x50, decode0x57, decode0x5A, fld, hf, hr]

/-- Streams, rings, chains and LAUNCH (07 R216 to R232). -/
theorem readsBack_stream :
    (∀ d a, ReadsBack (.sld d a)) ∧ (∀ d a, ReadsBack (.sst d a)) ∧ (∀ d a b k, ReadsBack (.sgath d a b k))
    ∧ (∀ a b s, ReadsBack (.rcfg a b s)) ∧ (∀ a b s, ReadsBack (.chcfg a b s)) ∧ (∀ a s, ReadsBack (.run a s))
    ∧ (∀ d a b n, ReadsBack (.hwpub d a b n)) ∧ (∀ d a, ReadsBack (.launch d a)) := by
  and_intros <;> intros <;> refine readsBack_of_packs rfl (by (repeat with_reducible apply Packs.add); apply Packs.fixed; all_goals rfl)
    fun n ho hf hr => ?_ <;> simp at ho hr <;> delta rawDecode <;> rw [fld_opcode, ho] <;> change ite _ _ _ = _ <;> simp (disch := decide) [fld, hf, hr]

/-- Channels, rings, chain waits, deques and queues (07 R213 to R231). -/
theorem readsBack_channelTask :
    (∀ d a b, ReadsBack (.schIn d a b)) ∧ (∀ d a b, ReadsBack (.schOut d a b)) ∧ (∀ d, ReadsBack (.schRel d))
    ∧ (∀ d a b k, ReadsBack (.sscat d a b k)) ∧ (∀ d a b k, ReadsBack (.sscataInt d a b k))
    ∧ (∀ d a b k, ReadsBack (.sscataFloat d a b k)) ∧ (∀ d a b, ReadsBack (.swm d a b)) ∧ (∀ b, ReadsBack (.sdrain b))
    ∧ (∀ d a b s, ReadsBack (.rwait d a b s)) ∧ (∀ d a s, ReadsBack (.rfree d a s)) ∧ (∀ d s, ReadsBack (.chwait d s))
    ∧ (∀ d s, ReadsBack (.chbrk d s)) ∧ (∀ d a, ReadsBack (.tkpush d a)) ∧ (∀ d, ReadsBack (.tkpop d)) ∧ (∀ d a, ReadsBack (.qwr d a))
    ∧ (∀ d a, ReadsBack (.qrd d a)) := by
  and_intros <;> intros <;> refine readsBack_of_packs rfl (by (repeat with_reducible apply Packs.add); apply Packs.fixed; all_goals rfl)
    fun n ho hf hr => ?_ <;> simp at ho hr <;> simp only [rawDecode_0x60, rawDecode_0x64, rawDecode_0x65, rawDecode_0x67, rawDecode_0x6A, rawDecode_0x6C, rawDecode_0x6D, ho] <;>
    simp (disch := decide) [decode0x60, decode0x64, decode0x65, decode0x67, decode0x6A, decode0x6C, decode0x6D, fld, hf, hr]

/-- Control registers, TRET, RMACK and LWAKE (04 R121, R126, R130, R131). -/
theorem readsBack_control :
    (∀ r, ReadsBack (.tret r)) ∧ (∀ d r, ReadsBack (.crrd d r)) ∧ (∀ d a r, ReadsBack (.crset d a r))
    ∧ (∀ d a r, ReadsBack (.crclr d a r)) ∧ (∀ d a, ReadsBack (.rmack d a)) ∧ (∀ a s, ReadsBack (.lwake a s)) := by
  and_intros <;> intros <;> refine readsBack_of_packs rfl (by (repeat with_reducible apply Packs.add); apply Packs.fixed; all_goals rfl)
    fun n ho hf hr => ?_ <;> simp at ho hr <;> delta rawDecode <;> rw [fld_opcode, ho] <;> change ite _ _ _ = _ <;> simp (disch := decide) [fld, hf, hr]

/-- FENCE, the two named writes of control registers, context moves and TLBINV (04 R123, R126, R128, 19 R390, R397). -/
theorem readsBack_system :
    (∀ d a, ReadsBack (.fmaskClear d a)) ∧ (∀ d a, ReadsBack (.srseedWrite d a)) ∧ (∀ s k, ReadsBack (.fence s k))
    ∧ (∀ a, ReadsBack (.ctxsv a)) ∧ (∀ a, ReadsBack (.ctxld a)) ∧ (∀ a b s, ReadsBack (.tlbinv a b s)) := by
  and_intros <;> intros <;> refine readsBack_of_packs rfl (by (repeat with_reducible apply Packs.add); apply Packs.fixed; all_goals rfl)
    fun n ho hf hr => ?_ <;> simp at ho hr <;> simp only [rawDecode_0x73, rawDecode_0x75, rawDecode_0x78, rawDecode_0x79, ho] <;>
    simp (disch := decide) [decode0x73, decode0x75, decode0x78, decode0x79, fld, hf, hr]

/-- CRWR of a register other than fmask and srseed, whose writes have rows of their own (01 R25, 03 R90). -/
theorem readsBack_crwr {d a : BitVec 5} {r : BitVec 12} (h : (Instr.crwr d a r).wellFormed = true) : ReadsBack (.crwr d a r) := by
  refine readsBack_of_packs rfl (by (repeat with_reducible apply Packs.add); apply Packs.fixed; all_goals rfl) fun n ho hf hr => ?_
  simp at ho hr
  have hr' : (r != 0x005 && r != 0x008) = true := h
  obtain ⟨h5, h8⟩ : r.toNat ≠ 5 ∧ r.toNat ≠ 8 := by simpa [BitVec.toNat_eq] using hr'
  rw [rawDecode_0x75 ho, decode0x75, if_pos (by simp (disch := decide) [fld, hf])]
  simp [fld, hr]

/-- A word of an unassigned major opcode (02 R56). -/
theorem readsBack_undefinedInstruction {w : W32} (h : (Instr.undefinedInstruction w).wellFormed = true) :
    ReadsBack (.undefinedInstruction w) := by
  rintro _ ⟨⟩
  refine ⟨w.isLt, ?_⟩
  have h : unassignedOpcode (w.toNat % 128) = true := h
  delta rawDecode
  rw [fld_opcode]
  generalize w.toNat % 128 = op at h
  split
  case h_105 => simp
  all_goals exact absurd h (by decide)

theorem readsBack (i : Instr) (hw : i.wellFormed = true) : ReadsBack i := by
  cases i with
  | crwr d a r => exact readsBack_crwr hw
  | undefinedInstruction w => exact readsBack_undefinedInstruction hw
  | _ =>
    first
    | simp only [readsBack_fixed, readsBack_integer, readsBack_immediate, readsBack_shiftImmediate, readsBack_scalarMemory, readsBack_scalarAtomic,
      readsBack_scalarFloat, readsBack_vectorInteger, readsBack_vectorIntegerScalar, readsBack_saturating,
      readsBack_saturatingScalar, readsBack_vectorFloat, readsBack_vectorFloatScalar, readsBack_move, readsBack_permute,
      readsBack_reduce, readsBack_mask, readsBack_compareConvert, readsBack_floatCompareQuantize, readsBack_vectorMemory,
      readsBack_vectorAtomicWord, readsBack_vectorAtomicDouble, readsBack_waitSpill, readsBack_matrixStep,
      readsBack_configureMatrix, readsBack_stream, readsBack_channelTask, readsBack_control, readsBack_system]
    | exact fun _ h => nomatch h

/-- Only the steps of the device have no word. -/
theorem encodeNat_isSome (i : Instr) (h : deviceStep i = false) : ∃ n, encodeNat i = some n := by
  cases i <;> first | exact ⟨_, rfl⟩ | cases h

theorem decode_encode {i : Instr} (hw : i.wellFormed = true) {w : W32} (h : encode i = some w) : decode w = .ok i := by
  obtain ⟨n, hn, rfl⟩ := Option.map_eq_some_iff.mp h
  obtain ⟨hlt, hi⟩ := readsBack i hw n hn
  simp only [decode, BitVec.toNat_ofNat, Nat.mod_eq_of_lt hlt, hi, hw, if_true]

/-- Settles O58: the encoder gives every instruction of a thread a word, and each row of the encoding tables is read back. -/
theorem encodeDecode : Obligations.EncodeDecode := by
  unfold Obligations.EncodeDecode
  refine fun i hw => ⟨fun hd => ?_, fun w h => decode_encode hw h⟩
  obtain ⟨n, hn⟩ := encodeNat_isSome i hd
  exact ⟨_, congrArg _ hn, decode_encode hw (congrArg _ hn)⟩

/-- Settles O57: the encoder gives each of these instructions its word, and the decoder reads every such word back. -/
theorem decodeWords : Obligations.DecodeWords := by
  unfold Obligations.DecodeWords
  and_intros <;> exact decode_encode rfl rfl

end Sys2Proof

-- ==== Traps: what the entry of one leaves, and emulation (O13) ====

namespace Sys2Proof.Machine

/-! ## The entry of a trap (19 R379, R380, R383) -/

/-- Each field of the cause register reads back. -/
theorem bits_causeWord {x : Trap} {p : Level} {em : Bool} {member e0 : Nat} (hc : x.cause < 64) :
    let c := (causeWord x p em member e0).toNat
    bits c 0 6 = x.cause ∧ bits c 24 16 = e0 % 2 ^ 16 ∧ bits c 40 2 = member % 4 ∧ bits c 48 8 = x.det % 256 ∧ bitOf c 59 = em
      ∧ bits c 60 2 = p.num ∧ bitOf c 62 = x.fin ∧ bitOf c 63 = x.async := by
  obtain ⟨pn, hp, hpn⟩ : ∃ n, p.num = n ∧ n < 3 := by cases p <;> exact ⟨_, rfl, by decide⟩
  obtain ⟨a, ha, ha'⟩ : ∃ n, em.toNat = n ∧ n < 2 := ⟨_, rfl, em.toNat_lt⟩
  obtain ⟨b, hb, hb'⟩ : ∃ n, x.fin.toNat = n ∧ n < 2 := ⟨_, rfl, x.fin.toNat_lt⟩
  obtain ⟨d, hd, hd'⟩ : ∃ n, x.async.toNat = n ∧ n < 2 := ⟨_, rfl, x.async.toNat_lt⟩
  have bit : ∀ {c i n : Nat} {v : Bool}, v.toNat = n → c / 2 ^ i % 2 = n → bitOf c i = v := fun {c i n v} hv h => by
    rw [bitOf, Nat.testBit_eq_decide_div_mod_eq, h, ← hv]; cases v <;> rfl
  simp only [causeWord, BitVec.toNat_ofNat, bits, Nat.shiftRight_eq_div_pow, hp, ha, hb, hd]
  refine ⟨?_, ?_, ?_, ?_, bit ha ?_, ?_, bit hb ?_, bit hd ?_⟩ <;> omega

/-- Each field of the info register reads back. -/
theorem bits_infoWord (x : Trap) :
    let c := (infoWord x).toNat
    bits c 0 2 = x.slot % 4 ∧ bits c 16 6 = x.frame % 64 ∧ bits c 32 32 = x.elem % 2 ^ 32 := by
  simp only [infoWord, BitVec.toNat_ofNat, bits, Nat.shiftRight_eq_div_pow]
  omega

/-- `r` records the trap `x`, taken in `s` at level `l` (19 R379, R380, R383). -/
def Records (s : State) (l : Level) (x : Trap) (r : TrapRegs) : Prop :=
  let old := s.th.regs l
  let c := r.cause.toNat
  let member := match s.th.cv with | some v => (if x.fresh then 0 else v.idx) | none => 0
  let e0 := match s.th.cv with | some v => v.e0 | none => s.th.estart
  bits c 0 6 = x.cause ∧ bits c 24 16 = e0 % 2 ^ 16 ∧ bits c 40 2 = member % 4 ∧ bits c 48 8 = x.det % 256
  ∧ bitOf c 59 = s.th.em ∧ bits c 60 2 = s.th.level.num ∧ bitOf c 62 = x.fin ∧ bitOf c 63 = x.async
  ∧ r.epc = x.epc.getD s.th.pc
  ∧ r.fpc = (if x.async then x.epc.getD s.th.pc else x.fpc.getD s.th.ipc)
  ∧ r.tval = x.tval
  ∧ bits r.info.toNat 0 2 = x.slot % 4 ∧ bits r.info.toNat 16 6 = x.frame % 64 ∧ bits r.info.toNat 32 32 = x.elem % 2 ^ 32
  ∧ r.paie = old.aie ∧ r.aie = false ∧ r.tih = true ∧ r.vec = old.vec ∧ r.scratch = old.scratch

/-- The trap-entry registers of level `l` once the trap `x` has been entered there. -/
def State.entryRegs (s : State) (x : Trap) (l : Level) : TrapRegs :=
  { s.th.regs l with
    cause := causeWord x s.th.level s.th.em (s.th.position x.fresh).1 (s.th.position x.fresh).2
    epc := x.epc.getD s.th.pc
    fpc := if x.async then x.epc.getD s.th.pc else x.fpc.getD s.th.ipc
    tval := x.tval, info := infoWord x, paie := (s.th.regs l).aie, aie := false, tih := true }

/-- The state with `r` as the trap-entry registers of level `l`, in the handler of that level. -/
def State.inHandler (s : State) (l : Level) (r : TrapRegs) : State :=
  { s with th := { s.th.setRegs l r with
                    pc := (s.th.regs l).vec, level := l, em := false, cv := none, reissue := false, status := .issuing }
           tags := s.tags.filter fun t => t.h != s.cur }

theorem enter_eq (s : State) (x : Trap) (l : Level) : s.enter x l = s.inHandler l (s.entryRegs x l) := rfl

theorem records_entryRegs {s : State} {x : Trap} {l : Level} (hc : x.cause < 64) : Records s l x (s.entryRegs x l) := by
  obtain ⟨hcause, he0, hmember, hdet, hem, hlevel, hfin, hasync⟩ :=
    bits_causeWord (x := x) (p := s.th.level) (em := s.th.em) (member := (s.th.position x.fresh).1) (e0 := (s.th.position x.fresh).2) hc
  obtain ⟨hslot, hframe, helem⟩ := bits_infoWord x
  unfold State.entryRegs
  refine ⟨hcause, he0.trans ?_, hmember.trans ?_, hdet, hem, hlevel, hfin, hasync, rfl, rfl, rfl, hslot, hframe, helem, rfl, rfl, rfl, rfl, rfl⟩
  · unfold Thread.position; cases s.th.cv <;> cases x.fresh <;> rfl
  · unfold Thread.position; cases s.th.cv <;> cases x.fresh <;> rfl

theorem entered_inHandler {s : State} {x : Trap} {l : Level} {r : TrapRegs} (h : Records s l x r) : Entered s (s.inHandler l r) l x := by
  obtain ⟨hcause, he0, hmember, hdet, hem, hlevel, hfin, hasync, hepc, hfpc, htval, hslot, hframe, helem, hpaie, haie, htih, hvec, hscratch⟩ := h
  have hr : (s.inHandler l r).th.regs l = r := by cases l <;> rfl
  unfold Entered
  rw [hr]
  refine ⟨rfl, rfl, rfl, rfl, hcause, he0, hmember, hdet, hem, hlevel, hfin, hasync, hepc, hfpc, htval, hslot, hframe, helem, hpaie, haie, htih,
    hvec, hscratch, ?_, ?_, ?_, rfl, fun m => ?_⟩
  · rintro rfl; rfl
  · intro hl; cases l <;> first | rfl | exact absurd rfl hl
  · cases l <;> rfl
  · cases m <;> rfl

/-- What the entry of a trap leaves. -/
theorem entered_enter {s : State} {x : Trap} {l : Level} (hc : x.cause < 64) : Entered s (s.enter x l) l x := by
  rw [enter_eq]
  exact entered_inHandler (records_entryRegs hc)

theorem trapLevel_eq_taker (s : State) (c : Nat) : trapLevel c s.th.level = s.taker c := rfl
theorem taker_ne_user (s : State) (c : Nat) : s.taker c ≠ .user := by unfold State.taker; split <;> exact nofun

/-- A cause without a fault batch, which no emulation takes, enters the level that takes it, where that can take a trap. -/
theorem takeTrap_eq_enter {s : State} {x : Trap} (hx : x.records = []) (he : x.cause ≠ 1 ∨ s.th.level ≠ .user ∨ s.th.em = false ∧ s.th.emvec = 0)
    (h : s.canTake (s.taker x.cause)) : s.takeTrap x = s.enter x (s.taker x.cause) := by
  obtain ⟨hh, hv⟩ := h
  have h1 : ¬ (x.cause = Cause.undef ∧ s.th.level = .user ∧ s.th.em = false ∧ s.th.emvec ≠ 0) := by rintro ⟨_, _, _, _⟩; simp_all [Cause.undef]
  have h2 : ¬ (x.cause = Cause.undef ∧ s.th.level = .user ∧ s.th.em = true) := by rintro ⟨_, _, _⟩; simp_all [Cause.undef]
  rw [State.takeTrap, if_neg h1]
  simp only [if_neg h2, trapLevel_eq_taker]
  cases hl : s.taker x.cause with
  | user => exact absurd hl (taker_ne_user s _)
  | _ =>
    rw [hl] at hh hv
    replace hh : _ = false := hh
    simp [Thread.regs] at hh hv
    simp [State.withBatch, State.toFirmware, State.enterOrEnd, Thread.regs, hx, hh, hv]

theorem traps_of_exec {i : Instr} {s : State} {x : Trap} (hi : exec i s = .next (s.takeTrap x)) (hc : x.cause < 64) (hx : x.records = [])
    (he : x.cause ≠ 1 ∨ s.th.level ≠ .user ∨ s.th.em = false ∧ s.th.emvec = 0) (h : s.canTake (s.taker x.cause)) :
    Traps i s (s.taker x.cause) x :=
  ⟨_, hi, by rw [takeTrap_eq_enter hx he h]; exact entered_enter hc⟩

/-! ## Emulation (01 R21, 02 R56, 04 R122) -/

theorem exec_undefinedInstruction (w : W32) (s : State) :
    exec (.undefinedInstruction w) s = .next (s.takeTrap { cause := Cause.undef, tval := w.setWidth 64 }) := rfl

/-- UNDEF at user level outside emulation mode, with a nonzero emulation vector, is emulated. -/
theorem takeTrap_emulated {s : State} {x : Trap} (hx : x.cause = Cause.undef) (hl : s.th.level = .user) (he : s.th.em = false)
    (hv : s.th.emvec ≠ 0) :
    s.takeTrap x =
      { s with
        th := { s.th with empc := x.epc.getD s.th.ipc, eminst := BitVec.ofNat 32 x.tval.toNat, em := true, pc := s.th.emvec, cv := none,
                          reissue := false, status := .issuing }
        tags := s.tags.filter fun t => t.h != s.cur } := by
  rw [State.takeTrap, if_pos ⟨hx, hl, he, hv⟩]

/-- UNDEF in emulation mode is EMUDOUBLE. -/
theorem takeTrap_emudouble {s : State} {x : Trap} (hx : x.cause = Cause.undef) (hl : s.th.level = .user) (he : s.th.em = true) :
    s.takeTrap x = s.takeTrap { x with cause := Cause.emudouble } := by
  have hn : ∀ p : Prop, ¬ (Cause.emudouble = Cause.undef ∧ p) := fun p h => nomatch h.1
  have hx' : ¬ (x.cause = Cause.undef ∧ s.th.level = .user ∧ s.th.em = false ∧ s.th.emvec ≠ 0) := by simp [he]
  have hd : x.cause = Cause.undef ∧ s.th.level = .user ∧ s.th.em = true := ⟨hx, hl, he⟩
  unfold State.takeTrap
  simp only [if_neg hx', if_neg (hn _), if_pos hd]

/-- Emulation mode stands at user level and ends at an address in the code window; elsewhere EMURET is ILLEGAL. -/
theorem exec_emuret_of_user {s : State} (hl : s.th.level = .user) (he : s.th.em = true) :
    exec .emuret s =
      if s.inWindow .user s.core (aligned s.th.empc).toNat then
        .next { s with th := { s.th with pc := aligned s.th.empc, em := false, cv := none, reissue := false } }
      else .next (s.takeTrap { cause := Cause.codewin, tval := aligned s.th.empc }) := by
  change execEmuret s = _
  rw [execEmuret, if_neg (by simp [hl, he])]
  split <;> rfl
theorem exec_emuret_of_not_em {s : State} (he : s.th.em = false) :
    exec .emuret s = .next (s.takeTrap { cause := Cause.illegal, tval := s.word.setWidth 64 }) := by
  change execEmuret s = _
  rw [execEmuret, if_pos (Or.inr he)]
  rfl

theorem taker_of_user {s : State} {c : Nat} (hl : s.th.level = .user) (hc : c ≠ 50) : s.taker c = .supervisor := by
  simp [State.taker, hl, hc]

/-- Settles O13, by the cases of taking UNDEF and of EMURET. -/
theorem emulation : Obligations.Emulation := by
  unfold Obligations.Emulation
  intro s w
  refine ⟨fun hl he hv => ?_, fun hl he hv ht => ?_, fun hl he ht => ?_, fun hl ht => ?_, fun hl he hw => ?_, fun hl he hw => ?_,
    fun he => exec_emuret_of_not_em he⟩
  · refine ⟨_, (exec_undefinedInstruction w s).trans (congrArg _ (takeTrap_emulated rfl hl he hv)), ?_, rfl⟩
    have hw : BitVec.ofNat 32 (w.setWidth 64).toNat = w := by apply BitVec.eq_of_toNat_eq; simp; omega
    simp only [hw, Option.getD_none]
  · rw [← taker_of_user (c := 1) hl (by decide)] at ht ⊢
    exact traps_of_exec (exec_undefinedInstruction w s) (Nat.le_of_ble_eq_true rfl) rfl (.inr (.inr ⟨he, hv⟩)) ht
  · rw [← taker_of_user (c := 7) hl (by decide)] at ht ⊢
    exact traps_of_exec ((exec_undefinedInstruction w s).trans (congrArg _ (takeTrap_emudouble rfl hl he))) (Nat.le_of_ble_eq_true rfl) rfl
      (.inl nofun) ht
  · exact traps_of_exec (exec_undefinedInstruction w s) (Nat.le_of_ble_eq_true rfl) rfl (.inr (.inl hl)) ht
  · exact (exec_emuret_of_user hl he).trans (if_pos hw)
  · exact (exec_emuret_of_user hl he).trans (if_neg (by simpa [aligned] using hw))

end Sys2Proof.Machine

-- ==== The step: which instruction runs (O56) ====

namespace Sys2Proof.Machine
section
variable {s u : State}

/-! ## The outcomes of a turn (assumption 3) -/

theorem step_of_agenda {i : Instr} {r : List Instr} (h : s.agenda = i :: r) :
    step s = if deviceStep i then exec i { s with agenda := r } else .next { s with agenda := r } := by
  simp only [step, h]

section
variable (ha : s.agenda = []) (ht : s.turn = .thread)
include ha ht

theorem step_of_run {i : Instr} (hi : ({ s with turn := .engine } : State).issue = .run i u) (hl : (u.lag && lateReader i) = false) :
    step s = exec i (u.caughtUp i) := by
  have hu : u.lateFrom i = none := by rw [State.lateFrom, hl]; rfl
  rw [step, hi]
  simp only [ha, ht, hu]

theorem step_of_run_late {i : Instr} (hi : ({ s with turn := .engine } : State).issue = .run i u) (hl : (u.lag && lateReader i) = true) :
    step s = u.afterLate (exec i u.stale) := by
  have hu : u.lateFrom i = some u.stale := by rw [State.lateFrom, hl]; rfl
  rw [step, hi]
  simp only [ha, ht, hu]

theorem step_of_ends {o : Host.Outcome State Fault Refusal} (hi : ({ s with turn := .engine } : State).issue = .ends o) : step s = o := by
  rw [step, hi]
  simp only [ha, ht]

/-- A device step that the turn comes to is performed in the state as it is. -/
theorem step_of_run_device {i : Instr} (hi : ({ s with turn := .engine } : State).issue = .run i u) (hd : deviceStep i = true)
    (hl : lateReader i = false) : step s = exec i u := by
  rw [step_of_run ha ht hi (by rw [hl, Bool.and_false]), State.caughtUp, hd]
  rfl
end

/-! ## Reads that no edge orders after a port's store (assumption 94) -/

theorem caughtUp_cases (v : State) (i : Instr) :
    ∃ f, v.caughtUp i = v ∨ v.caughtUp i = v.upd fun t => { t with unseen := [], fills := f } := by
  unfold State.caughtUp
  split
  · exact ⟨[], .inl rfl⟩
  · split
    · exact ⟨[], .inr rfl⟩
    · exact ⟨v.th.fills, .inr rfl⟩

theorem caughtUp_of_none {v : State} {i : Instr} (hu : v.th.unseen = []) (hf : v.th.fills = []) : v.caughtUp i = v := by
  have e : v.upd (fun t => { t with unseen := [], fills := [] }) = v := by rw [State.upd, ← hu, ← hf]
  have e' : v.upd (fun t => { t with unseen := [] }) = v := by rw [State.upd, ← hu]
  unfold State.caughtUp
  split
  · rfl
  · split
    · exact e
    · exact e'

theorem caughtUp_unseen {v : State} {i : Instr} (hd : deviceStep i = false) (hq : quiet i v.word.toNat = false) :
    (v.caughtUp i).th.unseen = [] := by
  rw [State.caughtUp, hd, hq]
  rfl

/-- In `s` the next step executes `i` in the state `v`, once it has caught up, or late. -/
def Executes (s v : State) (i : Instr) : Prop :=
  (s.lag = false ∨ lateReader i = false → step s = exec i (v.caughtUp i))
  ∧ (s.lag = true → lateReader i = true → step s = v.afterLate (exec i v.stale))
  ∧ (s.th.unseen = [] → s.th.fills = [] → v.caughtUp i = v)
  ∧ (∃ f, v.caughtUp i = v ∨ v.caughtUp i = v.upd fun t => { t with unseen := [], fills := f })
  ∧ (deviceStep i = false → quiet i v.word.toNat = false → (v.caughtUp i).th.unseen = [])
/-- In `s` the next step executes `i` in the state `u`, or stops it within itself as a cut says. -/
def RunsIn (s u : State) (i : Instr) : Prop :=
  (s.cut = none → Executes s u i)
  ∧ ∀ c, s.cut = some c →
      (∀ t, ({ u with cut := none } : State).stopWithin c i = some t → step s = .next t)
      ∧ (({ u with cut := none } : State).stopWithin c i = none → Executes s { u with cut := none } i)

theorem executes_of_run {v : State} {i : Instr} (ha : s.agenda = []) (ht : s.turn = .thread)
    (hi : ({ s with turn := .engine } : State).issue = .run i v) (hl : v.lag = s.lag) (hu : v.th.unseen = s.th.unseen)
    (hf : v.th.fills = s.th.fills) : Executes s v i := by
  refine ⟨fun h => step_of_run ha ht hi ?_, fun h h' => step_of_run_late ha ht hi ?_, fun h h' => caughtUp_of_none (hu.trans h) (hf.trans h'),
    caughtUp_cases v i, caughtUp_unseen⟩
  · rcases h with h | h <;> simp [hl, h]
  · simp [hl, h, h']

theorem runWord_of_decode {w : W32} {i : Instr} (hw : decode w = .ok i) :
    (u.cut = none → u.runWord w = .run i u)
    ∧ ∀ c, u.cut = some c → let v := ({ u with cut := none } : State)
        (∀ t, v.stopWithin c i = some t → u.runWord w = .ends (.next t)) ∧ (v.stopWithin c i = none → u.runWord w = .run i v) := by
  refine ⟨fun h => ?_, fun c h => ⟨fun t h' => ?_, fun h' => ?_⟩⟩ <;> simp only [State.runWord, hw, h]
  · rw [h']
  · rw [h']

theorem runsIn_of_issue {w : W32} {i : Instr} (ha : s.agenda = []) (ht : s.turn = .thread)
    (hi : ({ s with turn := .engine } : State).issue = u.runWord w) (hw : decode w = .ok i) (hc : u.cut = s.cut) (hl : u.lag = s.lag)
    (hu : u.th.unseen = s.th.unseen) (hf : u.th.fills = s.th.fills) : RunsIn s u i := by
  obtain ⟨hrun, hcut⟩ := runWord_of_decode (u := u) hw
  refine ⟨fun h => executes_of_run ha ht (hi.trans (hrun (hc.trans h))) hl hu hf, fun c h => ?_⟩
  obtain ⟨hstop, hgo⟩ := hcut c (hc.trans h)
  exact ⟨fun t h' => step_of_ends ha ht (hi.trans (hstop t h')), fun h' => executes_of_run ha ht (hi.trans (hgo h')) hl hu hf⟩

/-! ## The words of a convoy (02 R51, R52, R57) -/

theorem firstMember_eq_none {p : Nat → Nat → Bool} {ws : List Nat} (h : ∀ k w, ws[k]? = some w → p k w = false) :
    firstMember p ws = none := by
  rw [firstMember, List.find?_eq_none]
  simp only [List.mem_map, Prod.exists]
  rintro _ ⟨w, k, hm, rfl⟩
  simp [h k w (List.mk_mem_zipIdx_iff_getElem?.mp hm)]

theorem firstMember_cons {p : Nat → Nat → Bool} {w : Nat} {ws : List Nat} (h : p 0 w = true) : firstMember p (w :: ws) = some (0, w) := by
  simp [firstMember, h]

/-- The words that a convoy takes are those that stand one after another, all but the last with C = 1. -/
theorem convoyFrom_eq (ws : List W32) (n off : Nat) (hn : ws.length ≤ n) (h0 : ws ≠ [])
    (h : ∀ k w, ws[k]? = some w → s.codeWord s.core (off + 4 * k) = w ∧ joined w.toNat = decide (k + 1 < ws.length)) :
    s.convoyFrom off n = ws.map (·.toNat) := by
  induction ws generalizing n off with
  | nil => exact absurd rfl h0
  | cons w ws ih =>
    obtain ⟨n, rfl⟩ : ∃ m, n = m + 1 := ⟨n - 1, by simp at hn; omega⟩
    obtain ⟨hw, hj⟩ := h 0 w rfl
    simp only [Nat.mul_zero, Nat.add_zero] at hw
    simp only [State.convoyFrom, hw, List.map_cons, hj]
    cases ws with
    | nil => rfl
    | cons x xs =>
      rw [if_pos (by simp)]
      refine congrArg _ (ih n (off + 4) (by simpa using hn) nofun fun k y hy => ?_)
      obtain ⟨hc, hj⟩ := h (k + 1) y hy
      exact ⟨by rw [← hc]; congr 1; omega, by rw [hj]; simp⟩

theorem convoyFrom_of_not_joined {off n : Nat} {w : W32} (hw : s.codeWord s.core off = w) (hj : joined w.toNat = false) :
    s.convoyFrom off (n + 1) = [w.toNat] := by
  simp [State.convoyFrom, hw, hj]

end

/-! ## Issue (02 R57, 09 R255, R257) -/

section
variable {s : State}

theorem firstMember_words_eq_none {p : Nat → Nat → Bool} {ws : List W32} (h : ∀ k w, ws[k]? = some w → p k w.toNat = false) :
    firstMember p (ws.map (·.toNat)) = none := by
  refine firstMember_eq_none fun k n hn => ?_
  obtain ⟨w, hw, rfl⟩ : ∃ w, ws[k]? = some w ∧ w.toNat = n := by simpa [List.getElem?_map] using hn
  exact h k w hw

/-- A convoy whose words stand one after another in the window, below the level's privileges, each an instruction that it may join, passes the
checks of decode. -/
theorem decodeCheck_eq_none {ws : List W32} (hl : ws.length ≤ 4)
    (h : ∀ k w, ws[k]? = some w → s.inWindow s.th.level s.core (s.th.pc.toNat + 4 * k) = true ∧ wordPriv s.th.level w.toNat = false
      ∧ (∃ i, decode w = .ok i) ∧ joined w.toNat = decide (k + 1 < ws.length) ∧ (1 < ws.length → convoyEligible w.toNat = true)) :
    s.decodeCheck (ws.map (·.toNat)) = none := by
  have h1 := firstMember_words_eq_none (ws := ws) (p := fun i _ => !s.inWindow s.th.level s.core (s.th.pc.toNat + 4 * i)) fun k w hw => by simp [(h k w hw).1]
  have h2 := firstMember_words_eq_none (ws := ws) (p := fun _ w => wordPriv s.th.level w) fun k w hw => (h k w hw).2.1
  have h3 := firstMember_words_eq_none (ws := ws) (p := memberIllegal) fun k w hw => by
    obtain ⟨_, _, ⟨i, hi⟩, hj, he⟩ := h k w hw
    have hk : k < ws.length := (List.getElem?_eq_some_iff.mp hw).1
    simp only [memberIllegal, BitVec.ofNat_toNat, BitVec.setWidth_eq, hi, Bool.or_false, hj]
    by_cases h1 : 1 < ws.length
    · rw [he h1]; simp; omega
    · simp; omega
  simp only [State.decodeCheck, h1, h2, h3, Option.map_none, ite_self]

section
variable (hs : s.th.status = .issuing) (ha : s.th.asyncReady = false) (hf : s.th.finishPending = false)
include hs ha hf

theorem issue_of_fresh (hc : s.th.cv = none ∨ ∃ c, s.th.cv = some c ∧ c.resumed = true) : s.issue = s.issueFresh := by
  rcases hc with h | ⟨c, h, hr⟩
  · simp [State.issue, ha, hf, hs, h]
  · simp [State.issue, ha, hf, hs, h, hr]

theorem issue_of_member {c : Convoy} (hc : s.th.cv = some c) (hr : c.resumed = false) (hl : c.last = false) :
    s.issue = s.runWord s.word := by
  simp [State.issue, ha, hf, hs, hc, hr, hl]

theorem issue_of_last {c : Convoy} (hc : s.th.cv = some c) (hr : c.resumed = false) (hl : c.last = true) :
    s.issue = .run (.convoyRetire s.cur) s := by
  simp [State.issue, ha, hf, hs, hc, hr, hl]
end

/-- A new convoy issues its first member, one that resumes the member recorded. -/
theorem issueFresh_eq {ws : List W32} {m e0 : Nat} {w : W32} (hm : ws[m]? = some w) (hl : ws.length ≤ 4)
    (hc : (s.th.cv = none ∧ m = 0 ∧ e0 = s.th.estart) ∨ ∃ c, s.th.cv = some c ∧ c.resumed = true ∧ m = c.idx ∧ e0 = c.e0)
    (h : ∀ k w, ws[k]? = some w → s.codeWord s.core (s.th.pc.toNat + 4 * k) = w
      ∧ s.inWindow s.th.level s.core (s.th.pc.toNat + 4 * k) = true ∧ wordPriv s.th.level w.toNat = false
      ∧ joined w.toNat = decide (k + 1 < ws.length) ∧ (1 < ws.length → convoyEligible w.toNat = true)
      ∧ ∃ i, decode w = .ok i ∧ (convoyEligible w.toNat = true → m = 0 → memberReady s.ectx (s.hasFeat 1) e0 i = true))
    (hr : s.runHolds = false) :
    s.issueFresh = ({ s with th := { s.th with cv := if convoyEligible w.toNat then s.th.cv else none } } : State).runWord w := by
  have hk : m < ws.length := (List.getElem?_eq_some_iff.mp hm).1
  have hws : s.convoyFrom s.th.pc.toNat 4 = ws.map (·.toNat) :=
    convoyFrom_eq ws 4 _ hl (List.ne_nil_of_length_pos (by omega)) fun k w hw => by
      obtain ⟨hcode, _, _, hj, _⟩ := h k w hw
      exact ⟨hcode, hj⟩
  have hd : s.decodeCheck (ws.map (·.toNat)) = none := decodeCheck_eq_none hl fun k w hw => by
    obtain ⟨_, hwin, hp, hj, he, i, hi, _⟩ := h k w hw
    exact ⟨hwin, hp, ⟨i, hi⟩, hj, he⟩
  obtain ⟨w0, l, rfl⟩ : ∃ w0 l, ws = w0 :: l := by cases ws with | nil => simp at hk | cons a l => exact ⟨a, l, rfl⟩
  have hew : convoyEligible w.toNat = convoyEligible w0.toNat := by
    cases m with
    | zero => cases hm; rfl
    | succ m => rw [(h _ w hm).2.2.2.2.1 (by omega), (h 0 w0 rfl).2.2.2.2.1 (by omega)]
  have hget : BitVec.ofNat 32 (((w0 :: l).map (·.toNat)).getD m 0) = w := by
    rw [List.getD_eq_getElem?_getD, List.getElem?_map, hm]; simp
  have hmem : convoyEligible w0.toNat = true → (if m = 0 then s.memberCheck e0 ((w0 :: l).map (·.toNat)) else none) = none := fun he => by
    split
    case isTrue h0 =>
      rw [State.memberCheck, firstMember_words_eq_none fun k v hv => ?_]
      · rfl
      · obtain ⟨_, _, _, _, hj, i, hi, hready⟩ := h k v hv
        have hv' : convoyEligible v.toNat = true := by
          cases k with
          | zero => cases hv; exact he
          | succ k => exact hj (by have := (List.getElem?_eq_some_iff.mp hv).1; omega)
        simp only [BitVec.ofNat_toNat, BitVec.setWidth_eq, hi, hready hv' h0, Bool.not_true]
    case isFalse => rfl
  have hm0 : convoyEligible w0.toNat = false → w0 = w := fun he => by
    cases m with
    | zero => exact Option.some.inj hm
    | succ m => exact absurd (((h 0 w0 rfl).2.2.2.2.1 (by omega)).symm.trans he) nofun
  simp only [State.issueFresh, hws, hd, hr, List.length_map, Bool.false_eq_true, if_false]
  rw [hew]
  cases he : convoyEligible w0.toNat with
  | true =>
    have hmem := hmem he
    rcases hc with ⟨hn, rfl, rfl⟩ | ⟨c, hn, hres, rfl, rfl⟩ <;>
      simp only [hn, if_neg (Nat.not_le.mpr hk), List.map_cons, List.headD_cons, he, if_true] <;>
      simp only [List.map_cons, if_true] at hmem hget <;> simp only [hmem, hget, ← hn]
  | false =>
    obtain rfl := hm0 he
    rcases hc with ⟨hn, rfl, rfl⟩ | ⟨c, hn, hres, rfl, rfl⟩ <;>
      simp only [hn, if_neg (Nat.not_le.mpr hk), List.map_cons, List.headD_cons, he, Bool.false_eq_true, if_false, BitVec.ofNat_toNat,
        BitVec.setWidth_eq]

/-! ## Words that trap before they execute (02 R53, R57) -/

theorem issueFresh_of_decodeCheck {x : Trap} (h : s.decodeCheck (s.convoyFrom s.th.pc.toNat 4) = some x) :
    s.issueFresh = .ends (.next (s.takeTrap x)) := by
  simp only [State.issueFresh, h]
  rfl

theorem decodeCheck_codewin {w : Nat} {l : List Nat} (h : s.inWindow s.th.level s.core s.th.pc.toNat = false) :
    s.decodeCheck (w :: l) = some (s.decodeTrap Cause.codewin 0 s.th.pc.toNat) := by
  rw [State.decodeCheck, firstMember_cons (by simp [h])]
  rfl

theorem decodeCheck_priv {w : Nat} (h : s.inWindow s.th.level s.core s.th.pc.toNat = true) (hu : opUnassigned w = false)
    (hp : wordPriv s.th.level w = true) : s.decodeCheck [w] = some (s.decodeTrap Cause.priv 0 w) := by
  have h1 : firstMember (fun i _ => !s.inWindow s.th.level s.core (s.th.pc.toNat + 4 * i)) [w] = none := by simp [firstMember, h]
  have h2 : firstMember (fun _ w => wordPriv s.th.level w) [w] = some (0, w) := firstMember_cons hp
  simp only [State.decodeCheck, h1, h2, List.headD_cons, hu, Bool.false_eq_true, if_false]

theorem decodeCheck_illegal {w : Nat} (h : s.inWindow s.th.level s.core s.th.pc.toNat = true) (hu : opUnassigned w = false)
    (hp : wordPriv s.th.level w = false) (hi : memberIllegal 0 w = true) :
    s.decodeCheck [w] = some (s.decodeTrap Cause.illegal 0 w) := by
  have h1 : firstMember (fun i _ => !s.inWindow s.th.level s.core (s.th.pc.toNat + 4 * i)) [w] = none := by simp [firstMember, h]
  have h2 : firstMember (fun _ w => wordPriv s.th.level w) [w] = none := by simp [firstMember, hp]
  simp only [State.decodeCheck, h1, h2, List.headD_cons, hu, Bool.false_eq_true, if_false, firstMember_cons hi]
  rfl

/-- No word that names something above a level has an unassigned opcode. -/
theorem opUnassigned_of_wordPriv {l : Level} {w : Nat} (h : wordPriv l w = true) : opUnassigned w = false := by
  simp only [wordPriv, Bool.or_eq_true, Bool.and_eq_true, beq_iff_eq, decide_eq_true_eq] at h
  simp only [opUnassigned, Bool.or_eq_false_iff, Bool.and_eq_false_iff, beq_eq_false_iff_ne, decide_eq_false_iff_not]
  omega

/-- A word that is no instruction has an assigned opcode, and is ILLEGAL. -/
theorem opUnassigned_of_not_decode {w : W32} (h : ∀ i, decode w ≠ .ok i) : opUnassigned w.toNat = false := by
  refine Bool.eq_false_iff.mpr fun hu => h (.undefinedInstruction w) (decode_encode ?_ ?_)
  · change unassignedOpcode (w.toNat % 128) = true
    rw [show w.toNat % 128 = bits w.toNat 0 7 by simp [bits]]
    exact hu
  · change some (BitVec.ofNat 32 w.toNat) = some w
    simp

theorem memberIllegal_of_not_decode {w : W32} (h : ∀ i, decode w ≠ .ok i) : memberIllegal 0 w.toNat = true := by
  rw [memberIllegal, BitVec.ofNat_toNat, BitVec.setWidth_eq]
  cases hd : decode w with
  | ok i => exact absurd hd (h i)
  | error e => simp

/-- A trap of the first word is taken with that word as restart point. -/
theorem step_enters {cause n : Nat} {v : Word} (ha : s.agenda = []) (ht : s.turn = .thread) (hs : s.th.status = .issuing)
    (hn : s.th.asyncReady = false) (hf : s.th.finishPending = false) (hcv : s.th.cv = none) (hv : BitVec.ofNat 64 n = v)
    (hc : cause < 64) (hc1 : cause ≠ 1) (hk : s.canTake (s.taker cause))
    (hd : s.decodeCheck (s.convoyFrom s.th.pc.toNat 4) = some (s.decodeTrap cause 0 n)) :
    ∃ t, step s = .next t ∧ Entered { s with turn := .engine } t (s.taker cause)
      { cause := cause, tval := v, epc := some s.th.pc, fpc := some s.th.pc, fresh := true } := by
  have hx : s.decodeTrap cause 0 n = { cause := cause, tval := v, epc := some s.th.pc, fpc := some s.th.pc, fresh := true } := by
    simp [State.decodeTrap, hv]
  rw [hx] at hd
  let u : State := { s with turn := .engine }
  refine ⟨_, step_of_ends ha ht ((issue_of_fresh (s := u) hs hn hf (.inl hcv)).trans (issueFresh_of_decodeCheck (s := u) hd)), ?_⟩
  have he := takeTrap_eq_enter (s := u) (x := { cause := cause, tval := v, epc := some s.th.pc, fpc := some s.th.pc, fresh := true }) rfl
    (.inl hc1) hk
  rw [he]
  exact entered_enter (s := u) hc

/-! ## The device's turn (assumption 3) -/

theorem firstStep_of_still {l : List Instr} (h : ∀ j ∈ l, exec j s = .next s) : firstStep s l = .next s := by
  induction l with
  | nil => rfl
  | cons i r ih =>
    rw [firstStep, h i List.mem_cons_self]
    simp only [if_true]
    exact ih fun j hj => h j (List.mem_cons_of_mem _ hj)

theorem firstStep_of_only {l : List Instr} {i : Instr} {t : State} (hi : i ∈ l) (ht : exec i s = .next t) (hne : t ≠ s)
    (h : ∀ j ∈ l, j ≠ i → exec j s = .next s) : firstStep s l = .next { t with rot := s.rot + 1 } := by
  induction l with
  | nil => exact absurd hi nofun
  | cons j r ih =>
    by_cases hj : j = i
    · rw [firstStep, hj, ht]
      simp only [if_neg hne]
    · rw [firstStep, h j List.mem_cons_self hj]
      simp only [if_true]
      exact ih ((List.mem_cons.mp hi).resolve_left (Ne.symm hj)) fun k hk => h k (List.mem_cons_of_mem _ hk)

theorem mem_dueSteps {i : Instr} : i ∈ s.dueSteps ↔ i ∈ s.internalSteps := by
  rw [State.dueSteps]
  simp only [List.mem_append]
  rw [or_comm, ← List.mem_append, List.take_append_drop]

theorem step_of_engine (ha : s.agenda = []) (ht : s.turn = .engine) :
    let u := ({ s with turn := .thread } : State).takeNews.flushLinks.pickNext
    step s = firstStep u u.dueSteps := by
  unfold step
  generalize ({ s with turn := .thread } : State).takeNews.flushLinks.pickNext = u
  simp only [ha, ht]
end

/-- Settles O56: each turn by what it comes to, and a new or resumed convoy by the words that it takes. -/
theorem stepRunsDecodedInstruction : Obligations.StepRunsDecodedInstruction := by
  unfold Obligations.StepRunsDecodedInstruction
  intro s
  refine ⟨fun i r h => step_of_agenda h, fun ha ht hb hr => ?_, fun ha ht hb hr hf => ?_, fun ha ht hs hn => ?_, fun ha ht => ?_⟩
  · exact step_of_run_device ha ht (by simp [State.issue, hb, hr]) rfl rfl
  · exact step_of_run_device ha ht (by simp only [State.issue]; simp at hr; simp_all) rfl rfl
  · obtain ⟨hn, hf⟩ := hn
    have runs : ∀ (u : State) (w : W32) (i : Instr), ({ s with turn := .engine } : State).issue = u.runWord w → decode w = .ok i →
        u.cut = s.cut → u.lag = s.lag → u.th.unseen = s.th.unseen → u.th.fills = s.th.fills → RunsIn s u i :=
      fun u w i => runsIn_of_issue ha ht
    refine ⟨fun ws is m e0 hlen hm hl hc h hr w i hw hi => ?_, fun c i hc hr hl hi => ?_, fun c hc hr hl => ?_, fun hc hk hv => ?_,
      fun hc hk hv hj hp => ?_, fun hc hk hv hj hp hi => ?_⟩
    · refine runs _ w i ((issue_of_fresh (s := { s with turn := .engine }) hs hn hf ?_).trans
        (issueFresh_eq (s := { s with turn := .engine }) hw hl hc ?_ hr)) ?_ rfl rfl rfl rfl
      · rcases hc with ⟨hc, _⟩ | ⟨c, hc, hres, _⟩
        · exact .inl hc
        · exact .inr ⟨c, hc, hres⟩
      · intro k v hv
        obtain ⟨j, hj⟩ : ∃ j, is[k]? = some j := ⟨_, List.getElem?_eq_getElem (hlen ▸ (List.getElem?_eq_some_iff.mp hv).1)⟩
        obtain ⟨hcode, hwin, hpriv, hdec, hjoin, hel, hready⟩ := h k v j hv hj
        exact ⟨hcode, hwin, hpriv, hjoin, hel, j, hdec, hready⟩
      · obtain ⟨_, _, _, hdec, _⟩ := h m w i hw hi
        exact hdec
    · exact runs _ _ i (issue_of_member hs hn hf hc hr hl) hi rfl rfl rfl rfl
    · exact step_of_run_device ha ht (issue_of_last hs hn hf hc hr hl) rfl rfl
    · exact step_enters ha ht hs hn hf hc (by simp) (by decide) (by decide) hk (decodeCheck_codewin hv)
    · refine step_enters ha ht hs hn hf hc (BitVec.ofNat_toNat ..) (by decide) (by decide) hk ?_
      rw [convoyFrom_of_not_joined rfl hj]
      exact decodeCheck_priv hv (opUnassigned_of_wordPriv hp) hp
    · refine step_enters ha ht hs hn hf hc (BitVec.ofNat_toNat ..) (by decide) (by decide) hk ?_
      rw [convoyFrom_of_not_joined rfl hj]
      exact decodeCheck_illegal hv (opUnassigned_of_not_decode hi) hp (memberIllegal_of_not_decode hi)
  · intro u
    refine ⟨fun h => ?_, fun i t hi ht' hne h => ?_⟩
    · exact (step_of_engine ha ht).trans (firstStep_of_still fun j hj => h j (mem_dueSteps.mp hj))
    · exact (step_of_engine ha ht).trans (firstStep_of_only (mem_dueSteps.mpr hi) ht' hne fun j hj => h j (mem_dueSteps.mp hj))

end Sys2Proof.Machine

-- ==== Threads, slots, queues and tokens: what a chain's operations keep (O48) ====

namespace Sys2Proof.Machine

/-! ## Threads by number -/

theorem SMap.look_erase_ne {α : Type} (m : SMap α) {k j : Nat} (h : j ≠ k) : (SMap.erase m k).look j = m.look j := by
  induction m with
  | nil => rfl
  | cons x r ih =>
    obtain ⟨i, a⟩ := x
    simp only [SMap.erase]
    split
    · next e => subst e; simp [SMap.look, Ne.symm h]
    · simp only [SMap.look, ih]
theorem SMap.mem_of_look {α : Type} {m : SMap α} {k : Nat} {a : α} (h : m.look k = some a) : (k, a) ∈ m := by
  induction m with
  | nil => cases h
  | cons x r ih =>
    obtain ⟨i, b⟩ := x
    simp only [SMap.look] at h
    split at h
    · next e => subst e; cases h; exact List.mem_cons_self
    · exact List.mem_cons_of_mem _ (ih h)

theorem State.getTh_cur (s : State) : s.getTh s.cur = s.th := if_pos rfl
theorem State.getTh_setTh (s : State) (h k : Nat) (t : Thread) : (s.setTh h t).getTh k = if k = h then t else s.getTh k := by
  unfold State.setTh State.getTh
  by_cases hc : h = s.cur
  · subst hc
    by_cases hk : k = s.cur <;> simp [hk]
  · by_cases hk : k = h
    · subst hk; simp [hc]
    · by_cases hk' : k = s.cur
      · simp [hc, hk', Ne.symm hc]
      · simp [hc, hk, hk', SMap.get_set_ne _ _ _ _ _ hk]

@[simp] theorem State.switchTo_cur (s : State) (h : Nat) : (s.switchTo h).cur = h := by
  unfold State.switchTo; split
  · next e => exact e.symm
  · rfl
theorem State.getTh_switchTo (s : State) (h k : Nat) : (s.switchTo h).getTh k = s.getTh k := by
  unfold State.switchTo
  split
  · rfl
  next hc =>
  by_cases hk : k = h
  · subst hk; simp [State.getTh, hc]
  · by_cases hk' : k = s.cur
    · subst hk'; simp [State.getTh, hk]
    · simp [State.getTh, hk, hk', SMap.get, SMap.look_set_ne _ _ _ _ hk', SMap.look_erase_ne _ hk]
@[simp] theorem State.switchTo_th (s : State) (h : Nat) : (s.switchTo h).th = s.getTh h := by
  rw [← State.getTh_switchTo s h h]
  exact (if_pos (s.switchTo_cur h).symm).symm

theorem State.slotAt_switchTo (s : State) (h : Nat) (ch : Nat × Nat) : (s.switchTo h).slotAt ch = s.slotAt ch := by
  rw [State.slotAt, State.getTh_switchTo]; rfl

/-! ## Memory, queues and accumulators -/

/-- From `s` to `t` no queue, no byte of memory and no accumulator has changed. -/
structure SameStores (s t : State) : Prop where
  queue : ∀ c q, t.queue c q = s.queue c q
  bytes : SameBytes s t
  units : t.units = s.units

theorem SameStores.refl (s : State) : SameStores s s := ⟨fun _ _ => rfl, fun _ => rfl, rfl⟩
theorem SameStores.trans {s t u : State} (h : SameStores s t) (k : SameStores t u) : SameStores s u :=
  ⟨fun c q => (k.queue c q).trans (h.queue c q), fun l => (k.bytes l).trans (h.bytes l), k.units.trans h.units⟩

theorem sameStores_of_eq {s t : State} (hc : t.cores = s.cores) (hu : t.units = s.units) (hd : t.dram = s.dram) (hh : t.host = s.host) :
    SameStores s t := by
  refine ⟨fun c q => by simp [State.queue, State.getCore, hc], fun l => ?_, hu⟩
  cases l <;> simp [State.readLoc, State.alloc, State.getCore, hc, hd, hh]
/-- A change of cores that keeps each one's queues and the bytes of each allocation. -/
theorem sameStores_of_cores {s t : State} (ht : t = { s with cores := t.cores }) (hq : ∀ c, (t.getCore c).queues = (s.getCore c).queues)
    (hm : ∀ c g, (t.alloc c g).mem = (s.alloc c g).mem) : SameStores s t := by
  refine ⟨fun c q => by rw [State.queue, hq]; rfl, fun l => ?_, by rw [ht]⟩
  cases l with
  | tile c g o => simp only [State.readLoc, hm]
  | _ => rw [ht]; rfl

theorem sameStores_setTh (s : State) (h : Nat) (t : Thread) : SameStores s (s.setTh h t) := by
  unfold State.setTh; split <;> exact sameStores_of_eq rfl rfl rfl rfl
theorem sameStores_switchTo (s : State) (h : Nat) : SameStores s (s.switchTo h) := by
  unfold State.switchTo; split <;> exact sameStores_of_eq rfl rfl rfl rfl

theorem sameStores_updCore (s : State) (n : Nat) {f : Core → Core} (hq : ∀ k, (f k).queues = k.queues) (ha : ∀ k, (f k).allocs = k.allocs) :
    SameStores s (s.updCore n f) := by
  refine sameStores_of_cores rfl (fun c => ?_) (fun c g => ?_)
  · rw [State.getCore_updCore]; split
    · next e => rw [hq, e]
    · rfl
  · rw [State.alloc, State.getCore_updCore]; split
    · next e => rw [ha, e]; rfl
    · rfl
theorem sameStores_setAlloc (s : State) (c g : Nat) {a : Alloc} (h : a.mem = (s.alloc c g).mem) : SameStores s (s.setAlloc c g a) := by
  refine sameStores_of_cores rfl (fun d => ?_) (fun d k => ?_)
  · rw [State.setAlloc, State.getCore_updCore]; split
    · next e => rw [e]
    · rfl
  · rw [State.alloc_setAlloc]; split
    · next e => rw [h, e.1, e.2]
    · rfl

theorem State.queue_setQueue (s : State) (c q d p : Nat) (x : Queue) :
    (s.setQueue c q x).queue d p = if d = c ∧ p = q then x else s.queue d p := by
  unfold State.setQueue
  rw [State.queue, State.getCore_updCore]
  by_cases hd : d = c
  · subst hd
    by_cases hp : p = q
    · subst hp; simp
    · simp [hp, SMap.get_set_ne _ _ _ _ _ hp, State.queue]
  · simp [hd, State.queue]
theorem State.alloc_setQueue (s : State) (c q d g : Nat) (x : Queue) : (s.setQueue c q x).alloc d g = s.alloc d g := by
  unfold State.setQueue
  rw [State.alloc, State.getCore_updCore]; split
  · next e => rw [e]; rfl
  · rfl
/-- Entries pushed or popped change no byte. -/
theorem sameBytes_setQueue (s : State) (c q : Nat) (x : Queue) : SameBytes s (s.setQueue c q x) := fun l => by
  cases l with
  | tile d g o => simp only [State.readLoc, State.alloc_setQueue]
  | _ => rfl

/-! ## Slots -/

/-- The slot without what it owes of tokens. -/
def Slot.unowed (x : Slot) : Slot := { x with handed := [] }

theorem State.updSlot_eq {s : State} {ch : Nat × Nat} {x : Slot} (h : s.slotAt ch = some x) (f : Slot → Slot) :
    s.updSlot ch f = s.setTh ch.1 { s.getTh ch.1 with slots := (s.getTh ch.1).slots.set ch.2 (f x) } := by
  unfold State.slotAt at h
  simp only [State.updSlot, h]
theorem State.updSlot_none {s : State} {ch : Nat × Nat} (h : s.slotAt ch = none) (f : Slot → Slot) : s.updSlot ch f = s := by
  unfold State.slotAt at h
  simp only [State.updSlot, h]

theorem State.slotAt_updSlot (s : State) (ch c : Nat × Nat) (f : Slot → Slot) :
    (s.updSlot ch f).slotAt c = if c = ch then (s.slotAt ch).map f else s.slotAt c := by
  cases hx : s.slotAt ch with
  | none =>
    rw [State.updSlot_none hx]; split
    · next e => rw [e, hx]; rfl
    · rfl
  | some x =>
    obtain ⟨c1, c2⟩ := c
    obtain ⟨h1, h2⟩ := ch
    rw [State.updSlot_eq hx, State.slotAt, State.getTh_setTh]
    by_cases e1 : c1 = h1
    · subst e1
      by_cases e2 : c2 = h2
      · subst e2; simp
      · simp [e2, SMap.look_set_ne _ _ _ _ e2, State.slotAt]
    · simp [e1, State.slotAt]
theorem State.getTh_updSlot (s : State) (ch : Nat × Nat) (f : Slot → Slot) (k : Nat) :
    (s.updSlot ch f).getTh k = { s.getTh k with slots := ((s.updSlot ch f).getTh k).slots } := by
  cases hx : s.slotAt ch with
  | none => rw [State.updSlot_none hx]
  | some x =>
    rw [State.updSlot_eq hx, State.getTh_setTh]; split
    · next e => rw [e]
    · rfl
theorem State.updSlot_cur (s : State) (ch : Nat × Nat) (f : Slot → Slot) : (s.updSlot ch f).cur = s.cur := by
  unfold State.updSlot; dsimp only; split
  · exact s.setTh_cur _ _
  · rfl
theorem sameStores_updSlot (s : State) (ch : Nat × Nat) (f : Slot → Slot) : SameStores s (s.updSlot ch f) := by
  unfold State.updSlot; dsimp only; split
  · exact sameStores_setTh _ _ _
  · exact .refl s

/-- From `s` to `t` the current thread is the same one, and the slots are as before but for what they owe of tokens. -/
structure SlotsKept (s t : State) : Prop where
  cur : t.cur = s.cur
  slot : ∀ ch, (t.slotAt ch).map Slot.unowed = (s.slotAt ch).map Slot.unowed

theorem SlotsKept.refl (s : State) : SlotsKept s s := ⟨rfl, fun _ => rfl⟩
theorem SlotsKept.trans {s t u : State} (h : SlotsKept s t) (k : SlotsKept t u) : SlotsKept s u :=
  ⟨k.cur.trans h.cur, fun ch => (k.slot ch).trans (h.slot ch)⟩
/-- A slot that is another one but for what it owes of tokens. -/
theorem slot_of_unowed {o p : Option Slot} {x : Slot} (h : o.map Slot.unowed = p.map Slot.unowed) (hp : p = some x) :
    ∃ l, o = some { x with handed := l } := by
  subst hp
  obtain ⟨y, rfl, e⟩ := Option.map_eq_some_iff.1 h
  refine ⟨y.handed, congrArg some ?_⟩
  calc y = { y.unowed with handed := y.handed } := rfl
    _ = { x with handed := y.handed } := by rw [e]; rfl
/-- A slot that is kept, with its frames, its RUN and its count. -/
theorem SlotsKept.look {s t : State} (h : SlotsKept s t) {ch : Nat × Nat} {x : Slot} (hx : s.slotAt ch = some x) :
    ∃ l, t.slotAt ch = some { x with handed := l } := slot_of_unowed (h.slot ch) hx

theorem ThreadsKept.refl (s : State) : ThreadsKept s s := ⟨rfl, fun _ => rfl⟩
theorem ThreadsKept.trans {s t u : State} (h : ThreadsKept s t) (k : ThreadsKept t u) : ThreadsKept s u :=
  ⟨k.1.trans h.1, fun j => by rw [k.2 j, h.2 j]⟩
theorem threadsKept_updSlot (s : State) (ch : Nat × Nat) (f : Slot → Slot) : ThreadsKept s (s.updSlot ch f) :=
  ⟨s.updSlot_cur ch f, s.getTh_updSlot ch f⟩
/-- What changes neither thread nor which one is current keeps every slot. -/
theorem slotsKept_of_eq {s t : State} (hc : t.cur = s.cur) (ht : t.th = s.th) (ho : t.others = s.others) : SlotsKept s t :=
  ⟨hc, fun ch => by simp only [State.slotAt, State.getTh, hc, ht, ho]⟩
theorem threadsKept_of_eq {s t : State} (hc : t.cur = s.cur) (ht : t.th = s.th) (ho : t.others = s.others) : ThreadsKept s t :=
  ⟨hc, fun k => by simp only [State.getTh, hc, ht, ho]⟩

/-! ## Tokens (02 R68) -/

/-- From `s` to `t` only claimant queues and what slots owe of tokens have changed, as far as threads, queues and memory show. -/
structure TokensMove (s t : State) : Prop where
  slots : SlotsKept s t
  threads : ThreadsKept s t
  stores : SameStores s t

theorem TokensMove.refl (s : State) : TokensMove s s := ⟨.refl s, .refl s, .refl s⟩
theorem TokensMove.trans {s t u : State} (h : TokensMove s t) (k : TokensMove t u) : TokensMove s u :=
  ⟨h.slots.trans k.slots, h.threads.trans k.threads, h.stores.trans k.stores⟩
theorem TokensMove.ite {c : Prop} [Decidable c] {s t u : State} (h : TokensMove s t) (k : TokensMove s u) :
    TokensMove s (if c then t else u) := by
  split
  · exact h
  · exact k
theorem tokensMove_foldl {α : Type} {f : State → α → State} (hf : ∀ s a, TokensMove s (f s a)) (l : List α) (s : State) :
    TokensMove s (l.foldl f s) := by
  induction l generalizing s with
  | nil => exact .refl s
  | cons a r ih => exact (hf s a).trans (ih _)

theorem tokensMove_setClaimants (s : State) (c g b : Nat) (l : List (Nat × Nat)) : TokensMove s (s.setClaimants c g b l) :=
  ⟨slotsKept_of_eq rfl rfl rfl, threadsKept_of_eq rfl rfl rfl, sameStores_setAlloc _ _ _ rfl⟩
theorem tokensMove_setWaiters (s : State) (c g b : Nat) (l : List (Nat × Nat)) : TokensMove s (s.setWaiters c g b l) :=
  ⟨slotsKept_of_eq rfl rfl rfl, threadsKept_of_eq rfl rfl rfl, sameStores_setAlloc _ _ _ rfl⟩
theorem tokensMove_updSlot (s : State) (ch : Nat × Nat) {f : Slot → Slot} (hf : ∀ x, (f x).unowed = x.unowed) :
    TokensMove s (s.updSlot ch f) := by
  refine ⟨⟨s.updSlot_cur ch f, fun c => ?_⟩, threadsKept_updSlot s ch f, sameStores_updSlot s ch f⟩
  rw [State.slotAt_updSlot]
  split
  · next e => rw [e, Option.map_map]; exact congrArg (Option.map · _) (funext hf)
  · rfl
theorem tokensMove_arrive (c g b fuel : Nat) (s : State) : TokensMove s (State.arrive c g b fuel s) := by
  induction fuel generalizing s with
  | zero => exact .refl s
  | succ fuel ih =>
    unfold State.arrive
    split
    · exact .refl s
    · refine .ite (.refl s) (.ite ?_ (.trans (.trans ?_ (tokensMove_setClaimants _ _ _ _ _)) (ih _)))
      all_goals exact tokensMove_updSlot _ _ fun _ => rfl
theorem tokensMove_handOn (s : State) (ch : Nat × Nat) (g : Nat) (b : Nat × Nat) : TokensMove s (s.handOn ch g b) := by
  unfold State.handOn
  split
  · exact .ite ((tokensMove_setClaimants _ _ _ _ _).trans (tokensMove_arrive _ _ _ _ _)) (.refl s)
  · exact .refl s
theorem tokensMove_passOn (s : State) (ch b : Nat × Nat) : TokensMove s (s.passOn ch b) :=
  .ite (tokensMove_handOn _ _ _ _) (.ite (tokensMove_updSlot _ _ fun _ => rfl) (.refl s))
theorem tokensMove_leaveBank (ch : Nat × Nat) (g : Nat) (s : State) (b : Nat × Nat) : TokensMove s (State.leaveBank ch g s b) := by
  unfold State.leaveBank
  extract_lets l w free s1
  have h1 : TokensMove s s1 := (tokensMove_setClaimants _ _ _ _ _).trans (tokensMove_setWaiters _ _ _ _ _)
  exact .ite (h1.trans (tokensMove_arrive _ _ _ _ _)) h1
theorem tokensMove_leaveClaims (s : State) (ch : Nat × Nat) : TokensMove s (s.leaveClaims ch) :=
  tokensMove_foldl (tokensMove_leaveBank ch _) _ _

end Sys2Proof.Machine

-- ==== Chains: a node's move keeps the slots (O48) ====

namespace Sys2Proof.Machine
section
variable {s0 s : State}

/-- The state of a result, where there is one, keeps the slots. -/
def OptKept {α : Type} (s0 : State) (g : α → State) (o : Option α) : Prop := ∀ a ∈ o, SlotsKept s0 (g a)
theorem OptKept.none {α : Type} {g : α → State} : OptKept s0 g none := fun _ h => nomatch h
theorem OptKept.some {α : Type} {g : α → State} {a : α} (h : SlotsKept s0 (g a)) : OptKept s0 g (some a) := fun _ e => Option.some.inj e ▸ h
theorem OptKept.ite {α : Type} {g : α → State} {c : Prop} [Decidable c] {o p : Option α} (ho : OptKept s0 g o) (hp : OptKept s0 g p) :
    OptKept s0 g (if c then o else p) := by
  split
  · exact ho
  · exact hp
theorem OptKept.map {α β : Type} {g : α → State} {k : β → State} {o : Option α} {f : α → β} (ho : OptKept s0 g o)
    (hf : ∀ a, k (f a) = g a) : OptKept s0 k (o.map f) := by
  intro b hb
  obtain ⟨a, ha, rfl⟩ := Option.map_eq_some_iff.1 hb
  exact (hf a).symm ▸ ho a ha

theorem ends_true {α : Type} {ε : Type} (r : Except ε α) : Ends (fun _ => True) (fun _ => True) r := by
  cases r with
  | ok _ => trivial
  | error _ => trivial

variable (hs : SlotsKept s0 s)
include hs

/-! ## The operations under a node's move -/

theorem SlotsKept.of_eq {t : State} (hc : t.cur = s.cur) (ht : t.th = s.th) (ho : t.others = s.others) : SlotsKept s0 t :=
  hs.trans (slotsKept_of_eq hc ht ho)
/-- The current thread's slots are what a slot of it is looked up in. -/
theorem SlotsKept.withTh {th : Thread} (h : th.slots = s.th.slots) : SlotsKept s0 { s with th := th } := by
  refine hs.trans ⟨rfl, fun ch => ?_⟩
  simp only [State.slotAt, State.getTh]
  split
  · rw [h]
  · rfl
theorem SlotsKept.setTh {h : Nat} {t : Thread} (ht : t.slots = (s.getTh h).slots) : SlotsKept s0 (s.setTh h t) := by
  refine hs.trans ⟨s.setTh_cur h t, fun ch => ?_⟩
  simp only [State.slotAt, State.getTh_setTh]
  split
  · next e => rw [ht, e]
  · rfl
theorem SlotsKept.foldl {α : Type} {f : State → α → State} {l : List α} (hf : ∀ t a, SlotsKept s0 t → SlotsKept s0 (f t a)) :
    SlotsKept s0 (l.foldl f s) := by
  induction l generalizing s with
  | nil => exact hs
  | cons x r ih => exact ih (hf _ _ hs)
theorem SlotsKept.ite {c : Prop} [Decidable c] {t : State} (ht : SlotsKept s0 t) : SlotsKept s0 (if c then s else t) := by
  split
  · exact hs
  · exact ht

theorem kept_mark (f m : Nat) : SlotsKept s0 (s.mark f m) := hs.withTh rfl
theorem kept_setQueue (c q : Nat) (x : Queue) : SlotsKept s0 (s.setQueue c q x) := hs.of_eq rfl rfl rfl
theorem kept_qPop (c q n : Nat) : SlotsKept s0 (s.qPop c q n).2 := kept_setQueue hs _ _ _
theorem kept_qPush (c q : Nat) (l : List W32) : SlotsKept s0 (s.qPush c q l) := kept_setQueue hs _ _ _
theorem kept_setAccRow (c rows t i x : Nat) : SlotsKept s0 (s.setAccRow c rows t i x) := hs.of_eq rfl rfl rfl
theorem kept_writeLoc (l : Loc) (n x : Nat) : SlotsKept s0 (s.writeLoc l n x) :=
  hs.of_eq (s.writeLoc_cur l n x) (s.writeLoc_th l n x) (s.writeLoc_others l n x)
theorem kept_noteStore (ch : Nat × Nat) (l : Loc) (n : Nat) : SlotsKept s0 (s.noteStore ch l n) := hs.setTh rfl
theorem kept_passOn (ch b : Nat × Nat) : SlotsKept s0 (s.passOn ch b) := hs.trans (tokensMove_passOn s ch b).slots
theorem kept_touchLink (r : LinkRef) : SlotsKept s0 (s.touchLink r) := by
  unfold State.touchLink
  exact hs.ite (hs.of_eq rfl rfl rfl)
theorem kept_noteReads (l : List Loc) : SlotsKept s0 (s.noteReads l) :=
  hs.foldl fun t _ ht => ht.of_eq (t.note_cur ..) (t.note_th ..) (t.note_others ..)

/-! ## The elements of the nodes -/

theorem kept_stageWord (run : Run) (i : Nat) (e : StageEnv) (o : ElemOp) : SlotsKept s0 (s.stageWord run i e o).1 := by
  unfold State.stageWord
  dsimp only
  split
  · exact hs
  split
  all_goals
    refine kept_mark (hs.withTh ?_) _ _
    rfl
theorem kept_vecElement (cap : Option Nat) (frames : List Frame) (run : Run) (n : Nat) (f : Frame) (i : Nat) :
    Ends (fun _ => True) (OptKept s0 id) (s.vecElement cap frames run n f i) := by
  unfold State.vecElement
  extract_lets w k ins outs
  split
  · exact .ok .none
  split
  · trivial
  split
  · exact .ok .none
  refine .ok (.some (SlotsKept.foldl ?_ fun t b ht => kept_qPush ht _ _ _))
  refine List.foldlRecOn (motive := fun p : State × StageEnv => SlotsKept s0 p.1) _ _ ?_ fun p hp o _ => kept_stageWord hp _ _ _ _
  exact List.foldlRecOn (motive := fun p : State × StageEnv => SlotsKept s0 p.1) _ _ hs fun p hp b _ => kept_qPop hp _ _ _
theorem kept_portElement (ch : Nat × Nat) (cap : Option Nat) (frames : List Frame) (run : Run) (n : Nat) (f : Frame) (i : Nat) :
    Ends (fun _ => True) (OptKept s0 id) (s.portElement ch cap frames run n f i) := by
  unfold State.portElement
  split
  · trivial
  extract_lets sz w k data idx dataOk idxOk arcsOk j x v pops push gone a off kind bank cs
  clear_value data idx
  have hpops : SlotsKept s0 (pops s) := by
    have h1 : SlotsKept s0 (match idx with | some b => (s.qPop f.core b.1 k).2 | none => s) := by
      split
      · exact kept_qPop hs _ _ _
      · exact hs
    unfold pops
    dsimp only
    split
    · exact h1.ite (kept_qPop h1 _ _ _)
    · exact h1
  have hpush : ∀ t, SlotsKept s0 t → ∀ y, SlotsKept s0 (push t y) := by
    intro t ht y
    unfold push
    split
    · exact (kept_qPush ht _ _ _).ite ht
    · exact ht
  have hgone : ∀ t, SlotsKept s0 t → OptKept s0 id (some (gone t)) := fun t ht => .some (ht.foldl fun u b hu => kept_passOn hu _ _)
  refine .ite (.ok .none) <| .ite (.ok (hgone _ (hpush _ hpops v))) <| .ite trivial ?_
  split
  · trivial
  refine .ite trivial <| .ite (.ok .none) <| .ite trivial <| .ok (hgone _ ((hpush _ hpops _).ite ?_))
  exact kept_writeLoc (kept_noteStore hpops _ _ _) _ _ _
theorem kept_genElement (cap : Option Nat) (run : Run) (f : Frame) (i : Nat) :
    Ends (fun _ => True) (OptKept s0 id) (s.genElement cap run f i) := by
  unfold State.genElement
  split
  · exact .ok (.some hs)
  split
  · exact .ok .none
  dsimp only
  split
  · trivial
  split
  · trivial
  · exact .ok (.some (kept_qPush hs _ _ _))
theorem kept_moveEntry (cap : Option Nat) (f : Frame) : OptKept s0 Prod.fst (s.moveEntry cap f) := by
  unfold State.moveEntry
  extract_lets path s1
  have h1 : SlotsKept s0 s1 := hs.foldl fun _ r ht => kept_touchLink ht r
  clear_value s1
  split
  · exact .none
  refine .ite .none <| .ite (.ite .none (.some h1)) (.some ?_)
  have h2 := fun l => kept_qPush (kept_qPop h1 f.core f.inq 1) f.outCore f.outq l
  dsimp only
  split
  · exact kept_qPush (h2 _) _ _ _
  · exact h2 _
theorem kept_collect (core : Nat) (b : Option (Nat × Nat)) (n : Nat) (got : List W32) : SlotsKept s0 (s.collect core b n got).2 := by
  unfold State.collect
  split
  · exact kept_qPop hs _ _ _
  · exact hs
theorem kept_locate0 (w : Tlb) (level : Level) (a n : Nat) (k : AKind) :
    Ends (fun _ => True) (fun p => SlotsKept s0 p.2) (s.locate0 w level a n k) := by
  unfold State.locate0
  split
  · trivial
  split
  · trivial
  split
  · split
    · trivial
    · exact hs.of_eq (s.setTlb_cur ..) (s.setTlb_th ..) (s.setTlb_others ..)
  · trivial
theorem kept_nodeLoc (core : Nat) (level : Level) (a : Nat) :
    Ends (fun _ => True) (fun p => SlotsKept s0 p.2) (s.nodeLoc core level a) := by
  unfold State.nodeLoc
  split
  · cases s.nodeTile core a 8 .read with
    | error e => trivial
    | ok l => exact hs
  · exact kept_locate0 hs _ _ _ _ _
theorem kept_nodeLocs (core : Nat) (level : Level) (l : Pieces) : SlotsKept s0 (s.nodeLocs core level l).1 := by
  induction l generalizing s with
  | nil => exact hs
  | cons p r ih =>
    simp only [State.nodeLocs]
    split
    · next e => exact ih ((kept_nodeLoc hs core level p.2.1).ok_of e)
    · exact ih hs
theorem kept_pastFetch : SlotsKept s0 s.pastFetch := by
  unfold State.pastFetch
  exact hs.ite (hs.of_eq rfl rfl rfl)
theorem kept_stageFetch (run : Run) (f : Frame) (o : MatOp) (a b : BitVec 5) (t : Attachment) (i k : Nat) (pr : Progress) :
    Ends (fun _ => True) (fun p => SlotsKept s0 p.1) (s.stageFetch run f o a b t i k pr) := by
  unfold State.stageFetch
  extract_lets mvl n qa qb addrA addrB rb tb row fA la lb
  have h2 := kept_nodeLocs (kept_nodeLocs hs f.core run.level la) f.core run.level lb
  dsimp only
  split
  · trivial
  · exact kept_pastFetch (kept_noteReads h2 _)
theorem kept_matStep (o : MatOp) (x : MatIn) (k : Nat) : SlotsKept s0 (matStep o x k s) :=
  kept_mark (hs.foldl fun _ _ ht => kept_mark (kept_setAccRow ht _ _ _ _ _) _ _) _ _
theorem kept_stepElement (cap : Option Nat) (run : Run) (f : Frame) (o : MatOp) (a b : BitVec 5) (i : Nat) (pr : Progress) :
    Ends (fun _ => True) (OptKept s0 Prod.fst) (s.stepElement cap run f o a b i pr) := by
  unfold State.stepElement
  extract_lets mvl b0 b1 b2 m0 m1 m2 have_ full idle r0 r1 r2 pr1 s1
  have h1 : SlotsKept s0 s1 := kept_collect (kept_collect (kept_collect hs _ _ _ _) _ _ _ _) _ _ _ _
  refine .ite (.ok .none) <| .ite (.ok (.some h1)) <| Ends.bind (P := fun _ => True) ?_ fun t _ =>
    Ends.bind (P := fun _ => True) ?_ fun _ _ => (kept_stageFetch h1 _ _ _ _ _ _ _ _ _).bind fun q h2 => ?_
  · exact ends_true _
  · exact ends_true _
  have h3 := kept_matStep h2 o q.2.1 pr.steps
  dsimp only
  split
  · trivial
  · exact .ite (.ok (.some h3)) (.ok (.some h3))
theorem kept_mxfElement (cap : Option Nat) (run : Run) (f : Frame) (rd : Bool) (d a : BitVec 5) (t i : Nat) :
    Ends (fun _ => True) (OptKept s0 id) (s.mxfElement cap run f rd d a t i) := by
  unfold State.mxfElement
  split
  · trivial
  dsimp only
  split
  · trivial
  split
  · split
    · exact .ok (.some hs)
    split
    · exact .ok (.some (kept_qPush hs _ _ _))
    · exact .ok .none
  · split
    · exact .ok (.some (kept_setAccRow hs _ _ _ _ _))
    split
    · exact .ok (.some (kept_setAccRow (kept_qPop hs _ _ _) _ _ _ _ _))
    · exact .ok .none
theorem kept_nodeMove (slot : Nat) (cap : Option Nat) (x : Slot) (run : Run) (n : Nat) (f : Frame) :
    Ends (fun _ => True) (OptKept s0 Prod.fst) (s.nodeMove slot cap x run n f) := by
  unfold State.nodeMove
  extract_lets pr i next r
  have hnext : ∀ q, Ends (fun _ => True) (OptKept s0 id) q → Ends (fun _ => True) (OptKept s0 Prod.fst) (next q) :=
    fun q hq => hq.map fun o ho => ho.map fun _ => rfl
  have hr : Ends (fun _ => True) (OptKept s0 Prod.fst) r := by
    refine .ite (.ok ((kept_moveEntry hs _ _).map fun _ => rfl)) <| .ite (.ok .none) <| .ite (hnext _ (kept_genElement hs _ _ _ _)) <|
      .ite (hnext _ (kept_portElement hs _ _ _ _ _ _ _)) <| .ite ?_ (hnext _ (kept_vecElement hs _ _ _ _ _ _))
    split
    · exact kept_stepElement hs _ _ _ _ _ _ _ _
    · exact hnext _ (kept_mxfElement hs _ _ _ _ _ _ _ _)
    · exact hnext _ (kept_mxfElement hs _ _ _ _ _ _ _ _)
    · trivial
  clear_value r
  split
  · exact .ok (.ite .none (.some (hs.of_eq rfl rfl rfl)))
  · exact hr
end
end Sys2Proof.Machine

-- ==== Chains: a step of a node of a streaming RUN (O48) ====

namespace Sys2Proof.Machine

/-! ## Bytes at a location -/

theorem Memory.load_eq_sum (m : Memory) (a n : Nat) : m.load a n = ((List.range n).map fun i => m.load (a + i) 1 * 256 ^ i).sum := by
  induction n generalizing a with
  | zero => rfl
  | succ n ih =>
    have tail : (fun i => m.load (a + (i + 1)) 1 * 256 ^ (i + 1)) = fun i => 256 * (m.load (a + 1 + i) 1 * 256 ^ i) := by
      funext i
      rw [show a + (i + 1) = a + 1 + i by omega, Nat.pow_succ]
      ac_rfl
    rw [List.range_succ_eq_map, List.map_cons, List.map_map, List.sum_cons]
    change (m.read a).toNat + 256 * m.load (a + 1) n = _ + ((List.range n).map fun i => m.load (a + (i + 1)) 1 * 256 ^ (i + 1)).sum
    rw [tail, List.sum_map_mul_left, ih]
    simp
theorem Memory.load_lt (m : Memory) (a n : Nat) : m.load a n < 256 ^ n := by
  induction n generalizing a with
  | zero => exact Nat.one_pos
  | succ n ih =>
    have := ih (a + 1)
    have := (m.read a).isLt
    simp only [Memory.load, Nat.pow_succ]
    omega
theorem State.readLoc_eq_bytesAt (s : State) (l : Loc) (n : Nat) : s.readLoc l n = s.bytesAt l n := by
  cases l <;> exact Memory.load_eq_sum _ _ _
theorem State.readLoc_lt (s : State) (l : Loc) (n : Nat) : s.readLoc l n < 256 ^ n := by
  cases l <;> exact Memory.load_lt _ _ _
/-- As many bytes as one likes read as before where every byte does. -/
theorem SameBytes.readLoc {s t : State} (h : SameBytes s t) (l : Loc) (n : Nat) : t.readLoc l n = s.readLoc l n := by
  rw [State.readLoc_eq_bytesAt, State.readLoc_eq_bytesAt]
  simp only [State.bytesAt, h _]
theorem SameBytes.trans {s t u : State} (h : SameBytes s t) (k : SameBytes t u) : SameBytes s u := fun l => (k l).trans (h l)

/-! ## A streaming RUN -/

/-- Node `n` of the RUN `r` of chain `ch` has moved: step `i` from `s` gives `t`, with no thread changed against `v` but in its slots, and
the node's progress is `p`. -/
def NodeMoves (s : State) (ch : Nat × Nat) (x : Slot) (r : Run) (n : Nat) (v : State) (i : Instr) (p : Progress) (t : State) : Prop :=
  exec i s = .next t ∧ ThreadsKept v t
    ∧ ∃ y q, t.slotAt ch = some y ∧ y.frames = x.frames ∧ y.run = some q ∧ q.progress = r.progress.set n p ∧ q.n = r.n

/-- Every thread of `v` is as in `w` but for its slots. -/
def SlotsDiffer (w v : State) : Prop := ∀ k, v.getTh k = { w.getTh k with slots := (v.getTh k).slots }
theorem SlotsDiffer.trans {u v w : State} (h : SlotsDiffer u v) (k : SlotsDiffer v w) : SlotsDiffer u w := fun j => by rw [k j, h j]
theorem slotsDiffer_of_getTh {u v : State} (h : ∀ k, v.getTh k = u.getTh k) : SlotsDiffer u v := fun k => by rw [h k]

theorem State.streamOf_none {s : State} {h slot : Nat} {x : Slot} {r : Run} (hx : s.slotAt (h, slot) = some x) (hr : x.run = some r)
    (hp : r.phase ≠ .streaming) : s.streamOf h slot = none := by simp [State.streamOf, hx, hr, hp]
theorem State.streamOf_some {s : State} {h slot : Nat} {x : Slot} {r : Run} (hx : s.slotAt (h, slot) = some x) (hr : x.run = some r)
    (hp : r.phase = .streaming) : s.streamOf h slot = some (x, r) := by simp [State.streamOf, hx, hr, hp]

section
variable {s : State} {h slot n : Nat} {x : Slot} {r : Run} {f : Frame} {want : Frame → Bool}

theorem streamNode_of_none (hs : s.streamOf h slot = none) : streamNode want h slot n s = .next s := by
  simp only [streamNode, hs]
theorem streamNode_trap {t : Trap} {v : State} (hs : s.streamOf h slot = some (x, r)) (hf : x.frames[n]? = some f) (hw : want f = true)
    (hm : (s.switchTo h).nodeMove slot (some 64) x r n f = .error (.trap t v)) : streamNode want h slot n s = .next (s.breakChain (h, slot)) := by
  simp only [streamNode, hs, hf, hw, hm, Bool.true_eq_false, if_false]
theorem streamNode_none (hs : s.streamOf h slot = some (x, r)) (hf : x.frames[n]? = some f) (hw : want f = true)
    (hm : (s.switchTo h).nodeMove slot (some 64) x r n f = .ok none) : streamNode want h slot n s = .next s := by
  simp only [streamNode, hs, hf, hw, hm, Bool.true_eq_false, if_false]
theorem streamNode_move {v : State} {p : Progress} (hs : s.streamOf h slot = some (x, r)) (hf : x.frames[n]? = some f) (hw : want f = true)
    (hm : (s.switchTo h).nodeMove slot (some 64) x r n f = .ok (some (v, p))) :
    streamNode want h slot n s
      = .next ((v.updSlot (h, slot) fun y => { y with run := y.run.map fun q => q.put n p }).switchTo s.cur) := by
  simp only [streamNode, hs, hf, hw, hm, Bool.true_eq_false, if_false]

/-- A node that moves, as a step: the state after its move, with the node's progress noted in its slot. -/
theorem nodeMoves_of_nodeMove {v w : State} {p : Progress} {i : Instr} (hs : s.slotAt (h, slot) = some x) (hr : x.run = some r)
    (hp : r.phase = .streaming) (hf : x.frames[n]? = some f) (hw : want f = true) (hi : exec i s = streamNode want h slot n s)
    (hm : (s.switchTo h).nodeMove slot (some 64) x r n f = .ok (some (v, p))) (hc : w.cur = s.cur) (ht : SlotsDiffer w v) :
    ∃ t, NodeMoves s (h, slot) x r n w i p t ∧ SameStores v t := by
  obtain ⟨l, hl⟩ : ∃ l, v.slotAt (h, slot) = some { x with handed := l } :=
    ((kept_nodeMove (.refl _) slot (some 64) x r n f).ok_of hm (v, p) rfl).look ((s.slotAt_switchTo h _).trans hs)
  refine ⟨_, ⟨hi.trans (streamNode_move (State.streamOf_some hs hr hp) hf hw hm), ⟨?_, fun k => ?_⟩,
    { x with handed := l, run := some (r.put n p) }, r.put n p, ?_, rfl, rfl, rfl, rfl⟩, ?_⟩
  · rw [State.switchTo_cur, hc]
  · rw [State.getTh_switchTo, State.getTh_updSlot, ht k]
  · rw [State.slotAt_switchTo, State.slotAt_updSlot, if_pos rfl, hl, Option.map_some, hr]; rfl
  · exact (sameStores_updSlot _ _ _).trans (sameStores_switchTo _ _)
end

/-! ## A node's move by the kind of its frame -/

/-- The move that an element gives: its state with the node's count one higher; an access that waits moves nothing but what it asks. -/
def moveOf (s : State) (pr : Progress) (e : M (Option State)) : M (Option (State × Progress)) :=
  match e.map fun o => o.map fun t => (t, ({ done := pr.done + 1 } : Progress)) with
  | .error (.park _ t) => .ok (if s.asked t = s then none else some (s.asked t, pr))
  | r => r

theorem moveOf_some (s t : State) (pr : Progress) : moveOf s pr (.ok (some t)) = .ok (some (t, { done := pr.done + 1 })) := rfl
theorem moveOf_trap (s v : State) (pr : Progress) (t : Trap) : moveOf s pr (.error (.trap t v)) = .error (.trap t v) := rfl

section
variable {s : State} {slot n : Nat} {cap : Option Nat} {x : Slot} {r : Run} {f : Frame}

theorem Frame.kind_ne_of_isGen (h : f.isGen = true) : f.isSwitch = false := by
  simp only [Frame.isGen, beq_iff_eq] at h; simp [Frame.isSwitch, h]
theorem Frame.of_isPort (h : f.isPort = true) : f.isSwitch = false ∧ f.isGen = false := by
  simp only [Frame.isPort, beq_iff_eq] at h; simp [Frame.isSwitch, Frame.isGen, h]
theorem Frame.of_isMatStage (h : f.isMatStage = true) : f.isSwitch = false ∧ f.isGen = false ∧ f.isPort = false := by
  simp only [Frame.isMatStage, Bool.and_eq_true, beq_iff_eq] at h; simp [Frame.isSwitch, Frame.isGen, Frame.isPort, h.1.1]
theorem Frame.of_isVecStage (h : f.isVecStage = true) :
    f.isSwitch = false ∧ f.isGen = false ∧ f.isPort = false ∧ f.isMatStage = false := by
  simp only [Frame.isVecStage, Bool.and_eq_true, beq_iff_eq, decide_eq_true_eq] at h
  obtain ⟨⟨hk, _⟩, ho⟩ := h
  refine ⟨by simp [Frame.isSwitch, hk], by simp [Frame.isGen, hk], by simp [Frame.isPort, hk], ?_⟩
  simp only [Frame.isMatStage, Bool.and_eq_false_iff, decide_eq_false_iff_not]
  exact .inl (.inr (by omega))

theorem State.nodeMove_gen (hi : (r.at_ n).done < r.n) (hf : f.isGen = true) :
    s.nodeMove slot cap x r n f = moveOf s (r.at_ n) (s.genElement cap r f (r.at_ n).done) := by
  unfold State.nodeMove
  simp only [Frame.kind_ne_of_isGen hf, hf, if_neg (Nat.not_le.2 hi), if_true, Bool.false_eq_true, if_false]
  rfl
theorem State.nodeMove_port {h : Nat} (hc : s.cur = h) (hi : (r.at_ n).done < r.n) (hf : f.isPort = true) :
    s.nodeMove slot cap x r n f = moveOf s (r.at_ n) (s.portElement (h, slot) cap x.frames r n f (r.at_ n).done) := by
  obtain ⟨h3, h4⟩ := Frame.of_isPort hf
  subst hc
  unfold State.nodeMove
  simp only [h3, h4, hf, if_neg (Nat.not_le.2 hi), if_true, Bool.false_eq_true, if_false]
  rfl
theorem State.nodeMove_mrd {d a : BitVec 5} {t : Nat} (hi : (r.at_ n).done < r.n) (hf : f.isMatStage = true) (hm : f.mat = some (.mrd d a t)) :
    s.nodeMove slot cap x r n f = moveOf s (r.at_ n) (s.mxfElement cap r f true d a t (r.at_ n).done) := by
  obtain ⟨h3, h4, h2⟩ := Frame.of_isMatStage hf
  unfold State.nodeMove
  simp only [h2, h3, h4, hf, hm, if_neg (Nat.not_le.2 hi), if_true, Bool.false_eq_true, if_false]
  rfl
theorem State.nodeMove_mwr {d a : BitVec 5} {t : Nat} (hi : (r.at_ n).done < r.n) (hf : f.isMatStage = true) (hm : f.mat = some (.mwr d a t)) :
    s.nodeMove slot cap x r n f = moveOf s (r.at_ n) (s.mxfElement cap r f false d a t (r.at_ n).done) := by
  obtain ⟨h3, h4, h2⟩ := Frame.of_isMatStage hf
  unfold State.nodeMove
  simp only [h2, h3, h4, hf, hm, if_neg (Nat.not_le.2 hi), if_true, Bool.false_eq_true, if_false]
  rfl
theorem State.nodeMove_vec (hi : (r.at_ n).done < r.n) (hf : f.isVecStage = true) :
    s.nodeMove slot cap x r n f = moveOf s (r.at_ n) (s.vecElement cap x.frames r n f (r.at_ n).done) := by
  obtain ⟨h3, h4, h2, h1⟩ := Frame.of_isVecStage hf
  unfold State.nodeMove
  simp only [h1, h2, h3, h4, if_neg (Nat.not_le.2 hi), Bool.false_eq_true, if_false]
  rfl
theorem State.nodeMove_switch (hf : f.isSwitch = true) :
    s.nodeMove slot cap x r n f
      = .ok ((s.moveEntry cap f).map fun t => (t.1, { r.at_ n with moved := (r.at_ n).moved + t.2 })) := by
  unfold State.nodeMove
  simp only [hf, if_true]
end

end Sys2Proof.Machine

-- ==== Chains: generators, vector and matrix stages (O48) ====

namespace Sys2Proof.Machine

/-! ## A thread made the current one -/

section
variable (s : State) (h : Nat)

/-- Making a thread the current one touches nothing but which one is. -/
theorem State.switchTo_eq : s.switchTo h = { s with cur := h, th := s.getTh h, others := (s.switchTo h).others } := by
  unfold State.switchTo State.getTh
  split
  · next e => subst e; simp
  · simp
theorem State.switchTo_links : (s.switchTo h).links = s.links := by rw [State.switchTo_eq]
theorem State.alloc_switchTo (c g : Nat) : (s.switchTo h).alloc c g = s.alloc c g := by rw [State.switchTo_eq]; rfl
theorem State.queue_switchTo (c q : Nat) : (s.switchTo h).queue c q = s.queue c q := by rw [State.switchTo_eq]; rfl
theorem State.accRow_switchTo (c rows t i : Nat) : (s.switchTo h).accRow c rows t i = s.accRow c rows t i := by rw [State.switchTo_eq]; rfl
theorem State.poisonedLoc_switchTo (l : Loc) (n : Nat) : (s.switchTo h).poisonedLoc l n = s.poisonedLoc l n := by
  rw [State.switchTo_eq]; rfl
theorem State.switchTo_shared : (s.switchTo h).migrations = s.migrations ∧ (s.switchTo h).ksl = s.ksl := by
  rw [State.switchTo_eq]; exact ⟨rfl, rfl⟩
theorem State.slotsDiffer_switchTo : SlotsDiffer s (s.switchTo h) := slotsDiffer_of_getTh (s.getTh_switchTo h)
end

/-! ## Entries pushed and popped -/

section
variable (s : State) (c q d p : Nat)

theorem State.entries_qPush (l : List W32) :
    ((s.qPush c q l).queue d p).entries = if d = c ∧ p = q then (s.queue c q).entries ++ l else (s.queue d p).entries := by
  rw [State.qPush, State.queue_setQueue]; split <;> rfl
theorem State.entries_qPop (n : Nat) :
    ((s.qPop c q n).2.queue d p).entries = if d = c ∧ p = q then (s.queue c q).entries.drop n else (s.queue d p).entries := by
  rw [State.qPop, State.queue_setQueue]; split <;> rfl
theorem State.qPop_fst (n : Nat) : (s.qPop c q n).1 = (s.queue c q).entries.take n := rfl
theorem sameBytes_qPush (l : List W32) : SameBytes s (s.qPush c q l) := sameBytes_setQueue s c q _
theorem sameBytes_qPop (n : Nat) : SameBytes s (s.qPop c q n).2 := sameBytes_setQueue s c q _
theorem slotsDiffer_qPush (l : List W32) : SlotsDiffer s (s.qPush c q l) := slotsDiffer_of_getTh fun _ => rfl
theorem slotsDiffer_qPop (n : Nat) : SlotsDiffer s (s.qPop c q n).2 := slotsDiffer_of_getTh fun _ => rfl
theorem State.qRoom_one : s.qRoom (some 64) c q 1 = decide ((s.queue c q).entries.length < 64) := by
  simp only [State.qRoom, Nat.lt_iff_add_one_le]
theorem State.qHas_one : s.qHas c q 1 = decide ((s.queue c q).entries ≠ []) := by
  simp only [State.qHas, ne_eq, decide_eq_decide]
  rw [← List.length_eq_zero_iff]; omega
end

/-- The one entry of a 32-bit element, and the element of one entry. -/
theorem toEntries_32 (x : Nat) : toEntries 32 x = [BitVec.ofNat 32 x] := by
  simp only [toEntries, List.cons.injEq, and_true, reduceIte, Nat.reduceEqDiff]
  exact BitVec.eq_of_toNat_eq (by simp)
theorem ofEntries_singleton (w : Nat) (e : W32) : ofEntries w [e] = e.toNat % 2 ^ w := by simp [ofEntries]
theorem ofEntries_32 (e : W32) : ofEntries 32 [e] = e.toNat := by
  rw [ofEntries_singleton]; exact Nat.mod_eq_of_lt e.isLt

/-! ## Generators (02 R70) -/

section
variable {s : State} {cap : Option Nat} {r : Run} {f : Frame} {i : Nat} {b : Nat × Nat}

theorem genElement_free (hb : f.binding 222 = none) : s.genElement cap r f i = .ok (some s) := by
  simp only [State.genElement, hb]
theorem genElement_push (hb : f.binding 222 = some b) (hq : (s.queue f.core b.1).entries.length < 64)
    (ha : f.genAddr r i % 2 ^ 22 % 2 ^ bits f.word 232 2 = 0) (hh : bits (f.genAddr r i) 22 41 = 0)
    (hs : f.genAddr r i % 2 ^ 22 + 2 ^ bits f.word 232 2 ≤ (s.alloc f.core s.th.group).size) :
    s.genElement (some 64) r f i = .ok (some (s.qPush f.core b.1 [BitVec.ofNat 32 (f.genAddr r i % 2 ^ 22)])) := by
  simp only [State.genElement, hb, State.qRoom_one, hq, decide_true, Bool.true_eq_false, if_false, ha, hh, ne_eq, not_true, false_or,
    Nat.not_lt.2 hs]
theorem genElement_trap (hb : f.binding 222 = some b) (hq : (s.queue f.core b.1).entries.length < 64)
    (ha : f.genAddr r i % 2 ^ 22 % 2 ^ bits f.word 232 2 ≠ 0 ∨ bits (f.genAddr r i) 22 41 ≠ 0
      ∨ (s.alloc f.core s.th.group).size < f.genAddr r i % 2 ^ 22 + 2 ^ bits f.word 232 2) :
    ∃ t v, s.genElement (some 64) r f i = .error (.trap t v) := by
  simp only [State.genElement, hb, State.qRoom_one, hq, decide_true, Bool.true_eq_false, if_false]
  by_cases h0 : f.genAddr r i % 2 ^ 22 % 2 ^ bits f.word 232 2 = 0
  · rw [if_neg (not_not.2 h0), if_pos (ha.resolve_left (not_not.2 h0))]
    exact ⟨_, _, rfl⟩
  · rw [if_pos h0]
    exact ⟨_, _, rfl⟩
end

/-! ## The stage of a VADD (02 R65, 05 R143) -/

theorem State.mark_zero (s : State) : s.mark 0 0 = s := by
  have e : s.th.m.set 0 (s.th.m[0] ||| 0) = s.th.m := by simp
  unfold State.mark
  rw [e, Nat.or_zero]

section
variable {s : State} {frames : List Frame} {r : Run} {n i : Nat} {f : Frame} {d a b : BitVec 5} {c : BitVec 1} {p q : Nat}

/-- The element that a VADD of 32-bit elements computes. -/
def vaddOp (d a b : BitVec 5) : ElemOp :=
  { a := .vec a 32, b := .vec b 32, dst := .vec d 32, k := 0
    f := fun e => { val := (aluAdd (BitVec.ofNat 32 e.a) (BitVec.ofNat 32 e.b)).toNat } }

theorem stageOps_vadd (hn : f.nins = 0) (he : f.ew = 2) (hi : insOf (f.ins 0) = some (.vadd d a b 0 c)) :
    s.stageOps f = some [vaddOp d a b] := by
  simp only [State.stageOps, hn, Nat.zero_add, List.range_one, List.mapM_cons, List.mapM_nil, hi, elemOf, elemVadd, intVV, he]
  rfl
theorem stageWord_vadd {e : StageEnv} {x y : Nat} (hx : e.reg s a.toNat 32 (s.lap i) = x) (hy : e.reg s b.toNat 32 (s.lap i) = y) :
    s.stageWord r i e (vaddOp d a b) = (s, { e with regs := e.regs.set d.toNat ((x + y) % 2 ^ 32) }) := by
  subst hx hy
  have sum (x y : Nat) : (BitVec.ofNat 32 x + BitVec.ofNat 32 y).toNat % 2 ^ 32 = (x + y) % 2 ^ 32 := by simp
  unfold State.stageWord
  simp only [vaddOp, ne_eq, not_true, false_and, if_false, Bool.false_eq_true]
  exact Prod.ext (State.mark_zero s) (congrArg (fun z => { e with regs := e.regs.set d.toNat z }) (sum _ _))

/-- What a stage reads of a register with the entry `x` popped for register `a`. -/
def popped (a : BitVec 5) (x : Nat) : StageEnv := { ins := SMap.set [] a.toNat x }
theorem popped_reg (x : Nat) (k : BitVec 5) (j : Nat) :
    (popped a x).reg s k.toNat 32 j = if k = a then x % 2 ^ 32 else elt (s.vreg k) 32 j := by
  unfold popped StageEnv.reg stageReg
  by_cases h : k = a
  · subst h; simp
  · rw [if_neg h, SMap.look_set_ne _ _ _ _ (fun e => h (BitVec.eq_of_toNat_eq e))]
    simp [SMap.look]
theorem out_of_set (e : StageEnv) (k x j : Nat) : StageEnv.out { e with regs := e.regs.set k x } s k 32 j = x % 2 ^ 32 := by
  simp [StageEnv.out, stageReg]

/-- What an element of a VADD stage leaves: one entry popped, and the sum with the register operand pushed. -/
theorem vecElement_vadd {e : W32} {l : List W32} (hn : f.nins = 0) (he : f.ew = 2) (hi : insOf (f.ins 0) = some (.vadd d a b 0 c))
    (h0 : f.binding 214 = some (q, a.toNat)) (h1 : f.binding 204 = none) (h2 : f.binding 194 = none) (h3 : f.binding 184 = some (p, d.toNat))
    (h4 : f.binding 174 = none) (hq : (s.queue f.core q).entries = e :: l) (hp : (s.queue f.core p).entries.length < 64) :
    s.vecElement (some 64) frames r n f i = .ok (some ((s.qPop f.core q 1).2.qPush f.core p
      [BitVec.ofNat 32 (e.toNat + if b = a then e.toNat else elt (s.vreg b) 32 (s.lap i))])) := by
  have hins : f.ins3.filterMap id = [(q, a.toNat)] := by simp [Frame.ins3, h0, h1, h2]
  have houts : f.outs2.filterMap id = [(p, d.toNat)] := by simp [Frame.outs2, h3, h4]
  have hw : ewBits f.ew = 32 := by rw [he]; rfl
  have hk : entriesOf 32 = 1 := rfl
  have hready : ¬((s.qHas f.core q 1) = false ∨ (s.qRoom (some 64) f.core p 1) = false) := by
    simp [State.qHas_one, State.qRoom_one, hq, hp]
  have hdraws : (vaddOp d a b).draws = false := rfl
  unfold State.vecElement
  simp only [hins, houts, hw, hk, List.all_cons, List.all_nil, Bool.and_true, if_neg hready, stageOps_vadd hn he hi, List.any_cons,
    List.any_nil, Bool.or_false, hdraws, Bool.false_eq_true, false_and, if_false, List.foldl_cons, List.foldl_nil]
  generalize ht : (s.qPop f.core q 1).2 = t
  have hv : t.vreg b = s.vreg b ∧ t.lap i = s.lap i := by subst ht; exact ⟨rfl, rfl⟩
  have hx : ofEntries 32 (s.qPop f.core q 1).1 = e.toNat := by rw [State.qPop_fst, hq]; exact ofEntries_32 e
  have hx' := Nat.mod_eq_of_lt e.isLt
  rw [hx, ← popped, stageWord_vadd (popped_reg _ _ _) (popped_reg _ _ _), out_of_set, if_pos rfl, toEntries_32, hv.1, hv.2, hx', Nat.mod_mod]
  exact congrArg (fun z => Except.ok (some (t.qPush f.core p [z]))) (BitVec.eq_of_toNat_eq (by simp))
end

/-! ## Matrix tile transfers (17 R358) -/

section
variable {s : State} {r : Run} {f : Frame} {d a : BitVec 5} {k i : Nat} {o : Attachment} {b : Nat × Nat}

theorem mxfElement_mrd (ho : s.stageAtt f.core = some o) (hr : r.regN a + i / 64 < o.rows) (hb : f.binding 184 = some b)
    (hq : (s.queue f.core b.1).entries.length < 64) :
    s.mxfElement (some 64) r f true d a k i
      = .ok (some (s.qPush f.core b.1 [BitVec.ofNat 32 (elt (s.accRow f.core o.rows k (r.regN a + i / 64)) 32 (i % 64))])) := by
  simp only [State.mxfElement, ho, if_neg (Nat.not_le.2 hr), hb, State.qRoom_one, hq, decide_true, if_true, toEntries_32]
theorem mxfElement_mwr {e : W32} {l : List W32} (ho : s.stageAtt f.core = some o) (hr : r.regN a + i / 64 < o.rows)
    (hb : f.binding 214 = some b) (hq : (s.queue f.core b.1).entries = e :: l) :
    s.mxfElement (some 64) r f false d a k i
      = .ok (some ((s.qPop f.core b.1 1).2.setAccRow f.core o.rows k (r.regN a + i / 64)
          (setElt (s.accRow f.core o.rows k (r.regN a + i / 64)) 32 (i % 64) e.toNat))) := by
  simp only [State.mxfElement, ho, if_neg (Nat.not_le.2 hr), hb, State.qHas_one, hq, ne_eq, reduceCtorEq, not_false_eq_true, decide_true,
    if_true, Bool.false_eq_true, if_false, State.qPop_fst, List.take_succ_cons, List.take_zero, ofEntries_32]

theorem State.accRow_setAccRow_same (s : State) (c rows t i x : Nat) : (s.setAccRow c rows t i x).accRow c rows t i = x := by
  simp [State.accRow, State.setAccRow, State.unit]
theorem State.queue_setAccRow (s : State) (c rows t i x d q : Nat) : (s.setAccRow c rows t i x).queue d q = s.queue d q := rfl
theorem slotsDiffer_setAccRow (s : State) (c rows t i x : Nat) : SlotsDiffer s (s.setAccRow c rows t i x) := slotsDiffer_of_getTh fun _ => rfl
theorem sameBytes_setAccRow (s : State) (c rows t i x : Nat) : SameBytes s (s.setAccRow c rows t i x) := fun l => by cases l <;> rfl
theorem SameStores.accRow {s t : State} (h : SameStores s t) (c rows k i : Nat) : t.accRow c rows k i = s.accRow c rows k i := by
  simp only [State.accRow, State.unit, h.units]
end

end Sys2Proof.Machine

-- ==== Chains: memory ports (O48) ====

namespace Sys2Proof.Machine

section
variable {s : State} {ch : Nat × Nat} {frames : List Frame} {r : Run} {n i : Nat} {f : Frame} {p : PortIns} {b : Nat × Nat}

/-- The index of a port that is not indexed does not matter. -/
theorem portAddr_index (hp : p.form < 2) (x : Nat) : f.portAddr frames r p i x = f.portAddr frames r p i 0 := by
  unfold Frame.portAddr
  split
  · rfl
  · rcases (by omega : p.form = 0 ∨ p.form = 1) with e | e <;> simp only [e]
/-- An element of at most 32 bits takes one entry. -/
theorem width_ne_64 {z : Nat} (hz : z ≤ 2) : 8 * 2 ^ z ≠ 64 := by
  rcases (by omega : z = 0 ∨ z = 1 ∨ z = 2) with e | e | e <;> rw [e] <;> decide
theorem entriesOf_narrow {z : Nat} (hz : z ≤ 2) : entriesOf (8 * 2 ^ z) = 1 := if_neg (width_ne_64 hz)
theorem toEntries_narrow {z x : Nat} (hz : z ≤ 2) (hx : x < 2 ^ (8 * 2 ^ z)) : toEntries (8 * 2 ^ z) x = [BitVec.ofNat 32 x] := by
  rw [toEntries, if_neg (width_ne_64 hz), Nat.mod_eq_of_lt hx]

theorem nodeTile_tilebnd {c a m : Nat} {k : AKind} (h : bits a 22 41 ≠ 0 ∨ (s.alloc c s.th.group).size < a % 2 ^ 22 + m) :
    s.nodeTile c a m k = .error .tilebnd := if_pos h

/-- What an element of a port that names `b` in `DATA` and nothing else needs: room for the entry that it pushes, or the one that it pops. -/
def PortIns.ready (p : PortIns) (s : State) (c : Nat) (b : Nat × Nat) : Prop :=
  if p.load = true then (s.queue c b.1).entries.length < 64 else (s.queue c b.1).entries ≠ []
/-- The chain hands on the tokens of the banks that it reaches no more. -/
def State.gone (s : State) (ch : Nat × Nat) (core : Nat) (l : List Nat) : State := l.foldl (fun u b => u.passOn ch (core, b)) s
theorem tokensMove_gone (s : State) (ch : Nat × Nat) (core : Nat) (l : List Nat) : TokensMove s (s.gone ch core l) :=
  tokensMove_foldl (fun t _ => tokensMove_passOn t ch _) l s

theorem ready_switchTo {h : Nat} (hr : p.ready s f.core b) : p.ready (s.switchTo h) f.core b := by
  unfold PortIns.ready at *
  rwa [State.queue_switchTo]
theorem dataOk_of_ready (hr : p.ready s f.core b) : (if p.load then s.qRoom (some 64) f.core b.1 1 else s.qHas f.core b.1 1) = true := by
  unfold PortIns.ready at hr
  split
  · next e => rw [if_pos e] at hr; simpa [State.qRoom_one] using hr
  · next e => rw [if_neg e] at hr; simpa [State.qHas_one] using hr

variable (hp : f.port = some p) (hk : p.k = 0) (hform : p.form < 2) (hsz : p.size ≤ 2) (hix : f.binding 210 = none)
  (hdata : f.binding 220 = some b) (harcs : f.arcs = []) (hready : p.ready s f.core b)
include hp hk hform hsz hix hdata harcs hready

theorem portElement_trap (h : f.portAddr frames r p i 0 % 2 ^ 22 % f.checkSize frames p ≠ 0 ∨ bits (f.portAddr frames r p i 0) 22 41 ≠ 0
      ∨ (s.alloc f.core s.th.group).size < f.portAddr frames r p i 0 % 2 ^ 22 + f.checkSize frames p) :
    ∃ t v, s.portElement ch (some 64) frames r n f i = .error (.trap t v) := by
  have hact : s.portActive p i = true := by simp [State.portActive, hk]
  unfold State.portElement
  simp only [hp, hix, hdata, harcs, entriesOf_narrow hsz, dataOk_of_ready hready, List.all_nil, Bool.and_true, Bool.true_eq_false, if_false, hact,
    portAddr_index hform]
  by_cases h0 : f.portAddr frames r p i 0 % 2 ^ 22 % f.checkSize frames p = 0
  · rw [if_neg (not_not.2 h0), nodeTile_tilebnd (h.resolve_left (not_not.2 h0))]
    exact ⟨_, _, rfl⟩
  · rw [if_pos h0]
    exact ⟨_, _, rfl⟩

section
variable {l : Loc}
  (halign : f.portAddr frames r p i 0 % 2 ^ 22 % f.checkSize frames p = 0)
  (hreg : f.portAddr frames r p i 0 % 2 ^ 22 / 2 ^ 19 = bits f.word 237 3)
  (htok : bitOf f.tokb (f.portAddr frames r p i 0 % 2 ^ 22 / 65536) = true)
  (hbank : (f.portAddr frames r p i 0 % 2 ^ 22 + 2 ^ p.size - 1) / 65536 = f.portAddr frames r p i 0 % 2 ^ 22 / 65536)
  (hhead : (s.claimants f.core s.th.group (f.portAddr frames r p i 0 % 2 ^ 22 / 65536)).head? = some ch)
include halign hreg htok hbank hhead

theorem portElement_load (hl : p.load = true) (htile : s.nodeTile f.core (f.portAddr frames r p i 0) (f.checkSize frames p) .read = .ok l)
    (hpoison : s.poisonedLoc l (2 ^ p.size) = false) :
    s.portElement ch (some 64) frames r n f i
      = .ok (some ((s.qPush f.core b.1 [BitVec.ofNat 32 (s.bytesAt l (2 ^ p.size))]).gone ch f.core (s.lastOf frames r n f p i))) := by
  have hact : s.portActive p i = true := by simp [State.portActive, hk]
  have hval : s.readLoc l (2 ^ p.size) < 2 ^ (8 * 2 ^ p.size) := by
    rw [Nat.pow_mul]; exact s.readLoc_lt l _
  have hdat := dataOk_of_ready hready
  rw [hl] at hdat
  unfold State.portElement
  simp only [hp, hix, hdata, harcs, entriesOf_narrow hsz, hl, if_true] at hdat ⊢
  simp only [hdat, List.all_nil, Bool.and_true, Bool.true_eq_false, if_false, hact, portAddr_index hform, halign, hreg, htok, hbank, hhead,
    htile, hpoison, ne_eq, not_true, or_self, and_false, Bool.false_eq_true, toEntries_narrow hsz hval, ← State.readLoc_eq_bytesAt]
  rfl
theorem portElement_store {e : W32} {m : List W32} (hl : p.load = false)
    (htile : s.nodeTile f.core (f.portAddr frames r p i 0) (f.checkSize frames p) .write = .ok l)
    (hq : (s.queue f.core b.1).entries = e :: m) :
    s.portElement ch (some 64) frames r n f i
      = .ok (some ((((s.qPop f.core b.1 1).2.noteStore ch l (2 ^ p.size)).writeLoc l (2 ^ p.size) (e.toNat % 2 ^ (8 * 2 ^ p.size))).gone
          ch f.core (s.lastOf frames r n f p i))) := by
  have hact : s.portActive p i = true := by simp [State.portActive, hk]
  have hdat := dataOk_of_ready hready
  rw [hl] at hdat
  unfold State.portElement
  simp only [hp, hix, hdata, harcs, entriesOf_narrow hsz, hl, Bool.false_eq_true, if_false] at hdat ⊢
  simp only [hdat, List.all_nil, Bool.and_true, Bool.true_eq_false, if_false, hact, portAddr_index hform, halign, hreg, htok, hbank, hhead,
    htile, ne_eq, not_true, or_self, false_and, State.qPop_fst, hq, List.take_succ_cons, List.take_zero, ofEntries_singleton]
  rfl
end
end

/-! ## What a store of a port leaves -/

theorem State.forkOf_of_eq {s t : State} (h : t.migrations = s.migrations) (l : Loc) : t.forkOf l = s.forkOf l := by
  simp only [State.forkOf, h]
/-- A store after a change that touches no byte, the link or a migration. -/
theorem Stored.of_same {s s1 t t1 : State} {l : Loc} {n x y : Nat} (h : Stored s1 t1 l n x) (hb : SameBytes s s1) (hm : s1.migrations = s.migrations)
    (hk : s1.ksl = s.ksl) (ht : SameBytes t1 t) (hx : ∀ i < n, x / 256 ^ i % 256 = y / 256 ^ i % 256) : Stored s t l n y := by
  obtain ⟨h1, h2⟩ := h
  simp only [State.dropped, hk, State.forkOf_of_eq hm] at h1 h2
  exact ⟨fun a b i hi => by rw [ht, h1 a b i hi, hx i hi], fun m a b => by rw [ht, h2 m a b, hb]⟩
theorem State.queue_setAlloc (s : State) (c g d q : Nat) (a : Alloc) : (s.setAlloc c g a).queue d q = s.queue d q := by
  rw [State.setAlloc, State.queue, State.getCore_updCore]; split
  · next e => rw [e]; rfl
  · rfl
theorem State.queue_put (s : State) (l : Loc) (n x c q : Nat) : (s.put l n x).queue c q = s.queue c q := by
  unfold State.put
  split
  · rfl
  · split
    · rfl
    · split <;> rfl
  · exact State.queue_setAlloc ..
theorem State.queue_storeLoc (s : State) (l : Loc) (n x c q : Nat) : (s.storeLoc l n x).queue c q = s.queue c q := by
  have put (s : State) (l : Loc) : (s.putBreak l n x).queue c q = s.queue c q := s.queue_put l n x c q
  unfold State.storeLoc
  dsimp only
  split
  · rw [put, put]
  · rw [put]
/-- A store changes no queue. -/
theorem State.queue_writeLoc (s : State) (l : Loc) (n x c q : Nat) : (s.writeLoc l n x).queue c q = s.queue c q := by
  rw [← s.queue_storeLoc l n x]
  simp only [State.queue, State.getCore, State.writeLoc, State.keepOld_cores, State.note_cores]
/-- A store changes no thread. -/
theorem slotsDiffer_writeLoc (s : State) (l : Loc) (n x : Nat) : SlotsDiffer s (s.writeLoc l n x) :=
  slotsDiffer_of_getTh fun k => by simp only [State.getTh, State.writeLoc_cur, State.writeLoc_th, State.writeLoc_others]

/-- A store noted, in a state whose threads and bytes are those of another. -/
theorem State.getTh_noteStore (s : State) (ch : Nat × Nat) (l : Loc) (n k : Nat) : (s.noteStore ch l n).getTh k
    = if k = ch.1 then { s.getTh ch.1 with unseen := (ch.2, l, n, s.readLoc l n) :: (s.getTh ch.1).unseen } else s.getTh k := by
  rw [State.noteStore, State.getTh_setTh]
theorem slotsDiffer_noteStore {s z : State} (h : SlotsDiffer s z) (hb : SameBytes s z) (ch : Nat × Nat) (l : Loc) (n : Nat) :
    SlotsDiffer (s.noteStore ch l n) (z.noteStore ch l n) := fun k => by
  rw [State.getTh_noteStore, State.getTh_noteStore, hb.readLoc, h]
  split
  · rfl
  · exact h k
theorem sameStores_noteStore (s : State) (ch : Nat × Nat) (l : Loc) (n : Nat) : SameStores s (s.noteStore ch l n) := sameStores_setTh s _ _
theorem SameBytes.bytesAt {s t : State} (h : SameBytes s t) (l : Loc) (n : Nat) : t.bytesAt l n = s.bytesAt l n := by
  simp only [State.bytesAt, h _]
theorem noteStore_shared (s : State) (ch : Nat × Nat) (l : Loc) (n : Nat) :
    (s.noteStore ch l n).migrations = s.migrations ∧ (s.noteStore ch l n).ksl = s.ksl :=
  ⟨State.setTh_migrations _ _ _, State.setTh_ksl _ _ _⟩

/-- The bytes of the low bits of a number. -/
theorem byte_of_mod (x n : Nat) {i : Nat} (hi : i < n) : x % 2 ^ (8 * n) / 256 ^ i % 256 = x / 256 ^ i % 256 := by
  obtain ⟨k, rfl⟩ : ∃ k, n = i + (k + 1) := ⟨n - i - 1, by omega⟩
  rw [Nat.pow_mul, Nat.pow_add, show 2 ^ 8 = 256 from rfl, Nat.mod_mul_right_div_self, Nat.pow_succ',  Nat.mod_mul_right_mod]

end Sys2Proof.Machine

-- ==== Chains: switches, completion and drain (O48) ====

namespace Sys2Proof.Machine

/-! ## Switches (17 R355, 20 R426) -/

section
variable {s : State} {f : Frame}

theorem linkSt_of_links {s t : State} (h : t.links = s.links) (k : LinkRef) : t.linkSt k = s.linkSt k := by simp only [State.linkSt, h]
theorem touchLink_full {k : LinkRef} (h : (s.linkSt k).power = .full) : s.touchLink k = s := by
  unfold State.touchLink
  exact if_pos (.inl h)
theorem linkSt_setLinkSt_ne {k j : LinkRef} (x : LinkState) (h : j ≠ k) : (s.setLinkSt k x).linkSt j = s.linkSt j := by
  have hp : (fun y : LinkRef × LinkState => y.1 != k && y.1 == j) = fun y => y.1 == j := by
    funext y
    by_cases e : y.1 = j
    · simp [e, h]
    · simp [e]
  have hk : (k == j) = false := by simpa using Ne.symm h
  simp only [State.setLinkSt, State.linkSt, List.find?_append, List.find?_filter, Bool.decide_and, Bool.decide_eq_true, hp,
    List.find?_cons, hk, List.find?_nil, Option.or_none]
/-- A link that wakes goes on waking, whatever traffic there is. -/
theorem waking_touchLink {j : LinkRef} (h : (s.linkSt j).waking = true) (k : LinkRef) : ((s.touchLink k).linkSt j).waking = true := by
  unfold State.touchLink
  dsimp only
  split
  · exact h
  next hn =>
    rw [linkSt_setLinkSt_ne]
    · exact h
    · rintro rfl
      exact hn (.inr (.inl h))
theorem waking_touchLinks {j : LinkRef} (path : List LinkRef) (h : (s.linkSt j).waking = true) :
    ((path.foldl State.touchLink s).linkSt j).waking = true := by
  induction path generalizing s with
  | nil => exact h
  | cons k r ih => exact ih (waking_touchLink h k)
theorem touchLinks_full {path : List LinkRef} (h : ∀ k ∈ path, (s.linkSt k).power = .full) : path.foldl State.touchLink s = s := by
  induction path with
  | nil => rfl
  | cons k r ih =>
    rw [List.foldl_cons, touchLink_full (h k List.mem_cons_self)]
    exact ih fun j hj => h j (List.mem_cons_of_mem _ hj)
theorem links_open {path : List LinkRef} (h : ∀ k ∈ path, (s.linkSt k).power = .full ∧ (s.linkSt k).waking = false) :
    path.any s.linkHolds = false := by
  rw [List.any_eq_false]
  intro k hk
  obtain ⟨hp, hw⟩ := h k hk
  simp [State.linkHolds, hp, hw]
/-- Traffic changes links, and nothing else. -/
theorem touchLinks_eq (path : List LinkRef) (s : State) :
    path.foldl State.touchLink s = { s with links := (path.foldl State.touchLink s).links } := by
  induction path generalizing s with
  | nil => rfl
  | cons k r ih =>
    have hk : s.touchLink k = { s with links := (s.touchLink k).links } := by
      unfold State.touchLink; dsimp only; split <;> rfl
    rw [List.foldl_cons, ih, hk]

/-- The links that an entry of a switch crosses to its output core. -/
def Frame.path (f : Frame) (s : State) : List LinkRef := if bits f.word 236 4 = 0 then [] else s.pathLinks f.core (bits f.word 236 4) 1

/-- A switch's oldest entry taken from its input queue and put into its output queue. -/
def State.passEntry (s : State) (f : Frame) (e : W32) : State := ((s.qPop f.core f.inq 1).2).qPush f.outCore f.outq [e]
theorem entries_passEntry {e : W32} {l : List W32} (hq : (s.queue f.core f.inq).entries = e :: l)
    (hne : (f.core, f.inq) ≠ (f.outCore, f.outq)) :
    ((s.passEntry f e).queue f.core f.inq).entries = l
      ∧ ((s.passEntry f e).queue f.outCore f.outq).entries = (s.queue f.outCore f.outq).entries ++ [e]
      ∧ ∀ c q, (c, q) ≠ (f.core, f.inq) → (c, q) ≠ (f.outCore, f.outq) →
        ((s.passEntry f e).queue c q).entries = (s.queue c q).entries := by
  unfold State.passEntry
  refine ⟨?_, ?_, fun c q hi ho => ?_⟩
  · rw [State.entries_qPush, if_neg (fun e => hne (Prod.ext e.1 e.2)), State.entries_qPop, if_pos ⟨rfl, rfl⟩, hq]
    rfl
  · rw [State.entries_qPush, if_pos ⟨rfl, rfl⟩, State.entries_qPop, if_neg (fun e => hne (Prod.ext e.1.symm e.2.symm))]
  · rw [State.entries_qPush, if_neg (fun e => ho (Prod.ext e.1 e.2)), State.entries_qPop, if_neg (fun e => hi (Prod.ext e.1 e.2))]
theorem sameBytes_passEntry (e : W32) : SameBytes s (s.passEntry f e) := (sameBytes_qPop _ _ _ _).trans (sameBytes_qPush _ _ _ _)
theorem slotsDiffer_passEntry (e : W32) : SlotsDiffer s (s.passEntry f e) := (slotsDiffer_qPop _ _ _ _).trans (slotsDiffer_qPush _ _ _ _)

section
variable {e : W32} {l : List W32} (hq : (s.queue f.core f.inq).entries = e :: l) (hroom : (s.queue f.outCore f.outq).entries.length < 64)
  (hopen : ∀ k ∈ f.path s, (s.linkSt k).power = .full ∧ (s.linkSt k).waking = false)
include hopen

/-- Links that are full and awake stay as they are, and hold nothing back. -/
theorem path_open : (if bits f.word 236 4 = 0 then [] else s.pathLinks f.core (bits f.word 236 4) 1).foldl State.touchLink s = s
    ∧ (if bits f.word 236 4 = 0 then [] else s.pathLinks f.core (bits f.word 236 4) 1).any s.linkHolds = false :=
  ⟨touchLinks_full fun k hk => (hopen k hk).1, links_open hopen⟩
include hq hroom

theorem moveEntry_open (hc : f.cpq = none) : s.moveEntry (some 64) f = some (s.passEntry f e, 1) := by
  obtain ⟨hfull, hheld⟩ := path_open hopen
  simp only [State.moveEntry, hq, hc, State.qRoom_one, hroom, decide_true, Bool.true_eq_false, Bool.false_eq_true, or_self, if_false, hfull, hheld]
  rfl
theorem moveEntry_copy {c : Nat} (hc : f.cpq = some c) (hcopy : (s.queue f.core c).entries.length < 64) :
    s.moveEntry (some 64) f = some ((s.passEntry f e).qPush f.core c [e], 1) := by
  obtain ⟨hfull, hheld⟩ := path_open hopen
  simp only [State.moveEntry, hq, hc, State.qRoom_one, hroom, hcopy, decide_true, Bool.not_true, Bool.true_eq_false, Bool.false_eq_true, or_self,
    if_false, hfull, hheld]
  rfl
end
/-- With a link that wakes nothing moves. -/
theorem moveEntry_waking (hw : ∃ k ∈ f.path s, (s.linkSt k).waking = true) (cap : Option Nat) :
    s.moveEntry cap f = none ∨ s.moveEntry cap f = some ((f.path s).foldl State.touchLink s, 0) := by
  obtain ⟨k, hk, hw⟩ := hw
  have hheld : (f.path s).any ((f.path s).foldl State.touchLink s).linkHolds = true := by
    rw [List.any_eq_true]
    exact ⟨k, hk, by simp [State.linkHolds, waking_touchLinks _ hw]⟩
  unfold State.moveEntry
  dsimp only
  rw [← Frame.path]
  split
  · exact .inl rfl
  refine iteInduction (motive := fun o => o = none ∨ o = some _) (fun _ => .inl rfl) fun _ => ?_
  rw [if_pos hheld]
  exact iteInduction (motive := fun o => o = none ∨ o = some _) (fun _ => .inl rfl) fun _ => .inr rfl
end

/-! ## The completion of a RUN (17 R356) -/

/-- A step that another thread's work takes part in ends with the current thread again. -/
theorem SlotsDiffer.back {s v : State} (h : SlotsDiffer s v) : ThreadsKept s (v.switchTo s.cur) :=
  ⟨State.switchTo_cur _ _, fun k => by rw [State.getTh_switchTo, h k]⟩

/-- The state of the tokens apart, a completed RUN leaves its slot without one, with its count. -/
theorem completeRun_tokens (s : State) (slot : Nat) (x : Slot) (r : Run) :
    TokensMove (s.updSlot (s.cur, slot) fun y => { y with run := none, lastN := r.n }) (s.completeRun slot x r) :=
  tokensMove_foldl (fun t b => tokensMove_passOn t _ b) _ _
section
variable {s : State} {slot : Nat} {x : Slot} (hx : s.slotAt (s.cur, slot) = some x) (r : Run)
include hx

theorem slotAt_completeRun : ∃ l, (s.completeRun slot x r).slotAt (s.cur, slot) = some { x with run := none, lastN := r.n, handed := l } :=
  (completeRun_tokens s slot x r).slots.look (by rw [State.slotAt_updSlot, if_pos rfl, hx]; rfl)
omit hx in
theorem slotAt_completeRun_ne {k : Nat} {z : Slot} (hk : k ≠ slot) (hz : s.slotAt (s.cur, k) = some z) :
    ∃ l, (s.completeRun slot x r).slotAt (s.cur, k) = some { z with handed := l } := by
  refine (completeRun_tokens s slot x r).slots.look ?_
  rw [State.slotAt_updSlot, if_neg (fun e => hk (Prod.mk.inj e).2), hz]
end
theorem completeRun_cur (s : State) (slot : Nat) (x : Slot) (r : Run) : (s.completeRun slot x r).cur = s.cur :=
  (completeRun_tokens s slot x r).slots.cur.trans (s.updSlot_cur _ _)
theorem slotsDiffer_completeRun (s : State) (slot : Nat) (x : Slot) (r : Run) : SlotsDiffer s (s.completeRun slot x r) :=
  .trans (threadsKept_updSlot s _ _).2 (completeRun_tokens s slot x r).threads.2
theorem sameStores_completeRun (s : State) (slot : Nat) (x : Slot) (r : Run) : SameStores s (s.completeRun slot x r) :=
  (sameStores_updSlot s _ _).trans (completeRun_tokens s slot x r).stores

/-! ## The drain of a broken chain (19 R399) -/

/-- From `s` to `t` only entries of queues have changed, as far as threads and memory show. -/
structure OnlyQueues (s t : State) : Prop where
  cur : t.cur = s.cur
  getTh : ∀ k, t.getTh k = s.getTh k
  bytes : SameBytes s t
theorem OnlyQueues.refl (s : State) : OnlyQueues s s := ⟨rfl, fun _ => rfl, fun _ => rfl⟩
theorem OnlyQueues.trans {s t u : State} (h : OnlyQueues s t) (k : OnlyQueues t u) : OnlyQueues s u :=
  ⟨k.cur.trans h.cur, fun j => (k.getTh j).trans (h.getTh j), h.bytes.trans k.bytes⟩

section
variable (s : State) (c : Nat) (b : Option (Nat × Nat)) (l : List W32)

theorem onlyQueues_unpop : OnlyQueues s (s.unpop c b l) := by
  unfold State.unpop
  split
  · exact ⟨rfl, fun _ => rfl, sameBytes_setQueue s _ _ _⟩
  · exact .refl s
theorem unpop_none : s.unpop c none l = s := rfl
theorem queue_unpop_nil (d q : Nat) : (s.unpop c b []).queue d q = s.queue d q := by
  unfold State.unpop
  split
  · rw [State.queue_setQueue]; split
    · next e => rw [e.1, e.2]; rfl
    · rfl
  · rfl
theorem entries_unpop (p : Nat × Nat) : ((s.unpop c (some p) l).queue c p.1).entries = l ++ (s.queue c p.1).entries := by
  simp [State.unpop, State.queue_setQueue]
end

/-- The entries of one matrix element in progress put back. -/
def State.returnOf (r : Run) (t : State) (g : Frame × Nat) : State :=
  if g.1.isMatStage then
    ((t.unpop g.1.core (g.1.binding 214) (r.at_ g.2).in0).unpop g.1.core (g.1.binding 204) (r.at_ g.2).in1).unpop g.1.core (g.1.binding 194)
      (r.at_ g.2).in2
  else t
theorem returnEntries_eq (s : State) (x : Slot) (r : Run) : s.returnEntries x r = x.frames.zipIdx.foldl (State.returnOf r) s := rfl
theorem onlyQueues_returnOf (r : Run) (t : State) (g : Frame × Nat) : OnlyQueues t (State.returnOf r t g) := by
  unfold State.returnOf
  split
  · exact ((onlyQueues_unpop _ _ _ _).trans (onlyQueues_unpop _ _ _ _)).trans (onlyQueues_unpop _ _ _ _)
  · exact .refl t
theorem onlyQueues_returnEntries (s : State) (x : Slot) (r : Run) : OnlyQueues s (s.returnEntries x r) := by
  rw [returnEntries_eq]
  generalize x.frames.zipIdx = l
  induction l generalizing s with
  | nil => exact .refl s
  | cons g l ih => exact (onlyQueues_returnOf r s g).trans (ih _)
/-- With no element in progress no entry returns. -/
theorem queue_returnEntries_of_none (s : State) (x : Slot) {r : Run} (h : ∀ p ∈ r.progress, p.in0 = [] ∧ p.in1 = [] ∧ p.in2 = [])
    (c q : Nat) : (s.returnEntries x r).queue c q = s.queue c q := by
  have hat (n : Nat) : (r.at_ n).in0 = [] ∧ (r.at_ n).in1 = [] ∧ (r.at_ n).in2 = [] := by
    unfold Run.at_
    cases e : r.progress[n]? with
    | none => exact ⟨rfl, rfl, rfl⟩
    | some p => exact h p (List.mem_of_getElem? e)
  have step (t : State) (g : Frame × Nat) : (State.returnOf r t g).queue c q = t.queue c q := by
    obtain ⟨h0, h1, h2⟩ := hat g.2
    unfold State.returnOf
    split
    · rw [h0, h1, h2, queue_unpop_nil, queue_unpop_nil, queue_unpop_nil]
    · rfl
  rw [returnEntries_eq]
  generalize x.frames.zipIdx = l
  induction l generalizing s with
  | nil => rfl
  | cons g l ih => rw [List.foldl_cons, ih, step]
theorem entries_returnEntries {s : State} {x : Slot} {r : Run} {f : Frame} {b : Nat × Nat} (hf : x.frames = [f]) (hm : f.isMatStage = true)
    (h0 : f.binding 214 = some b) (h1 : f.binding 204 = none) (h2 : f.binding 194 = none) :
    ((s.returnEntries x r).queue f.core b.1).entries = (r.at_ 0).in0 ++ (s.queue f.core b.1).entries := by
  rw [returnEntries_eq, hf, List.zipIdx_singleton, List.foldl_cons, List.foldl_nil, State.returnOf, if_pos hm, h0, h1, h2, unpop_none, unpop_none,
    entries_unpop]

/-- The RUN as its drain leaves it. -/
def Run.drained (r : Run) (x : Slot) : Run :=
  { r with phase := .drained, spatial := some (leastDone x.frames r), progress := r.progress.map fun p => { done := p.done, steps := p.steps } }
/-- From `s` to `t` the RUN `r` of the slot `ch` has drained. -/
structure Drained (s : State) (ch : Nat × Nat) (x : Slot) (r : Run) (t : State) : Prop where
  threads : SlotsDiffer s t
  bytes : SameBytes s t
  slot : ∃ y, t.slotAt ch = some y ∧ y.run = some (r.drained x)
  queues : (∀ p ∈ r.progress, p.in0 = [] ∧ p.in1 = [] ∧ p.in2 = []) → ∀ c q, t.queue c q = s.queue c q
  front : ∀ f b, x.frames = [f] → f.isMatStage = true → f.binding 214 = some b → f.binding 204 = none → f.binding 194 = none →
    (t.queue f.core b.1).entries = (r.at_ 0).in0 ++ (s.queue f.core b.1).entries

theorem drained_drain {s : State} {ch : Nat × Nat} {x : Slot} {r : Run} (hx : s.slotAt ch = some x) (hr : x.run = some r)
    (hp : r.phase ≠ .streaming) : Drained s ch x r (s.drain ch) ∧ (s.drain ch).cur = s.cur := by
  have hd : s.drain ch = (s.returnEntries x r).updSlot ch fun y => { y with run := some (r.drained x) } := by
    simp only [State.drain, hx, hr, hp, if_false]
    rfl
  have hq := onlyQueues_returnEntries s x r
  have hs := fun f => sameStores_updSlot (s.returnEntries x r) ch f
  rw [hd]
  refine ⟨⟨.trans (slotsDiffer_of_getTh hq.getTh) (threadsKept_updSlot _ _ _).2, hq.bytes.trans (hs _).bytes, ?_, fun h c q => ?_,
    fun f b hf hm h0 h1 h2 => ?_⟩, (State.updSlot_cur _ _ _).trans hq.cur⟩
  · have hx' : (s.returnEntries x r).slotAt ch = some x := by rw [← hx, State.slotAt, State.slotAt, hq.getTh]
    exact ⟨_, by rw [State.slotAt_updSlot, if_pos rfl, hx']; rfl, rfl⟩
  · rw [(hs _).queue, queue_returnEntries_of_none s x h]
  · rw [(hs _).queue, entries_returnEntries hf hm h0 h1 h2]
/-- A drain on behalf of a thread. -/
theorem Drained.switch {s t : State} {h : Nat} {ch : Nat × Nat} {x : Slot} {r : Run} (hd : Drained (s.switchTo h) ch x r t) (k : Nat) :
    Drained s ch x r (t.switchTo k) where
  threads := ((s.slotsDiffer_switchTo h).trans hd.threads).trans (t.slotsDiffer_switchTo k)
  bytes := ((sameStores_switchTo s h).bytes.trans hd.bytes).trans (sameStores_switchTo t k).bytes
  slot := by
    obtain ⟨y, hy⟩ := hd.slot
    exact ⟨y, by rw [State.slotAt_switchTo]; exact hy⟩
  queues e c q := by rw [State.queue_switchTo, hd.queues e, State.queue_switchTo]
  front f b h1 h2 h3 h4 h5 := by rw [State.queue_switchTo, hd.front f b h1 h2 h3 h4 h5, State.queue_switchTo]

end Sys2Proof.Machine

-- ==== Chains: the finish of a broken chain (O48) ====

namespace Sys2Proof.Machine

/-! ## What changes cores alone -/

/-- From `s` to `t` only cores have changed, and no byte. -/
structure OnlyCores (s t : State) : Prop where
  eq : t = { s with cores := t.cores }
  bytes : SameBytes s t
theorem OnlyCores.refl (s : State) : OnlyCores s s := ⟨rfl, fun _ => rfl⟩
theorem OnlyCores.trans {s t u : State} (h : OnlyCores s t) (k : OnlyCores t u) : OnlyCores s u :=
  ⟨by rw [k.eq, h.eq], h.bytes.trans k.bytes⟩
theorem OnlyCores.getTh {s t : State} (h : OnlyCores s t) (k : Nat) : t.getTh k = s.getTh k := by rw [h.eq]; rfl
theorem OnlyCores.cur {s t : State} (h : OnlyCores s t) : t.cur = s.cur := by rw [h.eq]
theorem onlyCores_foldl {α : Type} {f : State → α → State} (hf : ∀ s a, OnlyCores s (f s a)) (l : List α) (s : State) :
    OnlyCores s (l.foldl f s) := by
  induction l generalizing s with
  | nil => exact .refl s
  | cons a r ih => exact (hf s a).trans (ih _)

theorem onlyCores_updCore (s : State) (n : Nat) {f : Core → Core} (hq : ∀ k, (f k).queues = k.queues) (ha : ∀ k, (f k).allocs = k.allocs) :
    OnlyCores s (s.updCore n f) := ⟨rfl, (sameStores_updCore s n hq ha).bytes⟩
theorem onlyCores_setLane (s : State) (c l : Nat) (o : LaneOwner) : OnlyCores s (s.setLane c l o) :=
  onlyCores_updCore s c (fun _ => rfl) fun _ => rfl
theorem onlyCores_setLat (s : State) (c t : Nat) (x : LatThr) : OnlyCores s (s.setLat c t x) :=
  onlyCores_updCore s c (fun _ => rfl) fun _ => rfl
theorem onlyCores_shares (s : State) (c : Nat) : OnlyCores s (s.shares c) :=
  onlyCores_foldl (fun t _ => onlyCores_setLat t _ _ _) _ s
theorem onlyCores_freeBakeLane (s : State) (l : Nat × Nat) : OnlyCores s (s.freeBakeLane l) := by
  unfold State.freeBakeLane
  split
  · exact (onlyCores_setLane _ _ _ _).trans (onlyCores_shares _ _)
  · exact .refl s

theorem SMap.look_map {α β : Type} (m : SMap α) (f : α → β) (k : Nat) : SMap.look (m.map fun x => (x.1, f x.2)) k = (m.look k).map f := by
  induction m with
  | nil => rfl
  | cons x r ih =>
    obtain ⟨j, a⟩ := x
    simp only [List.map_cons, SMap.look, ih]
    split <;> rfl
theorem onlyCores_mapCores (s : State) (f : Core → Core) (hf : ∀ k, (f k).allocs = k.allocs) :
    OnlyCores s { s with cores := s.cores.map fun k => (k.1, f k.2) } := by
  have hget (c : Nat) : (SMap.get (s.cores.map fun k => (k.1, f k.2)) c (Core.init c)).allocs = (s.cores.get c (Core.init c)).allocs := by
    rw [SMap.get, SMap.look_map, SMap.get]
    cases s.cores.look c with
    | none => rfl
    | some k => exact hf k
  refine ⟨rfl, fun l => ?_⟩
  cases l with
  | tile c g o => simp only [State.readLoc, State.alloc, State.getCore, hget]
  | _ => rfl
/-- A core with no queue bound to a chain. -/
def Core.unbound (ch : Nat × Nat) (k : Core) : Core :=
  { k with queues := k.queues.map fun q =>
      (q.1, { q.2 with prod := if q.2.prod = some ch then none else q.2.prod, cons := if q.2.cons = some ch then none else q.2.cons }) }
theorem onlyCores_unbind (s : State) (ch : Nat × Nat) : OnlyCores s (s.unbind ch) :=
  onlyCores_mapCores s (Core.unbound ch) fun _ => rfl

/-! ## The end of a chain (07 R225) -/

/-- The slot gone from its thread. -/
def State.dropSlot (s : State) (ch : Nat × Nat) : State :=
  s.setTh ch.1 { s.getTh ch.1 with slots := (s.getTh ch.1).slots.erase ch.2 }

theorem slotsDiffer_dropSlot (s : State) (ch : Nat × Nat) : SlotsDiffer s (s.dropSlot ch) := fun k => by
  rw [State.dropSlot, State.getTh_setTh]; split
  · next e => rw [e]
  · rfl
theorem slotAt_dropSlot_ne (s : State) {ch c : Nat × Nat} (h : c ≠ ch) : (s.dropSlot ch).slotAt c = s.slotAt c := by
  rw [State.slotAt, State.dropSlot, State.getTh_setTh]
  split
  · next e =>
    rw [State.slotAt, e]
    exact SMap.look_erase_ne _ fun e2 => h (Prod.ext e e2)
  · rfl

/-- What the end of a chain keeps: memory, the other slots but for what they owe of tokens, and of each thread all but its slots. -/
structure EndKeeps (s : State) (ch : Nat × Nat) (t : State) : Prop where
  cur : t.cur = s.cur
  threads : SlotsDiffer s t
  bytes : SameBytes s t
  slot : ∀ c, c ≠ ch → (t.slotAt c).map Slot.unowed = (s.slotAt c).map Slot.unowed

theorem EndKeeps.cores {s t u : State} {ch : Nat × Nat} (h : EndKeeps s ch t) (k : OnlyCores t u) : EndKeeps s ch u where
  cur := k.cur.trans h.cur
  threads := h.threads.trans (slotsDiffer_of_getTh k.getTh)
  bytes := h.bytes.trans k.bytes
  slot c hc := by rw [State.slotAt, k.getTh]; exact h.slot c hc
theorem endKeeps_dropSlot {s t : State} (ch : Nat × Nat) (hc : t.cur = s.cur) (ht : SlotsDiffer s t) (hb : SameBytes s t)
    (hs : ∀ c, (t.slotAt c).map Slot.unowed = (s.slotAt c).map Slot.unowed) : EndKeeps s ch (t.dropSlot ch) where
  cur := (State.setTh_cur _ _ _).trans hc
  threads := ht.trans (slotsDiffer_dropSlot t ch)
  bytes := hb.trans (sameStores_setTh t _ _).bytes
  slot c h := by rw [slotAt_dropSlot_ne t h, hs]

theorem endKeeps_endChain {s : State} {ch : Nat × Nat} {x : Slot} (hx : s.slotAt ch = some x) : EndKeeps s ch (s.endChain ch) := by
  have h1 := tokensMove_leaveClaims s ch
  unfold State.endChain
  rw [hx]
  dsimp only
  split
  · exact endKeeps_dropSlot ch h1.slots.cur h1.threads.2 h1.stores.bytes h1.slots.slot
  · have h2 := onlyCores_unbind (s.leaveClaims ch) ch
    refine EndKeeps.cores ?_ (onlyCores_foldl onlyCores_freeBakeLane _ _)
    refine endKeeps_dropSlot ch (h2.cur.trans h1.slots.cur) (.trans h1.threads.2 (slotsDiffer_of_getTh h2.getTh)) (h1.stores.bytes.trans h2.bytes)
      fun c => ?_
    rw [State.slotAt, h2.getTh]
    exact h1.slots.slot c

/-! ## Broken slots in order -/

/-- A thread with a slot that passes a test has one in the order of those that do. -/
theorem inOrder_ne_nil {t : Thread} {p : Slot → Bool} {k : Nat} {x : Slot} (hx : t.slots.look k = some x) (hp : p x = true) :
    t.inOrder p ≠ [] := by
  unfold Thread.inOrder
  extract_lets l
  have hl : l ≠ [] := List.ne_nil_of_mem (List.mem_filter.2 ⟨SMap.mem_of_look hx, hp⟩)
  obtain ⟨m, hm⟩ : ∃ m, l.argmin (fun y => y.2.seq) = some m := by
    rw [← Option.isSome_iff_exists, Option.isSome_iff_ne_none, ne_eq, List.argmin_eq_none]
    exact hl
  have hfind : (l.find? fun y => (l.filter fun z => decide (z.2.seq < y.2.seq)).length == 0).isSome = true := by
    rw [List.find?_isSome]
    refine ⟨m, List.argmin_mem hm, ?_⟩
    simp only [beq_iff_eq, List.length_eq_zero_iff, List.filter_eq_nil_iff, decide_eq_true_eq, Nat.not_lt]
    exact fun z hz => List.le_of_mem_argmin (f := fun y : Nat × Slot => y.2.seq) hz hm
  obtain ⟨y, hy⟩ := Option.isSome_iff_exists.1 hfind
  refine List.ne_nil_of_mem (a := y.1) (List.mem_map_of_mem (List.mem_filterMap.2 ⟨0, ?_, hy⟩))
  exact List.mem_range.2 (List.length_pos_iff.2 hl)
/-- A thread with a broken RUN in a slot has broken slots. -/
theorem broken_isEmpty {t : Thread} {k : Nat} {x : Slot} {r : Run} (hx : t.slots.look k = some x) (hr : x.run = some r)
    (hp : r.phase ≠ .streaming) : t.broken.isEmpty = false := by
  unfold Thread.broken
  rw [List.isEmpty_eq_false_iff]
  exact inOrder_ne_nil hx (by simp [hr, hp])

/-! ## A step of the finish (19 R401) -/

section
variable {s : State} {h slot : Nat} {x : Slot} {r : Run}

theorem chainFinish_of_finishNext {t : State} (hf : (s.getTh h).finishing = some slot) (hn : (s.switchTo h).finishNext = .next t) :
    exec (.chainFinish h) s = .next (t.switchTo s.cur) := by
  have hp : (s.getTh h).finishPending = true := by simp [Thread.finishPending, hf]
  change execChainFinish h s = _
  simp only [execChainFinish, hp, Bool.true_eq_false, if_false, hn]
theorem finishNext_of_finishing (hu : s.th.unprepared = []) (hf : s.th.finishing = some slot) (hx : s.slotAt (s.cur, slot) = some x)
    (hr : x.run = some r) :
    s.finishNext = if r.phase = .draining then .next (s.drain (s.cur, slot)) else finishStep slot x r s := by
  rw [State.slotAt, State.getTh_cur] at hx
  simp only [State.finishNext, hu, hf, hx, hr]
/-- A finish that is due is the drain, or a step of it, on behalf of its thread. -/
theorem chainFinish_eq (hu : (s.getTh h).unprepared = []) (hf : (s.getTh h).finishing = some slot) (hx : s.slotAt (h, slot) = some x)
    (hr : x.run = some r) {t : State}
    (ht : (if r.phase = .draining then .next ((s.switchTo h).drain (h, slot)) else finishStep slot x r (s.switchTo h)) = .next t) :
    exec (.chainFinish h) s = .next (t.switchTo s.cur) := by
  refine chainFinish_of_finishNext hf ?_
  rw [finishNext_of_finishing (by rw [State.switchTo_th]; exact hu) (by rw [State.switchTo_th]; exact hf)
    (by rw [State.slotAt_switchTo, State.switchTo_cur]; exact hx) hr, State.switchTo_cur]
  exact ht

/-- The move of a frame that is ready is a move of that node. -/
theorem firstReady_ok {l : List (Frame × Nat)} {m : Nat} {v : State} {p : Progress} (hm : s.firstReady slot x r l = some (m, .ok (v, p))) :
    ∃ f, s.nodeMove slot none x r m f = .ok (some (v, p)) := by
  induction l with
  | nil => cases hm
  | cons g l ih =>
    obtain ⟨f, n⟩ := g
    cases e : s.nodeMove slot none x r n f with
    | error e' => simp [State.firstReady, e] at hm
    | ok o =>
      cases o with
      | none => exact ih (by simpa [State.firstReady, e] using hm)
      | some q =>
        have hm' : n = m ∧ q = (v, p) := by simpa [State.firstReady, e] using hm
        obtain ⟨rfl, rfl⟩ := hm'
        exact ⟨f, e⟩

theorem stageProg_getTh (s : State) (f : Option Frame) (p : Progress) (k : Nat) :
    ∃ m, (s.stageProg f p).getTh k = { s.getTh k with mprog := m } := by
  unfold State.stageProg
  split
  · by_cases e : k = s.cur
    · exact ⟨p.steps, by simp [State.getTh, e]⟩
    · exact ⟨(s.getTh k).mprog, by simp [State.getTh, e]⟩
  · exact ⟨_, rfl⟩

end

end Sys2Proof.Machine

-- ==== Chains: the steps of the finish (O48) ====

namespace Sys2Proof.Machine

/-! ## What notes progress and status in a thread -/

theorem slotAt_of_slots {s t : State} {ch : Nat × Nat} (h : (t.getTh ch.1).slots = (s.getTh ch.1).slots) : t.slotAt ch = s.slotAt ch := by
  rw [State.slotAt, h]; rfl
theorem slotAt_stageProg (s : State) (f : Option Frame) (p : Progress) (ch : Nat × Nat) : (s.stageProg f p).slotAt ch = s.slotAt ch := by
  obtain ⟨m, hm⟩ := stageProg_getTh s f p ch.1
  exact slotAt_of_slots (by rw [hm])
theorem stageProg_mprog {s : State} {f : Frame} (hf : f.isMatStage = true) (p : Progress) :
    ((s.stageProg (some f) p).getTh s.cur).mprog = p.steps := by
  simp [State.stageProg, hf, State.getTh]
theorem unpark_getTh (s : State) (k : Nat) :
    ∃ x, (if s.th.status = .parked .finish then { s with th := { s.th with status := .issuing } } else s).getTh k
      = { s.getTh k with status := x } := by
  split
  · by_cases e : k = s.cur
    · exact ⟨.issuing, by simp [State.getTh, e]⟩
    · exact ⟨(s.getTh k).status, by simp [State.getTh, e]⟩
  · exact ⟨_, rfl⟩

/-! ## The CHBRK that waits for a finish (07 R228) -/

/-- The thread that a step ends with is the one that it is about. -/
theorem getTh_of_cur {s : State} {h : Nat} (hc : s.cur = h) : s.getTh h = s.th := by rw [← hc, State.getTh_cur]
theorem endBroken_chbrk {s : State} {slot : Nat} {x : Slot} {r : Run} {d : BitVec 5} {least : Nat} {pc : Word} (hx : s.slotAt (s.cur, slot) = some x)
    (he : r.endAfter = true) (hc : r.chbrk = some (d, least, pc)) (hpc : s.th.pc = pc) :
    s.endBroken slot r = (s.endChain (s.cur, slot)).acquire.wrAdvance d (BitVec.ofNat 64 least) := by
  have h1 := endKeeps_endChain hx
  have hth : (s.endChain (s.cur, slot)).acquire.th.pc = pc := by
    change (s.endChain (s.cur, slot)).th.pc = pc
    rw [← getTh_of_cur h1.cur, h1.threads, State.getTh_cur]
    exact hpc
  simp only [State.endBroken, he, hc, hth, if_true]
/-- What the completion of such a CHBRK leaves of its thread and of memory. -/
theorem endBroken_spec {s : State} {slot : Nat} {x : Slot} {r : Run} {d : BitVec 5} {least : Nat} {pc : Word} (hx : s.slotAt (s.cur, slot) = some x)
    (he : r.endAfter = true) (hc : r.chbrk = some (d, least, pc)) (hpc : s.th.pc = pc) :
    (s.endBroken slot r).cur = s.cur ∧ (s.endBroken slot r).th.pc = pc + 4 ∧ SameBytes s (s.endBroken slot r)
      ∧ (s.endBroken slot r).rd d = (if d = 0 then 0 else BitVec.ofNat 64 least)
      ∧ ∀ k z, k ≠ slot → s.slotAt (s.cur, k) = some z → ∃ l, (s.endBroken slot r).th.slots.look k = some { z with handed := l } := by
  have h1 := endKeeps_endChain hx
  have hb := endBroken_chbrk hx he hc hpc
  have hacq : SameBytes s (s.endChain (s.cur, slot)).acquire := h1.bytes.trans fun l => State.readLoc_th _ _ l 1
  have hth : (s.endChain (s.cur, slot)).th = { s.th with slots := (s.endChain (s.cur, slot)).th.slots } := by
    have := h1.threads s.cur
    rwa [getTh_of_cur h1.cur, State.getTh_cur] at this
  rw [hb]
  refine ⟨(State.wrAdvance_cur _ _ _).trans h1.cur, ?_, State.sameBytes_wrAdvance hacq d _, by rw [State.rd_wrAdvance, if_pos rfl],
    fun k z hk hz => ?_⟩
  · rw [State.th_wrAdvance]
    change (s.endChain (s.cur, slot)).th.pc + 4 = _
    rw [hth]
    exact congrArg (· + 4) hpc
  · obtain ⟨l, hl⟩ := slot_of_unowed (h1.slot (s.cur, k) fun e => hk (Prod.mk.inj e).2) hz
    refine ⟨l, ?_⟩
    rw [State.th_wrAdvance, ← hl, State.slotAt, getTh_of_cur h1.cur]
    rfl

/-! ## Steps of the finish -/

section
variable {s : State} {h slot : Nat} {x : Slot} {r : Run}
  (hu : (s.getTh h).unprepared = []) (hf : (s.getTh h).finishing = some slot) (hx : s.slotAt (h, slot) = some x) (hr : x.run = some r)
include hu hf hx hr

theorem drained_chainFinish (hp : r.phase = .draining) :
    ∃ t, exec (.chainFinish h) s = .next t ∧ t.cur = s.cur ∧ Drained s (h, slot) x r t := by
  have hx' : (s.switchTo h).slotAt (h, slot) = some x := by rw [State.slotAt_switchTo, hx]
  exact ⟨_, chainFinish_eq hu hf hx hr (if_pos hp), State.switchTo_cur _ _, (drained_drain hx' hr (by rw [hp]; decide)).1.switch _⟩

variable (hp : r.phase = .drained)
include hp

theorem chainFinish_step {t : State} (ht : finishStep slot x r (s.switchTo h) = .next t) : exec (.chainFinish h) s = .next (t.switchTo s.cur) :=
  chainFinish_eq hu hf hx hr (by rw [hp, if_neg (by decide)]; exact ht)

section
variable (ho : (s.switchTo h).finishOver x r = false)
include ho

/-- A frame that is ready performs an element, with its steps in `mprog` where it is a matrix stage. -/
theorem chainFinish_ready {m : Nat} {p : Progress} {v : State}
    (hm : (s.switchTo h).firstReady slot x r x.frames.zipIdx = some (m, .ok (v, p))) :
    ∃ t y q, exec (.chainFinish h) s = .next t ∧ t.slotAt (h, slot) = some y ∧ y.run = some q ∧ q.progress = r.progress.set m p
      ∧ q.phase = .drained ∧ ∀ f, x.frames[m]? = some f → f.isMatStage = true → (t.getTh h).mprog = p.steps := by
  obtain ⟨f, hn⟩ := firstReady_ok hm
  have hv : SlotsKept (s.switchTo h) v := (kept_nodeMove (.refl _) slot none x r m f).ok_of hn (v, p) rfl
  obtain ⟨l, hl⟩ : ∃ l, v.slotAt (h, slot) = some { x with handed := l } := hv.look ((s.slotAt_switchTo h _).trans hx)
  have hvh : v.cur = h := hv.cur.trans (s.switchTo_cur h)
  let t1 := (v.stageProg x.frames[m]? p).updSlot ((s.switchTo h).cur, slot) fun y => { y with run := y.run.map fun q => q.put m p }
  have ht : finishStep slot x r (s.switchTo h)
      = .next (if t1.th.status = .parked .finish then { t1 with th := { t1.th with status := .issuing } } else t1) := by
    simp only [finishStep, ho, hm, Bool.false_eq_true, if_false]
    rfl
  obtain ⟨z, hz⟩ := unpark_getTh t1 h
  refine ⟨_, { x with handed := l, run := some (r.put m p) }, r.put m p, chainFinish_step hu hf hx hr hp ht, ?_, rfl, rfl, hp,
    fun g hg hmat => ?_⟩
  · rw [State.slotAt_switchTo, slotAt_of_slots (s := t1) (by rw [hz]), State.slotAt_updSlot, State.switchTo_cur, if_pos rfl, slotAt_stageProg, hl,
      Option.map_some, hr]
    rfl
  · rw [State.getTh_switchTo, hz, State.getTh_updSlot, hg]
    have := stageProg_mprog (s := v) hmat p
    rwa [hvh] at this
/-- With no frame ready the thread parks. -/
theorem chainFinish_parks (hm : (s.switchTo h).firstReady slot x r x.frames.zipIdx = none) (hi : (s.switchTo h).th.status = .issuing) :
    ∃ t, exec (.chainFinish h) s = .next t ∧ OthersKept s t h ∧ t.getTh h = { s.getTh h with status := .parked .finish } ∧ SameBytes s t := by
  have ht : finishStep slot x r (s.switchTo h) = .next { s.switchTo h with th := { (s.switchTo h).th with status := .parked .finish } } := by
    simp only [finishStep, ho, hm, hi, Bool.false_eq_true, if_false, if_true]
  refine ⟨_, chainFinish_step hu hf hx hr hp ht, ⟨State.switchTo_cur _ _, fun k hk => ?_⟩, ?_, ?_⟩
  · rw [State.getTh_switchTo, ← State.getTh_switchTo s h k]
    simp [State.getTh, State.switchTo_cur, hk]
  · rw [State.getTh_switchTo]
    simp [State.getTh, State.switchTo_cur]
  · exact ((sameStores_switchTo s h).bytes.trans fun l => State.readLoc_th _ _ l 1).trans (sameStores_switchTo _ _).bytes
theorem chainFinish_trap {m : Nat} {y : Trap} {v : State}
    (hm : (s.switchTo h).firstReady slot x r x.frames.zipIdx = some (m, .error (.trap y v))) :
    exec (.chainFinish h) s
      = .next ((((s.switchTo h).stageProg x.frames[m]? (r.at_ m)).takeTrap (y.inFinish slot m (r.at_ m).done)).switchTo s.cur) :=
  chainFinish_step hu hf hx hr hp (by simp only [finishStep, ho, hm, Bool.false_eq_true, if_false])
end

/-- A finish that is over leaves the state after the completion, where another slot's RUN is broken. -/
theorem chainFinish_over (ho : (s.switchTo h).finishOver x r = true)
    (hb : (((s.switchTo h).completeRun slot x r).endBroken slot r).th.broken.isEmpty = false) :
    exec (.chainFinish h) s = .next ((((s.switchTo h).completeRun slot x r).endBroken slot r).switchTo s.cur) :=
  chainFinish_step hu hf hx hr hp (by simp only [finishStep, ho, State.endFinish, hb, Bool.false_eq_true, if_false, if_true])

section
variable (ho : (s.switchTo h).finishOver x r = true) {k : Nat} {z : Slot} {q : Run} (hk : k ≠ slot) (hz : (s.getTh h).slots.look k = some z)
  (hq : z.run = some q) (hqp : q.phase ≠ .streaming)
include ho hk hz hq hqp

theorem chainFinish_completes (he : r.endAfter = false) : ∃ t y, exec (.chainFinish h) s = .next t ∧ t.slotAt (h, slot) = some y ∧ y.run = none
    ∧ y.lastN = r.n ∧ SameBytes s t := by
  have hend : ((s.switchTo h).completeRun slot x r).endBroken slot r = (s.switchTo h).completeRun slot x r := by
    simp only [State.endBroken, he, Bool.false_eq_true, if_false]
  have hcur := s.switchTo_cur h
  have hslot (c : Nat) : (s.switchTo h).slotAt ((s.switchTo h).cur, c) = s.slotAt (h, c) := by rw [State.slotAt_switchTo, hcur]
  obtain ⟨l, hl⟩ := slotAt_completeRun ((hslot slot).trans hx) r
  obtain ⟨l', hl'⟩ := slotAt_completeRun_ne (x := x) r hk ((hslot k).trans hz)
  rw [State.slotAt, hcur] at hl'
  have hb : (((s.switchTo h).completeRun slot x r).endBroken slot r).th.broken.isEmpty = false := by
    rw [hend, ← State.getTh_cur, completeRun_cur, hcur]
    exact broken_isEmpty hl' hq hqp
  refine ⟨_, { x with run := none, lastN := r.n, handed := l }, chainFinish_over hu hf hx hr hp ho hb, ?_, rfl, rfl, ?_⟩
  · rw [hend, State.slotAt_switchTo, ← hl, hcur]
  · rw [hend]
    exact ((sameStores_switchTo s h).trans (sameStores_completeRun _ _ _ _)).bytes.trans (sameStores_switchTo _ _).bytes

theorem chainFinish_chbrk {d : BitVec 5} {least : Nat} {pc : Word} (he : r.endAfter = true) (hc : r.chbrk = some (d, least, pc))
    (hpc : (s.getTh h).pc = pc) :
    ∃ t, exec (.chainFinish h) s = .next t ∧ (t.getTh h).pc = pc + 4 ∧ SameBytes s t
      ∧ (t.switchTo h).rd d = if d = 0 then 0 else BitVec.ofNat 64 least := by
  have hcur := s.switchTo_cur h
  have hslot (c : Nat) : (s.switchTo h).slotAt ((s.switchTo h).cur, c) = s.slotAt (h, c) := by rw [State.slotAt_switchTo, hcur]
  obtain ⟨l, hl⟩ := slotAt_completeRun ((hslot slot).trans hx) r
  obtain ⟨l', hl'⟩ := slotAt_completeRun_ne (x := x) r hk ((hslot k).trans hz)
  have hbytes := ((sameStores_switchTo s h).trans (sameStores_completeRun (s.switchTo h) slot x r)).bytes
  have hpc' : (((s.switchTo h).completeRun slot x r).getTh h).pc = pc := by
    rw [slotsDiffer_completeRun, State.getTh_switchTo]; exact hpc
  rw [hcur] at hl hl'
  have hc1 := (completeRun_cur (s.switchTo h) slot x r).trans hcur
  have hover := chainFinish_over hu hf hx hr hp ho
  generalize (s.switchTo h).completeRun slot x r = c at *
  subst hc1
  rw [State.getTh_cur] at hpc'
  obtain ⟨h1, h2, h3, h4, h5⟩ := endBroken_spec hl he hc hpc'
  obtain ⟨l2, h6⟩ := h5 k _ hk hl'
  refine ⟨_, hover (broken_isEmpty h6 hq hqp), ?_, (hbytes.trans h3).trans (sameStores_switchTo _ _).bytes, ?_⟩
  · rw [State.getTh_switchTo, getTh_of_cur h1, h2]
  · rw [← h4]
    simp only [State.rd, State.switchTo_th, State.getTh_switchTo, getTh_of_cur h1]
end
end

end Sys2Proof.Machine

-- ==== Chains: what each node does in a step (O48) ====

namespace Sys2Proof.Machine

section
variable {s : State} {h slot n : Nat} {x : Slot} {r : Run} {f : Frame}

/-- The current thread's state is that of the thread that a step is about. -/
theorem SlotsDiffer.of_switch {s v : State} {h : Nat} (hv : SlotsDiffer (s.switchTo h) v) : SlotsDiffer s v :=
  (s.slotsDiffer_switchTo h).trans hv

theorem chainSteps_idle (hx : s.slotAt (h, slot) = some x) (hr : x.run = some r) (hp : r.phase ≠ .streaming) :
    exec (.chainNodeElement h slot n) s = .next s ∧ exec (.switchEntryMove h slot n) s = .next s ∧ exec (.runComplete h slot) s = .next s := by
  have hs := State.streamOf_none hx hr hp
  refine ⟨streamNode_of_none hs, streamNode_of_none hs, ?_⟩
  change execRunComplete h slot s = _
  simp only [execRunComplete, hs]

section
variable (hx : s.slotAt (h, slot) = some x) (hr : x.run = some r) (hp : r.phase = .streaming) (hf : x.frames[n]? = some f)
include hx hr hp hf

/-- A node that processes an element. -/
theorem node_moves {v w : State} (hw : f.isSwitch = false)
    (hm : (s.switchTo h).nodeMove slot (some 64) x r n f = moveOf (s.switchTo h) (r.at_ n) (.ok (some v))) (hc : w.cur = s.cur)
    (ht : SlotsDiffer w v) :
    ∃ t, NodeMoves s (h, slot) x r n w (.chainNodeElement h slot n) { done := (r.at_ n).done + 1 } t ∧ SameStores v t :=
  nodeMoves_of_nodeMove (want := fun g => !g.isSwitch) hx hr hp hf (by rw [hw]; rfl) rfl (hm.trans (moveOf_some _ _ _)) hc ht
/-- A node whose element traps breaks its chain. -/
theorem node_breaks {e : M (Option State)} (hw : f.isSwitch = false) (he : ∃ t v, e = .error (.trap t v))
    (hm : (s.switchTo h).nodeMove slot (some 64) x r n f = moveOf (s.switchTo h) (r.at_ n) e) :
    exec (.chainNodeElement h slot n) s = .next (s.breakChain (h, slot)) := by
  obtain ⟨t, v, rfl⟩ := he
  exact streamNode_trap (want := fun g => !g.isSwitch) (State.streamOf_some hx hr hp) hf (by rw [hw]; rfl) (hm.trans (moveOf_trap _ _ _ _))

variable (hi : (r.at_ n).done < r.n)
include hi

/-! ## Generators -/

section
variable (hg : f.isGen = true)
include hg

theorem gen_free (hb : f.binding 222 = none) :
    ∃ t, NodeMoves s (h, slot) x r n s (.chainNodeElement h slot n) { done := (r.at_ n).done + 1 } t ∧ SameBytes s t
      ∧ ∀ c q, t.queue c q = s.queue c q := by
  obtain ⟨t, ht, hv⟩ := node_moves hx hr hp hf (Frame.kind_ne_of_isGen hg) ((State.nodeMove_gen hi hg).trans (by rw [genElement_free hb])) rfl
    (s.slotsDiffer_switchTo h)
  have := (sameStores_switchTo s h).trans hv
  exact ⟨t, ht, this.bytes, this.queue⟩
theorem gen_push {b : Nat × Nat} (hb : f.binding 222 = some b) (hq : (s.queue f.core b.1).entries.length < 64)
    (ha : f.genAddr r (r.at_ n).done % 2 ^ 22 % 2 ^ bits f.word 232 2 = 0) (hh : bits (f.genAddr r (r.at_ n).done) 22 41 = 0)
    (hs : f.genAddr r (r.at_ n).done % 2 ^ 22 + 2 ^ bits f.word 232 2 ≤ (s.alloc f.core (s.switchTo h).th.group).size) :
    ∃ t, NodeMoves s (h, slot) x r n s (.chainNodeElement h slot n) { done := (r.at_ n).done + 1 } t ∧ SameBytes s t
      ∧ (t.queue f.core b.1).entries = (s.queue f.core b.1).entries ++ [BitVec.ofNat 32 (f.genAddr r (r.at_ n).done % 2 ^ 22)] := by
  obtain ⟨t, ht, hv⟩ := node_moves hx hr hp hf (Frame.kind_ne_of_isGen hg)
    ((State.nodeMove_gen hi hg).trans (by
      rw [genElement_push hb (by rw [State.queue_switchTo]; exact hq) ha hh (by rw [State.alloc_switchTo]; exact hs)])) rfl
    (slotsDiffer_qPush _ _ _ _).of_switch
  refine ⟨t, ht, ((sameStores_switchTo s h).bytes.trans (sameBytes_qPush _ _ _ _)).trans hv.bytes, ?_⟩
  rw [hv.queue, State.entries_qPush, if_pos ⟨rfl, rfl⟩, State.queue_switchTo]
theorem gen_breaks {b : Nat × Nat} (hb : f.binding 222 = some b) (hq : (s.queue f.core b.1).entries.length < 64)
    (ha : f.genAddr r (r.at_ n).done % 2 ^ 22 % 2 ^ bits f.word 232 2 ≠ 0 ∨ bits (f.genAddr r (r.at_ n).done) 22 41 ≠ 0
      ∨ (s.alloc f.core (s.switchTo h).th.group).size < f.genAddr r (r.at_ n).done % 2 ^ 22 + 2 ^ bits f.word 232 2) :
    exec (.chainNodeElement h slot n) s = .next (s.breakChain (h, slot)) :=
  node_breaks hx hr hp hf (Frame.kind_ne_of_isGen hg)
    (genElement_trap hb (by rw [State.queue_switchTo]; exact hq) (by rw [State.alloc_switchTo]; exact ha)) (State.nodeMove_gen hi hg)
end

/-! ## Stages -/

theorem vadd_moves {d a b : BitVec 5} {c : BitVec 1} {p q : Nat} {e : W32} {l : List W32} (hv : f.isVecStage = true) (hn : f.nins = 0)
    (he : f.ew = 2) (hins : insOf (f.ins 0) = some (.vadd d a b 0 c)) (h0 : f.binding 214 = some (q, a.toNat)) (h1 : f.binding 204 = none)
    (h2 : f.binding 194 = none) (h3 : f.binding 184 = some (p, d.toNat)) (h4 : f.binding 174 = none) (hpq : p ≠ q)
    (hq : (s.queue f.core q).entries = e :: l) (hroom : (s.queue f.core p).entries.length < 64) :
    ∃ t, NodeMoves s (h, slot) x r n s (.chainNodeElement h slot n) { done := (r.at_ n).done + 1 } t ∧ SameBytes s t
      ∧ (t.queue f.core q).entries = l
      ∧ (t.queue f.core p).entries = (s.queue f.core p).entries ++ [BitVec.ofNat 32 (e.toNat
          + if b = a then e.toNat else elt ((s.switchTo h).vreg b) 32 ((s.switchTo h).lap (r.at_ n).done))] := by
  have hq' : ((s.switchTo h).queue f.core q).entries = e :: l := by rw [State.queue_switchTo, hq]
  obtain ⟨t, ht, hk⟩ := node_moves hx hr hp hf (Frame.of_isVecStage hv).1
    ((State.nodeMove_vec hi hv).trans (by
      rw [vecElement_vadd hn he hins h0 h1 h2 h3 h4 hq' (by rw [State.queue_switchTo]; exact hroom)])) rfl
    ((slotsDiffer_qPop _ _ _ _).trans (slotsDiffer_qPush _ _ _ _)).of_switch
  refine ⟨t, ht, (((sameStores_switchTo s h).bytes.trans (sameBytes_qPop _ _ _ _)).trans (sameBytes_qPush _ _ _ _)).trans hk.bytes, ?_, ?_⟩
  · rw [hk.queue, State.entries_qPush, if_neg (fun e => hpq e.2.symm), State.entries_qPop, if_pos ⟨rfl, rfl⟩, hq']
    rfl
  · rw [hk.queue, State.entries_qPush, if_pos ⟨rfl, rfl⟩, State.entries_qPop, if_neg (fun e => hpq e.2), State.queue_switchTo]

section
variable {d a : BitVec 5} {k : Nat} {o : Attachment} {b : Nat × Nat} (hmat : f.isMatStage = true) (ho : (s.switchTo h).stageAtt f.core = some o)
  (hrow : r.regN a + (r.at_ n).done / 64 < o.rows)
include hmat ho hrow

theorem mrd_moves (hins : f.mat = some (.mrd d a k)) (hb : f.binding 184 = some b) (hroom : (s.queue f.core b.1).entries.length < 64) :
    ∃ t, NodeMoves s (h, slot) x r n s (.chainNodeElement h slot n) { done := (r.at_ n).done + 1 } t ∧ SameBytes s t
      ∧ (t.queue f.core b.1).entries = (s.queue f.core b.1).entries
          ++ [BitVec.ofNat 32 (elt (s.accRow f.core o.rows k (r.regN a + (r.at_ n).done / 64)) 32 ((r.at_ n).done % 64))] := by
  obtain ⟨t, ht, hk⟩ := node_moves hx hr hp hf (Frame.of_isMatStage hmat).1
    ((State.nodeMove_mrd hi hmat hins).trans (by
      rw [mxfElement_mrd ho hrow hb (by rw [State.queue_switchTo]; exact hroom)])) rfl (slotsDiffer_qPush _ _ _ _).of_switch
  refine ⟨t, ht, ((sameStores_switchTo s h).bytes.trans (sameBytes_qPush _ _ _ _)).trans hk.bytes, ?_⟩
  rw [hk.queue, State.entries_qPush, if_pos ⟨rfl, rfl⟩, State.queue_switchTo, State.accRow_switchTo]
theorem mwr_moves {e : W32} {l : List W32} (hins : f.mat = some (.mwr d a k)) (hb : f.binding 214 = some b)
    (hq : (s.queue f.core b.1).entries = e :: l) :
    ∃ t, NodeMoves s (h, slot) x r n s (.chainNodeElement h slot n) { done := (r.at_ n).done + 1 } t ∧ SameBytes s t
      ∧ (t.queue f.core b.1).entries = l
      ∧ ∀ m, elt (t.accRow f.core o.rows k (r.regN a + (r.at_ n).done / 64)) 32 m
          = if m = (r.at_ n).done % 64 then e.toNat else elt (s.accRow f.core o.rows k (r.regN a + (r.at_ n).done / 64)) 32 m := by
  have hq' : ((s.switchTo h).queue f.core b.1).entries = e :: l := by rw [State.queue_switchTo, hq]
  obtain ⟨t, ht, hk⟩ := node_moves hx hr hp hf (Frame.of_isMatStage hmat).1
    ((State.nodeMove_mwr hi hmat hins).trans (by rw [mxfElement_mwr ho hrow hb hq'])) rfl
    ((slotsDiffer_qPop _ _ _ _).trans (slotsDiffer_setAccRow _ _ _ _ _ _)).of_switch
  refine ⟨t, ht, (((sameStores_switchTo s h).bytes.trans (sameBytes_qPop _ _ _ _)).trans (sameBytes_setAccRow _ _ _ _ _ _)).trans hk.bytes, ?_,
    fun m => ?_⟩
  · rw [hk.queue, State.queue_setAccRow, State.entries_qPop, if_pos ⟨rfl, rfl⟩, hq']
    rfl
  · rw [hk.accRow, State.accRow_setAccRow_same, State.accRow_switchTo]
    split
    · next hm => rw [hm, elt_setElt_same]; exact Nat.mod_eq_of_lt e.isLt
    · next hm => exact elt_setElt_ne _ _ _ _ _ hm
end

/-! ## Ports -/

section
variable {p : PortIns} {b : Nat × Nat} {l : Loc} (hport : f.isPort = true) (hins : f.port = some p) (hk : p.k = 0) (hform : p.form < 2)
  (hsz : p.size ≤ 2) (hix : f.binding 210 = none) (hdata : f.binding 220 = some b) (harcs : f.arcs = [])
include hport hins hk hform hsz hix hdata harcs

theorem port_breaks (hready : p.ready s f.core b) (ha : f.portAddr x.frames r p (r.at_ n).done 0 % 2 ^ 22 % f.checkSize x.frames p ≠ 0
      ∨ bits (f.portAddr x.frames r p (r.at_ n).done 0) 22 41 ≠ 0
      ∨ (s.alloc f.core (s.switchTo h).th.group).size < f.portAddr x.frames r p (r.at_ n).done 0 % 2 ^ 22 + f.checkSize x.frames p) :
    exec (.chainNodeElement h slot n) s = .next (s.breakChain (h, slot)) :=
  node_breaks hx hr hp hf (Frame.of_isPort hport).1
    (portElement_trap hins hk hform hsz hix hdata harcs (ready_switchTo hready) (by rw [State.alloc_switchTo]; exact ha))
    (State.nodeMove_port (s.switchTo_cur h) hi hport)

section
variable (halign : f.portAddr x.frames r p (r.at_ n).done 0 % 2 ^ 22 % f.checkSize x.frames p = 0)
  (hreg : f.portAddr x.frames r p (r.at_ n).done 0 % 2 ^ 22 / 2 ^ 19 = bits f.word 237 3)
  (htok : bitOf f.tokb (f.portAddr x.frames r p (r.at_ n).done 0 % 2 ^ 22 / 65536) = true)
  (hbank : (f.portAddr x.frames r p (r.at_ n).done 0 % 2 ^ 22 + 2 ^ p.size - 1) / 65536
    = f.portAddr x.frames r p (r.at_ n).done 0 % 2 ^ 22 / 65536)
  (hhead : ((s.switchTo h).claimants f.core (s.switchTo h).th.group (f.portAddr x.frames r p (r.at_ n).done 0 % 2 ^ 22 / 65536)).head?
    = some (h, slot))
include halign hreg htok hbank hhead

theorem port_load (hl : p.load = true)
    (htile : (s.switchTo h).nodeTile f.core (f.portAddr x.frames r p (r.at_ n).done 0) (f.checkSize x.frames p) .read = .ok l)
    (hpoison : s.poisonedLoc l (2 ^ p.size) = false) (hroom : (s.queue f.core b.1).entries.length < 64) :
    ∃ t, NodeMoves s (h, slot) x r n s (.chainNodeElement h slot n) { done := (r.at_ n).done + 1 } t ∧ SameBytes s t
      ∧ (t.queue f.core b.1).entries = (s.queue f.core b.1).entries ++ [BitVec.ofNat 32 (s.bytesAt l (2 ^ p.size))] := by
  have hready : p.ready s f.core b := by rw [PortIns.ready, if_pos hl]; exact hroom
  have htok' := tokensMove_gone ((s.switchTo h).qPush f.core b.1 [BitVec.ofNat 32 ((s.switchTo h).bytesAt l (2 ^ p.size))]) (h, slot) f.core
    ((s.switchTo h).lastOf x.frames r n f p (r.at_ n).done)
  obtain ⟨t, ht, hv⟩ := node_moves hx hr hp hf (Frame.of_isPort hport).1
    ((State.nodeMove_port (s.switchTo_cur h) hi hport).trans (by
      rw [portElement_load hins hk hform hsz hix hdata harcs (ready_switchTo hready) halign hreg htok hbank hhead hl htile
        (by rw [State.poisonedLoc_switchTo]; exact hpoison)])) rfl
    ((slotsDiffer_qPush _ _ _ _).trans htok'.threads.2).of_switch
  have hs := htok'.stores.trans hv
  refine ⟨t, ht, ((sameStores_switchTo s h).bytes.trans (sameBytes_qPush _ _ _ _)).trans hs.bytes, ?_⟩
  rw [hs.queue, State.entries_qPush, if_pos ⟨rfl, rfl⟩, State.queue_switchTo, (sameStores_switchTo s h).bytes.bytesAt]
theorem port_store {e : W32} {m : List W32} (hl : p.load = false) (hwf : s.wf = true)
    (htile : (s.switchTo h).nodeTile f.core (f.portAddr x.frames r p (r.at_ n).done 0) (f.checkSize x.frames p) .write = .ok l)
    (hq : (s.queue f.core b.1).entries = e :: m) :
    ∃ t, NodeMoves s (h, slot) x r n (s.noteStore (h, slot) l (2 ^ p.size)) (.chainNodeElement h slot n) { done := (r.at_ n).done + 1 } t
      ∧ Stored s t l (2 ^ p.size) e.toNat ∧ (t.queue f.core b.1).entries = m := by
  have hq' : ((s.switchTo h).queue f.core b.1).entries = e :: m := by rw [State.queue_switchTo, hq]
  have hready : p.ready s f.core b := by rw [PortIns.ready, hl, if_neg Bool.false_ne_true, hq]; exact List.cons_ne_nil _ _
  let z := ((s.switchTo h).qPop f.core b.1 1).2
  let y := z.noteStore (h, slot) l (2 ^ p.size)
  have hz : SlotsDiffer s z := (slotsDiffer_qPop _ _ _ _).of_switch
  have hzb : SameBytes s z := (sameStores_switchTo s h).bytes.trans (sameBytes_qPop _ _ _ _)
  have hyb : SameBytes s y := hzb.trans (sameStores_noteStore _ _ _ _).bytes
  have hstored := State.stored_writeLoc y l (2 ^ p.size) (e.toNat % 2 ^ (8 * 2 ^ p.size))
    (State.wf_noteStore (State.wf_qPop (State.wf_switchTo hwf h) _ _ _) _ _ _)
  have htok' := tokensMove_gone (y.writeLoc l (2 ^ p.size) (e.toNat % 2 ^ (8 * 2 ^ p.size))) (h, slot) f.core
    ((s.switchTo h).lastOf x.frames r n f p (r.at_ n).done)
  obtain ⟨t, ht, hv⟩ := node_moves hx hr hp hf (Frame.of_isPort hport).1
    ((State.nodeMove_port (s.switchTo_cur h) hi hport).trans (by
      rw [portElement_store hins hk hform hsz hix hdata harcs (ready_switchTo hready) halign hreg htok hbank hhead hl htile hq']))
    (State.setTh_cur _ _ _) (((slotsDiffer_noteStore hz hzb _ _ _).trans (slotsDiffer_writeLoc _ _ _ _)).trans htok'.threads.2)
  have hs := htok'.stores.trans hv
  obtain ⟨hm1, hk1⟩ := noteStore_shared z (h, slot) l (2 ^ p.size)
  obtain ⟨hm2, hk2⟩ := s.switchTo_shared h
  refine ⟨t, ht, hstored.of_same hyb (hm1.trans hm2) (hk1.trans hk2) hs.bytes fun i hi => byte_of_mod _ _ hi, ?_⟩
  rw [hs.queue, State.queue_writeLoc, (sameStores_noteStore z _ _ _).queue, State.entries_qPop, if_pos ⟨rfl, rfl⟩, hq']
  rfl
end
end
end
end

end Sys2Proof.Machine

-- ==== Chains: switches, completions, and the chains' steps (O48) ====

namespace Sys2Proof.Machine

section
variable {s : State} {h slot n : Nat} {x : Slot} {r : Run} {f : Frame}
  (hx : s.slotAt (h, slot) = some x) (hr : x.run = some r)
include hx hr

/-! ## Switches -/

section
variable (hp : r.phase = .streaming) (hf : x.frames[n]? = some f) (hw : f.isSwitch = true)
include hp hf hw

theorem switch_moves {v : State} {k : Nat} (hm : (s.switchTo h).moveEntry (some 64) f = some (v, k)) (ht : SlotsDiffer s v) :
    ∃ t, NodeMoves s (h, slot) x r n s (.switchEntryMove h slot n) { r.at_ n with moved := (r.at_ n).moved + k } t ∧ SameStores v t :=
  nodeMoves_of_nodeMove (want := Frame.isSwitch) hx hr hp hf hw rfl (by rw [State.nodeMove_switch hw, hm]; rfl) rfl ht

section
variable {e : W32} {l : List W32} (hq : (s.queue f.core f.inq).entries = e :: l) (hroom : (s.queue f.outCore f.outq).entries.length < 64)
  (hopen : ∀ k ∈ f.path (s.switchTo h), (s.linkSt k).power = .full ∧ (s.linkSt k).waking = false)
  (hne : (f.core, f.inq) ≠ (f.outCore, f.outq))
include hq hroom hopen hne

theorem switch_open (hc : f.cpq = none) :
    ∃ t, NodeMoves s (h, slot) x r n s (.switchEntryMove h slot n) { r.at_ n with moved := (r.at_ n).moved + 1 } t ∧ SameBytes s t
      ∧ (t.queue f.core f.inq).entries = l ∧ (t.queue f.outCore f.outq).entries = (s.queue f.outCore f.outq).entries ++ [e] := by
  simp only [← State.queue_switchTo s h, ← linkSt_of_links (s.switchTo_links h)] at hq hroom hopen
  obtain ⟨t, ht, hk⟩ := switch_moves hx hr hp hf hw (moveEntry_open hq hroom hopen hc) (slotsDiffer_passEntry e).of_switch
  obtain ⟨hin, hout, -⟩ := entries_passEntry hq hne
  refine ⟨t, ht, ((sameStores_switchTo s h).bytes.trans (sameBytes_passEntry e)).trans hk.bytes, ?_, ?_⟩
  · rw [hk.queue]; exact hin
  · rw [hk.queue, ← s.queue_switchTo h]; exact hout
theorem switch_copy {c : Nat} (hc : f.cpq = some c) (hci : (f.core, c) ≠ (f.core, f.inq)) (hco : (f.core, c) ≠ (f.outCore, f.outq))
    (hcopy : (s.queue f.core c).entries.length < 64) :
    ∃ t, NodeMoves s (h, slot) x r n s (.switchEntryMove h slot n) { r.at_ n with moved := (r.at_ n).moved + 1 } t ∧ SameBytes s t
      ∧ (t.queue f.core f.inq).entries = l ∧ (t.queue f.outCore f.outq).entries = (s.queue f.outCore f.outq).entries ++ [e]
      ∧ (t.queue f.core c).entries = (s.queue f.core c).entries ++ [e] := by
  simp only [← State.queue_switchTo s h, ← linkSt_of_links (s.switchTo_links h)] at hq hroom hopen hcopy
  obtain ⟨t, ht, hk⟩ := switch_moves hx hr hp hf hw (moveEntry_copy hq hroom hopen hc hcopy)
    ((slotsDiffer_passEntry e).trans (slotsDiffer_qPush _ _ _ _)).of_switch
  obtain ⟨hin, hout, hoth⟩ := entries_passEntry hq hne
  refine ⟨t, ht, (((sameStores_switchTo s h).bytes.trans (sameBytes_passEntry e)).trans (sameBytes_qPush _ _ _ _)).trans hk.bytes, ?_, ?_, ?_⟩
  · rw [hk.queue, State.entries_qPush, if_neg (fun e => hci (Prod.ext e.1.symm e.2.symm))]; exact hin
  · rw [hk.queue, ← s.queue_switchTo h, State.entries_qPush, if_neg (fun e => hco (Prod.ext e.1.symm e.2.symm))]; exact hout
  · rw [hk.queue, ← s.queue_switchTo h, State.entries_qPush, if_pos ⟨rfl, rfl⟩, hoth _ _ hci hco]
end

theorem switch_waits (hwake : ∃ k ∈ f.path (s.switchTo h), (s.linkSt k).waking = true) :
    ∃ t, exec (.switchEntryMove h slot n) s = .next t ∧ ∀ c q, t.queue c q = s.queue c q := by
  have hwake' : ∃ k ∈ f.path (s.switchTo h), ((s.switchTo h).linkSt k).waking = true := by
    obtain ⟨k, hk, hw⟩ := hwake
    exact ⟨k, hk, by rw [linkSt_of_links (s.switchTo_links h)]; exact hw⟩
  rcases moveEntry_waking hwake' (some 64) with hm | hm
  · refine ⟨s, streamNode_none (State.streamOf_some hx hr hp) hf hw ?_, fun _ _ => rfl⟩
    rw [State.nodeMove_switch hw, hm]; rfl
  · have he := touchLinks_eq (f.path (s.switchTo h)) (s.switchTo h)
    obtain ⟨t, ht, hk⟩ := switch_moves hx hr hp hf hw hm (.of_switch (slotsDiffer_of_getTh fun k => by rw [he]; rfl))
    refine ⟨t, ht.1, fun c q => ?_⟩
    rw [hk.queue, he]
    exact s.queue_switchTo h c q
end

/-! ## The completion of a RUN and its drain -/

theorem runComplete_done (hp : r.phase = .streaming) (hd : s.runDone x r = true) :
    ∃ t y, exec (.runComplete h slot) s = .next t ∧ ThreadsKept s t ∧ SameBytes s t ∧ t.slotAt (h, slot) = some y ∧ y.run = none
      ∧ y.lastN = r.n ∧ y.frames = x.frames := by
  have hcur := s.switchTo_cur h
  obtain ⟨l, hl⟩ := slotAt_completeRun (s := s.switchTo h) (slot := slot) (x := x) (by rw [State.slotAt_switchTo, hcur, hx]) r
  refine ⟨_, { x with run := none, lastN := r.n, handed := l }, ?_,
    (slotsDiffer_completeRun (s.switchTo h) slot x r).of_switch.back, ?_, ?_, rfl, rfl, rfl⟩
  · change execRunComplete h slot s = _
    simp only [execRunComplete, State.streamOf_some hx hr hp, hd, if_true]
  · exact ((sameStores_switchTo s h).trans (sameStores_completeRun _ _ _ _)).bytes.trans (sameStores_switchTo _ _).bytes
  · rw [State.slotAt_switchTo, ← hl, hcur]
theorem runComplete_waits (hd : s.runDone x r = false) : exec (.runComplete h slot) s = .next s := by
  change execRunComplete h slot s = _
  by_cases hp : r.phase = .streaming
  · simp only [execRunComplete, State.streamOf_some hx hr hp, hd, Bool.false_eq_true, if_false]
  · simp only [execRunComplete, State.streamOf_none hx hr hp]
theorem drained_chainDrainComplete (hp : r.phase = .draining) :
    ∃ t, exec (.chainDrainComplete h slot) s = .next t ∧ t.cur = s.cur ∧ Drained s (h, slot) x r t :=
  have hd := drained_drain hx hr (by rw [hp]; decide)
  ⟨_, rfl, hd.2, hd.1⟩
end

theorem chainFinish_idle {s : State} {h : Nat} (hp : (s.getTh h).finishPending = false) : exec (.chainFinish h) s = .next s := if_pos hp

/-- Settles O48, node by node: each clause is the step of one kind of node, the completion, the drain, or a step of the finish. -/
theorem chainSteps : Obligations.ChainSteps := by
  unfold Obligations.ChainSteps
  refine ⟨fun s h slot n x r hx hr => ?_, fun s h hp => chainFinish_idle hp⟩
  intro u moves moved noted entries
  refine ⟨chainSteps_idle hx hr, fun hp f hf => ?_, runComplete_done hx hr, runComplete_waits hx hr, ?_⟩
  · intro pr i j node next broken
    refine ⟨fun hi hg => ⟨gen_free hx hr hp hf hi hg, fun b hb hq =>
        ⟨gen_breaks hx hr hp hf hi hg hb hq, gen_push hx hr hp hf hi hg hb hq⟩⟩,
      fun d a b c p q e l hi hv hn he hins h0 h1 h2 h3 h4 hpq hq hroom =>
        vadd_moves hx hr hp hf hi hv hn he hins h0 h1 h2 h3 h4 hpq hq hroom, ?_, ?_, ?_⟩
    · intro p b l hi hport hins hk hform hsz hix hdata harcs a off sz cs ready
      refine ⟨port_breaks hx hr hp hf hi hport hins hk hform hsz hix hdata harcs, fun halign hreg htok hbank hhead => ⟨?_, ?_⟩⟩
      · exact port_load hx hr hp hf hi hport hins hk hform hsz hix hdata harcs halign hreg htok hbank hhead
      · intro e m hl hwf htile hq
        exact port_store hx hr hp hf hi hport hins hk hform hsz hix hdata harcs halign hreg htok hbank hhead hl hwf htile hq
    · intro d a k o b hi hmat ho row hrow
      exact ⟨mrd_moves hx hr hp hf hi hmat ho hrow, fun e l => mwr_moves hx hr hp hf hi hmat ho hrow⟩
    · intro hw path move open_ into out
      refine ⟨fun e l hq hroom hopen hne => ⟨?_, ?_⟩, switch_waits hx hr hp hf hw⟩
      · exact switch_open hx hr hp hf hw hq hroom hopen hne
      · exact fun c => switch_copy hx hr hp hf hw hq hroom hopen hne
  · intro drains
    have drains_of (i : Instr) : (∃ t, exec i s = .next t ∧ t.cur = s.cur ∧ Drained s (h, slot) x r t) → drains i := by
      rintro ⟨t, ht, hc, hd⟩
      obtain ⟨y, hy, hyr⟩ := hd.slot
      exact ⟨t, y, ht, ⟨hc, hd.threads⟩, hd.bytes, hy, hyr, hd.queues, hd.front⟩
    refine ⟨fun hp => drains_of _ (drained_chainDrainComplete hx hr hp), fun hu hfin =>
      ⟨fun hp => drains_of _ (drained_chainFinish hu hfin hx hr hp),
      fun hp ho => ⟨fun m p v => chainFinish_ready hu hfin hx hr hp ho, chainFinish_parks hu hfin hx hr hp ho,
        fun m y v => chainFinish_trap hu hfin hx hr hp ho⟩, fun hp ho hbroken => ?_⟩⟩
    obtain ⟨k, z, q, hk, hz, hq, hqp⟩ := hbroken
    exact ⟨chainFinish_completes hu hfin hx hr hp ho hk hz hq hqp, fun d least pc => chainFinish_chbrk hu hfin hx hr hp ho hk hz hq hqp⟩

end Sys2Proof.Machine

-- ==== FP32 patterns fit in 32 bits (O40) ====

namespace Sys2Proof.Machine

/-! ## Rounded mantissas (03 R88) -/

/-- A mantissa whose leading bit is `l`, rounded to a unit at most `p` places below that bit, has at least `p + 1` bits. -/
theorem le_roundTo {mode : RMode} {neg : Bool} {w m l p : Nat} {e t : Int} (hm : 2 ^ l ≤ m) (ht : t ≤ e + l - p) :
    2 ^ p ≤ (roundTo mode neg w m e t).1 := by
  unfold roundTo
  split
  · next h =>
    rw [Nat.shiftLeft_eq]
    calc 2 ^ p ≤ 2 ^ (l + (e - t).toNat) := Nat.pow_le_pow_right (by decide) (by omega)
      _ = 2 ^ l * 2 ^ (e - t).toNat := Nat.pow_add ..
      _ ≤ _ := Nat.mul_le_mul_right _ hm
  · next h =>
    refine le_trans ?_ (Nat.le_add_right _ _)
    rw [Nat.shiftRight_eq_div_pow, Nat.le_div_iff_mul_le (by positivity), ← Nat.pow_add]
    exact (Nat.pow_le_pow_right (by decide) (by omega)).trans hm
/-- A mantissa whose leading bit is `l`, rounded to a unit at least `p` places below that bit, has at most `p + 1` bits, but for a carry out of
them. -/
theorem roundTo_le {mode : RMode} {neg : Bool} {w m l p : Nat} {e t : Int} (hm : m < 2 ^ (l + 1)) (ht : e + l - p ≤ t) :
    (roundTo mode neg w m e t).1 ≤ 2 ^ (p + 1) := by
  unfold roundTo
  split
  · next h =>
    rw [Nat.shiftLeft_eq]
    calc m * 2 ^ (e - t).toNat ≤ 2 ^ (l + 1) * 2 ^ (e - t).toNat := Nat.mul_le_mul_right _ hm.le
      _ = 2 ^ (l + 1 + (e - t).toNat) := (Nat.pow_add ..).symm
      _ ≤ 2 ^ (p + 1) := Nat.pow_le_pow_right (by decide) (by omega)
  · next h =>
    have hq : m >>> (t - e).toNat < 2 ^ (p + 1) := by
      rw [Nat.shiftRight_eq_div_pow, Nat.div_lt_iff_lt_mul (by positivity), ← Nat.pow_add]
      exact hm.trans_le (Nat.pow_le_pow_right (by decide) (by omega))
    have hup := Bool.toNat_le (movesAway mode neg w (m >>> (t - e).toNat) (m % 2 ^ (t - e).toNat) (t - e).toNat)
    simp only
    omega

/-! ## Patterns (03 R75, R76) -/

theorem signed_f32_lt {neg : Bool} {x : Nat} (h : x < 2 ^ 31) : Fmt.f32.signed neg x < 2 ^ 32 := by
  cases neg <;> simp [Fmt.signed, Fmt.f32] <;> omega
theorem overflow_f32_lt (mode : RMode) (neg away : Bool) : (overflow .f32 mode neg away).val < 2 ^ 32 := by
  have h : ∀ inf : Bool, (if inf then Fmt.f32.infBits else Fmt.f32.maxBits) < 2 ^ 31 := by decide
  exact signed_f32_lt (h _)
/-- A magnitude of at least 24 bits that is not above the greatest finite one has its unit at 2^104 or below. -/
theorem unit_le_of_not_magGt {q : Nat} {t : Int} (hq : 2 ^ 23 ≤ q) (h : magGt q t Fmt.f32.maxVal.1 Fmt.f32.maxVal.2 = false) : t ≤ 104 := by
  have hmax : Fmt.f32.maxVal = (2 ^ 24 - 1, 104) := by decide +kernel
  by_contra hc
  rw [hmax, magGt, if_pos (by omega), decide_eq_false_iff_not, Nat.shiftLeft_eq] at h
  dsimp only at h
  have : 2 ^ 1 ≤ 2 ^ (t - 104).toNat := Nat.pow_le_pow_right (by decide) (by omega)
  have := Nat.mul_le_mul hq this
  omega
theorem encFin_f32_lt (mode : RMode) (w : Nat) (neg : Bool) {m : Nat} (hm : m ≠ 0) (e : Int) : (encFin .f32 mode w neg m e).val < 2 ^ 32 := by
  have hlow := Nat.log2_self_le hm
  have hhigh := @Nat.lt_log2_self m
  unfold encFin
  extract_lets lead tu emin u mx t r tiny val
  split
  · exact overflow_f32_lt mode neg _
  next hmag =>
    have htu : tu ≤ 104 := unit_le_of_not_magGt (le_roundTo hlow (le_refl _)) (Bool.eq_false_iff.2 hmag)
    have ht : tu ≤ t ∧ t ≤ 104 := by
      have : t = if tu < -149 then -149 else tu := rfl
      split at this <;> omega
    have hr : r.1 ≤ 2 ^ 24 := roundTo_le hhigh ht.1
    refine signed_f32_lt (neg := neg) (x := val) ?_
    have : val = if r.1 < 2 ^ 23 then r.1 else ((t + 23 + 127).toNat - 1) * 2 ^ 23 + r.1 := rfl
    split at this <;> omega
theorem enc_f32_lt (mode : RMode) (w : Nat) (x : FVal) : (enc .f32 mode w x).val < 2 ^ 32 := by
  cases x with
  | nan sig neg => exact (by decide : Fmt.f32.canon < 2 ^ 32)
  | inf neg => exact signed_f32_lt (by decide)
  | fin neg m e =>
    simp only [enc]
    split
    · exact signed_f32_lt (by decide)
    · next hm => exact encFin_f32_lt mode w neg hm e
theorem stepRound_lt (x : FVal) : (stepRound x).val < 2 ^ 32 := by
  unfold stepRound
  split
  · exact enc_f32_lt .rne 0 x
  · exact enc_f32_lt .rne 0 x

end Sys2Proof.Machine

-- ==== Matrix steps: one element, one row, one step (O40) ====

namespace Sys2Proof.Machine

/-! ## Packed elements and joined flags -/

theorem packElts_cons (w x : Nat) (l : List Nat) : packElts w (x :: l) = x + 2 ^ w * packElts w l := rfl
/-- An element of a packed list is that of the list. -/
theorem elt_packElts {w : Nat} {l : List Nat} (h : ∀ x ∈ l, x < 2 ^ w) {j : Nat} (hj : j < l.length) : elt (packElts w l) w j = l[j] := by
  induction l generalizing j with
  | nil => exact absurd hj (Nat.not_lt_zero j)
  | cons x r ih =>
    have hx := h x List.mem_cons_self
    cases j with
    | zero => rw [packElts_cons, elt, bits, Nat.mul_zero, Nat.shiftRight_zero, Nat.add_mul_mod_self_left, Nat.mod_eq_of_lt hx]; rfl
    | succ j =>
      rw [List.getElem_cons_succ, ← ih (fun y hy => h y (List.mem_cons_of_mem _ hy)) (Nat.lt_of_succ_lt_succ hj), packElts_cons]
      simp only [elt, bits, Nat.shiftRight_eq_div_pow]
      rw [Nat.mul_succ, Nat.add_comm (w * j), Nat.pow_add, ← Nat.div_div_eq_div_mul, Nat.add_mul_div_left _ _ (by positivity),
        Nat.div_eq_of_lt hx, Nat.zero_add]
theorem zipIdx_map_range {α : Type} (f : Nat → α) (n : Nat) : ((List.range n).map f).zipIdx = (List.range n).map fun j => (f j, j) :=
  List.ext_getElem (by simp) (by simp)
/-- A flag of a join is one of its parts'. -/
theorem testBit_foldl_or (l : List Nat) (b n : Nat) :
    (l.foldl (· ||| ·) b).testBit n = true ↔ b.testBit n = true ∨ ∃ f ∈ l, f.testBit n = true := by
  induction l generalizing b with
  | nil => simp
  | cons x r ih => simp only [List.foldl_cons, ih, Nat.testBit_or, Bool.or_eq_true, List.exists_mem_cons_iff, or_assoc]

/-! ## One element of a step (03 R96, R97) -/

/-- The reduction indices of a step (07 R205). -/
def MatOp.indices (o : MatOp) (k : Nat) : List Nat := span (k * o.p) (k * o.p + o.p)
/-- The dense part of element `j` of row `i` in step `k`, added to `c`. -/
def MatOp.denseOf (o : MatOp) (x : MatIn) (k i j c : Nat) : Rounded :=
  denseElt (o.kind == .mopq) o.neg c ((o.indices k).map fun k => if o.escaped x i k then none else some (o.adec x i k).1)
    ((o.indices k).map fun k => (o.bdec x k j).1)
/-- What step `k` makes of element `j` of row `i`, which holds `c`. -/
def MatOp.stepElt (o : MatOp) (x : MatIn) (k i j c : Nat) : Rounded :=
  if o.kind = .mopq then ((relevant x k).filter fun e => e.1 / 64 == i).foldl (escapeElt o x j) (o.denseOf x k i j c)
  else o.denseOf x k i j c
/-- The flags that step `k` raises at that element: those of its operands' decoding and of its roundings. -/
def MatOp.Raises (o : MatOp) (x : MatIn) (k i j c n : Nat) : Prop :=
  (o.stepElt x k i j c).flags.testBit n = true ∨ ∃ r ∈ o.indices k, (o.adec x i r).2.testBit n = true ∨ (o.bdec x r j).2.testBit n = true

section
variable {o : MatOp} {x : MatIn}

theorem denseElt_lt (plus0 neg : Bool) (c : Nat) (as : List (Option FVal)) (bs : List FVal) : (denseElt plus0 neg c as bs).val < 2 ^ 32 :=
  stepRound_lt _
theorem stepElt_lt (k i j c : Nat) : (o.stepElt x k i j c).val < 2 ^ 32 := by
  unfold MatOp.stepElt
  split
  · exact List.foldlRecOn (motive := fun r : Rounded => r.val < 2 ^ 32) _ _ (denseElt_lt ..) fun _ _ _ _ => stepRound_lt _
  · exact denseElt_lt ..

/-! ## One row of a step -/

/-- The columns of the B side that step `k` uses, decoded. -/
def MatOp.columns (o : MatOp) (x : MatIn) (k : Nat) : List (List (FVal × Nat)) :=
  (List.range 64).map fun j => (o.indices k).map fun r => o.bdec x r j

theorem stepRow_eq (k i row : Nat) :
    stepRow o x k i row (o.columns x k)
      = (packElts 32 ((List.range 64).map fun j => (o.stepElt x k i j (elt row 32 j)).val),
        (((List.range 64).map fun j => (o.stepElt x k i j (elt row 32 j)).flags) ++ (o.indices k).map fun r => (o.adec x i r).2).foldl
          (· ||| ·) 0) := by
  unfold stepRow
  rw [MatOp.columns, zipIdx_map_range]
  generalize List.range 64 = js
  simp only [List.map_map, Function.comp_def]
  rfl
theorem elt_stepRow (k i row : Nat) {j : Nat} (hj : j < 64) :
    elt (stepRow o x k i row (o.columns x k)).1 32 j = (o.stepElt x k i j (elt row 32 j)).val := by
  rw [stepRow_eq, elt_packElts ?_ (by simpa using hj)]
  · simp
  · intro y hy
    obtain ⟨j, -, rfl⟩ := List.mem_map.1 hy
    exact stepElt_lt ..
/-- A row raises the flags of its elements and of the decoding of its A side. -/
theorem testBit_stepRow (k i row n : Nat) :
    (stepRow o x k i row (o.columns x k)).2.testBit n = true
      ↔ (∃ j < 64, (o.stepElt x k i j (elt row 32 j)).flags.testBit n = true) ∨ ∃ r ∈ o.indices k, (o.adec x i r).2.testBit n = true := by
  simp [stepRow_eq, testBit_foldl_or]
end

end Sys2Proof.Machine

-- ==== Matrix steps: what the steps leave, and the rows and flags that they give (O40) ====

namespace Sys2Proof.Machine

/-! ## What a step instruction leaves as it was -/

/-- From `s` to `t` nothing of the current thread has changed but its flags, no thread but it is current, and every attachment and every byte is
as before. -/
structure KeepsAround (s t : State) : Prop where
  cur : t.cur = s.cur
  th : t.th = { s.th with fflags := t.th.fflags }
  att : ∀ c, t.attOf c = s.attOf c
  bytes : SameBytes s t

theorem KeepsAround.refl (s : State) : KeepsAround s s := ⟨rfl, rfl, fun _ => rfl, fun _ => rfl⟩
theorem KeepsAround.trans {s t u : State} (h : KeepsAround s t) (k : KeepsAround t u) : KeepsAround s u :=
  ⟨k.cur.trans h.cur, k.th.trans (by rw [h.th]), fun c => (k.att c).trans (h.att c), h.bytes.trans k.bytes⟩
theorem KeepsAround.core {s t : State} (h : KeepsAround s t) : t.core = s.core := by rw [State.core, h.cur, State.core]
theorem KeepsAround.attached {s t : State} (h : KeepsAround s t) : t.att = s.att := by
  rw [State.att, h.core, h.att, h.cur, State.att]

theorem State.mark_flags (s : State) (f : Nat) : s.mark f 0 = { s with th := { s.th with fflags := s.th.fflags ||| f } } := by
  have e : s.th.m.set 0 (s.th.m[0] ||| 0) = s.th.m := by simp
  rw [State.mark, e]
theorem keepsAround_mark (s : State) (f : Nat) : KeepsAround s (s.mark f 0) := by
  rw [State.mark_flags]
  exact ⟨rfl, rfl, fun _ => rfl, fun l => State.readLoc_th ..⟩
theorem State.attOf_setAccRow (s : State) (core rows t i x c : Nat) : (s.setAccRow core rows t i x).attOf c = s.attOf c := by
  have h : (((s.setAccRow core rows t i x).unit c).even = (s.unit c).even) ∧ ((s.setAccRow core rows t i x).unit c).odd = (s.unit c).odd := by
    by_cases e : c / 2 = core / 2
    · simp [State.setAccRow, State.unit, e]
    · simp [State.setAccRow, State.unit, SMap.get_set_ne _ _ _ _ _ e]
  rw [State.attOf, h.1, h.2, State.attOf]
theorem keepsAround_setAccRow (s : State) (core rows t i x : Nat) : KeepsAround s (s.setAccRow core rows t i x) :=
  ⟨rfl, rfl, State.attOf_setAccRow s core rows t i x, sameBytes_setAccRow s core rows t i x⟩

theorem KeepsRows.refl (s : State) (core rows k : Nat) : KeepsRows s s core rows k := fun _ _ => rfl
theorem KeepsRows.trans {s t u : State} {core rows k : Nat} (h : KeepsRows s t core rows k) (g : KeepsRows t u core rows k) :
    KeepsRows s u core rows k := fun q hq => (g q hq).trans (h q hq)
theorem acc_setAccRow (s : State) (core rows t i x q : Nat) :
    ((s.setAccRow core rows t i x).unit core).acc.get q 0 = if q = 64 * t + physRow core rows i then x else (s.unit core).acc.get q 0 := by
  by_cases hq : q = 64 * t + physRow core rows i
  · simp [State.setAccRow, State.unit, hq]
  · simp [State.setAccRow, State.unit, hq, SMap.get_set_ne _ _ _ _ _ hq]
theorem keepsRows_setAccRow (s : State) (core rows t x : Nat) {i : Nat} (hi : i < rows) :
    KeepsRows s (s.setAccRow core rows t i x) core rows t := fun q hq => by rw [acc_setAccRow, if_neg (hq i hi)]
theorem accRow_setAccRow (s : State) (core rows t i x j : Nat) :
    (s.setAccRow core rows t i x).accRow core rows t j = if j = i then x else s.accRow core rows t j := by
  have h : 64 * t + physRow core rows j = 64 * t + physRow core rows i ↔ j = i := by unfold physRow; split <;> omega
  rw [State.accRow, acc_setAccRow, State.accRow]
  simp only [h]

/-! ## The rows of a step, one after another -/

/-- Row `i` of a tile replaced by what `f` makes of it, with its flags. -/
def State.rowStep (core rows t : Nat) (f : Nat → Nat → Nat × Nat) (s : State) (i : Nat) : State :=
  (s.setAccRow core rows t i (f i (s.accRow core rows t i)).1).mark (f i (s.accRow core rows t i)).2 0

section
variable (core rows t : Nat) (f : Nat → Nat → Nat × Nat) (s : State)

theorem accRow_rowStep (i j : Nat) :
    (s.rowStep core rows t f i).accRow core rows t j = if j = i then (f i (s.accRow core rows t i)).1 else s.accRow core rows t j :=
  accRow_setAccRow ..
theorem fflags_rowStep (i : Nat) : (s.rowStep core rows t f i).th.fflags = s.th.fflags ||| (f i (s.accRow core rows t i)).2 := rfl
theorem keepsAround_rowStep (i : Nat) : KeepsAround s (s.rowStep core rows t f i) :=
  (keepsAround_setAccRow ..).trans (keepsAround_mark ..)
theorem keepsRows_rowStep {i : Nat} (hi : i < rows) : KeepsRows s (s.rowStep core rows t f i) core rows t :=
  keepsRows_setAccRow s core rows t _ hi

/-- Each row is replaced once, by what the function makes of the row before. -/
theorem accRow_rowSteps (n j : Nat) :
    ((List.range n).foldl (State.rowStep core rows t f) s).accRow core rows t j
      = if j < n then (f j (s.accRow core rows t j)).1 else s.accRow core rows t j := by
  induction n with
  | zero => rfl
  | succ n ih =>
    rw [List.range_succ, List.foldl_append, List.foldl_cons, List.foldl_nil, accRow_rowStep]
    rcases lt_trichotomy j n with h | rfl | h
    · rw [if_neg h.ne, ih, if_pos h, if_pos (Nat.lt_succ_of_lt h)]
    · rw [if_pos rfl, ih, if_neg (lt_irrefl j), if_pos (Nat.lt_succ_self j)]
    · rw [if_neg h.ne', ih, if_neg (by omega), if_neg (by omega)]
theorem fflags_rowSteps (n b : Nat) :
    ((List.range n).foldl (State.rowStep core rows t f) s).th.fflags.testBit b = true
      ↔ s.th.fflags.testBit b = true ∨ ∃ i < n, (f i (s.accRow core rows t i)).2.testBit b = true := by
  induction n with
  | zero => simp
  | succ n ih =>
    rw [List.range_succ, List.foldl_append, List.foldl_cons, List.foldl_nil, fflags_rowStep, Nat.testBit_or, Bool.or_eq_true, ih, accRow_rowSteps,
      if_neg (lt_irrefl n), Nat.exists_lt_succ_right, or_assoc]
end

/-! ## A step (07 R205) -/

section
variable {o : MatOp} {x : MatIn}

theorem matStep_eq (k : Nat) (s : State) :
    matStep o x k s
      = ((List.range x.rows).foldl (State.rowStep x.core x.rows o.tile fun i row => stepRow o x k i row (o.columns x k)) s).mark
          (if x.rows = 0 then 0 else ((o.columns x k).flatten.map (·.2)).foldl (· ||| ·) 0) 0 := rfl
theorem keepsAround_matStep (k : Nat) (s : State) : KeepsAround s (matStep o x k s) := by
  rw [matStep_eq]
  refine KeepsAround.trans ?_ (keepsAround_mark ..)
  exact List.foldlRecOn (motive := KeepsAround s) _ _ (.refl s) fun _ h _ _ => h.trans (keepsAround_rowStep ..)
theorem keepsRows_matStep (k : Nat) (s : State) : KeepsRows s (matStep o x k s) x.core x.rows o.tile := by
  rw [matStep_eq]
  exact List.foldlRecOn (motive := fun u => KeepsRows s u x.core x.rows o.tile) _ (State.rowStep x.core x.rows o.tile _) (KeepsRows.refl _ _ _ _)
    fun _ h _ hi => h.trans (keepsRows_rowStep _ _ _ _ _ (List.mem_range.1 hi))
/-- A step makes of each element of each row what `stepElt` says. -/
theorem elt_matStep (k : Nat) (s : State) {i j : Nat} (hi : i < x.rows) (hj : j < 64) :
    elt ((matStep o x k s).accRow x.core x.rows o.tile i) 32 j
      = (o.stepElt x k i j (elt (s.accRow x.core x.rows o.tile i) 32 j)).val := by
  rw [← elt_stepRow k i _ hj, matStep_eq]
  exact congrArg (elt · 32 j) ((accRow_rowSteps ..).trans (if_pos hi))
theorem testBit_columns (k n : Nat) :
    (((o.columns x k).flatten.map fun y : FVal × Nat => y.2).foldl (· ||| ·) 0).testBit n = true
      ↔ ∃ j < 64, ∃ r ∈ o.indices k, (o.bdec x r j).2.testBit n = true := by
  simp only [testBit_foldl_or, MatOp.columns, Nat.zero_testBit, Bool.false_eq_true, false_or, List.mem_map, List.mem_flatten, List.mem_range]
  constructor
  · rintro ⟨_, ⟨_, ⟨_, ⟨j, hj, rfl⟩, hy⟩, rfl⟩, h⟩
    obtain ⟨r, hr, rfl⟩ := List.mem_map.1 hy
    exact ⟨j, hj, r, hr, h⟩
  · rintro ⟨j, hj, r, hr, h⟩
    exact ⟨_, ⟨_, ⟨_, ⟨j, hj, rfl⟩, List.mem_map_of_mem hr⟩, rfl⟩, h⟩
/-- A step raises the flags of its elements and no other. -/
theorem fflags_matStep (k n : Nat) (s : State) :
    (matStep o x k s).th.fflags.testBit n = true
      ↔ s.th.fflags.testBit n = true
        ∨ ∃ i < x.rows, ∃ j < 64, o.Raises x k i j (elt (s.accRow x.core x.rows o.tile i) 32 j) n := by
  rw [matStep_eq, State.mark_flags]
  simp only [Nat.testBit_or, Bool.or_eq_true, fflags_rowSteps, testBit_stepRow, MatOp.Raises]
  by_cases h0 : x.rows = 0
  · simp [h0]
  rw [if_neg h0, testBit_columns]
  constructor
  · rintro ((h | ⟨i, hi, ⟨j, hj, h⟩ | ⟨r, hr, h⟩⟩) | ⟨j, hj, r, hr, h⟩)
    · exact .inl h
    · exact .inr ⟨i, hi, j, hj, .inl h⟩
    · exact .inr ⟨i, hi, 0, by decide, .inr ⟨r, hr, .inl h⟩⟩
    · exact .inr ⟨0, Nat.pos_of_ne_zero h0, j, hj, .inr ⟨r, hr, .inr h⟩⟩
  · rintro (h | ⟨i, hi, j, hj, h | ⟨r, hr, h | h⟩⟩)
    · exact .inl (.inl h)
    · exact .inl (.inr ⟨i, hi, .inl ⟨j, hj, h⟩⟩)
    · exact .inl (.inr ⟨i, hi, .inr ⟨r, hr, h⟩⟩)
    · exact .inr ⟨j, hj, r, hr, h⟩

/-! ## All the steps -/

theorem span_self (k : Nat) : span k k = [] := by simp [span]
theorem span_cons {k m : Nat} (h : k < m) : span k m = k :: span (k + 1) m := by
  have e : m - k = m - (k + 1) + 1 := by omega
  rw [span, e, List.range_succ_eq_map]
  simp [span, Function.comp_def, Nat.add_left_comm, Nat.add_comm]

/-- What the steps `k` to `m` − 1 make of element `j` of row `i`, which holds `c`. -/
def MatOp.stepped (o : MatOp) (x : MatIn) (i j k m c : Nat) : Nat := (span k m).foldl (fun c r => (o.stepElt x r i j c).val) c

theorem stepped_self (i j k c : Nat) : o.stepped x i j k k c = c := by rw [MatOp.stepped, span_self]; rfl
theorem stepped_cons (i j c : Nat) {k m : Nat} (h : k < m) :
    o.stepped x i j k m c = o.stepped x i j (k + 1) m (o.stepElt x k i j c).val := by rw [MatOp.stepped, span_cons h]; rfl

/-- From `s` to `t` the steps `k` to `m` − 1 have changed the elements of the rows held, with their flags, and nothing else. -/
structure Accumulates (o : MatOp) (x : MatIn) (k m : Nat) (s t : State) : Prop where
  around : KeepsAround s t
  rows : KeepsRows s t x.core x.rows o.tile
  elts : ∀ i < x.rows, ∀ j < 64,
    elt (t.accRow x.core x.rows o.tile i) 32 j = o.stepped x i j k m (elt (s.accRow x.core x.rows o.tile i) 32 j)
  flags : ∀ b, t.th.fflags.testBit b = true ↔ s.th.fflags.testBit b = true
    ∨ ∃ i < x.rows, ∃ j < 64, ∃ r ∈ span k m, o.Raises x r i j (o.stepped x i j k r (elt (s.accRow x.core x.rows o.tile i) 32 j)) b

theorem Accumulates.refl (k : Nat) (s : State) : Accumulates o x k k s s :=
  ⟨.refl s, KeepsRows.refl _ _ _ _, fun _ _ _ _ => (stepped_self ..).symm, fun b => by simp [span_self]⟩
theorem Accumulates.cons {k m : Nat} (hk : k < m) {s t : State} (h : Accumulates o x (k + 1) m (matStep o x k s) t) :
    Accumulates o x k m s t := by
  refine ⟨(keepsAround_matStep k s).trans h.around, (keepsRows_matStep k s).trans h.rows, fun i hi j hj => ?_, fun b => ?_⟩
  · rw [h.elts i hi j hj, elt_matStep k s hi hj, stepped_cons i j _ hk]
  · rw [h.flags, fflags_matStep, or_assoc]
    have hlater : ∀ i < x.rows, ∀ j < 64, ∀ r ∈ span (k + 1) m,
        o.stepped x i j (k + 1) r (elt ((matStep o x k s).accRow x.core x.rows o.tile i) 32 j)
          = o.stepped x i j k r (elt (s.accRow x.core x.rows o.tile i) 32 j) := fun i hi j hj r hr => by
      rw [elt_matStep k s hi hj, ← stepped_cons i j _ ((mem_span ..).1 hr).1]
    simp only [span_cons hk, List.exists_mem_cons_iff, stepped_self, and_or_left, exists_or]
    refine or_congr_right (or_congr_right ?_)
    exact exists_congr fun i => and_congr_right fun hi => exists_congr fun j => and_congr_right fun hj => exists_congr fun r =>
      and_congr_right fun hr => by rw [hlater i hi j hj r hr]

/-- Steps whose checks pass are all completed. -/
theorem matSteps_accumulates {n k m : Nat} (hm : k + n = m) (hc : ∀ r, k ≤ r → r < m → stepCheck o x r = none) (s : State) :
    ∃ t, matSteps o x n k s = (t, m, none) ∧ Accumulates o x k m s t := by
  induction n generalizing k s with
  | zero => subst hm; exact ⟨s, rfl, .refl k s⟩
  | succ n ih =>
    obtain ⟨t, ht, h⟩ := ih (k := k + 1) (by omega) (fun r h1 h2 => hc r (by omega) h2) (matStep o x k s)
    refine ⟨t, ?_, h.cons (by omega)⟩
    rw [matSteps, hc k (le_refl k) (by omega)]
    exact ht
end

end Sys2Proof.Machine

-- ==== Matrix steps: the operands, the instruction, and what it adds (O40) ====

namespace Sys2Proof.Machine

/-- What a computation that succeeds has bound. -/
theorem ok_of_bind_ok {α β : Type} {r : M α} {f : α → M β} {b : β} (h : r.bind f = .ok b) : ∃ a, r = .ok a ∧ f a = .ok b := by
  cases r with
  | error e => cases h
  | ok a => exact ⟨a, rfl, h⟩

/-! ## The fetch of the operands (07 R206) -/

/-- From `s` to `u` operands have been located and read: translations and the link may differ, the current thread and no accumulator do. -/
structure FetchKeeps (s u : State) : Prop where
  around : KeepsAround s u
  th : u.th = s.th
  acc : ∀ c, (u.unit c).acc = (s.unit c).acc

theorem FetchKeeps.refl (s : State) : FetchKeeps s s := ⟨.refl s, rfl, fun _ => rfl⟩
theorem FetchKeeps.trans {s t u : State} (h : FetchKeeps s t) (k : FetchKeeps t u) : FetchKeeps s u :=
  ⟨h.around.trans k.around, k.th.trans h.th, fun c => (k.acc c).trans (h.acc c)⟩
theorem FetchKeeps.accRow {s u : State} (h : FetchKeeps s u) (c rows t i : Nat) : u.accRow c rows t i = s.accRow c rows t i := by
  rw [State.accRow, h.acc, State.accRow]
theorem fetchKeeps_note (s : State) (ty op : Nat) (l : Loc) (d : List Byte) : FetchKeeps s (s.note ty op l d) := by
  refine ⟨⟨s.note_cur .., ?_, fun c => ?_, fun m => State.readLoc_note ..⟩, s.note_th .., fun c => ?_⟩
  · rw [s.note_th]
  · simp only [State.attOf, State.unit, s.note_units]
  · simp only [State.unit, s.note_units]
theorem fetchKeeps_noteReads (s : State) (l : List Loc) : FetchKeeps s (s.noteReads l) :=
  List.foldlRecOn (motive := FetchKeeps s) l _ (.refl s) fun _ h _ _ => h.trans (fetchKeeps_note ..)
theorem fetchKeeps_setMtlb (s : State) (l : List Trans) : FetchKeeps s (s.setTlb .m l) := by
  have h : ∀ c, ((s.setTlb .m l).unit c).acc = (s.unit c).acc ∧ ((s.setTlb .m l).unit c).even = (s.unit c).even
      ∧ ((s.setTlb .m l).unit c).odd = (s.unit c).odd := fun c => by
    by_cases e : c / 2 = s.core / 2
    · simp [State.setTlb, State.unit, e]
    · simp [State.setTlb, State.unit, SMap.get_set_ne _ _ _ _ _ e]
  exact ⟨⟨rfl, rfl, fun c => by simp only [State.attOf, h], fun m => by cases m <;> rfl⟩, rfl, fun c => (h c).1⟩
theorem fetchKeeps_locateAll (s : State) (level : Level) (tile : Bool) (n : Nat) (k : AKind) (l : List (Nat × Nat)) :
    FetchKeeps s (s.locateAll .m level tile n k l).1 := by
  induction l generalizing s with
  | nil => exact .refl s
  | cons p r ih =>
    simp only [State.locateAll]
    split
    · next loc t h =>
      obtain rfl | ⟨held, rfl⟩ := State.locateAt_state s t .m level tile p.2 n k loc h
      · exact ih _
      · exact (fetchKeeps_setMtlb s held).trans (ih _)
    · exact ih s
theorem fetchKeeps_fetchSides {s u : State} {ta tb : Bool} {la lb : Pieces} {r : (Nat × Nat) × (Nat × Nat)}
    (h : s.fetchSides ta tb la lb = .ok (u, r)) : FetchKeeps s u := by
  simp only [State.fetchSides] at h
  split at h
  · cases h
  · cases h
    exact ((fetchKeeps_locateAll ..).trans (fetchKeeps_locateAll ..)).trans (fetchKeeps_noteReads ..)
/-- A fetch leaves the thread and the accumulators, and its operands name the core and the rows of the attachment. -/
theorem fetchKeeps_matFetch {s u : State} {o : MatOp} {t : Attachment} {a b : BitVec 5} {k : Nat} {x : MatIn}
    (h : s.matFetch o t a b k = .ok (u, x)) : FetchKeeps s u ∧ x.core = s.core ∧ x.rows = t.rows := by
  unfold State.matFetch at h
  extract_lets mvl n addrA fA la rb lb at h
  obtain ⟨⟨v, ra, rbb⟩, hf, he⟩ := ok_of_bind_ok h
  have hk := fetchKeeps_fetchSides hf
  cases he
  exact ⟨hk, hk.around.core, rfl⟩

/-! ## The instruction (07 R206) -/

section
variable {o : MatOp} {x : MatIn} {s u : State} {t : Attachment} {a b : BitVec 5}

/-- The state after the last step: mprog is 0, and execution goes on. -/
def State.stepsDone (v : State) : State := ({ v with th := { v.th with mprog := 0 } } : State).advance
theorem State.stepsDone_th (v : State) :
    v.stepsDone.th = { v.th with mprog := 0, pc := v.th.pc + 4, cv := none, reissue := false } := rfl
theorem State.stepsDone_fflags (v : State) : v.stepsDone.th.fflags = v.th.fflags := rfl

theorem mop_mnogrant (o : MatOp) (a b : BitVec 5) (h : s.att = none) : mop o a b s = .next (s.takeTrap { cause := 35 }) := by
  simp only [mop, State.need, h]
  rfl
theorem mprog_lt_of_matPre (hp : s.matPre o t a b = .ok ()) : s.th.mprog < o.count s.th.mvl := by
  by_contra h
  rw [State.matPre, if_pos (.inr (.inl (Nat.not_lt.1 h)))] at hp
  cases hp
theorem stepCheck_none (ha : x.pa = 0) (hb : x.pb = 0) {k : Nat} (hk : o.kind = .mopq → badRaisin x k = none) : stepCheck o x k = none := by
  have hq : ¬ (o.kind = .mopq ∧ (badRaisin x k).isSome) := fun h => by simp [hk h.1] at h
  rw [stepCheck, if_neg hq, ha, hb, Nat.and_zero, Nat.and_zero]
  rfl
/-- A step instruction whose checks pass completes its steps from mprog, clears mprog and goes on. -/
theorem mop_accumulates (ht : s.att = some t) (hp : s.matPre o t a b = .ok ()) (hf : s.matFetch o t a b s.th.mprog = .ok (u, x))
    (ha : x.pa = 0) (hb : x.pb = 0) (hq : o.kind = .mopq → ∀ k < 16, badRaisin x k = none) :
    ∃ v, mop o a b s = .next v.stepsDone ∧ Accumulates o x s.th.mprog (o.count s.th.mvl) u v := by
  have hn := mprog_lt_of_matPre hp
  obtain ⟨v, hv, h⟩ := matSteps_accumulates (o := o) (x := x) (Nat.add_sub_of_le hn.le)
    (fun r _ hr => stepCheck_none ha hb fun hk => hq hk r (by rwa [MatOp.count, if_pos hk] at hr)) u
  refine ⟨v, ?_, h⟩
  simp only [mop, State.need, ht, hp, hf, bind, Except.bind, hv]
  rfl

end

end Sys2Proof.Machine

-- ==== Matrix steps: the account of an element, and the obligation (O40) ====

namespace Sys2Proof.Machine

/-! ## An element without and with raisins (03 R84, R96, R97) -/

section
variable {o : MatOp} {x : MatIn}

/-- An account of a step, the flags and the value that it gives to an element that holds `c`, agrees with the model in the rows held. -/
def MatOp.Accounts (o : MatOp) (x : MatIn) (one : Nat → Nat → Nat → Nat → List Nat × Nat) : Prop :=
  ∀ i < x.rows, ∀ j k c, (one i j k c).2 = (o.stepElt x k i j c).val
    ∧ ∀ b, (∃ f ∈ (one i j k c).1, f.testBit b = true) ↔ o.Raises x k i j c b

theorem not_escaped (hk : o.kind ≠ .mopq) (i k : Nat) : o.escaped x i k = false := by simp [MatOp.escaped, hk]
theorem escaped_iff (hk : o.kind = .mopq) (i k : Nat) :
    o.escaped x i k = true ↔ (x.header / 2 ^ 256 % 4 = 1 ∧ elt x.ia 4 (64 * i + k) = 15)
      ∨ (x.header / 2 ^ 256 % 4 = 2 ∧ 14 ≤ elt x.ia 4 (64 * i + k)) := by
  simp [MatOp.escaped, hk, isEscape, bits, Nat.shiftRight_eq_div_pow]
theorem stepElt_dense (hk : o.kind ≠ .mopq) (k i j c : Nat) :
    o.stepElt x k i j c
      = denseElt false o.neg c ((o.indices k).map fun r => some (o.adec x i r).1) ((o.indices k).map fun r => (o.bdec x r j).1) := by
  simp [MatOp.stepElt, MatOp.denseOf, hk, not_escaped hk, beq_eq_false_iff_ne.2 hk]
/-- The dense value of the code a[i][k] of a tile record (03 R84). -/
def MatIn.codeValue (x : MatIn) (i k : Nat) : Rounded :=
  decScaled .bf16 (elt x.header 16 (elt x.ia 4 (64 * i + k))) (elt x.ia 8 (2048 + 2 * i + k / 32))
theorem adec_mopq (hk : o.kind = .mopq) (i k : Nat) :
    o.adec x i k = if o.escaped x i k then (.fin false 0 0, 0) else (dec .f32 (x.codeValue i k).val, (x.codeValue i k).flags) := by
  unfold MatOp.adec
  rw [hk]
  rfl
theorem denseOf_mopq (hk : o.kind = .mopq) (hn : o.neg = false) (k i j c : Nat) :
    o.denseOf x k i j c
      = denseElt true false c ((o.indices k).map fun r => if o.escaped x i r then none else some (dec .f32 (x.codeValue i r).val))
          ((o.indices k).map fun r => (o.bdec x r j).1) := by
  have h : ∀ r, (if o.escaped x i r then none else some (o.adec x i r).1)
      = if o.escaped x i r then none else some (dec .f32 (x.codeValue i r).val) := fun r => by
    rw [adec_mopq hk]
    split <;> rfl
  simp only [MatOp.denseOf, h, hn, hk]
  rfl
theorem relevant_row {i : Nat} (hi : i < x.rows) (k : Nat) :
    (relevant x k).filter (fun e => e.1 / 64 == i) = (raisinEntries x.list).filter fun e => e.1 / 64 == i && e.1 % 64 / 4 == k := by
  rw [relevant, List.filter_filter]
  refine List.filter_congr fun e _ => Bool.eq_iff_iff.2 ?_
  simp only [Bool.and_eq_true, beq_iff_eq, decide_eq_true_eq]
  exact ⟨fun h => ⟨h.1, h.2.2⟩, fun h => ⟨h.1, h.1 ▸ hi, h.2⟩⟩

/-- One raisin entry added to an element, with the list of the flags so far (03 R97). -/
def MatOp.addRaisin (o : MatOp) (x : MatIn) (j : Nat) (z : List Nat × Nat) (e : Nat × Nat) : List Nat × Nat :=
  let product := stepRound ((dec .f32 e.2).mul (o.bdec x (e.1 % 64) j).1).1
  let sum := stepRound ((dec .f32 z.2).add (dec .f32 product.val) .rne).1
  (z.1 ++ [product.flags, sum.flags], sum.val)
/-- The raisin entries of an element: the value, and the flags beside those, `P`, that the list holds already. -/
theorem foldl_addRaisin (j : Nat) (l : List (Nat × Nat)) {z : List Nat × Nat} {r : Rounded} (hv : z.2 = r.val) :
    (l.foldl (o.addRaisin x j) z).2 = (l.foldl (escapeElt o x j) r).val
    ∧ ∀ (b : Nat) (P : Prop), ((∃ f ∈ z.1, f.testBit b = true) ↔ r.flags.testBit b = true ∨ P) →
        ((∃ f ∈ (l.foldl (o.addRaisin x j) z).1, f.testBit b = true) ↔ (l.foldl (escapeElt o x j) r).flags.testBit b = true ∨ P) := by
  induction l generalizing z r with
  | nil => exact ⟨hv, fun _ _ h => h⟩
  | cons e l ih =>
    have hsum : (o.addRaisin x j z e).2 = (escapeElt o x j r e).val := by simp only [MatOp.addRaisin, hv]; rfl
    obtain ⟨hval, hflags⟩ := ih hsum
    refine ⟨hval, fun b P h => hflags b P ?_⟩
    simp only [MatOp.addRaisin, hv, escapeElt, dec32, List.mem_append, or_and_right, exists_or, h, List.exists_mem_cons_iff, List.not_mem_nil,
      false_and, exists_false, or_false, Nat.testBit_or, Bool.or_eq_true]
    tauto

/-! ## The accounts of a step -/

/-- What MOPA, MOPS and MOPG add to an element (03 R96). -/
def MatOp.denseAccount (o : MatOp) (x : MatIn) (i j k c : Nat) : List Nat × Nat :=
  let y := denseElt false o.neg c ((o.indices k).map fun k => some (o.adec x i k).1) ((o.indices k).map fun k => (o.bdec x k j).1)
  (y.flags :: (o.indices k).flatMap fun k => [(o.adec x i k).2, (o.bdec x k j).2], y.val)
/-- What MOPQ adds to an element: its dense part, then its raisin entries (03 R84, R97). -/
def MatOp.quantisedAccount (o : MatOp) (x : MatIn) (i j k c : Nat) : List Nat × Nat :=
  let esc := x.header / 2 ^ 256 % 4
  let code := fun k => elt x.ia 4 (64 * i + k)
  let escaped := fun k => (esc = 1 ∧ code k = 15) ∨ (esc = 2 ∧ 14 ≤ code k)
  let ks := span (4 * k) (4 * k + 4)
  let y := denseElt true false c (ks.map fun k => if escaped k then none else some (dec .f32 (x.codeValue i k).val))
    (ks.map fun k => (o.bdec x k j).1)
  ((raisinEntries x.list).filter fun y => y.1 / 64 == i && y.1 % 64 / 4 == k).foldl (o.addRaisin x j)
    (y.flags :: ks.flatMap fun k => [if escaped k then 0 else (x.codeValue i k).flags, (o.bdec x k j).2], y.val)

theorem exists_mem_flatMap {α β : Type} (l : List α) (f : α → List β) (p : β → Prop) :
    (∃ y ∈ l.flatMap f, p y) ↔ ∃ a ∈ l, ∃ y ∈ f a, p y := by
  simp only [List.mem_flatMap]
  exact ⟨fun ⟨y, ⟨a, ha, hy⟩, h⟩ => ⟨a, ha, y, hy, h⟩, fun ⟨a, ha, y, hy, h⟩ => ⟨y, ⟨a, ha, hy⟩, h⟩⟩
theorem exists_mem_flags (y : Nat) (ks : List Nat) (f g : Nat → Nat) (p : Nat → Prop) :
    (∃ z ∈ y :: ks.flatMap fun r => [f r, g r], p z) ↔ p y ∨ ∃ r ∈ ks, p (f r) ∨ p (g r) := by
  simp only [List.exists_mem_cons_iff, exists_mem_flatMap, List.not_mem_nil, false_and, exists_false, or_false]
theorem accounts_dense (hk : o.kind ≠ .mopq) : o.Accounts x (o.denseAccount x) := fun i _ j k c => by
  unfold MatOp.Raises
  rw [stepElt_dense hk]
  exact ⟨rfl, fun b => exists_mem_flags ..⟩
theorem accounts_quantised (hk : o.kind = .mopq) (hp : o.p = 4) (hn : o.neg = false) : o.Accounts x (o.quantisedAccount x) :=
    fun i hi j k c => by
  have hks : span (4 * k) (4 * k + 4) = o.indices k := by rw [MatOp.indices, hp, Nat.mul_comm]
  unfold MatOp.Raises
  rw [MatOp.stepElt, if_pos hk, relevant_row hi]
  simp only [MatOp.quantisedAccount, ← escaped_iff hk, hks, ← denseOf_mopq hk hn]
  have hflag : ∀ r, (if o.escaped x i r then 0 else (x.codeValue i r).flags) = (o.adec x i r).2 := fun r => by
    rw [adec_mopq hk]
    split <;> rfl
  simp only [hflag]
  obtain ⟨hval, hflags⟩ := foldl_addRaisin (o := o) (x := x) j ((raisinEntries x.list).filter fun y => y.1 / 64 == i && y.1 % 64 / 4 == k)
    (z := ((o.denseOf x k i j c).flags :: (o.indices k).flatMap fun r => [(o.adec x i r).2, (o.bdec x r j).2], (o.denseOf x k i j c).val)) rfl
  exact ⟨hval, fun b => hflags b _ (exists_mem_flags ..)⟩
end

/-! ## The instruction, by an account of its steps -/

section
variable {o : MatOp} {x : MatIn} {s u : State} {t : Attachment} {a b : BitVec 5}

theorem stepped_eq_account {one : Nat → Nat → Nat → Nat → List Nat × Nat} (hone : o.Accounts x one) {i : Nat} (hi : i < x.rows)
    (j k m c : Nat) :
    o.stepped x i j k m c = (span k m).foldl (fun c k => (one i j k c).2) c :=
  congrArg (fun f => (span k m).foldl f c) (funext fun c => funext fun k => (hone i hi j k c).1.symm)
/-- A step instruction whose checks pass leaves the elements, and the flags, that any account of its steps gives, and nothing else changed. -/
theorem mop_adds (ht : s.att = some t) (hp : s.matPre o t a b = .ok ()) (hf : s.matFetch o t a b s.th.mprog = .ok (u, x))
    (ha : x.pa = 0) (hb : x.pb = 0) (hq : o.kind = .mopq → ∀ k < 16, badRaisin x k = none) :
    ∃ r, mop o a b s = .next r
      ∧ r.th = { s.th with fflags := r.th.fflags, mprog := 0, pc := s.th.pc + 4, cv := none, reissue := false }
      ∧ KeepsRows s r s.core t.rows o.tile ∧ r.att = s.att ∧ SameBytes s r
      ∧ ∀ one, o.Accounts x one →
          let before := fun i j k => (span s.th.mprog k).foldl (fun c k => (one i j k c).2) (elt (s.accRow s.core t.rows o.tile i) 32 j)
          (∀ i < t.rows, ∀ j < 64, elt (r.accRow s.core t.rows o.tile i) 32 j = before i j (o.count s.th.mvl))
          ∧ r.th.fflags = ((List.range t.rows).flatMap fun i => (List.range 64).flatMap fun j =>
              (span s.th.mprog (o.count s.th.mvl)).flatMap fun k => (one i j k (before i j k)).1).foldl (· ||| ·) s.th.fflags := by
  obtain ⟨v, hv, h⟩ := mop_accumulates ht hp hf ha hb hq
  obtain ⟨hk, hcore, hrows⟩ := fetchKeeps_matFetch hf
  have haround := hk.around.trans h.around
  have hkeep := h.rows
  have helts := h.elts
  have hflags := h.flags
  simp only [hcore, hrows, hk.accRow, hk.th] at hkeep helts hflags
  refine ⟨_, hv, ?_, fun y hy => (hkeep y hy).trans (by rw [hk.acc]), haround.attached, fun l => (State.readLoc_th ..).trans (haround.bytes l),
    fun one hone => ⟨fun i hi j hj => ?_, Nat.eq_of_testBit_eq fun b => Bool.eq_iff_iff.2 ?_⟩⟩
  · rw [State.stepsDone_th, haround.th]
  · exact (helts i hi j hj).trans (stepped_eq_account hone (hrows ▸ hi) ..)
  · rw [State.stepsDone_fflags, testBit_foldl_or, hflags]
    simp only [exists_mem_flatMap, List.mem_range]
    refine or_congr_right (exists_congr fun i => and_congr_right fun hi => exists_congr fun j => and_congr_right fun _ => exists_congr fun k =>
      and_congr_right fun _ => ?_)
    rw [stepped_eq_account hone (hrows ▸ hi)]
    exact ((hone i (hrows ▸ hi) j k _).2 b).symm
end

/-- Settles O40: the step instruction completes its steps (`mop_adds`), each of which gives every element what the account of its kind says. -/
theorem matrixAccumulate : Obligations.MatrixAccumulate := by
  unfold Obligations.MatrixAccumulate
  intro s u d a b n q p h ops e he
  obtain ⟨hexec, htile, hmopq⟩ : exec e.1 s = mop e.2.1 a e.2.2 s ∧ e.2.1.tile = d.toNat
      ∧ (e.2.1.kind = .mopq → e.2.1.p = 4 ∧ e.2.1.neg = false) := by
    simp only [ops, List.mem_cons, List.not_mem_nil, or_false] at he
    rcases he with rfl | rfl | rfl | rfl | rfl | rfl
    · exact ⟨rfl, rfl, nofun⟩
    · exact ⟨rfl, rfl, nofun⟩
    · exact ⟨rfl, rfl, nofun⟩
    · exact ⟨rfl, rfl, nofun⟩
    · exact ⟨rfl, rfl, nofun⟩
    · exact ⟨rfl, rfl, fun _ => ⟨rfl, rfl⟩⟩
  refine ⟨fun hn => hexec.trans (mop_mnogrant _ _ _ hn), fun t x ht _ hp hf ha hb hq => ?_⟩
  obtain ⟨r, hr, hth, hrows, hatt, hbytes, hadds⟩ := mop_adds ht hp hf ha hb hq
  rw [htile] at hrows hadds
  refine ⟨r, hexec.trans hr, hth, hrows, hatt, hbytes, ?_⟩
  refine hadds (if e.2.1.kind = .mopq then e.2.1.quantisedAccount x else e.2.1.denseAccount x) ?_
  split
  · next hk => exact accounts_quantised hk (hmopq hk).1 (hmopq hk).2
  · next hk => exact accounts_dense hk

end Sys2Proof.Machine

-- ==== Scalar integer instructions: values by their arithmetic (O1, O2, O3) ====

namespace Sys2Proof.Machine

/-! ## Integer operations by the values of their operands (04 R100, R101) -/

section
variable {w : Nat} (a b : BitVec w)

theorem aluSra_eq_ofInt : aluSra a b = BitVec.ofInt w (a.toInt / 2 ^ (b.toNat % w)) := by
  rw [aluSra, shCount, BitVec.sshiftRight, Int.shiftRight_eq_div_pow]
  norm_cast
theorem aluSlt_eq_ite : aluSlt a b = if a.toInt < b.toInt then 1 else 0 := by simp [aluSlt, BitVec.slt]
theorem aluSltn_eq_ite : aluSltn a b = if a.toNat < b.toNat then 1 else 0 := by simp [aluSltn, BitVec.ult]
theorem aluMul_eq_ofNat : aluMul a b = BitVec.ofNat w (a.toNat * b.toNat) := by simp [aluMul, BitVec.ofNat_mul]
theorem aluDiv_eq_ofInt : aluDiv a b = if b = 0 then -1 else BitVec.ofInt w (a.toInt.tdiv b.toInt) := by
  have h : a.sdiv b = BitVec.ofInt w (a.toInt.tdiv b.toInt) := by
    apply BitVec.eq_of_toInt_eq
    rw [BitVec.toInt_sdiv, BitVec.toInt_ofInt]
  rw [aluDiv, h, ← BitVec.neg_one_eq_allOnes]
  rfl
theorem aluDivn_eq_ofNat : aluDivn a b = if b = 0 then -1 else BitVec.ofNat w (a.toNat / b.toNat) := by
  rw [aluDivn, ← BitVec.neg_one_eq_allOnes, ← BitVec.toNat_udiv, BitVec.ofNat_toNat]
  simp
theorem aluRem_eq_ofInt : aluRem a b = if b = 0 then a else BitVec.ofInt w (a.toInt.tmod b.toInt) := by
  rw [aluRem, ← BitVec.toInt_srem, BitVec.ofInt_toInt]
theorem aluRemn_eq_ofNat : aluRemn a b = if b = 0 then a else BitVec.ofNat w (a.toNat % b.toNat) := by
  rw [aluRemn, ← BitVec.toNat_umod, BitVec.ofNat_toNat]
  simp
theorem aluMin_eq_ite : aluMin a b = if b.toInt < a.toInt then b else a := by simp [aluMin, BitVec.slt]
theorem aluMax_eq_ite : aluMax a b = if a.toInt < b.toInt then b else a := by simp [aluMax, BitVec.slt]
theorem aluMinn_eq_ite : aluMinn a b = if b.toNat < a.toNat then b else a := by simp [aluMinn, BitVec.ult]
theorem aluMaxn_eq_ite : aluMaxn a b = if a.toNat < b.toNat then b else a := by simp [aluMaxn, BitVec.ult]
theorem aluRotl_eq_or : aluRotl a b = a <<< (b.toNat % w) ||| a >>> (w - b.toNat % w) := by
  rw [aluRotl, shCount, BitVec.rotateLeft_def, Nat.mod_mod]
theorem aluRotr_eq_or : aluRotr a b = a >>> (b.toNat % w) ||| a <<< (w - b.toNat % w) := by
  rw [aluRotr, shCount, BitVec.rotateRight_def, Nat.mod_mod]

end

/-- An instruction that writes `x` to g[d] and goes on does so with whatever `x` equals. -/
theorem writesReg_of_eq {i : Instr} {s : State} {d : BitVec 5} {x y : Word} (h : exec i s = .next (s.wrAdvance d x)) (e : x = y) :
    WritesReg i s d y := e ▸ writesReg_of_exec i s d x h

/-- Settles O1: each operation is the ALU operation of its name, and that is the arithmetic of the statement. -/
theorem scalarIntegerResults : Obligations.ScalarIntegerResults := by
  unfold Obligations.ScalarIntegerResults
  intro s d a b
  exact ⟨writesReg_of_eq rfl rfl, writesReg_of_eq rfl rfl, writesReg_of_eq rfl rfl, writesReg_of_eq rfl rfl, writesReg_of_eq rfl rfl,
    writesReg_of_eq rfl rfl, writesReg_of_eq rfl rfl, writesReg_of_eq rfl (aluSra_eq_ofInt ..), writesReg_of_eq rfl (aluSlt_eq_ite ..),
    writesReg_of_eq rfl (aluSltn_eq_ite ..), writesReg_of_eq rfl (aluMul_eq_ofNat ..), writesReg_of_eq rfl rfl, writesReg_of_eq rfl rfl,
    writesReg_of_eq rfl (aluDiv_eq_ofInt ..), writesReg_of_eq rfl (aluDivn_eq_ofNat ..), writesReg_of_eq rfl (aluRem_eq_ofInt ..),
    writesReg_of_eq rfl (aluRemn_eq_ofNat ..), writesReg_of_eq rfl (aluMin_eq_ite ..), writesReg_of_eq rfl (aluMax_eq_ite ..),
    writesReg_of_eq rfl (aluMinn_eq_ite ..), writesReg_of_eq rfl (aluMaxn_eq_ite ..), writesReg_of_eq rfl (aluRotl_eq_or ..),
    writesReg_of_eq rfl (aluRotr_eq_or ..), writesReg_of_eq rfl rfl⟩

/-! ## Bits counted and bytes reversed (04 R100) -/

/-- The leading zeros of a number of `n` bits: it fits in the bits that are left, and its highest one bit is the top one of those. -/
theorem lzBits_spec {x n : Nat} (h : x < 2 ^ n) :
    lzBits x n ≤ n ∧ x < 2 ^ (n - lzBits x n) ∧ (lzBits x n < n → 2 ^ (n - 1 - lzBits x n) ≤ x) := by
  induction n with
  | zero => exact ⟨Nat.le_refl _, h, fun hn => absurd hn (Nat.lt_irrefl _)⟩
  | succ n ih =>
    rw [lzBits]
    split
    · next ht => exact ⟨Nat.zero_le _, h, fun _ => Nat.ge_two_pow_of_testBit ht⟩
    · next ht =>
      have hx : x < 2 ^ n := by
        by_contra hge
        exact ht ((Nat.testBit_eq_decide_div_mod_eq).trans (by
          rw [Nat.pow_succ] at h
          rw [show x / 2 ^ n = 1 from Nat.div_eq_of_lt_le (by omega) (by omega)]; rfl))
      obtain ⟨hle, hlt, hge⟩ := ih hx
      refine ⟨by omega, ?_, fun hn => ?_⟩
      · rwa [show n + 1 - (1 + lzBits x n) = n - lzBits x n by omega]
      · rw [show n + 1 - 1 - (1 + lzBits x n) = n - 1 - lzBits x n by omega]
        exact hge (by omega)

theorem two_pow_succ_dvd_iff {x i : Nat} (h : 2 ^ i ∣ x) : 2 ^ (i + 1) ∣ x ↔ x.testBit i = false := by
  obtain ⟨m, rfl⟩ := h
  rw [Nat.pow_succ, Nat.mul_dvd_mul_iff_left (Nat.two_pow_pos i), Nat.testBit_eq_decide_div_mod_eq,
    Nat.mul_div_cancel_left m (Nat.two_pow_pos i), decide_eq_false_iff_not]
  omega

/-- The trailing zeros of a number divisible by 2^i, from bit `i` on: the power of two that divides it. -/
theorem tzBits_spec {x i : Nat} (n : Nat) (h : 2 ^ i ∣ x) :
    tzBits x i n ≤ n ∧ 2 ^ (i + tzBits x i n) ∣ x ∧ (tzBits x i n < n → ¬ 2 ^ (i + tzBits x i n + 1) ∣ x) := by
  induction n generalizing i with
  | zero => exact ⟨Nat.le_refl _, h, fun hn => absurd hn (Nat.lt_irrefl _)⟩
  | succ n ih =>
    rw [tzBits]
    split
    · next ht => exact ⟨Nat.zero_le _, h, fun _ hd => by rw [(two_pow_succ_dvd_iff h).1 hd] at ht; cases ht⟩
    · next ht =>
      obtain ⟨hle, hdvd, hlast⟩ := ih ((two_pow_succ_dvd_iff h).2 (by simpa using ht))
      rw [← Nat.add_assoc]
      exact ⟨by omega, hdvd, fun hn => hlast (by omega)⟩

theorem two_pow_place {n : Nat} : 2 ^ (8 * n) = 256 ^ n := by rw [Nat.pow_mul]
theorem pow_mod_place {i j : Nat} (h : i < j) : 256 ^ j % (256 ^ i * 256) = 0 :=
  Nat.mod_eq_zero_of_dvd (by rw [← Nat.pow_succ]; exact Nat.pow_dvd_pow _ h)

theorem swapBytes_le (x : Nat) {n : Nat} (hn : n ≤ 8) : swapBytes x n + 256 ^ (8 - n) ≤ 2 ^ 64 := by
  induction n with
  | zero => norm_num [swapBytes]
  | succ n ih =>
    have hp : 256 ^ (8 - n) = 256 * 256 ^ (7 - n) := by rw [← Nat.pow_succ', show 8 - n = 7 - n + 1 by omega]
    have hb : x / 2 ^ (8 * n) % 256 * 256 ^ (7 - n) ≤ 255 * 256 ^ (7 - n) := Nat.mul_le_mul_right _ (by omega)
    have := ih (by omega)
    rw [swapBytes, two_pow_place (n := 7 - n), show 8 - (n + 1) = 7 - n by omega]
    omega
/-- Byte `i` of the reversed number is byte 7 − i, once that has been moved. -/
theorem swapBytes_byte (x : Nat) {n i : Nat} (hn : n ≤ 8) (hi : i < 8) :
    swapBytes x n / 256 ^ i % 256 = if 7 - i < n then x / 256 ^ (7 - i) % 256 else 0 := by
  induction n generalizing i with
  | zero => simp [swapBytes]
  | succ n ih =>
    have hlt : x / 2 ^ (8 * n) % 256 < 256 := Nat.mod_lt _ (by decide)
    have h0 : swapBytes x n / 256 ^ (7 - n) % 256 = 0 := (ih (by omega) (by omega)).trans (if_neg (by omega))
    rw [swapBytes, two_pow_place (n := 7 - n)]
    obtain h | h | h : i < 7 - n ∨ i = 7 - n ∨ 7 - n < i := by omega
    · rw [add_field_above (pow_mod_place h), ih (by omega) hi, if_neg (by omega), if_neg (by omega)]
    · subst h
      rw [add_field_same hlt (by positivity) h0, if_pos (by omega), two_pow_place, show 7 - (7 - n) = n by omega]
    · rw [add_div_below hlt (pow_mod_place h) (by positivity) h0, ih (by omega) hi]
      split <;> split <;> omega

/-- Settles O2, by what the model counts of the bits of the operand. -/
theorem scalarBitResults : Obligations.ScalarBitResults := by
  unfold Obligations.ScalarBitResults
  intro s d a
  obtain ⟨hle, hlt, hge⟩ := lzBits_spec (s.rd a).isLt
  obtain ⟨tle, tdvd, tlast⟩ := tzBits_spec (x := (s.rd a).toNat) (i := 0) 64 (Nat.one_dvd _)
  rw [Nat.zero_add] at tdvd tlast
  refine ⟨⟨_, hle, writesReg_of_eq rfl rfl, hlt, hge⟩, ⟨_, tle, writesReg_of_eq rfl rfl, tdvd, tlast⟩, ?_, _, writesReg_of_eq rfl rfl, fun i hi => ?_⟩
  · exact writesReg_of_eq rfl (congrArg _ (popBits_eq_length_filter ..))
  · have hlt : swapBytes (s.rd a).toNat 8 < 2 ^ 64 := swapBytes_le _ (Nat.le_refl 8)
    rw [BitVec.toNat_ofNat, Nat.mod_eq_of_lt hlt, swapBytes_byte _ (Nat.le_refl 8) hi, if_pos (by omega)]

/-! ## Immediates (02 R48, 04 R102 to R104) -/

theorem toNat_setWidth_mod (n : BitVec 6) : (n.setWidth 64).toNat % 64 = n.toNat := by
  simp
  omega

/-- Settles O3: an immediate form is the operation of its name on the extended immediate. -/
theorem scalarImmediateResults : Obligations.ScalarImmediateResults := by
  unfold Obligations.ScalarImmediateResults
  intro s d a i n j
  exact ⟨writesReg_of_eq rfl rfl, writesReg_of_eq rfl rfl, writesReg_of_eq rfl rfl, writesReg_of_eq rfl rfl, writesReg_of_eq rfl (aluSlt_eq_ite ..),
    writesReg_of_eq rfl (aluSltn_eq_ite ..), writesReg_of_eq rfl (by rw [aluSll, shCount, toNat_setWidth_mod]),
    writesReg_of_eq rfl (by rw [aluSrl, shCount, toNat_setWidth_mod]),
    writesReg_of_eq rfl (by rw [aluSra_eq_ofInt, toNat_setWidth_mod]), writesReg_of_eq rfl (by rw [aluRotr_eq_or, toNat_setWidth_mod]),
    writesReg_of_eq rfl (by rw [BitVec.shiftLeft_eq_mul_twoPow, BitVec.ofInt_mul]; rfl),
    writesReg_of_eq rfl (by rw [BitVec.ofInt_mul]; rfl)⟩

end Sys2Proof.Machine

-- ==== Scalar control transfers (O4) ====

namespace Sys2Proof.Machine
variable {s : State}

/-! ## Transfers to a target (04 R105 to R107, 09 R262) -/

/-- A target inside the window of the level takes control, with the link in g[D]. -/
theorem goesTo_of_transfer {i : Instr} {d : BitVec 5} {link target : Word} (hi : exec i s = finish (s.transfer d link target))
    (hw : s.inWindow s.th.level s.core target.toNat = true) : GoesTo i s d link target :=
  goesTo_of_exec i s d link target (by rw [hi, State.transfer, if_pos hw]; rfl)
/-- A target outside it takes CODEWIN. -/
theorem takes_of_transfer {i : Instr} {d : BitVec 5} {link target : Word} (hi : exec i s = finish (s.transfer d link target))
    (hw : s.inWindow s.th.level s.core target.toNat = false) : Takes i s { cause := 5, tval := target } := by
  rw [Takes, hi, State.transfer, hw]
  rfl
/-- A conditional branch by its condition: not taken, taken inside the window, and taken outside it. -/
theorem branch_spec {i : Instr} {c : Word → Word → Bool} {a b : BitVec 5} {o : BitVec 14} {p : Prop} (hi : exec i s = branch c a b o s)
    (hc : c (s.rd a) (s.rd b) = true ↔ p) :
    let target := s.th.pc + BitVec.ofInt 64 (o.toInt * 4)
    (¬ p → GoesTo i s 0 0 (s.th.pc + 4)) ∧ (p → s.inWindow s.th.level s.core target.toNat = true → GoesTo i s 0 0 target)
      ∧ (p → s.inWindow s.th.level s.core target.toNat = false → Takes i s { cause := 5, tval := target }) := by
  have taken : p → exec i s = finish (s.transfer 0 0 (s.th.pc + simm4 o)) := fun h => by rw [hi, branch, if_pos (hc.2 h)]
  rw [BitVec.ofInt_mul]
  refine ⟨fun h => ?_, fun h => goesTo_of_transfer (taken h), fun h => takes_of_transfer (taken h)⟩
  exact goesTo_of_exec i s 0 0 _ (by rw [hi, branch, if_neg (fun e => h (hc.1 e))]; rfl)

/-- JALR to a target that is a multiple of 4 and not the exit address. -/
theorem exec_jalr_of_aligned {d a : BitVec 5} {i : BitVec 14} (h4 : (s.rd a + simm i).toNat % 4 = 0) (he : s.rd a + simm i ≠ exitAddress) :
    exec (.jalr d a i) s = finish (s.transfer d (s.th.pc + 4) (s.rd a + simm i)) := by
  change execJalr d a i s = _
  simp only [execJalr]
  rw [if_neg (not_not.2 h4), if_neg he]
theorem exec_jalr_of_misaligned {d a : BitVec 5} {i : BitVec 14} (h4 : (s.rd a + simm i).toNat % 4 ≠ 0) :
    Takes (.jalr d a i) s { cause := 4, tval := s.rd a + simm i } := by
  change execJalr d a i s = _
  simp only [execJalr]
  rw [if_pos h4]
  rfl
theorem exec_jalr_of_exit {d a : BitVec 5} {i : BitVec 14} (he : s.rd a + simm i = exitAddress) :
    exec (.jalr d a i) s = .next { s with th := { s.th with status := .ending false, cv := none } } := by
  change execJalr d a i s = _
  simp only [execJalr, he]
  rfl

/-- Settles O4, by whether a branch is taken and where the target lies. -/
theorem controlTransfers : Obligations.ControlTransfers := by
  unfold Obligations.ControlTransfers
  intro s d a b o i j
  dsimp only
  have jal : exec (.jal d j) s = finish (s.transfer d (s.th.pc + 4) (s.th.pc + BitVec.ofInt 64 (j.toInt * 4))) := by
    rw [BitVec.ofInt_mul]; rfl
  exact ⟨branch_spec (c := fun x y => x == y) rfl beq_iff_eq, branch_spec (c := fun x y => x != y) rfl bne_iff_ne,
    branch_spec (c := fun x y => x.slt y) rfl BitVec.slt_iff_toInt_lt,
    branch_spec (c := fun x y => !x.slt y) rfl (by simp [BitVec.slt]),
    branch_spec (c := fun x y => x.ult y) rfl BitVec.ult_iff_lt, branch_spec (c := fun x y => !x.ult y) rfl (by simp [BitVec.ult]),
    goesTo_of_transfer jal, takes_of_transfer jal,
    fun h4 he => goesTo_of_transfer (exec_jalr_of_aligned h4 he), exec_jalr_of_misaligned,
    fun h4 he => takes_of_transfer (exec_jalr_of_aligned h4 he), exec_jalr_of_exit⟩

end Sys2Proof.Machine

-- ==== Scalar loads, stores and atomics (O5, O6, O7) ====

namespace Sys2Proof.Machine
variable {s u : State}

/-! ## A scalar access that can be performed (04 R109 to R111) -/

/-- Of a scalar access that can be performed only the VTLB of the core may have changed. -/
theorem State.scalarLoc_state {ea : Word} {n : Nat} {k : AKind} {l : Loc} (h : s.scalarLoc ea n k = .ok (l, u)) :
    u = s ∨ ∃ held, u = s.setTlb .v held := by
  unfold State.scalarLoc at h
  dsimp only at h
  split at h
  · cases h
  · next l1 s1 e =>
    split at h
    · cases h
    · cases h
      exact s.locateAt_state _ _ _ _ _ _ _ _ e

/-- What an access leaves as it was: the thread, and what memory holds and where it goes. -/
structure Located (s u : State) : Prop where
  th : u.th = s.th
  bytes : SameBytes s u
  ksl : u.ksl = s.ksl
  migrations : u.migrations = s.migrations
  wf : s.wf = true → u.wf = true

theorem located_refl (s : State) : Located s s := ⟨rfl, fun _ => rfl, rfl, rfl, id⟩
theorem located_setVtlb (s : State) (held : List Trans) : Located s (s.setTlb .v held) := by
  have h : SameBytes s (s.setTlb .v held) := s.sameBytes_updCore s.core (f := fun c => { c with vtlb := held }) fun _ => rfl
  exact ⟨s.setTlb_th .., h, s.setTlb_ksl .., s.setTlb_migrations .., s.wf_setTlb .v held⟩
theorem located_scalarLoc {ea : Word} {n : Nat} {k : AKind} {l : Loc} (h : s.scalarLoc ea n k = .ok (l, u)) : Located s u := by
  obtain rfl | ⟨held, rfl⟩ := State.scalarLoc_state h
  · exact located_refl _
  · exact located_setVtlb s held

/-! ## Loads and stores (04 R108) -/

/-- A load that can be performed writes the bytes at its location, extended. -/
theorem load_writes {i : Instr} {n : Nat} {sg : Bool} {d a : BitVec 5} {im : BitVec 14} {l : Loc} (hi : exec i s = load n sg d a im s)
    (hl : s.scalarLoc (s.rd a + simm im) n .read = .ok (l, u)) :
    ∃ t, exec i s = .next t
      ∧ Holds d (if sg then BitVec.ofInt 64 (BitVec.ofNat (8 * n) (s.bytesAt l n)).toInt else BitVec.ofNat 64 (s.bytesAt l n)) t
      ∧ KeepsRegs d s t ∧ t.th.pc = s.th.pc + 4 ∧ OnlyScalars s.th t.th ∧ SameBytes s t := by
  have hu := located_scalarLoc hl
  have hv : (u.noteReads [l]).th = s.th := (State.note_th ..).trans hu.th
  have hx : u.readLoc l n = s.bytesAt l n := (hu.bytes.readLoc l n).trans (s.readLoc_eq_bytesAt l n)
  obtain ⟨hd, hk, ht⟩ := State.passes_wrAdvance hv d
    (if sg then BitVec.ofInt 64 (BitVec.ofNat (8 * n) (s.bytesAt l n)).toInt else BitVec.ofNat 64 (s.bytesAt l n))
  refine ⟨_, ?_, hd, hk, by rw [ht], ?_, State.sameBytes_wrAdvance (fun m => ?_) _ _⟩
  · rw [hi, load, hl]
    simp only [bind, Except.bind, hx]
    rfl
  · rw [OnlyScalars, ht]
  · exact (State.readLoc_note ..).trans (hu.bytes m)

/-- A store that can be performed writes the low bytes of g[D]. -/
theorem store_writes {i : Instr} {n : Nat} {d a : BitVec 5} {im : BitVec 14} {l : Loc} (hi : exec i s = store n d a im s) (hw : s.wf = true)
    (hl : s.scalarLoc (s.rd a + simm im) n .write = .ok (l, u)) :
    ∃ t, exec i s = .next t ∧ t.th = { s.th with pc := s.th.pc + 4, cv := none, reissue := false } ∧ Stored s t l n (s.rd d).toNat := by
  have hu := located_scalarLoc hl
  refine ⟨(u.writeLoc l n (s.rd d).toNat).advance, ?_, ?_, ?_⟩
  · rw [hi, store, hl]
    rfl
  · rw [State.advance, State.writeLoc_th, hu.th]
  · exact (u.stored_writeLoc l n (s.rd d).toNat (hu.wf hw)).of_same hu.bytes hu.migrations hu.ksl
      (fun m => State.readLoc_th ..) fun _ _ => rfl

/-- Settles O5, by the bytes and the extension of each load. -/
theorem scalarLoadResults : Obligations.ScalarLoadResults := by
  unfold Obligations.ScalarLoadResults
  intro s u l n d a i h
  refine ⟨?_, ?_, ?_, ?_⟩
  · rintro rfl; exact ⟨load_writes (sg := true) rfl h, load_writes (sg := false) rfl h⟩
  · rintro rfl; exact ⟨load_writes (sg := true) rfl h, load_writes (sg := false) rfl h⟩
  · rintro rfl; exact ⟨load_writes (sg := true) rfl h, load_writes (sg := false) rfl h⟩
  · rintro rfl; exact load_writes (sg := false) rfl h

/-- Settles O6, by the bytes of each store. -/
theorem scalarStoreResults : Obligations.ScalarStoreResults := by
  unfold Obligations.ScalarStoreResults
  intro s u l n d a i hw h
  refine ⟨?_, ?_, ?_, ?_⟩
  · rintro rfl; exact store_writes rfl hw h
  · rintro rfl; exact store_writes rfl hw h
  · rintro rfl; exact store_writes rfl hw h
  · rintro rfl; exact store_writes rfl hw h

/-! ## Atomics (04 R114) -/

/-- The bytes of an AMO by its `SZ`. -/
abbrev amoSize (z : BitVec 1) : Nat := if z = 0 then 4 else 8
/-- The low bytes of a register, as an operand of an AMO. -/
abbrev amoOperand (s : State) (z : BitVec 1) (r : BitVec 5) : BitVec (8 * amoSize z) := BitVec.ofNat _ (s.rd r).toNat
/-- The old value that an AMO at `l` finds. -/
abbrev amoOld (s : State) (z : BitVec 1) (l : Loc) : BitVec (8 * amoSize z) := BitVec.ofNat _ (s.bytesAt l (amoSize z))

/-- The state after the store of the new value of an AMO, if there is one. -/
def State.storeNew (s : State) (l : Loc) {n : Nat} : Option (BitVec (8 * n)) → State
  | some x => s.storeLoc l n x.toNat
  | none => s
theorem State.storeNew_th (s : State) (l : Loc) {n : Nat} (x : Option (BitVec (8 * n))) : (s.storeNew l x).th = s.th := by
  cases x with
  | none => rfl
  | some x => exact s.storeLoc_th ..

section
variable {i : Instr} {op : Nat} {d a b : BitVec 5} {z : BitVec 1} {l : Loc}

/-- An AMO that can be performed writes the new value, if it gives one, and the old value to g[D]. -/
theorem amo_eq (hl : s.scalarLoc (s.rd a) (amoSize z) .rmw = .ok (l, u)) :
    amo op d a b z s = .next (((u.storeNew l (amoNew op (amoOld s z l) (amoOperand s z b) (amoOperand s z d))).noteAtomic l (amoSize z) op
      (s.rdN b)).wrAdvance d (BitVec.ofInt 64 (amoOld s z l).toInt)) := by
  have hx : u.readLoc l (amoSize z) = s.bytesAt l (amoSize z) := ((located_scalarLoc hl).bytes.readLoc ..).trans (s.readLoc_eq_bytesAt ..)
  simp only [amo, hl, bind, Except.bind, hx, BitVec.ofNat_toNat, finish_ok]
  cases amoNew op (amoOld s z l) ((s.rd b).setWidth (8 * amoSize z)) ((s.rd d).setWidth (8 * amoSize z)) <;> rfl

/-- What an AMO that can be performed leaves, with what its store leaves of memory. -/
theorem amo_completes {P : State → Prop} (hi : exec i s = amo op d a b z s) (hl : s.scalarLoc (s.rd a) (amoSize z) .rmw = .ok (l, u))
    (hP : ∀ t, SameBytes (u.storeNew l (amoNew op (amoOld s z l) (amoOperand s z b) (amoOperand s z d))) t → P t) :
    ∃ t, exec i s = .next t ∧ Holds d (BitVec.ofInt 64 (amoOld s z l).toInt) t ∧ KeepsRegs d s t ∧ t.th.pc = s.th.pc + 4
      ∧ OnlyScalars s.th t.th ∧ P t := by
  have hv : ((u.storeNew l (amoNew op (amoOld s z l) (amoOperand s z b) (amoOperand s z d))).noteAtomic l (amoSize z) op (s.rdN b)).th = s.th := by
    rw [State.noteAtomic, State.note_th, State.storeNew_th, (located_scalarLoc hl).th]
  obtain ⟨hd, hk, ht⟩ := State.passes_wrAdvance hv d (BitVec.ofInt 64 (amoOld s z l).toInt)
  refine ⟨_, hi.trans (amo_eq hl), hd, hk, by rw [ht], by rw [OnlyScalars, ht], hP _ fun m => ?_⟩
  exact (State.readLoc_wrAdvance ..).trans (State.readLoc_note ..)

theorem amo_writes {new : BitVec (8 * amoSize z)} (hi : exec i s = amo op d a b z s) (hw : s.wf = true)
    (hl : s.scalarLoc (s.rd a) (amoSize z) .rmw = .ok (l, u))
    (hn : amoNew op (amoOld s z l) (amoOperand s z b) (amoOperand s z d) = some new) :
    ∃ t, exec i s = .next t ∧ Holds d (BitVec.ofInt 64 (amoOld s z l).toInt) t ∧ KeepsRegs d s t ∧ t.th.pc = s.th.pc + 4
      ∧ OnlyScalars s.th t.th ∧ Stored s t l (amoSize z) new.toNat := by
  have hu := located_scalarLoc hl
  refine amo_completes hi hl fun t ht => ?_
  rw [hn] at ht
  exact (u.stored_storeLoc l (amoSize z) new.toNat (hu.wf hw)).of_same hu.bytes hu.migrations hu.ksl ht fun _ _ => rfl
theorem amo_fails (hi : exec i s = amo op d a b z s) (hl : s.scalarLoc (s.rd a) (amoSize z) .rmw = .ok (l, u))
    (hn : amoNew op (amoOld s z l) (amoOperand s z b) (amoOperand s z d) = none) :
    ∃ t, exec i s = .next t ∧ Holds d (BitVec.ofInt 64 (amoOld s z l).toInt) t ∧ KeepsRegs d s t ∧ t.th.pc = s.th.pc + 4
      ∧ OnlyScalars s.th t.th ∧ SameBytes s t := by
  refine amo_completes hi hl fun t ht m => ?_
  rw [hn] at ht
  exact (ht m).trans ((located_scalarLoc hl).bytes m)

end

section
variable {w : Nat} (old b d : BitVec w)

theorem amoNew_add : amoNew 0 old b d = some (old + b) := rfl
theorem amoNew_and : amoNew 1 old b d = some (old &&& b) := rfl
theorem amoNew_or : amoNew 2 old b d = some (old ||| b) := rfl
theorem amoNew_xor : amoNew 3 old b d = some (old ^^^ b) := rfl
theorem amoNew_min : amoNew 4 old b d = some (if b.toInt < old.toInt then b else old) := congrArg some (aluMin_eq_ite ..)
theorem amoNew_max : amoNew 5 old b d = some (if old.toInt < b.toInt then b else old) := congrArg some (aluMax_eq_ite ..)
theorem amoNew_minn : amoNew 6 old b d = some (if b.toNat < old.toNat then b else old) := congrArg some (aluMinn_eq_ite ..)
theorem amoNew_maxn : amoNew 7 old b d = some (if old.toNat < b.toNat then b else old) := congrArg some (aluMaxn_eq_ite ..)
theorem amoNew_swap : amoNew 8 old b d = some b := rfl
theorem amoNew_cas : amoNew 9 old b d = if old = d then some b else none := rfl

end

/-- Settles O7, by the new value of each operation, and cas by whether it compares equal. -/
theorem atomicResults : Obligations.AtomicResults := by
  unfold Obligations.AtomicResults
  intro s u l d a b z o
  dsimp only
  intro hw hl
  exact ⟨amo_writes (op := 0) rfl hw hl (amoNew_add ..), amo_writes (op := 1) rfl hw hl (amoNew_and ..), amo_writes (op := 2) rfl hw hl (amoNew_or ..),
    amo_writes (op := 3) rfl hw hl (amoNew_xor ..), amo_writes (op := 4) rfl hw hl (amoNew_min ..), amo_writes (op := 5) rfl hw hl (amoNew_max ..),
    amo_writes (op := 6) rfl hw hl (amoNew_minn ..), amo_writes (op := 7) rfl hw hl (amoNew_maxn ..), amo_writes (op := 8) rfl hw hl (amoNew_swap ..),
    fun h => amo_writes (op := 9) rfl hw hl ((amoNew_cas ..).trans (if_pos h)), fun h => amo_fails (op := 9) rfl hl ((amoNew_cas ..).trans (if_neg h))⟩

end Sys2Proof.Machine

-- ==== The checks of a scalar access (O8) ====

namespace Sys2Proof.Machine
variable {s u : State} {p : ScalarAccess}

/-! ## Every scalar access is an access by its address, size and kind (04 R108, R114) -/

/-- `p` is executed as the access that it describes, after which a store goes on. -/
def ScalarAccess.Performs (p : ScalarAccess) (s : State) : Prop :=
  ∃ f : Loc × State → M State, exec p.instr s = finish (s.scalarLoc p.addr p.size p.kind >>= f)
    ∧ (p.kind = .write → ∀ x, ∃ v, f x = .ok v ∧ v.th = { x.2.th with pc := x.2.th.pc + 4, cv := none, reissue := false })

theorem performs_load {i : Instr} {n : Nat} {sg : Bool} {d a : BitVec 5} {im : BitVec 14} (hi : exec i s = load n sg d a im s) :
    ScalarAccess.Performs { instr := i, size := n, addr := s.rd a + BitVec.ofInt 64 im.toInt, kind := .read } s := ⟨_, hi, nofun⟩
theorem performs_store {i : Instr} {n : Nat} {d a : BitVec 5} {im : BitVec 14} (hi : exec i s = store n d a im s) :
    ScalarAccess.Performs { instr := i, size := n, addr := s.rd a + BitVec.ofInt 64 im.toInt, kind := .write } s :=
  ⟨_, hi, fun _ x => ⟨_, rfl, by rw [State.advance, State.writeLoc_th]⟩⟩
theorem performs_amo {i : Instr} {op : Nat} {d a b : BitVec 5} {z : BitVec 1} (hi : exec i s = amo op d a b z s) :
    ScalarAccess.Performs { instr := i, size := amoSize z, addr := s.rd a, kind := .rmw } s := ⟨_, hi, nofun⟩
theorem performs_of_mem {d a b : BitVec 5} {i : BitVec 14} {z : BitVec 1} {o : BitVec 2} :
    ∀ p ∈ s.scalarAccesses d a b i z o, p.Performs s := by
  simp only [State.scalarAccesses, List.forall_mem_append, List.forall_mem_map, List.forall_mem_cons, List.not_mem_nil, false_implies, implies_true, and_true]
  exact ⟨⟨⟨performs_load (sg := true) rfl, performs_load (sg := false) rfl, performs_load (sg := true) rfl, performs_load (sg := false) rfl,
      performs_load (sg := true) rfl, performs_load (sg := false) rfl, performs_load (sg := false) rfl⟩,
      performs_store rfl, performs_store rfl, performs_store rfl, performs_store rfl⟩,
    performs_amo (op := 0) rfl, performs_amo (op := 1) rfl, performs_amo (op := 2) rfl, performs_amo (op := 3) rfl, performs_amo (op := 4) rfl,
    performs_amo (op := 5) rfl, performs_amo (op := 6) rfl, performs_amo (op := 7) rfl, performs_amo (op := 8) rfl, performs_amo (op := 9) rfl⟩

/-! ## The checks in their order (04 R109 to R111) -/

theorem bitOf_space (a : Word) : bitOf a.toNat 63 = decide (2 ^ 63 ≤ a.toNat) := by
  have := a.isLt
  rw [bitOf, Nat.testBit_eq_decide_div_mod_eq, decide_eq_decide]
  omega
theorem scalarLoc_eq (s : State) (ea : Word) (n : Nat) (k : AKind) : s.scalarLoc ea n k =
    match s.locateAt .v s.th.level (decide (2 ^ 63 ≤ ea.toNat)) ea.toNat n k with
    | .error e => .error (accTrap s e ea.toNat 0 0 k)
    | .ok (l, s1) => if k ≠ .write ∧ s1.poisonedLoc l n then .error (accTrap s1 .poison ea.toNat 0 0 k) else .ok (l, s1) := by
  rw [State.scalarLoc, bitOf_space]
  rfl
/-- An access whose checks fail is not performed. -/
theorem exec_of_locate_error {e : AErr} (hp : p.Performs s)
    (h : s.locateAt .v s.th.level (decide (2 ^ 63 ≤ p.addr.toNat)) p.addr.toNat p.size p.kind = .error e) :
    exec p.instr s = finish (.error (accTrap s e p.addr.toNat 0 0 p.kind)) := by
  obtain ⟨f, hf, -⟩ := hp
  rw [hf, scalarLoc_eq, h]
  rfl
/-- Nor is one that reads poisoned data. -/
theorem exec_of_poisoned {l : Loc} (hp : p.Performs s)
    (h : s.locateAt .v s.th.level (decide (2 ^ 63 ≤ p.addr.toNat)) p.addr.toNat p.size p.kind = .ok (l, u))
    (hq : u.poisonedLoc l p.size = true) (hk : p.kind ≠ .write) :
    exec p.instr s = .next (u.takeTrap { cause := 18, tval := p.addr }) := by
  obtain ⟨f, hf, -⟩ := hp
  rw [hf, scalarLoc_eq, h]
  simp only [hk, hq, ne_eq, not_false_eq_true, and_self, if_true]
  simp [accTrap, Cause.poison]
  rfl
/-- A store that passes its checks goes on. -/
theorem goesOn_of_store {l : Loc} (hp : p.Performs s)
    (h : s.locateAt .v s.th.level (decide (2 ^ 63 ≤ p.addr.toNat)) p.addr.toNat p.size p.kind = .ok (l, u)) (hk : p.kind = .write) :
    ∃ v, exec p.instr s = .next v ∧ GoesOn s v := by
  obtain ⟨f, hf, hgo⟩ := hp
  have hl : s.scalarLoc p.addr p.size p.kind = .ok (l, u) := by rw [scalarLoc_eq, h]; simp [hk]
  obtain ⟨v, hv, hth⟩ := hgo hk (l, u)
  refine ⟨v, by rw [hf, hl]; exact congrArg finish hv, ?_⟩
  rw [GoesOn, hth, (located_scalarLoc hl).th]

/-- A misaligned access takes MISALIGN, before the other checks. -/
theorem locateAt_misaligned {w : Tlb} {lv : Level} {tile : Bool} {a n : Nat} {k : AKind} (h : a % n ≠ 0) :
    s.locateAt w lv tile a n k = .error .misalign := if_pos h
theorem locateAt_space0 {w : Tlb} {lv : Level} {a n : Nat} {k : AKind} (h : a % n = 0) (h0 : a < 2 ^ 63) :
    s.locateAt w lv (decide (2 ^ 63 ≤ a)) a n k = s.locate0 w lv a n k := by
  rw [State.locateAt, if_neg (not_not.2 h), decide_eq_false (by omega)]
  rfl
theorem locateAt_tile {w : Tlb} {lv : Level} {a n : Nat} {k : AKind} (h : a % n = 0) (h1 : 2 ^ 63 ≤ a) :
    s.locateAt w lv (decide (2 ^ 63 ≤ a)) a n k = s.locate1 a n k := by
  rw [State.locateAt, if_neg (not_not.2 h), decide_eq_true h1]
  rfl
theorem locate0_high {w : Tlb} {lv : Level} {a n : Nat} {k : AKind} (h : 2 ^ 57 ≤ a) : s.locate0 w lv a n k = .error .prot :=
  if_pos (by omega)
theorem locate0_stopped {w : Tlb} {lv : Level} {a n : Nat} {k : AKind} {e : AErr} (h : a < 2 ^ 57)
    (hl : s.lookup (s.tlb w) s.th.ptroot a = .error e) : s.locate0 w lv a n k = .error e := by
  rw [State.locate0, if_neg (by omega), hl]
theorem locate0_forbidden {w : Tlb} {lv : Level} {a n : Nat} {k : AKind} {t : Trans} {held : List Trans} (h : a < 2 ^ 57)
    (hl : s.lookup (s.tlb w) s.th.ptroot a = .ok (t, held)) (hp : t.permits lv k = false) : s.locate0 w lv a n k = .error .prot := by
  rw [State.locate0, if_neg (by omega), hl]
  simp only [hp, Bool.false_eq_true, if_false]
theorem not_permits {t : Trans} {lv : Level} {k : AKind} (h : (lv = .user ∧ t.user = false) ∨ (k ≠ .read ∧ t.write = false)) :
    t.permits lv k = false := by
  obtain ⟨rfl, hu⟩ | ⟨hk, hw⟩ := h
  · simp [Trans.permits, hu]
  · simp [Trans.permits, hk, hw]
theorem mkRecord_scalar (root c kind l a : Nat) :
    mkRecord 0 (bits root 40 16) 0 0 l kind c a = a % 2 ^ 57 + c * 2 ^ 64 + kind * 2 ^ 67 + l * 2 ^ 69 + root / 2 ^ 40 % 2 ^ 16 * 2 ^ 80 := by
  simp [mkRecord, bits, Nat.shiftRight_eq_div_pow]
theorem bits_tile (a : Nat) : bits a 22 41 = a / 2 ^ 22 % 2 ^ 41 := by rw [bits, Nat.shiftRight_eq_div_pow]
theorem locate1_outside {a n : Nat} {k : AKind} (h : a / 2 ^ 22 % 2 ^ 41 ≠ 0 ∨ s.group.tileSpace < a % 2 ^ 22 + n) :
    s.locate1 a n k = .error .tilebnd := by
  rw [State.locate1, bits_tile]
  exact if_pos h
theorem locate1_inside {a n : Nat} {k : AKind} (h : a / 2 ^ 22 % 2 ^ 41 = 0) (hn : a % 2 ^ 22 + n ≤ s.group.tileSpace)
    (hs : s.stalledOn s.core (a % 2 ^ 22) n k = none) : s.locate1 a n k = .ok (s.tileLoc s.core (a % 2 ^ 22), s) := by
  rw [State.locate1, bits_tile]
  simp only [h, hs, ne_eq, not_true_eq_false, false_or, if_neg (Nat.not_lt.2 hn)]

/-- Settles O8, by the outcome of each check in its order. -/
theorem scalarAccessChecks : Obligations.ScalarAccessChecks := by
  unfold Obligations.ScalarAccessChecks
  intro s d a b i z o p hp
  replace hp := performs_of_mem p hp
  dsimp only
  refine ⟨fun h => ?_, fun h h63 h57 => ?_, fun h h57 => ⟨fun t held hl hf => ?_, fun c l hl => ?_⟩,
    fun h h63 => ⟨fun ho => ?_, fun hb hn hs hq => ?_⟩, fun l u hl hq => ⟨exec_of_poisoned hp hl hq, goesOn_of_store hp hl⟩⟩
  · rw [exec_of_locate_error hp (locateAt_misaligned h)]
    simp [accTrap, Cause.misalign]
  · rw [exec_of_locate_error hp ((locateAt_space0 h h63).trans (locate0_high h57))]
    simp [accTrap, Cause.prot]
  · rw [exec_of_locate_error hp ((locateAt_space0 h (by omega)).trans (locate0_forbidden h57 hl (not_permits hf)))]
    simp [accTrap, Cause.prot]
  · rw [exec_of_locate_error hp ((locateAt_space0 h (by omega)).trans (locate0_stopped h57 hl))]
    simp only [accTrap, finish_trap, mkRecord_scalar]
    rfl
  · rw [exec_of_locate_error hp ((locateAt_tile h h63).trans (locate1_outside ho))]
    rfl
  · rw [scalarLoc_eq, (locateAt_tile h h63).trans (locate1_inside hb hn hs)]
    exact if_neg fun ⟨hk, hp⟩ => by rw [hq hk] at hp; cases hp

end Sys2Proof.Machine

-- ==== Scalar floating point (O9) ====

namespace Sys2Proof.Machine
variable {s : State}

/-! ## A result with its flags and its draw (04 R116, 03 R90, R94) -/

/-- The random word of a scalar operation under a mode: drawn from generator 0 under SR, and the generators that it leaves. -/
def State.scalarDraw (s : State) (m : RMode) : Nat × List W32 := if m = .sr then srDraw s.th.gens 0 else (0, s.th.gens)

/-- `i` completes in `s` with the value of `v` in g[d], its flags raised, and `gens` as the generators. -/
def WritesRounded (i : Instr) (s : State) (d : BitVec 5) (v : Rounded) (gens : List W32) : Prop :=
  ∃ t, exec i s = .next t ∧ Holds d (BitVec.ofNat 64 v.val) t ∧ KeepsRegs d s t ∧ t.th.fflags = s.th.fflags ||| v.flags
    ∧ t.th = { s.th with g := t.th.g, pc := s.th.pc + 4, cv := none, reissue := false, fflags := t.th.fflags, gens := gens }
    ∧ OnlyThread s t ∧ SameBytes s t

theorem writesRounded_of_fpResult {i : Instr} {m : RMode} {d : BitVec 5} {f : Nat → Rounded} {v : Rounded} (hi : exec i s = fpResult m d f s)
    (hv : f (s.scalarDraw m).1 = v) : WritesRounded i s d v (s.scalarDraw m).2 := by
  subst hv
  obtain ⟨t, ht, hd, hk, hpc, ho, hth, hb⟩ := writesContext_of_exec (s := s) (th := { s.th with
    gens := (s.scalarDraw m).2, fflags := s.th.fflags ||| (f (s.scalarDraw m).1).flags }) rfl rfl hi
  have hf : t.th.fflags = s.th.fflags ||| (f (s.scalarDraw m).1).flags := by rw [hth]
  exact ⟨t, ht, hd, hk, hf, hth.trans (by rw [hpc, hf]), ho, hb⟩

theorem scalarDraw_word (m : RMode) : (s.scalarDraw m).1 = if m = .sr then (srDraw s.th.gens 0).1 else 0 := by
  rw [State.scalarDraw]; split <;> rfl
theorem scalarDraw_gens (m : RMode) : (s.scalarDraw m).2 = if m = .sr then (srDraw s.th.gens 0).2 else s.th.gens := by
  rw [State.scalarDraw]; split <;> rfl

/-! ## The values (04 R117 to R119) -/

theorem ofInt_signed (x : Word) : ofInt 64 true x.toNat = .fin (decide (x.toInt < 0)) x.toInt.natAbs 0 := by
  have h : toS 64 x.toNat = x.toInt := by
    have := x.isLt
    rw [toS, BitVec.toInt_eq_toNat_cond, Nat.mod_eq_of_lt this]
    split <;> split <;> omega
  simp only [ofInt, if_true, h]
theorem ofInt_natural (x : Word) : ofInt 64 false x.toNat = .fin false x.toNat 0 := by
  simp [ofInt, Nat.mod_eq_of_lt x.isLt]
theorem fcmp_writes {d a b : BitVec 5} {f : BitVec 1} {q : BitVec 2} {v sig : Bool}
    (h : fpRel q.toNat (dec (fpFmt f) (s.rdN a)) (dec (fpFmt f) (s.rdN b)) = (v, nvIf sig)) :
    WritesRounded (.fcmp d a b f q) s d { val := v.toNat, flags := if sig then 16 else 0 } s.th.gens :=
  writesRounded_of_fpResult (m := .rne)
    (f := fun _ => let r := fpRel q.toNat (dec (fpFmt f) (s.rdN a)) (dec (fpFmt f) (s.rdN b)); { val := r.1.toNat, flags := r.2 }) rfl
    (by rw [h]; rfl)

theorem fpAdd_f32_lt (m : RMode) (w : Nat) (x y : FVal) : (fpAdd .f32 m w x y).val < 2 ^ 32 := enc_f32_lt ..
theorem fpMul_f32_lt (m : RMode) (w : Nat) (x y : FVal) : (fpMul .f32 m w x y).val < 2 ^ 32 := enc_f32_lt ..
theorem fpFma_f32_lt (m : RMode) (w : Nat) (x y z : FVal) : (fpFma .f32 m w x y z).val < 2 ^ 32 := enc_f32_lt ..

/-- Settles O9: each instruction is a result of its mode, and the statement's value is that of its operation. -/
theorem scalarFloatCompletes : Obligations.ScalarFloatCompletes := by
  unfold Obligations.ScalarFloatCompletes
  intro s d a b k f r q
  dsimp only
  rw [← scalarDraw_word, ← scalarDraw_gens]
  refine ⟨writesRounded_of_fpResult (f := fun w => fpAdd _ _ w _ _) rfl rfl, writesRounded_of_fpResult (f := fun w => fpMul _ _ w _ _) rfl rfl,
    writesRounded_of_fpResult (f := fun w => fpFma _ _ w _ _ _) rfl rfl, ?_, ?_, ?_, ?_, ?_, ?_, ?_, ?_, ?_, ?_⟩
  · rintro rfl
    exact ⟨fpAdd_f32_lt .., fpMul_f32_lt .., fpFma_f32_lt ..⟩
  · rintro rfl; exact writesRounded_of_fpResult (f := fun w => enc _ _ w _) rfl rfl
  · rintro rfl; exact writesRounded_of_fpResult (f := fun w => toInt 64 true _ w _) rfl rfl
  · rintro rfl; exact writesRounded_of_fpResult (f := fun w => toInt 64 false _ w _) rfl rfl
  · rintro rfl; exact writesRounded_of_fpResult (f := fun w => enc _ _ w _) rfl (congrArg _ (ofInt_signed _))
  · rintro rfl; exact writesRounded_of_fpResult (f := fun w => enc _ _ w _) rfl (congrArg _ (ofInt_natural _))
  · rintro rfl; exact fcmp_writes rfl
  · rintro rfl; exact fcmp_writes rfl
  · rintro rfl; exact fcmp_writes rfl
  · rintro rfl; exact fcmp_writes rfl

end Sys2Proof.Machine

-- ==== Environment calls, the return from a trap, and the remaining system instructions (O12, O14, O18) ====

namespace Sys2Proof.Machine
variable {s : State}

/-! ## ECALL and BRK (04 R120) -/

/-- Above user level a privileged instruction is executed. -/
theorem privileged_above (f : State → M State) (h : s.th.level ≠ .user) : privileged f s = finish (f s) := by
  rw [privileged, if_neg h]
theorem exec_ecall (h : s.th.level ≠ .firmware) : exec .ecall s = .next (s.takeTrap { cause := 48, epc := some (s.th.pc + 4) }) := by
  change execEcall s = _
  rw [execEcall, if_neg h]
  rfl
theorem exec_ecall_firmware (h : s.th.level = .firmware) : exec .ecall s = .next (s.takeTrap { cause := 2, tval := s.word.setWidth 64 }) := by
  change execEcall s = _
  rw [execEcall, if_pos h]
  rfl
theorem taker_of_supervisor {c : Nat} (hl : s.th.level = .supervisor) (hc : c ≠ 48) (hd : c ≠ 50) : s.taker c = .supervisor := by
  simp [State.taker, hl, hc, hd]
theorem taker_of_firmware {c : Nat} (hl : s.th.level = .firmware) : s.taker c = .firmware := by simp [State.taker, hl]
theorem taker_brk (hl : s.th.level ≠ .firmware) : s.taker 49 = .supervisor := by simp [State.taker, hl]
theorem taker_ecall_supervisor (hl : s.th.level = .supervisor) : s.taker 48 = .firmware := by simp [State.taker, hl]

/-- Settles O12: each call raises its cause, and `taker` names the level that it enters. -/
theorem environmentCalls : Obligations.EnvironmentCalls := by
  unfold Obligations.EnvironmentCalls
  intro s _
  have enters : ∀ {i : Instr} {x : Trap} {l : Level}, exec i s = .next (s.takeTrap x) → x.cause < 64 → x.records = [] → x.cause ≠ 1 →
      s.taker x.cause = l → s.canTake l → Traps i s l x := by
    rintro i x _ hi hc hr h1 rfl hl
    exact traps_of_exec hi hc hr (.inl h1) hl
  have lt : ∀ {n : Nat}, n ≤ 63 → n < 64 := Nat.lt_succ_of_le
  refine ⟨fun hl => ?_, fun hl => ?_, fun hl => ?_, fun hl => ?_, fun hl => ?_⟩
  · exact enters (exec_ecall (by rw [hl]; nofun)) (lt (by simp)) rfl (by simp) (taker_of_user hl (by simp))
  · exact enters (exec_ecall (by rw [hl]; nofun)) (lt (by simp)) rfl (by simp) (taker_ecall_supervisor hl)
  · exact enters (exec_ecall_firmware hl) (lt (by simp)) rfl (by simp) (taker_of_firmware hl)
  · exact enters rfl (lt (by simp)) rfl (by simp) (taker_brk hl)
  · exact enters rfl (lt (by simp)) rfl (by simp) (taker_of_firmware hl)

/-! ## TRET (04 R121, 19 R384) -/

theorem levelOf_num (p : Level) : levelOf p.num = some p := by cases p <;> rfl
/-- `PLEV` holds the reserved 3 or the number of a level (19 R379). -/
theorem reserved_or_level (c : Nat) : bits c 60 2 = 3 ∨ ∃ p : Level, bits c 60 2 = p.num := by
  have : bits c 60 2 < 4 := Nat.mod_lt _ (by decide)
  obtain h | h | h | h : bits c 60 2 = 0 ∨ bits c 60 2 = 1 ∨ bits c 60 2 = 2 ∨ bits c 60 2 = 3 := by omega
  · exact .inr ⟨.user, h⟩
  · exact .inr ⟨.supervisor, h⟩
  · exact .inr ⟨.firmware, h⟩
  · exact .inl h

/-- TRET above user level, by the level that `PLEV` names. -/
theorem exec_tret {ri : BitVec 1} {p : Level} (hl : s.th.level ≠ .user)
    (hp : bits (s.th.regs s.th.level).cause.toNat 60 2 = p.num) :
    exec (.tret ri) s =
      if s.th.level.num < p.num then .next (s.takeTrap { cause := 2, tval := s.word.setWidth 64 })
      else if (s.th.regs s.th.level).epc = abortAddress ∨ (s.th.uncorr = true ∧ p.num < s.th.level.num) then .next s.terminate
      else
        let s1 := (s.leave (ri == 1) p).resumeEngines s.th.level s.th.restored.isSome
        .next (if p = .user ∧ s.th.suspended then { s1 with th := { s1.th with spend := setBit s1.th.spend 3 true } } else s1) := by
  change execTret ri s = _
  rw [execTret, privileged_above _ hl]
  dsimp only
  rw [hp, levelOf_num]
  dsimp only
  split
  · rfl
  · split <;> rfl
theorem exec_tret_reserved {ri : BitVec 1} (hl : s.th.level ≠ .user)
    (hp : bits (s.th.regs s.th.level).cause.toNat 60 2 = 3) :
    exec (.tret ri) s = .next (s.takeTrap { cause := 2, tval := s.word.setWidth 64 }) := by
  change execTret ri s = _
  rw [execTret, privileged_above _ hl]
  dsimp only
  rw [hp]
  rfl

theorem regs_leave (ri : Bool) (p : Level) :
    (s.leave ri p).th.regs s.th.level = { s.th.regs s.th.level with aie := (s.th.regs s.th.level).paie, tih := false } := by
  cases h : s.th.level <;> simp [State.leave, Thread.setRegs, Thread.regs, h]
theorem reissue_leave (ri : Bool) (p : Level) : (s.leave ri p).th.reissue = (ri && s.th.fmask != 0) := by
  cases h : s.th.level <;> simp [State.leave, Thread.setRegs, h]
/-- What a return changes in the thread: of the registers of the other level nothing. -/
theorem leave_frame (ri : Bool) (p : Level) :
    let t := s.leave ri p
    (s.th.level = .firmware → t.th.sup = s.th.sup) ∧ (s.th.level = .supervisor → t.th.fw = s.th.fw)
      ∧ t.th = { s.th with sup := t.th.sup, fw := t.th.fw, pc := t.th.pc, level := p, em := t.th.em, saved := t.th.saved, cv := t.th.cv,
                           restored := t.th.restored, reissue := t.th.reissue } := by
  cases h : s.th.level <;> simp [State.leave, Thread.setRegs, h]
theorem State.readLoc_terminate (s : State) (m : Loc) (n : Nat) : s.terminate.readLoc m n = s.readLoc m n := by cases m <;> rfl
/-- The engines that resume with a return change no byte, and nothing of the thread. -/
theorem resumeEngines_th (l : Level) (b : Bool) : (s.resumeEngines l b).th = s.th := by
  rw [State.resumeEngines]; split <;> rfl
theorem sameBytes_resumeEngines (l : Level) (b : Bool) : SameBytes s (s.resumeEngines l b) := by
  rw [State.resumeEngines]
  split
  · exact State.sameBytes_updCore s s.core fun _ => rfl
  · exact fun _ => rfl

/-- Settles O14, by the level that `PLEV` names and the saved program counter. -/
theorem returnFromTrap : Obligations.ReturnFromTrap := by
  unfold Obligations.ReturnFromTrap
  intro s ri p
  dsimp only
  refine ⟨fun hl hp hle he hu hv => ?_, fun hl h => ?_, fun hl hle he => ?_, fun hl => ?_⟩
  · have hstay : ¬ ((s.th.regs s.th.level).epc = abortAddress ∨ (s.th.uncorr = true ∧ p.num < s.th.level.num)) := by
      rintro (h | ⟨h, hlt⟩)
      · exact he h
      · rw [hu h] at hlt; exact Nat.lt_irrefl _ hlt
    have hrun : ¬ (p = .user ∧ s.th.suspended = true) := fun ⟨h, hs⟩ => ((Thread.suspended_iff _).1 hs).1 (hv h)
    refine ⟨_, (exec_tret hl hp).trans ((if_neg (Nat.not_lt.2 hle)).trans ((if_neg hstay).trans (congrArg _ (if_neg hrun)))), ?_⟩
    rw [resumeEngines_th]
    obtain ⟨hsup, hfw, hth⟩ := leave_frame (s := s) (ri == 1) p
    exact ⟨rfl, rfl, rfl, regs_leave .., rfl, by simp [reissue_leave], hsup, hfw, hth,
      fun m => (sameBytes_resumeEngines _ _ m).trans (State.readLoc_th ..)⟩
  · obtain h3 | ⟨q, hq⟩ := reserved_or_level (s.th.regs s.th.level).cause.toNat
    · exact exec_tret_reserved hl h3
    · obtain h3 | hlt := h
      · exact exec_tret_reserved hl h3
      · exact (exec_tret hl hq).trans (if_pos (hq ▸ hlt))
  · obtain h3 | ⟨q, hq⟩ := reserved_or_level (s.th.regs s.th.level).cause.toNat
    · have : s.th.level.num ≤ 2 := by cases s.th.level <;> simp [Level.num]
      omega
    · refine ⟨_, (exec_tret hl hq).trans ((if_neg (by omega)).trans (if_pos (.inl he))), rfl, fun m => State.readLoc_terminate ..⟩
  · change execTret ri s = _
    exact privileged_user _ hl

/-! ## TLBINV (04 R128, 13 R309) -/

theorem SMap.look_map_key {α β : Type} (m : SMap α) (f : Nat → α → β) (k : Nat) :
    SMap.look (m.map fun x => (x.1, f x.1 x.2)) k = (m.look k).map (f k) := by
  induction m with
  | nil => rfl
  | cons x r ih =>
    simp only [List.map_cons, SMap.look]
    split
    · next h => rw [h]; rfl
    · exact ih
theorem SMap.get_map_key {α β : Type} (m : SMap α) (f : Nat → α → β) (k : Nat) {d : α} {e : β} (h : (m.look k).isSome = true ∨ f k d = e) :
    SMap.get (m.map fun x => (x.1, f x.1 x.2)) k e = f k (m.get k d) := by
  rw [SMap.get, SMap.get, SMap.look_map_key]
  cases hl : m.look k with
  | some a => rfl
  | none =>
    rw [hl] at h
    exact (h.resolve_left nofun).symm
theorem SMap.mem_keys_of_look {α : Type} {m : SMap α} {k : Nat} (h : (m.look k).isSome = true) : k ∈ m.map (·.1) := by
  obtain ⟨a, ha⟩ := Option.isSome_iff_exists.1 h
  exact List.mem_map.2 ⟨(k, a), SMap.mem_of_look ha, rfl⟩

/-- A channel whose transfers do not hold the translations that `p` names. -/
def Channel.without (c : Channel) (p : Trans → Bool) : Channel := { c with xfers := c.xfers.map (Xfer.drop p) }
/-- A core without those translations, in its VTLB and in its engine. -/
def Core.without (c : Core) (p : Trans → Bool) : Core :=
  { c with vtlb := c.vtlb.filter fun t => !p t
           channels := c.channels.map fun c => (c.1, c.2.without p) }
/-- A matrix unit without them in its MTLB. -/
def MatUnit.without (u : MatUnit) (p : Trans → Bool) : MatUnit := { u with mtlb := u.mtlb.filter fun t => !p t }
theorem State.cores_invalidate (s : State) (l : List Nat) (p : Trans → Bool) :
    (s.invalidate l p).cores = s.cores.map fun k => (k.1, if l.contains k.1 then k.2.without p else k.2) := by
  refine List.map_congr_left fun k _ => ?_
  split <;> rfl
theorem State.getCore_invalidate (s : State) (l : List Nat) (p : Trans → Bool) {c : Nat} (h : (s.cores.look c).isSome = true) :
    (s.invalidate l p).getCore c = if l.contains c then (s.getCore c).without p else s.getCore c := by
  rw [State.getCore, State.cores_invalidate, SMap.get_map_key _ (fun c k => if l.contains c then Core.without k p else k) _ (.inl h)]
  rfl
theorem State.unit_invalidate (s : State) (l : List Nat) (p : Trans → Bool) (n : Nat) :
    ((s.invalidate l p).units.get n {}).mtlb =
      if l.contains (2 * n) || l.contains (2 * n + 1) then (s.units.get n {}).mtlb.filter fun t => !p t else (s.units.get n {}).mtlb := by
  have e : (s.invalidate l p).units = s.units.map fun k => (k.1, if l.contains (2 * k.1) || l.contains (2 * k.1 + 1) then k.2.without p else k.2) := by
    refine List.map_congr_left fun k _ => ?_
    split <;> rfl
  have h := SMap.get_map_key s.units (fun k u => if l.contains (2 * k) || l.contains (2 * k + 1) then MatUnit.without u p else u) n (d := {}) (e := {})
    (.inr (by split <;> rfl))
  rw [e, h]
  split <;> rfl
theorem Core.held_without (c : Core) (p : Trans → Bool) (n : Nat) :
    (((c.without p).channels.get n {}).xfers.map (·.held)) = ((c.channels.get n {}).xfers.map fun x => x.held.filter fun t => !p t) := by
  have h : (c.without p).channels.get n {} = (c.channels.get n {}).without p :=
    SMap.get_map_key c.channels (fun _ k => k.without p) n (d := {}) (e := {}) (.inr rfl)
  rw [h, Channel.without, List.map_map]
  rfl
theorem State.sameBytes_invalidate (s : State) (l : List Nat) (p : Trans → Bool) : SameBytes s (s.invalidate l p) := by
  have allocs : ∀ c, ((s.invalidate l p).getCore c).allocs = (s.getCore c).allocs := fun c => by
    cases hc : s.cores.look c with
    | some k =>
      rw [State.getCore_invalidate s l p (by rw [hc]; rfl)]
      split <;> rfl
    | none =>
      rw [State.getCore, State.cores_invalidate, SMap.get, SMap.look_map_key _ (fun c k => if l.contains c then Core.without k p else k), hc,
        State.getCore, SMap.get, hc]
      rfl
  intro m
  cases m with
  | tile c g o => simp only [State.readLoc, State.alloc, allocs]
  | _ => rfl

/-- The cores that serve a partition's clusters: the presented ones, and retired ones that stand in the table. -/
theorem State.contains_servingCores (s : State) (l : List Nat) {c : Nat} (h : (s.cores.look c).isSome = true) :
    (s.servingCores l).contains c = true ↔ c ∈ coresOf l ∨ (320 ≤ c ∧ clusterOf c ∈ l) := by
  rw [List.contains_iff_mem, State.servingCores, List.mem_append, List.mem_filter]
  simp [SMap.mem_keys_of_look h]

/-- The state after the invalidation of a TLBINV. -/
def State.tlbInvalidated (s : State) (a b : BitVec 5) (k : BitVec 3) : State :=
  s.invalidate (s.servingCores s.part.clusters) fun t => t.named k.toNat (s.rd a).toNat ((s.rd b).toNat % 2 ^ 16)
theorem exec_tlbinv {a b : BitVec 5} {k : BitVec 3} (hl : s.th.level ≠ .user) :
    exec (.tlbinv a b k) s =
      .next { s.tlbInvalidated a b k with
              th := { s.th with pc := s.th.pc + 4, cv := none, reissue := false, tlbinvs := s.th.tlbinvs + 1 } } := by
  change execTlbinv a b k s = _
  rw [execTlbinv, privileged_above _ hl]
  simp only [bits, Nat.shiftRight_zero]
  rfl

/-! ## RMACK, TLBSYNC and IDLE (04 R129, R130, R132) -/

theorem exec_rmack_acked {d a : BitVec 5} (h : s.th.rmvAck ≤ (s.rd a).toNat % 2 ^ 32) (h' : (s.rd a).toNat % 2 ^ 32 ≤ s.th.rmvCur) :
    WritesContext (.rmack d a) s d 1 { s.th with rmvAck := (s.rd a).toNat % 2 ^ 32 } := by
  refine writesContext_of_exec rfl rfl ?_
  change execRmack d a s = _
  exact if_pos ⟨h, h'⟩
theorem rmack_refused {d a : BitVec 5} (h : (s.rd a).toNat % 2 ^ 32 < s.th.rmvAck ∨ s.th.rmvCur < (s.rd a).toNat % 2 ^ 32) :
    WritesReg (.rmack d a) s d 0 := by
  refine writesReg_of_exec _ _ _ _ ?_
  change execRmack d a s = _
  exact if_neg fun ⟨h1, h2⟩ => by have := h1; have := h2; simp only [State.rdN] at *; omega
theorem exec_tlbsync (hl : s.th.level ≠ .user) :
    exec .tlbsync s = if s.th.tlbinvs = 0 then .next s.advance else .next { s with th := { s.th with status := .parked .tlbsync } } := by
  change execTlbsync s = _
  rw [execTlbsync, privileged_above _ hl]
  split <;> rfl
theorem exec_idle (hl : s.th.level ≠ .user) :
    exec .idle s = .next (if s.advance.th.asyncReady then s.advance else { s.advance with th := { s.advance.th with status := .idle } }) := by
  change execIdle s = _
  rw [execIdle, privileged_above _ hl]
  rfl

/-! ## LWAKE (04 R131, 20 R426) -/

/-- A link after a wake: raised, unless it is full, waking already, or held by a cap at narrow. -/
def LinkState.woken (x : LinkState) : LinkState :=
  if x.power ≠ .full ∧ x.waking = false ∧ ¬ (x.capped = true ∧ x.power = .narrow) then { x with waking := true, raised := true } else x
theorem LinkState.woken_woken (x : LinkState) : x.woken.woken = x.woken := by
  by_cases h : x.power ≠ .full ∧ x.waking = false ∧ ¬ (x.capped = true ∧ x.power = .narrow)
  · simp [LinkState.woken, h]
  · simp only [LinkState.woken, h, if_false]
theorem linkSt_setLinkSt_same (r : LinkRef) (x : LinkState) : (s.setLinkSt r x).linkSt r = x := by
  have h : (s.links.filter fun y => y.1 != r).find? (fun y => y.1 == r) = none := by
    simp
  simp only [State.setLinkSt, State.linkSt, List.find?_append, h, Option.none_or, List.find?_cons, beq_self_eq_true]
theorem linkSt_wakeLink (r j : LinkRef) : (s.wakeLink r).linkSt j = if j = r then (s.linkSt j).woken else s.linkSt j := by
  unfold State.wakeLink
  dsimp only
  split
  · next h =>
    have : (s.linkSt r).woken = s.linkSt r := if_neg fun ⟨h1, h2, h3⟩ => by simp_all
    split
    · next e => rw [e, this]
    · rfl
  · next h =>
    split
    · next e =>
      rw [e, linkSt_setLinkSt_same, LinkState.woken, if_pos]
      simpa [not_or] using h
    · next e => exact linkSt_setLinkSt_ne _ e
theorem wakeLink_frame (r : LinkRef) : s.wakeLink r = { s with links := (s.wakeLink r).links } := by
  unfold State.wakeLink
  dsimp only
  split <;> rfl
theorem linkSt_wakeLinks (l : List LinkRef) (j : LinkRef) : (l.foldl State.wakeLink s).linkSt j = if j ∈ l then (s.linkSt j).woken else s.linkSt j := by
  induction l generalizing s with
  | nil => simp
  | cons r l ih =>
    rw [List.foldl_cons, ih, linkSt_wakeLink]
    by_cases hr : j = r <;> by_cases hl : j ∈ l <;> simp [hr, hl, LinkState.woken_woken]
theorem wakeLinks_frame (l : List LinkRef) : l.foldl State.wakeLink s = { s with links := (l.foldl State.wakeLink s).links } := by
  induction l generalizing s with
  | nil => rfl
  | cons r l ih =>
    rw [List.foldl_cons, ih, wakeLink_frame]

/-- Settles O18, by what each instruction does with translations, versions, links and the thread. -/
theorem systemInstructionResults : Obligations.SystemInstructionResults := by
  unfold Obligations.SystemInstructionResults
  intro s d a b k q
  refine ⟨rfl, rfl, fun hl h => (exec_tlbsync hl).trans (if_pos h), fun hl h => (exec_tlbsync hl).trans (if_neg h), fun hl => ?_, ⟨fun h h' => ?_,
    rmack_refused⟩, ?_, fun hl h => ?_, fun hl h => ?_⟩
  · refine ⟨_, exec_tlbinv hl, rfl, fun m => (State.readLoc_th ..).trans (s.sameBytes_invalidate _ _ m), rfl, fun c hc => ?_, fun n hn => ?_⟩
    · have hcore := s.getCore_invalidate (s.servingCores s.part.clusters) (fun t => t.named k.toNat (s.rd a).toNat ((s.rd b).toNat % 2 ^ 16)) hc
      have hserves := s.contains_servingCores s.part.clusters hc
      refine ⟨fun h => ?_, fun h => ?_⟩
      · rw [if_pos (hserves.2 h)] at hcore
        exact ⟨congrArg Core.vtlb hcore, fun m => (congrArg (fun c : Core => (c.channels.get m {}).xfers.map (·.held)) hcore).trans
          (Core.held_without ..)⟩
      · rwa [if_neg (fun e => h (hserves.1 e))] at hcore
    · have hboth : ∀ c, c / 2 = n → _ := fun c hc => s.contains_servingCores s.part.clusters (hn c hc)
      refine (s.unit_invalidate ..).trans ?_
      simp only [Bool.or_eq_true, hboth (2 * n) (by omega), hboth (2 * n + 1) (by omega)]
  · obtain ⟨t, ht, hd, hk, hpc, ho, hth, hb⟩ := exec_rmack_acked h h'
    exact ⟨t, ht, hd, hk, hth.trans (by rw [hpc]), ho, hb⟩
  · have hf := wakeLinks_frame (s := s) (s.pathLinks s.core k.toNat ((s.rd a).toNat % 256))
    refine ⟨(s.wakePath s.core k.toNat ((s.rd a).toNat % 256)).advance, rfl, ?_, ?_, fun m => ?_, fun r => ?_⟩
    · rw [State.advance, State.wakePath, hf]; rfl
    · rw [State.advance, State.wakePath, hf]
    · rw [State.advance, State.wakePath, hf]; cases m <;> rfl
    · refine (linkSt_of_links rfl r).trans ((linkSt_wakeLinks ..).trans ?_)
      by_cases h : r ∈ s.pathLinks s.core k.toNat ((s.rd a).toNat % 256) <;> simp only [h, if_true, if_false, true_and, false_and, LinkState.woken]
  · rw [exec_idle hl, h]; rfl
  · rw [exec_idle hl, h]; rfl

end Sys2Proof.Machine


-- ==== The context of a thread under the operations of CTXSV and CTXLD (O20) ====

namespace Sys2Proof.Machine

/-! ## What the engines, the chains and the allocator leave of the current thread -/

/-- The registers of a thread that neither transfers nor chains nor lane allocation touch. -/
structure Thread.Scalars where
  g : Vector Word 32
  level : Level
  pc : Word
  sup : TrapRegs
  fw : TrapRegs
  ew : Nat
  ptroot : Word
/-- Those registers of a thread. -/
def Thread.scalars (t : Thread) : Thread.Scalars := ⟨t.g, t.level, t.pc, t.sup, t.fw, t.ew, t.ptroot⟩
/-- The numbers under which the current thread has a slot. -/
def State.slotKeys (s : State) : List Nat := s.th.slots.map (·.1)

/-- From `s` to `t` the current thread is the same one, with the same registers and, where they are in order, slots under the same numbers. -/
structure ContextKept (s t : State) : Prop where
  cur : t.cur = s.cur
  scalars : t.th.scalars = s.th.scalars
  keys : s.slotKeys.Pairwise (· < ·) → t.slotKeys = s.slotKeys

theorem ContextKept.refl (s : State) : ContextKept s s := ⟨rfl, rfl, fun _ => rfl⟩
theorem ContextKept.trans {s t u : State} (h : ContextKept s t) (k : ContextKept t u) : ContextKept s u :=
  ⟨k.cur.trans h.cur, k.scalars.trans h.scalars, fun p => (k.keys (h.keys p ▸ p)).trans (h.keys p)⟩
theorem ContextKept.core {s t : State} (h : ContextKept s t) : t.core = s.core := by rw [State.core, h.cur, State.core]
theorem ContextKept.rd {s t : State} (h : ContextKept s t) (r : BitVec 5) : t.rd r = s.rd r := by
  have hg : t.th.g = s.th.g := congrArg Thread.Scalars.g h.scalars
  simp only [State.rd, hg]
/-- What changes other parts of the thread alone, or none of it. -/
theorem contextKept_of_th {s t : State} (hc : t.cur = s.cur) (hs : t.th.scalars = s.th.scalars) (hk : t.th.slots = s.th.slots) :
    ContextKept s t := ⟨hc, hs, fun _ => by rw [State.slotKeys, hk, State.slotKeys]⟩
theorem contextKept_of_eq {s t : State} (hc : t.cur = s.cur) (ht : t.th = s.th) : ContextKept s t :=
  contextKept_of_th hc (by rw [ht]) (by rw [ht])
theorem contextKept_of_getTh {s t : State} (hc : t.cur = s.cur) (ht : t.getTh s.cur = s.getTh s.cur) : ContextKept s t := by
  refine contextKept_of_eq hc ?_
  rwa [← hc, State.getTh_cur, hc, State.getTh_cur] at ht
theorem contextKept_foldl {α : Type} {f : State → α → State} (hf : ∀ s a, ContextKept s (f s a)) (l : List α) (s : State) :
    ContextKept s (l.foldl f s) := by
  induction l generalizing s with
  | nil => exact .refl s
  | cons a r ih => exact (hf s a).trans (ih _)
theorem ContextKept.ite {s t u : State} {c : Prop} [Decidable c] (ht : ContextKept s t) (hu : ContextKept s u) :
    ContextKept s (if c then t else u) := by
  split
  · exact ht
  · exact hu

theorem contextKept_setTh (s : State) (h : Nat) {t : Thread} (hs : t.scalars = (s.getTh h).scalars) (hk : t.slots = (s.getTh h).slots) :
    ContextKept s (s.setTh h t) := by
  have e : (s.setTh h t).th = if s.cur = h then t else s.th := by
    have := State.getTh_setTh s h s.cur t
    rwa [← State.setTh_cur s h t, State.getTh_cur, State.setTh_cur, State.getTh_cur] at this
  refine contextKept_of_th (State.setTh_cur _ _ _) ?_ ?_
  all_goals
    rw [e]
    split
    · next e => subst e; simp only [hs, hk, State.getTh_cur]
    · rfl

/-! ## Slots -/

/-- An entry replaced in a table in order leaves the keys. -/
theorem SMap.keys_set {α : Type} {m : SMap α} {k : Nat} {x : α} (hm : (m.map (·.1)).Pairwise (· < ·)) (hk : m.look k = some x) (a : α) :
    (m.set k a).map (·.1) = m.map (·.1) := by
  induction m with
  | nil => cases hk
  | cons p r ih =>
    obtain ⟨j, b⟩ := p
    simp only [List.map_cons, List.pairwise_cons] at hm
    simp only [SMap.look] at hk
    split at hk
    · next e => subst e; simp [SMap.set]
    · next e =>
      have hlt : j < k := hm.1 k (List.mem_map.2 ⟨(k, x), SMap.mem_of_look hk, rfl⟩)
      simp only [SMap.set, if_neg (Nat.not_lt.2 hlt.le), if_neg e, List.map_cons]
      exact congrArg _ (ih hm.2 hk)
theorem SMap.keys_erase {α : Type} (m : SMap α) (k : Nat) : (m.erase k).map (·.1) = (m.map (·.1)).erase k := by
  induction m with
  | nil => rfl
  | cons p r ih =>
    obtain ⟨j, b⟩ := p
    simp only [SMap.erase, List.map_cons, List.erase_cons, beq_iff_eq]
    split
    · rfl
    · simp only [List.map_cons, ih]
theorem SMap.not_mem_keys {α : Type} {m : SMap α} {k : Nat} (h : m.look k = none) : k ∉ m.map (·.1) := by
  induction m with
  | nil => simp
  | cons p r ih =>
    obtain ⟨j, b⟩ := p
    simp only [SMap.look] at h
    split at h
    · cases h
    · next e => simp only [List.map_cons, List.mem_cons, not_or]; exact ⟨Ne.symm e, ih h⟩

theorem contextKept_updSlot (s : State) (ch : Nat × Nat) (f : Slot → Slot) : ContextKept s (s.updSlot ch f) := by
  have hcur := s.updSlot_cur ch f
  have hth := s.getTh_updSlot ch f s.cur
  have e : (s.updSlot ch f).getTh s.cur = (s.updSlot ch f).th := by rw [← hcur, State.getTh_cur]
  refine ⟨hcur, ?_, fun hp => ?_⟩
  · rw [← e, hth, State.getTh_cur]; rfl
  cases hx : s.slotAt ch with
  | none => rw [State.updSlot_none hx]
  | some x =>
    rw [State.slotKeys, ← e, State.updSlot_eq hx, State.getTh_setTh]
    split
    · next hc =>
      rw [State.slotAt, ← hc, State.getTh_cur] at hx
      rw [← hc, State.getTh_cur]
      exact SMap.keys_set hp hx _
    · rw [State.getTh_cur]; rfl

/-! ## Tokens (02 R68) -/

theorem contextKept_setClaimants (s : State) (c g b : Nat) (l : List (Nat × Nat)) : ContextKept s (s.setClaimants c g b l) :=
  contextKept_of_eq rfl rfl
theorem contextKept_arrive (c g b fuel : Nat) (s : State) : ContextKept s (State.arrive c g b fuel s) := by
  induction fuel generalizing s with
  | zero => exact .refl s
  | succ fuel ih =>
    unfold State.arrive
    split
    · exact .refl s
    · refine .ite (.refl s) (.ite (contextKept_updSlot ..) (.trans (.trans ?_ (contextKept_setClaimants ..)) (ih _)))
      exact contextKept_updSlot ..
theorem contextKept_leaveBank (ch : Nat × Nat) (g : Nat) (s : State) (b : Nat × Nat) : ContextKept s (State.leaveBank ch g s b) := by
  unfold State.leaveBank
  extract_lets l w free s1
  have h1 : ContextKept s s1 := contextKept_of_eq rfl rfl
  exact .ite (h1.trans (contextKept_arrive ..)) h1
theorem contextKept_leaveClaims (s : State) (ch : Nat × Nat) : ContextKept s (s.leaveClaims ch) :=
  contextKept_foldl (contextKept_leaveBank ch _) _ _

/-! ## Strips (13 R297) -/

theorem contextKept_noteReads (s : State) (l : List Loc) : ContextKept s (s.noteReads l) :=
  contextKept_foldl (fun t _ => contextKept_of_eq (t.note_cur ..) (t.note_th ..)) l s
theorem contextKept_writeLoc (s : State) (l : Loc) (n x : Nat) : ContextKept s (s.writeLoc l n x) :=
  contextKept_of_eq (s.writeLoc_cur l n x) (s.writeLoc_th l n x)
theorem contextKept_storeLoc (s : State) (l : Loc) (n x : Nat) : ContextKept s (s.storeLoc l n x) :=
  contextKept_of_eq (s.storeLoc_cur l n x) (s.storeLoc_th l n x)
theorem contextKept_poisonLoc (s : State) (l : Loc) : ContextKept s (s.poisonLoc l) :=
  contextKept_of_eq (s.poisonLoc_cur l) (s.poisonLoc_th l)
theorem contextKept_writePoisoned (s : State) (l : Loc) (n x : Nat) : ContextKept s (s.writePoisoned l n x) := by
  have stored (t : State) : ContextKept t ((t.storeLoc l n x).poisonLoc l) := (contextKept_storeLoc ..).trans (contextKept_poisonLoc ..)
  unfold State.writePoisoned
  split
  · next p =>
    extract_lets s1
    have h1 : ContextKept s s1 := .ite (.refl s) (contextKept_of_eq rfl rfl)
    exact .ite (h1.trans (stored s1)) (h1.trans (contextKept_of_eq rfl rfl))
  · exact stored s
theorem contextKept_copyElt (s : State) (src dst : Loc) (n : Nat) : ContextKept s (s.copyElt src dst n) :=
  .ite ((contextKept_noteReads ..).trans (contextKept_writePoisoned ..)) ((contextKept_noteReads ..).trans (contextKept_writeLoc ..))
theorem contextKept_moveElt (x : Xfer) (s : State) (m : Nat × Option Loc) : ContextKept s (State.moveElt x s m) := by
  unfold State.moveElt
  dsimp only
  split
  · exact contextKept_writeLoc ..
  · exact .ite (contextKept_copyElt ..) (contextKept_copyElt ..)
theorem contextKept_bankPut (f : Option Fmt) (n : Nat) (s : State) (q : BankAdd) : ContextKept s (State.bankPut f n s q) :=
  (contextKept_storeLoc ..).trans (contextKept_of_eq (State.note_cur ..) (State.note_th ..))
theorem contextKept_moveAdds (s : State) (x : Xfer) (locs : List (Nat × Loc)) : ContextKept s (s.moveAdds x locs) := by
  unfold State.moveAdds
  extract_lets tile m s1
  have h1 : ContextKept s s1 := (contextKept_foldl (contextKept_bankPut x.fmt x.bytes) m.1 s).trans (contextKept_of_th rfl rfl rfl)
  exact h1.trans (contextKept_foldl (fun t (p : Nat × Loc) => contextKept_poisonLoc t p.2) _ _)
theorem contextKept_noteFills (s : State) (x : Xfer) : ContextKept s (s.noteFills x) := .ite (.refl s) (contextKept_of_th rfl rfl rfl)
theorem contextKept_moveStrip (s : State) (x : Xfer) (ms : List (Nat × Option Loc)) : ContextKept s (s.moveStrip x ms) :=
  have h1 := contextKept_noteFills s x
  .ite (h1.trans (contextKept_moveAdds ..)) (h1.trans (contextKept_foldl (contextKept_moveElt x) _ _))
theorem contextKept_afterStrip (s : State) (core c : Nat) (x : Xfer) : ContextKept s (s.afterStrip core c x) := by
  unfold State.afterStrip
  dsimp only
  split
  · exact .ite (contextKept_of_eq rfl rfl) (contextKept_of_eq rfl rfl)
  · exact contextKept_of_eq rfl rfl
/-- Work on behalf of the current thread is done in place. -/
theorem State.onThread_cur {s : State} {f : State → State} (h : (f s).cur = s.cur) : s.onThread s.cur f = f s := by
  have self (t : State) : t.switchTo t.cur = t := if_pos rfl
  rw [State.onThread, self]
  exact h ▸ self (f s)
theorem contextKept_onThread {s : State} {f : State → State} (h : ContextKept s (f s)) : ContextKept s (s.onThread s.cur f) := by
  rwa [State.onThread_cur h.cur]
theorem contextKept_runStrip (s : State) (core ch : Nat) (x : Xfer) (ms : List (Nat × Option Loc)) (ahead : Option Nat) :
    ContextKept s (s.runStrip core ch s.cur x ms ahead) :=
  .ite (contextKept_onThread ((contextKept_moveStrip s x ms).trans (contextKept_afterStrip ..)))
    (contextKept_onThread ((contextKept_moveStrip s x _).trans (contextKept_of_eq rfl rfl)))
theorem contextKept_endStrip {s : State} {core ch : Nat} (ho : ((s.getCore core).channels.get ch {}).owner = some s.cur) :
    ContextKept s (s.endStrip core ch) := by
  unfold State.endStrip
  dsimp only
  split
  · next h x r hh hx =>
    obtain rfl : s.cur = h := Option.some.inj (ho.symm.trans hh)
    split
    · exact contextKept_runStrip ..
    · exact .refl s
  · exact .refl s
theorem contextKept_endStrips (s : State) : ContextKept s (s.endStrips s.cur) := by
  suffices h : ∀ (l : List Nat) (t : State), ContextKept s t → ContextKept s (l.foldl (fun t c =>
      if ((t.getCore (s.cur / 4)).channels.get c {}).owner = some s.cur then t.endStrip (s.cur / 4) c else t) t) from h _ s (.refl s)
  intro l
  induction l with
  | nil => exact fun t ht => ht
  | cons c r ih =>
    intro t ht
    refine ih _ ?_
    dsimp only
    split
    · next ho => exact ht.trans (contextKept_endStrip (ht.cur ▸ ho))
    · exact ht

/-! ## The drain of the chains (19 R399) -/

theorem contextKept_drain (s : State) (ch : Nat × Nat) : ContextKept s (s.drain ch) := by
  unfold State.drain
  split
  · split
    · next x _ _ r _ =>
      have hq := onlyQueues_returnEntries s x r
      exact .ite (.refl s) ((contextKept_of_getTh hq.cur (hq.getTh _)).trans (contextKept_updSlot ..))
    · exact .refl s
  · exact .refl s
/-- The engines and chains stop with the thread's registers as they are (13 R297, 19 R399). -/
theorem contextKept_drainContext (s : State) : ContextKept s s.drainContext :=
  (((contextKept_endStrips s).trans (contextKept_foldl (fun _ _ => contextKept_updSlot ..) _ _)).trans
    (contextKept_foldl (fun _ _ => contextKept_drain ..) _ _)).trans (contextKept_of_eq rfl rfl)

end Sys2Proof.Machine


-- ==== The save area located and written (O20) ====

namespace Sys2Proof.Machine

/-! ## The pieces of the area (04 R127) -/

theorem onlyCores_locateAll (s : State) (level : Level) (tile : Bool) (n : Nat) (k : AKind) (l : List (Nat × Nat)) :
    OnlyCores s (s.locateAll .v level tile n k l).1 := by
  induction l generalizing s with
  | nil => exact .refl s
  | cons p r ih =>
    simp only [State.locateAll]
    split
    · next loc t h =>
      obtain rfl | ⟨held, rfl⟩ := State.locateAt_state s t .v level tile p.2 n k loc h
      · exact ih _
      · have h1 : OnlyCores s (s.setTlb .v held) :=
          onlyCores_updCore s s.core (f := fun c => { c with vtlb := held }) (fun _ => rfl) fun _ => rfl
        exact h1.trans (ih _)
    · exact ih s
/-- Where the pieces are found, only translations that the VTLB holds have changed. -/
theorem onlyCores_saveLocs {s u : State} {a n : Nat} {k : AKind} {l : List (Nat × Loc)} (h : s.saveLocs a n k = .ok (l, u)) : OnlyCores s u := by
  unfold State.saveLocs at h
  dsimp only at h
  repeat' split at h
  all_goals cases h
  exact onlyCores_locateAll ..
theorem OnlyCores.context {s t : State} (h : OnlyCores s t) : ContextKept s t := contextKept_of_getTh h.cur (h.getTh _)
theorem contextKept_loadArea {s u : State} {a n x : Nat} (h : s.loadArea a n = .ok (x, u)) : ContextKept s u := by
  obtain ⟨⟨l, s1⟩, hl, h⟩ := ok_of_bind_ok h
  dsimp only at h
  split at h
  · cases h
  · cases h
    exact (onlyCores_saveLocs hl).context.trans (contextKept_noteReads ..)

/-! ## The stores that write it -/

/-- The link to the host is up after a store as it was before. -/
theorem State.phase_put (s : State) (l : Loc) (n x : Nat) : (s.put l n x).ksl.phase = s.ksl.phase := by
  unfold State.put
  split
  · rfl
  · split
    · rfl
    · split <;> rfl
  · rfl
theorem State.phase_storeLoc (s : State) (l : Loc) (n x : Nat) : (s.storeLoc l n x).ksl.phase = s.ksl.phase := by
  have put (s : State) (l : Loc) : (s.putBreak l n x).ksl.phase = s.ksl.phase := s.phase_put l n x
  unfold State.storeLoc
  dsimp only
  split
  · rw [put, put]
  · rw [put]
theorem State.phase_note (s : State) (ty op : Nat) (l : Loc) (d : List Byte) : (s.note ty op l d).ksl.phase = s.ksl.phase := by
  unfold State.note State.noteFor
  repeat' split
  all_goals rfl
theorem State.phase_keepOld (s : State) (l : Loc) (n x : Nat) : (s.keepOld l n x).ksl.phase = s.ksl.phase := by
  unfold State.keepOld
  repeat' split
  all_goals rfl
theorem State.phase_writeLoc (s : State) (l : Loc) (n x : Nat) : (s.writeLoc l n x).ksl.phase = s.ksl.phase := by
  rw [State.writeLoc, State.phase_keepOld, State.phase_note, State.phase_storeLoc]

theorem State.forkOf_writeLoc (s : State) (l m : Loc) (n x : Nat) : (s.writeLoc l n x).forkOf m = s.forkOf m :=
  State.forkOf_of_eq (s.writeLoc_migrations l n x) m
theorem State.dropped_writeLoc (s : State) (l m : Loc) (n x : Nat) : (s.writeLoc l n x).dropped m ↔ s.dropped m := by
  rw [State.dropped, State.phase_writeLoc, State.dropped]
theorem contextKept_writeArea (s : State) (l : List (Nat × Loc)) (x : Nat) : ContextKept s (s.writeArea l x) := by
  induction l generalizing s x with
  | nil => exact .refl s
  | cons p r ih => exact (contextKept_writeLoc s p.2 8 (x % 2 ^ 64)).trans (ih _ _)
theorem State.forkOf_writeArea (s : State) (l : List (Nat × Loc)) (x : Nat) (m : Loc) : (s.writeArea l x).forkOf m = s.forkOf m := by
  induction l generalizing s x with
  | nil => rfl
  | cons p r ih => exact (ih _ _).trans (s.forkOf_writeLoc ..)
theorem State.dropped_writeArea (s : State) (l : List (Nat × Loc)) (x : Nat) (m : Loc) : (s.writeArea l x).dropped m ↔ s.dropped m := by
  induction l generalizing s x with
  | nil => rfl
  | cons p r ih => exact (ih _ _).trans (s.dropped_writeLoc ..)

/-- A byte outside every piece, and outside the second writes of pages that are being migrated, reads as before. -/
theorem State.readLoc_writeArea_ne (s : State) (l : List (Nat × Loc)) (x : Nat) (m : Loc) (hs : s.wf = true)
    (hm : ∀ p ∈ l, ¬ m.within p.2 8 ∧ ∀ f, s.forkOf p.2 = some f → ¬ m.within f 8) : (s.writeArea l x).readLoc m 1 = s.readLoc m 1 := by
  induction l generalizing s x with
  | nil => rfl
  | cons p r ih =>
    obtain ⟨hp, hf⟩ := hm p List.mem_cons_self
    have hr := ih (s.writeLoc p.2 8 (x % 2 ^ 64)) (x / 2 ^ 64) (s.wf_writeLoc _ _ _ hs) fun q hq => by
      simp only [State.forkOf_writeLoc]
      exact hm q (List.mem_cons_of_mem _ hq)
    exact hr.trans ((s.stored_writeLoc p.2 8 (x % 2 ^ 64) hs).2 m hp hf)
/-- An area is written piece by piece, each with the next 8 bytes of the value. -/
theorem State.writeArea_append (s : State) (l r : List (Nat × Loc)) (x : Nat) :
    s.writeArea (l ++ r) x = (s.writeArea l x).writeArea r (x / 2 ^ (64 * l.length)) := by
  induction l generalizing s x with
  | nil => simp [State.writeArea]
  | cons p l ih =>
    simp only [List.cons_append, State.writeArea, ih, List.length_cons, Nat.div_div_eq_div_mul, ← pow_add]
    rw [show 64 + 64 * l.length = 64 * (l.length + 1) by omega]
/-- The place of piece `j`. -/
def pieceAt (l : List (Nat × Loc)) (j : Nat) : Loc := (l.getD j (0, .dev 0)).2
theorem pieceAt_eq {l : List (Nat × Loc)} {j : Nat} (h : j < l.length) : pieceAt l j = l[j].2 := by
  rw [pieceAt, List.getD_eq_getElem _ _ h]

/-- The last piece at the place of piece `j` lies there, and none behind it does. -/
theorem lastAt_spec (n : Nat) (loc : Nat → Loc) {j : Nat} (hj : j < n) :
    lastAt (List.range n) loc j < n ∧ loc (lastAt (List.range n) loc j) = loc j
      ∧ ∀ i < n, lastAt (List.range n) loc j < i → loc i ≠ loc j := by
  unfold lastAt
  set same := (List.range n).filter fun i => loc i == loc j with hsame
  have hmem {i : Nat} : i ∈ same ↔ i < n ∧ loc i = loc j := by simp [hsame]
  have hne : same ≠ [] := List.ne_nil_of_mem (hmem.2 ⟨hj, rfl⟩)
  rw [List.getLast?_eq_some_getLast hne, Option.getD_some]
  obtain ⟨hlt, hloc⟩ := hmem.1 (List.getLast_mem hne)
  refine ⟨hlt, hloc, fun i hi hl e => ?_⟩
  have hsorted : same.Pairwise (· < ·) := List.Pairwise.filter _ List.pairwise_lt_range
  rw [← List.dropLast_append_getLast hne, List.pairwise_append] at hsorted
  have hi' : i ∈ same := hmem.2 ⟨hi, e⟩
  rw [← List.dropLast_append_getLast hne, List.mem_append, List.mem_singleton] at hi'
  rcases hi' with h | h
  · exact absurd (hsorted.2.2 i h _ (List.mem_singleton.2 rfl)) (by omega)
  · omega

/-- The pieces of an area after it is written: the last one at a place stays. -/
theorem scattered_writeArea (s : State) (l : List (Nat × Loc)) (x : Nat) (hs : s.wf = true) :
    Scattered s (s.writeArea l x) (List.range l.length) (pieceAt l) 8
      (fun j => x / 2 ^ (64 * lastAt (List.range l.length) (pieceAt l) j) % 2 ^ 64) := by
  refine ⟨fun m hm => s.readLoc_writeArea_ne l x m hs fun p hp => ?_, fun apart j hj up i hi => ?_⟩
  · obtain ⟨k, hk, rfl⟩ := List.mem_iff_getElem.1 hp
    rw [← pieceAt_eq hk]
    exact hm k (List.mem_range.2 hk)
  obtain ⟨hk, hloc, hlast⟩ := lastAt_spec l.length (pieceAt l) (List.mem_range.1 hj)
  set k := lastAt (List.range l.length) (pieceAt l) j
  have hinside : ((pieceAt l j).add i).within (pieceAt l j) 8 := ⟨i, hi, rfl⟩
  have hw := s.wf_writeArea (l.take k) x hs
  have hstore := (s.writeArea (l.take k) x).stored_writeLoc (pieceAt l k) 8 (x / 2 ^ (64 * k) % 2 ^ 64) hw
  have hsplit := s.writeArea_append (l.take k) (l.drop k) x
  rw [List.take_append_drop, List.length_take_of_le hk.le, List.drop_eq_getElem_cons hk] at hsplit
  calc (s.writeArea l x).readLoc ((pieceAt l j).add i) 1
      = ((s.writeArea (l.take k) x).writeArea (l[k] :: l.drop (k + 1)) (x / 2 ^ (64 * k))).readLoc ((pieceAt l j).add i) 1 := by
        rw [hsplit]
    _ = ((s.writeArea (l.take k) x).writeLoc (pieceAt l k) 8 (x / 2 ^ (64 * k) % 2 ^ 64)).readLoc ((pieceAt l j).add i) 1 := by
        rw [State.writeArea, ← pieceAt_eq hk]
        refine State.readLoc_writeArea_ne _ _ _ _ (State.wf_writeLoc _ _ _ _ hw) fun p hp => ?_
        obtain ⟨m, hm, rfl⟩ := List.mem_iff_getElem.1 hp
        have hm' : k + 1 + m < l.length := by rw [List.length_drop] at hm; omega
        rw [List.getElem_drop, ← pieceAt_eq hm']
        obtain ⟨hsep, hfork⟩ := apart j hj (k + 1 + m) (List.mem_range.2 hm')
        refine ⟨hsep.resolve_left (fun e => hlast _ hm' (by omega) e.symm) _ hinside, fun f hf => hfork f ?_ _ hinside⟩
        rwa [State.forkOf_writeLoc, State.forkOf_writeArea] at hf
    _ = x / 2 ^ (64 * k) % 2 ^ 64 / 256 ^ i % 256 := by
        rw [← hloc]
        refine hstore.1 ?_ (fun f hf m hm hin => ?_) i hi
        · rwa [State.dropped_writeArea, hloc]
        · rw [State.forkOf_writeArea, hloc] at hf
          rw [hloc] at hin
          exact (apart j hj j hj).2 f hf m hin hm
/-- Bytes scattered from a state with the same memory, migrations and link, and found in one with the same memory. -/
theorem Scattered.of_same {s s1 t t1 : State} {js : List Nat} {loc : Nat → Loc} {n : Nat} {x : Nat → Nat} (h : Scattered s1 t1 js loc n x)
    (hb : SameBytes s s1) (hm : s1.migrations = s.migrations) (hk : s1.ksl = s.ksl) (ht : SameBytes t1 t) : Scattered s t js loc n x := by
  obtain ⟨hout, hin⟩ := h
  simp only [State.Apart, State.dropped, hk, State.forkOf_of_eq hm] at hout hin
  exact ⟨fun m hm => by rw [ht, hout m hm, hb], fun ha j hj hd i hi => by rw [ht, hin ha j hj hd i hi]⟩

end Sys2Proof.Machine


-- ==== The resources of a saved context released (O20) ====

namespace Sys2Proof.Machine

/-- From `s` to `t` the current thread is the same one, with the same registers, and no byte of memory has changed. -/
structure ReleaseKeeps (s t : State) : Prop where
  cur : t.cur = s.cur
  scalars : t.th.scalars = s.th.scalars
  bytes : SameBytes s t

theorem ReleaseKeeps.refl (s : State) : ReleaseKeeps s s := ⟨rfl, rfl, fun _ => rfl⟩
theorem ReleaseKeeps.trans {s t u : State} (h : ReleaseKeeps s t) (k : ReleaseKeeps t u) : ReleaseKeeps s u :=
  ⟨k.cur.trans h.cur, k.scalars.trans h.scalars, h.bytes.trans k.bytes⟩
theorem ContextKept.released {s t : State} (h : ContextKept s t) (hb : SameBytes s t) : ReleaseKeeps s t := ⟨h.cur, h.scalars, hb⟩
theorem OnlyCores.released {s t : State} (h : OnlyCores s t) : ReleaseKeeps s t := h.context.released h.bytes

/-! ## Chains (07 R214, 19 R390) -/

theorem slotKeys_dropSlot (s : State) (k : Nat) : (s.dropSlot (s.cur, k)).slotKeys = s.slotKeys.erase k := by
  have e : (s.dropSlot (s.cur, k)).th = (s.dropSlot (s.cur, k)).getTh s.cur := (if_pos (s.setTh_cur _ _).symm).symm
  rw [State.slotKeys, e, State.dropSlot, State.getTh_setTh, if_pos rfl, State.getTh_cur]
  exact SMap.keys_erase _ _
theorem OnlyCores.slotKeys {s t : State} (h : OnlyCores s t) : t.slotKeys = s.slotKeys := by rw [State.slotKeys, h.eq, State.slotKeys]
theorem releaseKeeps_endChain (s : State) (ch : Nat × Nat) : ReleaseKeeps s (s.endChain ch) := by
  cases hx : s.slotAt ch with
  | none => rw [State.endChain, hx]; exact .refl s
  | some x =>
    have h := endKeeps_endChain hx
    refine ⟨h.cur, ?_, h.bytes⟩
    rw [← State.getTh_cur (s.endChain ch), h.cur, h.threads, State.getTh_cur]
    rfl
/-- The end of a chain of the current thread takes its slot, and that one alone. -/
theorem slotKeys_endChain {s : State} (hp : s.slotKeys.Pairwise (· < ·)) (k : Nat) :
    (s.endChain (s.cur, k)).slotKeys = s.slotKeys.erase k := by
  have hl := contextKept_leaveClaims s (s.cur, k)
  have dropped {t : State} (ht : ContextKept s t) : (t.dropSlot (s.cur, k)).slotKeys = s.slotKeys.erase k := by
    rw [← ht.cur, slotKeys_dropSlot, ht.keys hp]
  unfold State.endChain
  split
  · next h =>
    rw [State.slotAt, State.getTh_cur] at h
    exact (List.erase_of_not_mem (SMap.not_mem_keys h)).symm
  · next x h =>
    dsimp only
    split
    · exact dropped hl
    · have hd := dropped (hl.trans (onlyCores_unbind _ (s.cur, k)).context)
      have hf := onlyCores_foldl onlyCores_freeBakeLane (x.frames.filterMap fun f => if f.isVecStage then some (f.core, f.lg) else none)
        (((s.leaveClaims (s.cur, k)).unbind (s.cur, k)).dropSlot (s.cur, k))
      exact hf.slotKeys.trans hd

/-- The entries of a queue gone. -/
def State.emptyQueue (s : State) (q : Nat × Nat × Nat) : State := s.setQueue q.1 q.2.1 { s.queue q.1 q.2.1 with entries := [] }
theorem emptied_queues (l : List (Nat × Nat × Nat)) (s : State) :
    ContextKept s (l.foldl State.emptyQueue s) ∧ SameBytes s (l.foldl State.emptyQueue s) := by
  have one (t : State) (q : Nat × Nat × Nat) : ContextKept t (t.emptyQueue q) := contextKept_of_eq rfl rfl
  refine ⟨contextKept_foldl one l s, ?_⟩
  exact List.foldlRecOn (motive := SameBytes s) l _ (fun _ => rfl) fun t ht q _ => ht.trans (sameBytes_setQueue t _ _ _)
/-- A slot of thread `h` released: its chain ends, and the entries of its queues are gone. -/
def State.releaseSlot (h : Nat) (s : State) (k : Nat × Slot) : State := k.2.queues.foldl State.emptyQueue (s.endChain (h, k.1))
theorem releaseKeeps_releaseSlot (h : Nat) (s : State) (k : Nat × Slot) : ReleaseKeeps s (State.releaseSlot h s k) :=
  (releaseKeeps_endChain s _).trans ((emptied_queues _ _).1.released (emptied_queues _ _).2)
theorem slotKeys_releaseSlot {s : State} (hp : s.slotKeys.Pairwise (· < ·)) (k : Nat × Slot) :
    (State.releaseSlot s.cur s k).slotKeys = s.slotKeys.erase k.1 := by
  have he := slotKeys_endChain hp k.1
  refine ((emptied_queues k.2.queues (s.endChain (s.cur, k.1))).1.keys ?_).trans he
  rw [he]
  exact hp.sublist List.erase_sublist
theorem releaseChains_eq (s : State) (h : Nat) : s.releaseChains h
    = (List.range 4).foldl (fun t k => t.leaveClaims (h, k)) ((s.getTh h).slots.foldl (State.releaseSlot h) s) := rfl
theorem releaseKeeps_releaseChains (s : State) (h : Nat) : ReleaseKeeps s (s.releaseChains h) := by
  rw [releaseChains_eq]
  refine List.foldlRecOn (motive := ReleaseKeeps s) _ _ ?_ fun t ht k _ =>
    ht.trans ((contextKept_leaveClaims t _).released (tokensMove_leaveClaims t _).stores.bytes)
  exact List.foldlRecOn (motive := ReleaseKeeps s) _ _ (.refl s) fun t ht k _ => ht.trans (releaseKeeps_releaseSlot h t k)
theorem slotKeys_releaseSlots {h : Nat} (l : SMap Slot) (hp : (l.map (·.1)).Pairwise (· < ·)) (t : State) (hc : t.cur = h)
    (hk : t.slotKeys = l.map (·.1)) : (l.foldl (State.releaseSlot h) t).slotKeys = [] := by
  induction l generalizing t with
  | nil => exact hk
  | cons p r ih =>
    have hp' : t.slotKeys.Pairwise (· < ·) := hk ▸ hp
    subst hc
    rw [List.map_cons] at hp hk
    refine ih (List.pairwise_cons.1 hp).2 _ (releaseKeeps_releaseSlot _ t p).cur ?_
    rw [slotKeys_releaseSlot hp', hk, List.erase_cons_head]
theorem slots_eq_nil {s : State} (h : s.slotKeys = []) : s.th.slots = [] := List.map_eq_nil_iff.1 h
/-- No slot of the current thread is left. -/
theorem slots_releaseChains {s : State} (hp : s.slotKeys.Pairwise (· < ·)) : (s.releaseChains s.cur).th.slots = [] := by
  have h := slotKeys_releaseSlots s.th.slots hp s rfl rfl
  rw [releaseChains_eq, State.getTh_cur]
  have hl := contextKept_foldl (fun t k => contextKept_leaveClaims t (s.cur, k)) (List.range 4) (s.th.slots.foldl (State.releaseSlot s.cur) s)
  exact slots_eq_nil ((hl.keys (by rw [h]; exact .nil)).trans h)

/-! ## Channels, rings and the attachment -/

theorem onlyCores_releaseStreams (s : State) (h : Nat) : OnlyCores s (s.releaseStreams h) := onlyCores_updCore s _ (fun _ => rfl) fun _ => rfl
/-- No channel of its core belongs to the thread any more. -/
theorem owner_releaseStreams (s : State) (h c : Nat) : (((s.releaseStreams h).getCore (h / 4)).channels.get c {}).owner ≠ some h := by
  let free (k : Channel) : Channel := if k.owner = some h then {} else k
  have hfree (k : Channel) : (free k).owner ≠ some h := by
    unfold free; split
    · exact nofun
    · assumption
  have e : ((s.releaseStreams h).getCore (h / 4)).channels = (s.getCore (h / 4)).channels.map fun k => (k.1, free k.2) := by
    rw [State.releaseStreams, State.getCore_updCore, if_pos rfl]
    refine List.map_congr_left fun k _ => ?_
    unfold free; split <;> rfl
  rw [e, SMap.get, SMap.look_map]
  cases (s.getCore (h / 4)).channels.look c with
  | none => exact nofun
  | some k => exact hfree k

theorem State.attOf_setAtt (s : State) (c : Nat) (a : Option Attachment) : (s.setAtt c a).attOf c = a := by
  simp only [State.attOf, State.setAtt, State.unit, SMap.get_set_same]
  split <;> rfl
theorem State.attOf_of_units {s t : State} (h : t.units = s.units) (c : Nat) : t.attOf c = s.attOf c := by
  rw [State.attOf, State.unit, h, State.attOf, State.unit]
theorem State.detach_cores (s : State) (h : Nat) : (s.detach h).cores = s.cores := by
  unfold State.detach
  split
  · split
    · exact State.setTh_cores ..
    · rfl
  · rfl
theorem contextKept_detach (s : State) (h : Nat) : ContextKept s (s.detach h) := by
  unfold State.detach
  split
  · have h1 : ContextKept s (s.setAtt (h / 4) none) := contextKept_of_eq rfl rfl
    exact .ite (h1.trans (contextKept_setTh _ h rfl rfl)) (.refl s)
  · exact .refl s
theorem sameBytes_setAtt (s : State) (c : Nat) (a : Option Attachment) : SameBytes s (s.setAtt c a) := fun l => by cases l <;> rfl
theorem sameBytes_detach (s : State) (h : Nat) : SameBytes s (s.detach h) := by
  unfold State.detach
  split
  · split
    · exact (sameBytes_setAtt s _ _).trans (sameStores_setTh _ _ _).bytes
    · exact fun _ => rfl
  · exact fun _ => rfl
/-- The current thread has no attachment after its release. -/
theorem att_detach (s : State) : (s.detach s.cur).att = none := by
  rw [State.att, State.core, (contextKept_detach s s.cur).cur]
  cases ha : s.attOf (s.cur / 4) with
  | none =>
    have e : s.detach s.cur = s := by simp only [State.detach, ha]
    rw [e, ha]
  | some a =>
    by_cases hh : a.h = s.cur
    · have e : (s.detach s.cur).units = (s.setAtt (s.cur / 4) none).units := by
        simp only [State.detach, ha, if_pos hh]
        exact State.setTh_units ..
      rw [State.attOf_of_units e, State.attOf_setAtt]
    · have e : s.detach s.cur = s := by simp only [State.detach, ha, if_neg hh]
      rw [e, ha]
      exact if_neg hh

/-! ## Lane groups (09 R246) -/

theorem State.laneOwner_setLane (s : State) (c l d p : Nat) (o : LaneOwner) :
    (s.setLane c l o).laneOwner d p = o ∧ d = c ∧ p = l
      ∨ (s.setLane c l o).laneOwner d p = s.laneOwner d p ∧ (d = c → p = l → s.laneOwner d p = .dead) := by
  unfold State.laneOwner State.setLane
  rw [State.getCore_updCore]
  by_cases hd : d = c
  · subst hd
    rw [if_pos rfl]
    by_cases hp : p = l
    · subst hp
      by_cases hlt : p < (s.getCore d).lanes.length
      · exact .inl ⟨by simp [List.getD_eq_getElem?_getD, hlt], rfl, rfl⟩
      · have hn : (s.getCore d).lanes.length ≤ p := by omega
        exact .inr ⟨by simp [List.getD_eq_getElem?_getD, hn], fun _ _ => by simp [List.getD_eq_getElem?_getD, hn]⟩
    · exact .inr ⟨by simp [List.getD_eq_getElem?_getD, Ne.symm hp], fun _ e => absurd e hp⟩
  · exact .inr ⟨by rw [if_neg hd], fun e => absurd e hd⟩

/-- From `s` to `t` gangs and channels are as before. -/
def GangsKept (s t : State) : Prop :=
  ∀ c, (t.getCore c).gang = (s.getCore c).gang ∧ (t.getCore c).gangFirst = (s.getCore c).gangFirst
    ∧ (t.getCore c).channels = (s.getCore c).channels
theorem GangsKept.refl (s : State) : GangsKept s s := fun _ => ⟨rfl, rfl, rfl⟩
theorem GangsKept.trans {s t u : State} (h : GangsKept s t) (k : GangsKept t u) : GangsKept s u := fun c =>
  ⟨(k c).1.trans (h c).1, (k c).2.1.trans (h c).2.1, (k c).2.2.trans (h c).2.2⟩
theorem GangsKept.gangCores {s t : State} (h : GangsKept s t) (c : Nat) : t.gangCores c = s.gangCores c := by
  obtain ⟨hg, hf, _⟩ := h c
  simp only [State.gangCores, hg, hf]
theorem gangsKept_updCore (s : State) (n : Nat) {f : Core → Core}
    (hf : ∀ k, (f k).gang = k.gang ∧ (f k).gangFirst = k.gangFirst ∧ (f k).channels = k.channels) : GangsKept s (s.updCore n f) := fun c => by
  rw [State.getCore_updCore]; split
  · next e => rw [e]; exact hf _
  · exact ⟨rfl, rfl, rfl⟩
theorem gangsKept_releaseLane (s : State) (th : Thread) (l : Nat × Nat) : GangsKept s (s.releaseLane th l) :=
  gangsKept_updCore s _ fun _ => ⟨rfl, rfl, rfl⟩
theorem gangsKept_setLat (s : State) (c t : Nat) (x : LatThr) : GangsKept s (s.setLat c t x) := gangsKept_updCore s _ fun _ => ⟨rfl, rfl, rfl⟩
theorem State.laneOwner_setLat (s : State) (c t : Nat) (x : LatThr) (d p : Nat) : (s.setLat c t x).laneOwner d p = s.laneOwner d p := by
  rw [State.laneOwner, State.setLat, State.getCore_updCore]; split
  · next e => rw [e]; rfl
  · rfl
/-- The shares of a core's threads are no matter of owners. -/
theorem shares_keeps (s : State) (c : Nat) : GangsKept s (s.shares c) ∧ ∀ d p, (s.shares c).laneOwner d p = s.laneOwner d p :=
  List.foldlRecOn (motive := fun t : State => GangsKept s t ∧ ∀ d p, t.laneOwner d p = s.laneOwner d p) _ _ ⟨.refl s, fun _ _ => rfl⟩
    fun _ ht _ _ => ⟨ht.1.trans (gangsKept_setLat _ _ _ _), fun d p => (State.laneOwner_setLat ..).trans (ht.2 d p)⟩

/-- A lane group that is given up is no thread's. -/
theorem laneOwner_releaseLane {s : State} {th : Thread} {l : Nat × Nat} {t d p : Nat} (h : (s.releaseLane th l).laneOwner d p = .thread t) :
    s.laneOwner d p = .thread t ∧ (d, p) ≠ l := by
  obtain ⟨c, k⟩ := l
  unfold State.releaseLane at h
  rcases State.laneOwner_setLane s c k d p _ with ⟨e, -, -⟩ | ⟨e, hdead⟩
  · rw [e] at h
    repeat' split at h
    all_goals cases h
  · rw [e] at h
    refine ⟨h, fun e2 => ?_⟩
    rw [hdead (Prod.mk.inj e2).1 (Prod.mk.inj e2).2] at h
    cases h
theorem laneOwner_releaseLane_foldl {th : Thread} {t d p : Nat} (l : List (Nat × Nat)) (s : State)
    (h : (l.foldl (fun st k => st.releaseLane th k) s).laneOwner d p = .thread t) : s.laneOwner d p = .thread t ∧ (d, p) ∉ l := by
  induction l generalizing s with
  | nil => exact ⟨h, by simp⟩
  | cons k r ih =>
    obtain ⟨h1, hr⟩ := ih _ h
    obtain ⟨h2, hk⟩ := laneOwner_releaseLane h1
    exact ⟨h2, by simp [hk, hr]⟩

theorem mem_laneList {s : State} {core : Nat} {x : Nat × Nat × LaneOwner × Bool} : x ∈ s.laneList core ↔
    ∃ c ∈ s.gangCores core, ∃ p < 9, x = (c, p, s.laneOwner c p, bitOf (s.liveLg c) p) := by
  simp only [State.laneList, List.mem_flatMap, List.mem_map, List.mem_range, State.laneOwner, eq_comm]
theorem held_eq_zero {s : State} {core t : Nat} : s.held core t = 0 ↔ ∀ c ∈ s.gangCores core, ∀ p < 9, s.laneOwner c p ≠ .thread t := by
  rw [State.held, List.length_eq_zero_iff, List.filter_eq_nil_iff]
  simp only [mem_laneList, beq_iff_eq]
  exact ⟨fun h c hc p hp => h _ ⟨c, hc, p, hp, rfl⟩, fun h x ⟨c, hc, p, hp, e⟩ => e ▸ h c hc p hp⟩
theorem onlyCores_releaseLane (s : State) (th : Thread) (l : Nat × Nat) : OnlyCores s (s.releaseLane th l) := onlyCores_setLane ..
theorem onlyCores_releaseLanes (s : State) (h : Nat) : OnlyCores s (s.releaseLanes h) := by
  unfold State.releaseLanes
  extract_lets core t th mine s1
  have h1 : OnlyCores s s1 := onlyCores_foldl (fun st l => onlyCores_releaseLane st th l) mine s
  exact (h1.trans (onlyCores_setLat s1 core t _)).trans (onlyCores_shares _ core)
/-- The lane groups of a thread that are given up, with the state that is left then. -/
theorem releaseLanes_keeps (s : State) (h : Nat) : GangsKept s (s.releaseLanes h) ∧ (s.releaseLanes h).held (h / 4) (h % 4) = 0 := by
  unfold State.releaseLanes
  extract_lets core t th mine s1
  have hg : GangsKept s s1 := List.foldlRecOn (motive := GangsKept s) mine _ (.refl s) fun _ hk _ _ => hk.trans (gangsKept_releaseLane _ _ _)
  obtain ⟨hs, ho⟩ := shares_keeps (s1.setLat core t { s1.lat core t with req := 0, ask := false, share := 0 }) core
  have hall := (hg.trans (gangsKept_setLat s1 core t _)).trans hs
  refine ⟨hall, held_eq_zero.2 fun c hc p hp heq => ?_⟩
  rw [ho, State.laneOwner_setLat] at heq
  obtain ⟨hmine, hnot⟩ := laneOwner_releaseLane_foldl mine s heq
  rw [hall.gangCores] at hc
  refine hnot (List.mem_filterMap.2 ⟨_, mem_laneList.2 ⟨c, hc, p, hp, rfl⟩, ?_⟩)
  exact if_pos (beq_iff_eq.2 hmine)

/-! ## The whole release (19 R390) -/

/-- The current thread holds no chain, lane group, attachment or channel. -/
structure Unburdened (t : State) : Prop where
  slots : t.th.slots = []
  held : t.held t.core t.thr = 0
  att : t.att = none
  holds : ∀ c, t.holds c = false

theorem Unburdened.of_same {s t : State} (h : Unburdened s) (hc : t.cur = s.cur) (hk : t.cores = s.cores) (hu : t.units = s.units)
    (hs : t.th.slots = s.th.slots) : Unburdened t := by
  have hcore : t.core = s.core := by rw [State.core, hc, State.core]
  have hget (c : Nat) : t.getCore c = s.getCore c := by rw [State.getCore, hk, State.getCore]
  refine ⟨hs.trans h.slots, held_eq_zero.2 fun c hm p hp => ?_, ?_, fun c => ?_⟩
  · rw [State.gangCores, hcore, hget] at hm
    rw [State.laneOwner, hget, State.thr, hc]
    exact held_eq_zero.1 h.held c hm p hp
  · rw [← h.att, State.att, State.att, hcore, hc, State.attOf_of_units hu]
  · rw [← h.holds c, State.holds, State.holds, State.chan, State.chan, hcore, hget, hc]

theorem Unburdened.withTh {s : State} (h : Unburdened s) {th : Thread} (hs : th.slots = s.th.slots) :
    Unburdened { s with th := th } := h.of_same rfl rfl rfl hs
/-- A thread without slots, attachment and channels is without resources once its lane groups are released. -/
theorem unburdened_releaseLanes {s : State} {h : Nat} (hc : s.cur = h) (hs : s.slotKeys = []) (ha : s.att = none)
    (ho : ∀ c, ((s.getCore (h / 4)).channels.get c {}).owner ≠ some h) : Unburdened (s.releaseLanes h) := by
  subst hc
  have hl := onlyCores_releaseLanes s s.cur
  obtain ⟨hgang, hheld⟩ := releaseLanes_keeps s s.cur
  refine ⟨?_, ?_, ?_, fun c => ?_⟩
  · exact slots_eq_nil (hl.slotKeys.trans hs)
  · rw [State.core, State.thr, hl.cur]
    exact hheld
  · rw [State.att, State.core, hl.cur, State.attOf_of_units (by rw [hl.eq])]
    exact ha
  · rw [State.holds, State.chan, State.core, hl.cur, (hgang _).2.2]
    simpa using ho c
/-- What the release of a saved context leaves. -/
theorem unburdened_releaseContext {s : State} (hp : s.slotKeys.Pairwise (· < ·)) : Unburdened s.releaseContext := by
  have k1 := releaseKeeps_releaseChains s s.cur
  have k2 := onlyCores_releaseStreams (s.releaseChains s.cur) s.cur
  have k3 := contextKept_detach ((s.releaseChains s.cur).releaseStreams s.cur) s.cur
  have hslots : ((s.releaseChains s.cur).releaseStreams s.cur).slotKeys = [] := by
    rw [k2.slotKeys, State.slotKeys, slots_releaseChains hp, List.map_nil]
  have hcur := k2.cur.trans k1.cur
  have hkeys := (k3.keys (by rw [hslots]; exact .nil)).trans hslots
  have hatt := att_detach ((s.releaseChains s.cur).releaseStreams s.cur)
  rw [hcur] at hatt
  have hall := unburdened_releaseLanes (k3.cur.trans hcur) hkeys hatt fun c => by
    rw [State.getCore, State.detach_cores]
    exact owner_releaseStreams _ _ c
  unfold State.releaseContext
  extract_lets h s1
  have h1 : Unburdened s1 := hall
  clear_value s1
  exact h1.withTh rfl
theorem releaseKeeps_withTh {s : State} {th : Thread} (h : th.scalars = s.th.scalars) : ReleaseKeeps s { s with th := th } :=
  ⟨rfl, h, fun _ => State.readLoc_th ..⟩
theorem releaseKeeps_releaseContext (s : State) : ReleaseKeeps s s.releaseContext := by
  have k1 := releaseKeeps_releaseChains s s.cur
  have k2 := (onlyCores_releaseStreams (s.releaseChains s.cur) s.cur).released
  have k3 := (contextKept_detach ((s.releaseChains s.cur).releaseStreams s.cur) s.cur).released (sameBytes_detach _ _)
  have k4 := (onlyCores_releaseLanes (((s.releaseChains s.cur).releaseStreams s.cur).detach s.cur) s.cur).released
  unfold State.releaseContext
  extract_lets h s1
  have h1 : ReleaseKeeps s s1 := ((k1.trans k2).trans k3).trans k4
  clear_value s1
  exact h1.trans (releaseKeeps_withTh rfl)

/-! ## The threads that wait on a channel -/

/-- From `s` to `t` threads have been told to issue again, and nothing else has changed. -/
structure OnlyWakes (s t : State) : Prop where
  cur : t.cur = s.cur
  th : ∃ x, t.th = { s.th with status := x }
  cores : t.cores = s.cores
  units : t.units = s.units
  bytes : SameBytes s t

theorem OnlyWakes.refl (s : State) : OnlyWakes s s := ⟨rfl, ⟨_, rfl⟩, rfl, rfl, fun _ => rfl⟩
theorem OnlyWakes.trans {s t u : State} (h : OnlyWakes s t) (k : OnlyWakes t u) : OnlyWakes s u := by
  obtain ⟨x, hx⟩ := h.th
  obtain ⟨y, hy⟩ := k.th
  exact ⟨k.cur.trans h.cur, ⟨y, by rw [hy, hx]⟩, k.cores.trans h.cores, k.units.trans h.units, h.bytes.trans k.bytes⟩
theorem onlyWakes_setTh (s : State) (h : Nat) (x : Status) : OnlyWakes s (s.setTh h { s.getTh h with status := x }) := by
  refine ⟨State.setTh_cur .., ?_, State.setTh_cores .., State.setTh_units .., (sameStores_setTh ..).bytes⟩
  by_cases hc : h = s.cur
  · subst hc
    exact ⟨x, by rw [State.getTh_cur, State.setTh, if_pos rfl]⟩
  · exact ⟨s.th.status, by rw [State.setTh, if_neg hc]⟩
theorem onlyWakes_releaseChannelWaits (s : State) (core : Nat) : OnlyWakes s (s.releaseChannelWaits core) := by
  refine List.foldlRecOn (motive := OnlyWakes s) _ _ (.refl s) fun t ht i _ => ht.trans ?_
  dsimp only
  split
  · exact onlyWakes_setTh ..
  · exact onlyWakes_setTh ..
  · exact .refl t

end Sys2Proof.Machine


-- ==== The fixed part of a save area, read back (O20) ====

namespace Sys2Proof.Machine

/-! ## Doublewords of an image -/

theorem dword_eq (x off : Nat) : dword x off = x / 2 ^ (8 * off) % 2 ^ 64 := by rw [dword, bits, Nat.shiftRight_eq_div_pow]
theorem two_pow_mod_place {a b w : Nat} (h : a + w ≤ b) : 2 ^ b % (2 ^ a * 2 ^ w) = 0 := by
  rw [← pow_add]
  exact Nat.mod_eq_zero_of_dvd (pow_dvd_pow 2 h)
theorem dword_add_above (x v : Nat) {off o : Nat} (h : off + 8 ≤ o) : dword (x + v * 2 ^ (8 * o)) off = dword x off := by
  rw [dword_eq, dword_eq]
  exact add_field_above (two_pow_mod_place (by omega))
theorem dword_add_below {x v off o : Nat} (hv : v < 2 ^ 64) (h : o + 8 ≤ off) (hx : dword x o = 0) :
    dword (x + v * 2 ^ (8 * o)) off = dword x off := by
  rw [dword_eq] at hx
  rw [dword_eq, dword_eq, add_div_below hv (two_pow_mod_place (by omega)) (by positivity) hx]
theorem dword_add_same {x v o : Nat} (hv : v < 2 ^ 64) (hx : dword x o = 0) : dword (x + v * 2 ^ (8 * o)) o = v := by
  rw [dword_eq] at hx
  rw [dword_eq]
  exact add_field_same hv (by positivity) hx
/-- Summands above a doubleword do not change it. -/
theorem dword_foldl_above {α : Type} (v o : α → Nat) {off : Nat} (l : List α) (x : Nat) (h : ∀ a ∈ l, off + 8 ≤ o a) :
    dword (l.foldl (fun y a => y + v a * 2 ^ (8 * o a)) x) off = dword x off := by
  induction l generalizing x with
  | nil => rfl
  | cons a r ih =>
    exact (ih _ fun b hb => h b (List.mem_cons_of_mem _ hb)).trans (dword_add_above x (v a) (h a List.mem_cons_self))

/-- Fields of 8 bytes at distinct multiples of 8. -/
structure Aligned (l : Fields) : Prop where
  size : ∀ f ∈ l, f.2.1 = 8 ∧ f.1 % 8 = 0
  nodup : (l.map (·.1)).Nodup
/-- In the image of aligned fields each stands at its offset, and zero everywhere else. -/
theorem dword_image {l : Fields} (hl : Aligned l) :
    (∀ f ∈ l, dword (image l) f.1 = f.2.2 % 2 ^ 64) ∧ ∀ o, o % 8 = 0 → o ∉ l.map (·.1) → dword (image l) o = 0 := by
  induction l using List.reverseRecOn with
  | nil => exact ⟨by simp, fun o _ _ => by simp [image, dword, bits]⟩
  | append_singleton l f ih =>
    obtain ⟨hsize, hnodup⟩ := hl
    rw [List.map_append, List.nodup_append] at hnodup
    obtain ⟨hmem, hzero⟩ := ih ⟨fun g hg => hsize g (List.mem_append_left _ hg), hnodup.1⟩
    have hfresh : f.1 ∉ l.map (·.1) := fun h => hnodup.2.2 _ h f.1 (by simp) rfl
    obtain ⟨h8, hf⟩ := hsize f (by simp)
    have hfree := hzero f.1 hf hfresh
    have himage : image (l ++ [f]) = image l + f.2.2 % 2 ^ 64 * 2 ^ (8 * f.1) := by simp [image, List.foldl_append, h8]
    have hlt : f.2.2 % 2 ^ 64 < 2 ^ 64 := Nat.mod_lt _ (by positivity)
    have other {o : Nat} (ho : o % 8 = 0) (hne : o ≠ f.1) : dword (image (l ++ [f])) o = dword (image l) o := by
      rw [himage]
      rcases Nat.lt_or_gt_of_ne hne with h | h
      · exact dword_add_above _ _ (by omega)
      · exact dword_add_below hlt (by omega) hfree
    refine ⟨fun g hg => ?_, fun o ho hn => ?_⟩
    · rcases List.mem_append.1 hg with hg | hg
      · rw [other (hsize g (List.mem_append_left _ hg)).2 fun e => hfresh (List.mem_map.2 ⟨g, hg, e⟩)]
        exact hmem g hg
      · obtain rfl := List.mem_singleton.1 hg
        rw [himage]
        exact dword_add_same hlt hfree
    · rw [List.map_append, List.mem_append, not_or] at hn
      rw [other ho fun e => hn.2 (by simp [e]), hzero o ho hn.1]

/-! ## The places of the sections (19 R391) -/

theorem sectionOffsets_ge (l : List Nat) (off : Nat) : ∀ o ∈ (sectionOffsets l off).1, off ≤ o := by
  induction l generalizing off with
  | nil => simp [sectionOffsets]
  | cons n r ih =>
    intro o ho
    rcases List.mem_cons.1 ho with rfl | h
    · exact Nat.le_refl _
    · exact (Nat.le_add_right _ _).trans (ih _ o h)
/-- The registers of the fixed part: the fields below its directory. -/
def State.registerFields (s : State) (size : Nat) : Fields :=
  let t := s.th
  let x := s.lat s.core s.thr
  [ (0, 8, 1 + s.att.isSome.toNat * 2 ^ 8), (8, 8, size),
    (0x40, 8, t.sup.cause.toNat), (0x48, 8, t.sup.epc.toNat), (0x50, 8, t.sup.fpc.toNat), (0x58, 8, t.sup.tval.toNat),
    (0x60, 8, t.sup.info.toNat), (0x68, 8, t.ptroot.toNat),
    (0x180, 8, t.estart), (0x188, 8, t.fflags), (0x190, 8, t.frm), (0x198, 8, t.srseed), (0x1A0, 8, t.qthr), (0x1A8, 8, t.mvl),
    (0x1B0, 8, t.mprog), (0x1B8, 8, t.hwfail), (0x1C0, 8, t.emvec.toNat), (0x1C8, 8, t.empc.toNat),
    (0x1D0, 8, t.eminst.toNat + t.em.toNat * 2 ^ 32), (0x1D8, 8, t.tkcur.toNat),
    (0x1E0, 8, x.req + s.held s.core s.thr * 2 ^ 16 + x.lim * 2 ^ 24),
    (0x1E8, 8, t.rmvAck * 2 ^ 32 + t.rmvCur), (0x1F0, 8, t.rmLeft * 2 ^ 32 + t.rmAllow) ]
  ++ (List.range 31).map fun k => (0x80 + 8 * k, 8, s.rdN (BitVec.ofNat 5 (k + 1)))
/-- Those above: the directory, the channels and the rings. -/
def State.upperFields (s : State) (lens : List Nat) : Fields :=
  ((lens.zip (sectionOffsets lens 0x1000).1).zipIdx.flatMap fun p => [(0x200 + 16 * p.2, 8, p.1.2), (0x208 + 16 * p.2, 8, p.1.1)])
    ++ ((List.range 16).flatMap s.channelRecord ++ (List.range 8).flatMap s.ringRecord)
theorem fixedPart_eq (s : State) (lens : List Nat) :
    s.fixedPart lens = s.registerFields (sectionOffsets lens 0x1000).2 ++ s.upperFields lens := by
  simp only [State.fixedPart, State.registerFields, State.upperFields, List.append_assoc]

theorem aligned_registerFields (s : State) (size : Nat) : Aligned (s.registerFields size) where
  size := by
    rw [State.registerFields, List.forall_mem_append]
    refine ⟨by simp, fun f hf => ?_⟩
    obtain ⟨k, -, rfl⟩ := List.mem_map.1 hf
    exact ⟨rfl, by omega⟩
  nodup := by
    rw [State.registerFields, List.map_append, List.map_map]
    exact (by decide : ([0, 8, 0x40, 0x48, 0x50, 0x58, 0x60, 0x68, 0x180, 0x188, 0x190, 0x198, 0x1A0, 0x1A8, 0x1B0, 0x1B8, 0x1C0, 0x1C8, 0x1D0, 0x1D8,
      0x1E0, 0x1E8, 0x1F0] ++ (List.range 31).map fun k => 0x80 + 8 * k : List Nat).Nodup)
theorem channelRecord_above (s : State) (c : Nat) : ∀ f ∈ s.channelRecord c, 0x200 ≤ f.1 := by
  intro f hf
  unfold State.channelRecord at hf
  dsimp only at hf
  split at hf <;> simp only [List.mem_append, List.mem_cons, List.not_mem_nil, or_false, List.mem_map, List.mem_range] at hf
  · rcases hf with (rfl | rfl | rfl | rfl | rfl) | ⟨k, -, rfl⟩
    all_goals dsimp only; omega
  · obtain ⟨k, -, rfl⟩ := hf
    dsimp only; omega
theorem ringRecord_above (s : State) (n : Nat) : ∀ f ∈ s.ringRecord n, 0x200 ≤ f.1 := by
  intro f hf
  unfold State.ringRecord at hf
  dsimp only at hf
  split at hf
  · split at hf
    · simp only [List.mem_append, List.mem_cons, List.not_mem_nil, or_false, List.mem_map, List.mem_range] at hf
      rcases hf with (rfl | rfl | rfl) | ⟨k, -, rfl⟩
      all_goals dsimp only; omega
    · cases hf
  · cases hf
theorem upperFields_above (s : State) (lens : List Nat) : ∀ f ∈ s.upperFields lens, 0x200 ≤ f.1 := by
  intro f hf
  simp only [State.upperFields, List.mem_append, List.mem_flatMap] at hf
  rcases hf with ⟨p, -, hp⟩ | ⟨c, -, hc⟩ | ⟨n, -, hn⟩
  · simp only [List.mem_cons, List.not_mem_nil, or_false] at hp
    rcases hp with rfl | rfl
    all_goals dsimp only; omega
  · exact channelRecord_above s c f hc
  · exact ringRecord_above s n f hn

/-- What stands below the directory of a save area: the registers of the fixed part. -/
theorem dword_areaImage (s : State) {off v : Nat} (h : off + 8 ≤ 0x200)
    (hf : (off, 8, v) ∈ s.registerFields (sectionOffsets (s.sections.map (·.2)) 0x1000).2) : dword s.areaImage.1 off = v % 2 ^ 64 := by
  have hsec : dword s.areaImage.1 off = dword (image (s.fixedPart (s.sections.map (·.2)))) off :=
    dword_foldl_above (fun p : (Nat × Nat) × Nat => p.1.1) (fun p => p.2) _ _ fun p hp => by
      have := sectionOffsets_ge _ _ p.2 (List.of_mem_zip hp).2
      omega
  have hup : dword (image (s.fixedPart (s.sections.map (·.2)))) off
      = dword (image (s.registerFields (sectionOffsets (s.sections.map (·.2)) 0x1000).2)) off := by
    rw [fixedPart_eq, image, List.foldl_append]
    exact dword_foldl_above (fun f : Nat × Nat × Nat => f.2.2 % 2 ^ (8 * f.2.1)) (fun f => f.1) _ _ fun f hf => by
      have := upperFields_above s _ f hf
      omega
  rw [hsec, hup]
  exact (dword_image (aligned_registerFields s _)).1 _ hf
theorem dword_areaImage_word (s : State) {off : Nat} {x : Word} (h : off + 8 ≤ 0x200)
    (hf : (off, 8, x.toNat) ∈ s.registerFields (sectionOffsets (s.sections.map (·.2)) 0x1000).2) : dword s.areaImage.1 off = x.toNat := by
  rw [dword_areaImage s h hf, Nat.mod_eq_of_lt x.isLt]
/-- The general registers stand from 0x80 on, g1 first. -/
theorem dword_areaImage_reg (s : State) {r : BitVec 5} (hr : r ≠ 0) : dword s.areaImage.1 (0x78 + 8 * r.toNat) = (s.rd r).toNat := by
  have hpos : r.toNat ≠ 0 := fun e => hr (BitVec.eq_of_toNat_eq e)
  have hlt := r.isLt
  refine dword_areaImage_word s (by omega) (List.mem_append_right _ (List.mem_map.2 ⟨r.toNat - 1, List.mem_range.2 (by omega), ?_⟩))
  rw [show r.toNat - 1 + 1 = r.toNat by omega, BitVec.ofNat_toNat, BitVec.setWidth_eq, State.rdN]
  exact Prod.ext (by dsimp only; omega) rfl

end Sys2Proof.Machine


-- ==== CTXSV and CTXLD (O20) ====

namespace Sys2Proof.Machine

/-! ## CTXSV (04 R127, 19 R390) -/

theorem exec_ctxsv {s u : State} {a : BitVec 5} {l : List (Nat × Loc)} (hl : s.th.level ≠ .user) (ha : (s.rd a).toNat % 4096 = 0)
    (hu : s.drainContext.saveLocs (s.rd a).toNat s.drainContext.areaImage.2 .write = .ok (l, u)) :
    exec (.ctxsv a) s = .next ((u.writeArea l s.drainContext.areaImage.1).releaseContext.releaseChannelWaits s.core).advance := by
  change execCtxsv a s = _
  have ha' : s.rdN a % 4096 = 0 := ha
  rw [execCtxsv, privileged_above _ hl, if_neg (not_not.2 ha')]
  rw [← (contextKept_drainContext s).rd a] at hu
  dsimp only
  rw [State.rdN, hu]
  rfl
theorem releaseContext_th (s : State) : ∃ x : Thread, s.releaseContext.th = { x with
    vl := 0, vlmax := 0, vrlen := 0, v := Vector.replicate 32 0, m := Vector.replicate 8 0, streamFaults := [], unseen := [], fills := []
    saved := true } := ⟨_, rfl⟩
/-- The context that a CTXSV leaves behind, from the state `z` in which its resources have been released. -/
theorem contextSaved {s w z : State} (hz : ReleaseKeeps w z) (hs : w.th.scalars = s.th.scalars) (hfree : Unburdened z)
    (hx : ∃ x : Thread, z.th = { x with
      vl := 0, vlmax := 0, vrlen := 0, v := Vector.replicate 32 0, m := Vector.replicate 8 0, streamFaults := [], unseen := [], fills := []
      saved := true }) (core : Nat) :
    let t := (z.releaseChannelWaits core).advance
    Unburdened t ∧ SameBytes w t ∧ t.th.scalars = { s.th.scalars with pc := s.th.pc + 4 } ∧ t.th.saved = true
      ∧ (t.th.vl = 0 ∧ t.th.vlmax = 0 ∧ t.th.vrlen = 0) ∧ (∀ r, t.vreg r = 0) ∧ ∀ r, t.mreg r = 0 := by
  intro t
  have hwake := onlyWakes_releaseChannelWaits z core
  obtain ⟨x, hx⟩ := hx
  obtain ⟨y, hy⟩ := hwake.th
  have hth : t.th = { z.th with status := y, pc := z.th.pc + 4, cv := none, reissue := false } := by
    change ({ (z.releaseChannelWaits core).th with pc := (z.releaseChannelWaits core).th.pc + 4, cv := none, reissue := false } : Thread) = _
    rw [hy]
  have hscalars : z.th.scalars = s.th.scalars := hz.scalars.trans hs
  refine ⟨?_, hz.bytes.trans (hwake.bytes.trans fun l => State.readLoc_th ..), ?_, ?_, ?_, fun r => ?_, fun r => ?_⟩
  · exact hfree.of_same hwake.cur hwake.cores hwake.units (by rw [hth])
  · have hpc : z.th.pc = s.th.pc := congrArg Thread.Scalars.pc hscalars
    rw [← hscalars, hth, ← hpc]
    rfl
  · rw [hth, hx]
  · rw [hth, hx]
    exact ⟨rfl, rfl, rfl⟩
  · rw [State.vreg, hth, hx]
    exact Vector.getElem_replicate ..
  · rw [State.mreg, hth, hx]
    simp [Nat.mod_one]

/-! ## What the steps of CTXLD leave of the thread's registers (19 R397) -/

theorem OnlyCores.scalars {s t : State} (h : OnlyCores s t) : t.th.scalars = s.th.scalars := h.context.scalars
theorem OnlyCores.ite {s t u : State} {c : Prop} [Decidable c] (ht : OnlyCores s t) (hu : OnlyCores s u) : OnlyCores s (if c then t else u) := by
  split
  · exact ht
  · exact hu
theorem onlyCores_grant (s : State) (r : Nat) : OnlyCores s (s.grant r).1 := by
  unfold State.grant
  extract_lets core t x r1 gone s0 s1 mine share free avail s2
  have h1 : OnlyCores s s1 :=
    ((onlyCores_foldl (fun st (l : Nat × Nat) => onlyCores_setLane st l.1 l.2 .dead) gone s).trans (onlyCores_setLat s0 core t _)).trans
      (onlyCores_shares _ core)
  clear_value s1
  refine h1.trans (.ite ?_ ?_)
  · exact onlyCores_foldl (fun st l => onlyCores_releaseLane st st.th l) _ s1
  · exact onlyCores_foldl (fun st (l : Nat × Nat) => onlyCores_setLane st l.1 l.2 (.thread t)) _ s1
theorem onlyCores_restoreLanes {s t : State} {f : Nat} (h : s.restoreLanes f = some t) : OnlyCores s t := by
  unfold State.restoreLanes at h
  extract_lets w k held lat s1 s2 g at h
  have h1 : OnlyCores s s1 := onlyCores_setLat s _ _ _
  clear_value s1
  split at h
  · split at h
    · exact Option.some.inj h ▸ h1.trans (onlyCores_releaseLanes s1 s.cur)
    · cases h
  · split at h
    · cases h
    · exact Option.some.inj h ▸ h1.trans (onlyCores_grant s1 _)

theorem scalars_fillRegs (s : State) (x : Nat) : (s.fillRegs x).th.scalars = s.th.scalars := by
  have pairs {α : Type} {f : Nat × State → α → Nat × State} (hf : ∀ p a, (f p a).2.th.scalars = p.2.th.scalars) (l : List α)
      (p : Nat × State) : (l.foldl f p).2.th.scalars = p.2.th.scalars :=
    List.foldlRecOn (motive := fun q : Nat × State => q.2.th.scalars = p.2.th.scalars) l f rfl fun q hq a _ => (hf q a).trans hq
  unfold State.fillRegs
  dsimp only
  refine (pairs (fun p r => ?_) _ _).trans (pairs (fun p r => ?_) _ _)
  · rfl
  · rfl
/-- Those registers with the values that a save area gives them. -/
def Thread.Scalars.load (x : Thread.Scalars) (f : Nat) : Thread.Scalars :=
  { x with
    g := Vector.ofFn fun k => if k.val = 0 then 0 else BitVec.ofNat 64 (dword f (0x78 + 8 * k.val))
    sup := { x.sup with
      cause := BitVec.ofNat 64 (dword f 0x40), epc := BitVec.ofNat 64 (dword f 0x48), fpc := BitVec.ofNat 64 (dword f 0x50)
      tval := BitVec.ofNat 64 (dword f 0x58), info := BitVec.ofNat 64 (dword f 0x60) }
    ptroot := BitVec.ofNat 64 (dword f 0x68) }
theorem scalars_restoreRegs (s : State) (f : Nat) : (s.restoreRegs f).th.scalars = s.th.scalars.load f := rfl
/-- Step 3 gives the thread the registers of the area. -/
theorem scalars_restoreState {s t : State} {x : Saved} (h : s.restoreState x = some t) :
    ∃ ew, t.th.scalars = { s.th.scalars with ew := ew }.load x.fixed := by
  unfold State.restoreState at h
  extract_lets hd ew old s1 s2 filled at h
  have hs := scalars_fillRegs s1 x.vreg
  have h2 : s2.th.scalars = (s1.fillRegs x.vreg).th.scalars.load x.fixed := scalars_restoreRegs _ _
  rw [hs] at h2
  have h1 : s1.th.scalars = { s.th.scalars with ew := ew } := rfl
  rw [h1] at h2
  clear_value s2
  split at h
  · cases h
  · obtain rfl := Option.some.inj h
    exact ⟨ew, h2⟩

theorem th_foldl {α : Type} {f : State → α → State} (hf : ∀ t a, (f t a).th = t.th) (l : List α) (s : State) : (l.foldl f s).th = s.th :=
  List.foldlRecOn (motive := fun t : State => t.th = s.th) l f rfl fun t ht a _ => (hf t a).trans ht
theorem th_loadImage (s : State) (core : Nat) (t : Attachment) (x : Nat) : (s.loadImage core t x).th = s.th := by
  unfold State.loadImage
  refine (th_foldl (fun u k => th_foldl (fun v i => ?_) _ u) _ _).trans ?_
  · rfl
  · rfl
theorem scalars_attachRows (s : State) (g : Nat) : (s.attachRows g).th.scalars = s.th.scalars := by
  unfold State.attachRows State.zeroTile
  refine (congrArg Thread.scalars (th_foldl (fun u k => th_foldl (fun v i => ?_) _ u) _ _)).trans ?_
  · rfl
  · rfl
theorem scalars_attach (s : State) (r : Nat) : (s.attach r).1.th.scalars = s.th.scalars := by
  unfold State.attach
  extract_lets core r1 g
  split
  · rfl
  · exact scalars_attachRows s g
theorem scalars_restoreMatrix {s t : State} {x : Saved} (h : s.restoreMatrix x = some t) : t.th.scalars = s.th.scalars := by
  unfold State.restoreMatrix at h
  dsimp only at h
  split at h
  · split at h
    · cases h
    · obtain ⟨y, -, rfl⟩ := Option.map_eq_some_iff.1 h
      rw [th_loadImage, scalars_attach]
  · cases h
    rfl

theorem th_restoreChannel {s t : State} {f c : Nat} {xs : List (Nat × Xfer)} (h : s.restoreChannel f xs c = .ok t) : t.th = s.th := by
  unfold State.restoreChannel at h
  dsimp only at h
  repeat' split at h
  all_goals cases h
  all_goals rfl
/-- What a check that passes gives. -/
theorem eq_of_checked {α ε : Type} {c : Prop} [Decidable c] {e : ε} {a b : α} (h : (if c then Except.error e else .ok b) = .ok a) : a = b := by
  split at h
  · cases h
  · exact (Except.ok.inj h).symm
theorem th_restoreRing {s t : State} {f n : Nat} (h : s.restoreRing f n = .ok t) : t.th = s.th := by
  unfold State.restoreRing at h
  dsimp only at h
  split at h
  · rw [eq_of_checked h]
    rfl
  · cases h
    rfl
theorem ok_of_toOption {α ε : Type} {r : Except ε α} {a : α} (h : r.toOption = some a) : r = .ok a := by
  cases r with
  | error e => cases h
  | ok b => exact congrArg _ (Option.some.inj h)
theorem th_foldlM {α ε : Type} {f : State → α → Except ε State} (hf : ∀ {s a t}, f s a = .ok t → t.th = s.th) (l : List α) {s t : State}
    (h : l.foldlM f s = .ok t) : t.th = s.th := by
  induction l generalizing s with
  | nil => cases h; rfl
  | cons a r ih =>
    rw [List.foldlM_cons] at h
    cases hu : f s a with
    | error e => rw [hu] at h; cases h
    | ok u =>
      rw [hu] at h
      exact (ih h).trans (hf hu)
/-- What a computation that succeeds has bound. -/
theorem exists_of_bind_ok {α β ε : Type} {r : Except ε α} {f : α → Except ε β} {b : β} (h : r >>= f = .ok b) :
    ∃ a, r = .ok a ∧ f a = .ok b := by
  cases r with
  | error e => cases h
  | ok a => exact ⟨a, rfl, h⟩
theorem th_restoreStreams {s t : State} {x : Saved} (h : s.restoreStreams x = .ok t) : t.th = s.th := by
  obtain ⟨xs, -, h⟩ := exists_of_bind_ok h
  obtain ⟨s1, h1, h⟩ := exists_of_bind_ok h
  obtain ⟨s2, h2, h⟩ := exists_of_bind_ok h
  rw [eq_of_checked h]
  exact (th_foldlM th_restoreRing _ h2).trans (th_foldlM th_restoreChannel _ h1)
theorem th_refill {s t : State} {x : Nat × Nat} (h : s.refill x = .ok t) : t.th = s.th := by
  rw [eq_of_checked h]
  rfl
theorem scalars_restoreChains {s t : State} {x : Saved} (h : s.restoreChains x = .ok t) : t.th.scalars = s.th.scalars := by
  obtain ⟨cores, -, h⟩ := exists_of_bind_ok h
  obtain ⟨s1, h1, h⟩ := exists_of_bind_ok h
  obtain rfl := Except.ok.inj h
  have e := th_foldlM th_refill _ h1
  rw [← e]
  rfl
/-- Steps 2 to 6 together. -/
theorem scalars_restored {s t : State} {x : Saved} (h : s.restored x = some t) :
    ∃ ew, t.th.scalars = { s.th.scalars with ew := ew }.load x.fixed := by
  obtain ⟨s3, h3, h⟩ := Option.bind_eq_some_iff.1 h
  obtain ⟨s4, h4, h⟩ := Option.bind_eq_some_iff.1 h
  obtain ⟨s5, h5, h⟩ := Option.bind_eq_some_iff.1 h
  obtain ⟨s6, h6, h⟩ := Option.bind_eq_some_iff.1 h
  obtain ⟨ew, e⟩ := scalars_restoreState h4
  refine ⟨ew, ?_⟩
  rw [scalars_restoreChains (ok_of_toOption h), th_restoreStreams (ok_of_toOption h6), scalars_restoreMatrix h5, e,
    (onlyCores_restoreLanes h3).scalars, (releaseKeeps_releaseChains s s.cur).scalars]

/-! ## CTXLD (04 R127, 19 R397) -/

theorem exec_ctxld {s u v t : State} {a : BitVec 5} {f img : Nat} {x : Saved} (hl : s.th.level ≠ .user) (ha : (s.rd a).toNat % 4096 = 0)
    (hf : s.loadArea (s.rd a).toNat 4096 = .ok (f, u)) (hsize : 4096 ≤ dword f 8) (h64 : dword f 8 % 64 = 0) (hdir : (directory f).isSome = true)
    (himg : u.loadArea (s.rd a).toNat (dword f 8) = .ok (img, v)) (hx : Saved.parse img = some x) (ht : v.restored x = some t) :
    exec (.ctxld a) s = .next t.restoreVersion.advance := by
  obtain ⟨s3, h3, ht⟩ := Option.bind_eq_some_iff.1 ht
  obtain ⟨s4, h4, ht⟩ := Option.bind_eq_some_iff.1 ht
  obtain ⟨s5, h5, ht⟩ := Option.bind_eq_some_iff.1 ht
  obtain ⟨s6, h6, ht⟩ := Option.bind_eq_some_iff.1 ht
  have ha' : s.rdN a % 4096 = 0 := ha
  change execCtxld a s = _
  rw [execCtxld, privileged_above _ hl, if_neg (not_not.2 ha')]
  rw [State.rdN, hf]
  change finish (if dword f 8 < 4096 ∨ dword f 8 % 64 ≠ 0 ∨ (directory f).isNone then _ else _) = _
  rw [if_neg (by simp [h64, Option.isNone_iff_eq_none, Option.isSome_iff_ne_none.1 hdir]; omega), himg]
  change finish (match Saved.parse img with | none => _ | some x => _) = _
  rw [hx]
  dsimp only
  rw [h3]
  dsimp only
  rw [h4]
  dsimp only
  rw [h5]
  dsimp only
  rw [ok_of_toOption h6]
  dsimp only
  rw [ok_of_toOption ht]
  rfl
theorem restoreVersion_th (s : State) : ∃ spend rmLeft, s.restoreVersion.th = { s.th with
    rmvCur := s.rmap.ver, saved := false, restored := some s.th.level, spend := spend, rmLeft := rmLeft } := by
  unfold State.restoreVersion
  dsimp only
  split
  · exact ⟨_, _, rfl⟩
  · exact ⟨_, _, rfl⟩

end Sys2Proof.Machine


-- ==== A context saved and loaded (O20) ====

namespace Sys2Proof.Machine

/-- The save area of a CTXSV holds the registers of the thread whose engines have stopped. -/
theorem savedRegisters {s : State} :
    let img := s.areaImage.1
    (∀ r : BitVec 5, r ≠ 0 → dword img (0x78 + 8 * r.toNat) = (s.rd r).toNat) ∧ dword img 0x40 = s.th.sup.cause.toNat
      ∧ dword img 0x48 = s.th.sup.epc.toNat ∧ dword img 0x50 = s.th.sup.fpc.toNat ∧ dword img 0x58 = s.th.sup.tval.toNat
      ∧ dword img 0x60 = s.th.sup.info.toNat ∧ dword img 0x68 = s.th.ptroot.toNat := by
  refine ⟨fun r hr => dword_areaImage_reg s hr, ?_, ?_, ?_, ?_, ?_, ?_⟩
  all_goals exact dword_areaImage_word s (by decide) (by simp [State.registerFields])

/-- What a CTXSV leaves of the thread, and the area that it has written. -/
theorem ctxsv_saves {s u : State} {a : BitVec 5} {l : List (Nat × Loc)} (hl : s.th.level ≠ .user) (ha : (s.rd a).toNat % 4096 = 0)
    (hwf : s.drainContext.wf = true) (hkeys : (s.th.slots.map (·.1)).Pairwise (· < ·))
    (hu : s.drainContext.saveLocs (s.rd a).toNat s.drainContext.areaImage.2 .write = .ok (l, u)) :
    ∃ t, exec (.ctxsv a) s = .next t ∧ Unburdened t ∧ t.th.scalars = { s.th.scalars with pc := s.th.pc + 4 } ∧ t.th.saved = true
      ∧ (t.th.vl = 0 ∧ t.th.vlmax = 0 ∧ t.th.vrlen = 0) ∧ (∀ r, t.vreg r = 0) ∧ (∀ r, t.mreg r = 0)
      ∧ Scattered s.drainContext t (List.range l.length) (pieceAt l) 8
          (fun j => s.drainContext.areaImage.1 / 2 ^ (64 * lastAt (List.range l.length) (pieceAt l) j) % 2 ^ 64) := by
  have hd := contextKept_drainContext s
  have hloc := onlyCores_saveLocs hu
  have hw := (hd.trans hloc.context).trans (contextKept_writeArea u l s.drainContext.areaImage.1)
  obtain ⟨hfree, hbytes, hscalars, hsaved, hvl, hv, hm⟩ := contextSaved (releaseKeeps_releaseContext _) hw.scalars
    (unburdened_releaseContext ((hw.keys hkeys).symm ▸ hkeys)) (releaseContext_th _) s.core
  refine ⟨_, exec_ctxsv hl ha hu, hfree, hscalars, hsaved, hvl, hv, hm, ?_⟩
  have huwf : u.wf = true := (State.wf_saveLocs hwf _ _ _).ok_of hu
  exact (scattered_writeArea u l _ huwf).of_same hloc.bytes (by rw [hloc.eq]) (by rw [hloc.eq]) hbytes

/-- A general register of a context that has been loaded is that of the area. -/
theorem rd_of_load {t : State} {y : Thread.Scalars} {f : Nat} (h : t.th.g = (y.load f).g) {r : BitVec 5} (hr : r ≠ 0) :
    t.rd r = BitVec.ofNat 64 (dword f (0x78 + 8 * r.toNat)) := by
  have hpos : r.toNat ≠ 0 := fun e => hr (BitVec.eq_of_toNat_eq e)
  rw [State.rd, if_neg hr, h]
  exact (Vector.getElem_ofFn _).trans (if_neg hpos)
/-- A context that is loaded has the registers of the area, and goes on behind the CTXLD. -/
theorem ctxld_restores {s u v t : State} {a : BitVec 5} {f img : Nat} {x : Saved} (hl : s.th.level ≠ .user) (ha : (s.rd a).toNat % 4096 = 0)
    (hf : s.loadArea (s.rd a).toNat 4096 = .ok (f, u)) (hsize : 4096 ≤ dword f 8) (h64 : dword f 8 % 64 = 0) (hdir : (directory f).isSome = true)
    (himg : u.loadArea (s.rd a).toNat (dword f 8) = .ok (img, v)) (hx : Saved.parse img = some x) (ht : v.restored x = some t) :
    ∃ t', exec (.ctxld a) s = .next t' ∧ t'.th.saved = false ∧ t'.th.rmvCur = t.rmap.ver
      ∧ ∃ ew, t'.th.scalars = { s.th.scalars with pc := s.th.pc + 4, ew := ew }.load x.fixed := by
  have hv : v.th.scalars = s.th.scalars := (contextKept_loadArea himg).scalars.trans (contextKept_loadArea hf).scalars
  obtain ⟨ew, hscalars⟩ := scalars_restored ht
  rw [hv] at hscalars
  obtain ⟨spend, rmLeft, hth⟩ := restoreVersion_th t
  have hpc : t.th.pc = s.th.pc := congrArg Thread.Scalars.pc hscalars
  have hafter : t.restoreVersion.advance.th.scalars = { t.th.scalars with pc := t.th.pc + 4 } := by
    rw [State.advance, hth]
    rfl
  refine ⟨_, exec_ctxld hl ha hf hsize h64 hdir himg hx ht, ?_, ?_, ew, ?_⟩
  · rw [State.advance, hth]
  · rw [State.advance, hth]
  · rw [hafter, hscalars, hpc]
    rfl

/-- Settles O20: CTXSV by the release of each resource in turn and the last store at each place of the area, CTXLD by what every step of the
load leaves of the registers that the area has given. -/
theorem contextSaveAndLoad : Obligations.ContextSaveAndLoad := by
  unfold Obligations.ContextSaveAndLoad
  refine ⟨fun s a l u hl ha hwf hkeys hu => ?_, fun s u v t a f img x hl ha hf hsize h64 hdir himg hx ht => ?_⟩
  · obtain ⟨t, hexec, ⟨hslots, hheld, hatt, hholds⟩, hscalars, hsaved, ⟨hvl, hvlmax, hvrlen⟩, hv, hm, hscattered⟩ :=
      ctxsv_saves hl ha hwf hkeys hu
    have hd := contextKept_drainContext s
    obtain ⟨hregs, hcause, hepc, hfpc, htval, hinfo, hroot⟩ := savedRegisters (s := s.drainContext)
    have hsup : s.drainContext.th.sup = s.th.sup := congrArg Thread.Scalars.sup hd.scalars
    have hptroot : s.drainContext.th.ptroot = s.th.ptroot := congrArg Thread.Scalars.ptroot hd.scalars
    rw [hsup] at hcause hepc hfpc htval hinfo
    rw [hptroot] at hroot
    exact ⟨t, hexec, hvl, hvlmax, hvrlen, hv, hm, hsaved, congrArg Thread.Scalars.g hscalars, congrArg Thread.Scalars.pc hscalars,
      congrArg Thread.Scalars.level hscalars, congrArg Thread.Scalars.sup hscalars, congrArg Thread.Scalars.fw hscalars,
      congrArg Thread.Scalars.ew hscalars, hslots, hheld, hatt, hholds, hscattered, fun r hr => (hregs r hr).trans (by rw [hd.rd]), hcause, hepc,
      hfpc, htval, hinfo, hroot⟩
  · obtain ⟨t', hexec, hsaved, hver, ew, hscalars⟩ := ctxld_restores hl ha hf hsize h64 hdir himg hx ht
    exact ⟨t', hexec, congrArg Thread.Scalars.level hscalars, congrArg Thread.Scalars.pc hscalars, hsaved,
      fun r hr => rd_of_load (congrArg Thread.Scalars.g hscalars) hr, congrArg Thread.Scalars.sup hscalars,
      congrArg Thread.Scalars.ptroot hscalars, hver⟩

end Sys2Proof.Machine
